-- ==== Sys2Proof/Word.lean ====
section
/-! DEFINITION. The word types of the K128: 32-bit words, octets and general-register numbers (R3, R111). -/
namespace Sys2Proof

/-- A 32-bit word: a register, a strait word, a queue word (R22, R82). -/
abbrev Word := BitVec 32

/-- An octet (R3). -/
abbrev Octet := BitVec 8

/-- The number of a general register w0 to w15 (R111). -/
abbrev Reg := BitVec 4

end Sys2Proof
end

