-- ==== Sys2Proof/Syntax.lean ====
section
/-! DEFINITION. The commands of the K128: one constructor for each row of spec/opcode_table.json, in its order.
A core instruction takes an Issue (which core, and whether every must-be-zero field of its encoding is 0).
An event takes what happens outside the die (a voltage, samples, a frame) as its operands. -/
namespace Sys2Proof

/-- The two Prolu cores (R110). -/
inductive CoreId where
  | choir | nave
  deriving DecidableEq, Repr

/-- The islands of R12. -/
inductive Island where
  | crypt | choirCore | naveCore | isle (n : Fin 16) | bank (b : Fin 4) | quantity | queue | ledger | sacristy
  | belfry | outputs | service
  deriving DecidableEq, Repr

/-- The issue of one instruction: the core, and whether every reserved or must-be-zero field is 0 (R116). -/
structure Issue where
  core : CoreId
  zero : Bool
  deriving DecidableEq, Repr

/-- One digitiser sample: 12-bit two's complement, and whether it clipped (R191). -/
structure Sample where
  value : BitVec 12
  clip : Bool
  deriving DecidableEq, Repr

/-- One cell of a tile: tile number T, row and column 0 to 271 (R207). -/
structure CellAt where
  tile : Fin 32
  row : Fin 256
  col : Fin 272
  deriving DecidableEq, Repr

/-- One row of a tile (R227). -/
structure RowAt where
  tile : Fin 32
  row : Fin 256
  deriving DecidableEq, Repr

/-- What the radio brings with a frame: the octets of the PSDU without FCS, and what the modem measured (R361, R368). -/
structure RxFrame where
  octets : List Octet
  fcsGood : Bool
  rssi : BitVec 8
  lqi : BitVec 8
  channel : BitVec 7
  /-- start of the frame on the port's own slot timer, in microseconds (R370) -/
  start : Nat
  deriving DecidableEq, Repr

/-- What a frame of the service loader carries (R357); its wire format is in another guide. -/
inductive LoaderFrame where
  | image (addr : Word) (lo hi : Word)
  | verifyKey (key : Fin 4) (x y : BitVec 256)
  deriving DecidableEq, Repr

/-- A resource that a command's completion names: the flash of a core or the configuration flash. -/
inductive FlashUnit where
  | core (c : CoreId) | config
  deriving DecidableEq, Repr

/-- The halves of the sacristy (R344, R346). -/
inductive SacrHalf where
  | choir | nave
  deriving DecidableEq, Repr

/-- What an evaluation meets in its tiles: the cells read wrong at the first attempt, the rows that a scan after a failed
residue check finds drifted, and the cells read wrong at the repeat (R225, R226). -/
structure Upsets where
  first : List CellAt
  drifted : List RowAt
  again : List CellAt
  deriving DecidableEq, Repr, Inhabited

/-- The commands. Register numbers are rd, ra, rb in the spec's order; c is the core that makes an access. -/
inductive Instr where
  | registerWrite (c : CoreId) (addr val : Word)
  | rzRead (c : CoreId) (addr : Word)
  | straitWordReceive (src dst : Island) (tag : BitVec 4) (word : Word) (parity : Bool)
  | straitReopen (src dst : Island)
  | domainFall (d : CoreId)
  | domainOff (d : CoreId)
  | vmainLoss (vmain vbak : Nat)
  | returnToMain (vmain : Nat)
  | vbakLow (vbak : Nat)
  | holdSurvival (vmain vbak : Nat)
  | holdExpiryCryptReset (vmain vbak : Nat)
  | cryptPowerOn (vmain vbak : Nat)
  | measnow (c : CoreId) (val : Word)
  | vmeasPeriodic
  | vpulLevelWrite (c : CoreId) (val : Word)
  | vpulInBand (vpul : Nat)
  | vpulUndervoltFault (vpul : Nat)
  | vpulCurrentLimitFault (vpul : Nat)
  | vpulFaultClear (c : CoreId) (val : Word)
  | queueDeliver (q : Fin 256)
  | cloisterScrub (q : Fin 256) (errors : List (Nat × Bool))
  | queueDescWrite (c : CoreId) (q : Fin 256) (val : Word)
  | navecapWrite (c : CoreId) (val : Word)
  | queueRiseDone (q : Fin 256)
  | queueFallDone (q : Fin 256)
  | add (i : Issue) (rd ra rb : Reg)
  | sub (i : Issue) (rd ra rb : Reg)
  | adc (i : Issue) (rd ra rb : Reg)
  | sbc (i : Issue) (rd ra rb : Reg)
  | and (i : Issue) (rd ra rb : Reg)
  | or (i : Issue) (rd ra rb : Reg)
  | xor (i : Issue) (rd ra rb : Reg)
  | andn (i : Issue) (rd ra rb : Reg)
  | shl (i : Issue) (rd ra rb : Reg)
  | shr (i : Issue) (rd ra rb : Reg)
  | sar (i : Issue) (rd ra rb : Reg)
  | ror (i : Issue) (rd ra rb : Reg)
  | mul (i : Issue) (rd ra rb : Reg)
  | mulh (i : Issue) (rd ra rb : Reg)
  | mulhu (i : Issue) (rd ra rb : Reg)
  | div (i : Issue) (rd ra rb : Reg)
  | divu (i : Issue) (rd ra rb : Reg)
  | rem (i : Issue) (rd ra rb : Reg)
  | remu (i : Issue) (rd ra rb : Reg)
  | clz (i : Issue) (rd ra : Reg)
  | rev (i : Issue) (rd ra : Reg)
  | sxb (i : Issue) (rd ra : Reg)
  | sxh (i : Issue) (rd ra : Reg)
  | addi (i : Issue) (rd ra : Reg) (imm : BitVec 18)
  | andi (i : Issue) (rd ra : Reg) (imm : BitVec 18)
  | ori (i : Issue) (rd ra : Reg) (imm : BitVec 18)
  | xori (i : Issue) (rd ra : Reg) (imm : BitVec 18)
  | shli (i : Issue) (rd ra : Reg) (n : BitVec 5)
  | shri (i : Issue) (rd ra : Reg) (n : BitVec 5)
  | sari (i : Issue) (rd ra : Reg) (n : BitVec 5)
  | rori (i : Issue) (rd ra : Reg) (n : BitVec 5)
  | cmpi (i : Issue) (ra : Reg) (imm : BitVec 18)
  | ldi (i : Issue) (rd : Reg) (imm : BitVec 22)
  | lui (i : Issue) (rd : Reg) (imm : BitVec 16)
  | ldw (i : Issue) (rd ra : Reg) (off : BitVec 18)
  | ldh (i : Issue) (rd ra : Reg) (off : BitVec 18)
  | ldhs (i : Issue) (rd ra : Reg) (off : BitVec 18)
  | ldb (i : Issue) (rd ra : Reg) (off : BitVec 18)
  | ldbs (i : Issue) (rd ra : Reg) (off : BitVec 18)
  | stw (i : Issue) (rs ra : Reg) (off : BitVec 18)
  | sth (i : Issue) (rs ra : Reg) (off : BitVec 18)
  | stb (i : Issue) (rs ra : Reg) (off : BitVec 18)
  | push (i : Issue) (mask : BitVec 16)
  | pop (i : Issue) (mask : BitVec 16)
  | adr (i : Issue) (rd : Reg) (off : BitVec 22)
  | bcc (i : Issue) (cond : BitVec 4) (off : BitVec 22)
  | b (i : Issue) (off : BitVec 26)
  | jal (i : Issue) (off : BitVec 26)
  | jalr (i : Issue) (rd ra : Reg)
  | cbz (i : Issue) (ra : Reg) (off : BitVec 22)
  | cbnz (i : Issue) (ra : Reg) (off : BitVec 22)
  | nop (i : Issue)
  | brk (i : Issue) (code : BitVec 14)
  | rfe (i : Issue)
  | evset (i : Issue) (ra : Reg)
  | evclr (i : Issue) (ra : Reg)
  | evpoll (i : Issue) (rd ra : Reg)
  | mfs (i : Issue) (rd : Reg) (sreg : BitVec 8)
  | mts (i : Issue) (sreg : BitVec 8) (ra : Reg)
  | evwait (i : Issue) (rd ra rb : Reg)
  | evwaitTimeout (c : CoreId)
  | eventRepeat
  | timerExpiry (c : CoreId)
  | shot (i : Issue) (ra : Reg) (seq : BitVec 8) (dir : Bool)
  | shot2 (i : Issue) (ra : Reg) (seq : BitVec 8) (dir : Bool)
  | qget (i : Issue) (rd ra : Reg)
  | qput (i : Issue) (rd ra rb : Reg)
  | qpeek (i : Issue) (rd ra rb : Reg)
  | cimld (i : Issue) (rd ra rb : Reg)
  | cimev (i : Issue) (rd ra rb : Reg)
  | leaseTake (i : Issue) (rd ra rb : Reg)
  | leaseGive (i : Issue) (rd ra rb : Reg)
  | leaseRelease (i : Issue) (rd ra rb : Reg)
  | tallyRead (i : Issue) (rd ra rb : Reg)
  | tallyIndex (i : Issue) (rd ra rb : Reg)
  | tallyConduit (i : Issue) (rd ra rb : Reg)
  | tallyCondix (i : Issue) (rd ra rb : Reg)
  | ledgCommit (i : Issue) (rd : Reg)
  | ledgLog (i : Issue) (rd ra rb : Reg)
  | ldtmSplit (i : Issue) (rd ra : Reg)
  | ldtmTicks (i : Issue) (rd : Reg)
  | usync (i : Issue) (rd ra : Reg)
  | roodPost (i : Issue) (rd ra rb : Reg)
  | roodTake (i : Issue) (rd ra : Reg)
  | coreBoot (c : CoreId)
  | imgErase (c : CoreId)
  | imgProgram (c : CoreId)
  | flashOpDone (u : FlashUnit) (readsBack : Bool)
  | serviceLoaderFrame (c : CoreId) (f : LoaderFrame)
  | isleCommandStart (n : Fin 16)
  | twinClaimGrant (n : Fin 16) (late : Bool)
  | exclusionGrant (g : Fin 16) (late : Bool)
  | exclusionRelease (g : Fin 16)
  | exwait (n : Fin 16)
  | burstStart (n : Fin 16) (clast : Nat)
  | short (n : Fin 16)
  | burstEnd (n : Fin 16)
  | clampEnd (n : Fin 16)
  | windowOpen (n : Fin 16) (first : List Sample) (overloads : List (BitVec 3))
  | windowClose (n : Fin 16) (rest : List Sample) (crossings : List Nat) (overloads : List (BitVec 3))
  | recoveryEnd (n : Fin 16)
  | portmodeWrite (c : CoreId) (n : Fin 16) (val : Word)
  | descriptorWrite (c : CoreId) (m : Fin 128) (field : Fin 4) (val : Word)
  | isleEnableWrite (c : CoreId) (n : Fin 16) (val : Word)
  | timeDomainEval (bk : Fin 4)
  | digitalEval (bk : Fin 4) (bad1 : List CellAt) (drifted : List RowAt) (bad2 : List CellAt)
  | replicaScanDue (bk : Fin 4) (drifted : List RowAt)
  | refnow (c : CoreId) (bk : Fin 4) (val : Word) (drifted : List RowAt)
  | weightWindowLoad (c : CoreId) (addr : Word)
  | weightWindowStore (c : CoreId) (addr val : Word)
  | thrdataAccess (c : CoreId) (bk : Fin 4) (write : Option Word)
  | bankWipeDone (bk : Fin 4)
  | bankEnableWrite (c : CoreId) (bk : Fin 4) (val : Word)
  | tileEnableWrite (c : CoreId) (tile : Fin 32) (val : Word)
  | lagTimeout (n : Fin 16)
  | noverdict (n : Fin 16)
  | xhflost
  | rtdChargeDone (n : Fin 16) (chargeNs : Nat)
  | rtdCrossing (n : Fin 16) (taps : Nat)
  | rtdopen (n : Fin 16)
  | capshort (n : Fin 16)
  | qtyTakePacket
  | calStart (c : CoreId) (val : Word)
  | setWindowExpiry (k : Fin 32)
  | clvoteWrite (c : CoreId) (k : Fin 32) (val : Word)
  | voteAgeExpiry (k : Fin 32)
  | auxaddWrite (c : CoreId) (a : Fin 8) (val : Word)
  | commitPeriodicDue
  | commitComplete (readsBack : Bool)
  | heartbeatSend
  | pulseStart (n : Fin 8)
  | pulseEnd (n : Fin 8)
  | debtaddWrite (c : CoreId) (n : Fin 8) (val : Word)
  | inputPulseCount (n : Fin 8)
  | pinEnableWrite (c : CoreId) (n : Fin 8) (val : Word)
  | loopStale (j : Fin 2)
  | loopLow (j : Fin 2) (vdev meas : BitVec 16)
  | lownowClear (j : Fin 2) (vdev meas : BitVec 16)
  | loopEnableWrite (c : CoreId) (j : Fin 2) (val : Word)
  | outLockWrite (c : CoreId) (val : Word)
  | seal (c : CoreId) (val : Word)
  | verifyOpen
  | verifyClose
  | case (closed : Bool)
  | magnet (present : Bool)
  | debugAttach
  | loadaes (c : CoreId) (slot : BitVec 4)
  | clear (c : CoreId) (slot : BitVec 4)
  | loadvk (c : CoreId) (slot : BitVec 4)
  | revokevk (c : CoreId) (slot : BitVec 4)
  | nkeyLoad (c : CoreId) (slot : BitVec 4)
  | nkeyClear (c : CoreId) (slot : BitVec 4)
  | keyCommandDone (h : SacrHalf)
  | macStart (c : CoreId) (val : Word)
  | macDin (c : CoreId) (val : Word)
  | macFinish (c : CoreId) (val : Word)
  | imgchkCheck (c : CoreId)
  | imgchkDone
  | imgchkActivate (c : CoreId)
  | logdataRead (c : CoreId) (j : Fin 4)
  | slotStart (p : Fin 2)
  | frameTransmit (p : Fin 2) (energy : BitVec 8)
  | frameReceive (p : Fin 2) (f : RxFrame)
  | ackTransmit (p : Fin 2)
  | ackTimeout (p : Fin 2)
  | synclost (p : Fin 2)
  | asnLoad (c : CoreId) (p : Fin 2) (hi lo : Word)
  | hopGen (c : CoreId) (p : Fin 2) (val : Word)
  | limcfgPresetWrite (c : CoreId) (p : Fin 2) (val : Word)
  | limitBucketAdvance (p : Fin 2) (dwell : Bool)
  | portEnableWrite (c : CoreId) (p : Fin 2) (val : Word)
  | portFallDone (p : Fin 2)
  | radioTest (c : CoreId) (p : Fin 2) (val : Word)
  | coordinatorStart (p : Fin 2)
  | startWindowEnd (p : Fin 2)
  | assocResponseTimeout (p : Fin 2)
  | leaseRenewDue (p : Fin 2)
  | leaseExpiry (p : Fin 2) (i : Fin 128)
  | quarantineEnd (p : Fin 2) (i : Fin 128)
  | orphanTimeout (p : Fin 2)
  | lastBeacon (p : Fin 2)
  | floodRelay (p : Fin 2)
  | seenCacheExpiry
  | nbrRead (c : CoreId)
  | nbrWrite (c : CoreId)
  | nbrDelete (c : CoreId)
  | xhfStart
  | xhfLingerEnd
  | xhfStartTimeout
  | xhfreqWrite (c : CoreId) (val : Word)
  | rtcTrim
  | xt32kSwitch
  | xtfail (gap : Nat)
  | timeSubRead (c : CoreId)
  | timeSecRead (c : CoreId)
  | timeNewWrite (c : CoreId) (val : Word)
  | timeSet
  | modeWrite (c : CoreId) (val : Word)
  | guardNaveFallTimeout
  | standbyEntry
  | wakeAlarm
  | domainPowerUp (vmain : Nat)
  | unitRiseDone (u : Fin 67)
  | unitFallDone (u : Fin 67)
  | cfgErase (c : CoreId)
  | cfgProgram (c : CoreId)
  | cfgdataRead (c : CoreId)
  | nrstReset
  | rstreqChoircore (c : CoreId)
  | rstreqNavecore (c : CoreId)
  | rstreqDomains (c : CoreId)
  | wdogKick (c : CoreId) (val : Word)
  | wdogExpiry (c : CoreId)
  | gautoClear
  | nrstRelease
  | secondEdge
  | debugPortAccess (addr : Word) (write : Option Word)
  | spiTargetAccess (addr : Word) (write : Option Word)
  | debugHalt
  | debugResume (singleStep : Bool)
  | sealingDone
  | macTagReady
  | frameTransmitEnd (p : Fin 2)
  | hopGenDone (p : Fin 2)
  | counterMarkDone (slot : Fin 8)
  deriving DecidableEq, Repr

end Sys2Proof
end

