-- ==== Sys2Proof/Decode.lean ====
section
/-! DEFINITION. Decoding a table word, and the instruction words of the Prolu cores (R115 to R119, R124, R147).
No row of spec/opcode_table.json has bits (every row's list of fields is empty), so no table word spells a command: a core
instruction comes as a command. decodeProlu says which command an instruction word of a core is, and encodeProlu which word an
instruction has. -/
namespace Sys2Proof

/-- The command that a word of nbits bits spells: none, since the table gives no row any bits. -/
def decodeTableWord (_nbits _w : Nat) : Option Instr := none

/-! ### Fields of the formats (R115) -/

/-- The opcode, [31:26]. -/
def opOf (w : Word) : Nat := (w.extractLsb' 26 6).toNat
/-- rd, or rs or cond, [25:22]; ra, [21:18]; rb, [17:14]. -/
def rdOf (w : Word) : BitVec 4 := w.extractLsb' 22 4
def raOf (w : Word) : BitVec 4 := w.extractLsb' 18 4
def rbOf (w : Word) : BitVec 4 := w.extractLsb' 14 4
/-- fn of format T, [3:0], which is also the function of the SYS group (R124); and the reserved bits of format T, [13:4]. -/
def fnOf (w : Word) : Nat := (w.extractLsb' 0 4).toNat
def resOf (w : Word) : BitVec 10 := w.extractLsb' 4 10
/-- Immediates and offsets. -/
def imm18Of (w : Word) : BitVec 18 := w.extractLsb' 0 18
def imm22Of (w : Word) : BitVec 22 := w.extractLsb' 0 22
def off26Of (w : Word) : BitVec 26 := w.extractLsb' 0 26

/-- An instruction word that raises ILLEGAL whatever its operands: a reserved opcode, a reserved function (R116). It is given as the
command of `nop` with a field that must be 0 and is not, whose effect is the same fault. -/
def illegalWord (c : CoreId) : Instr := .nop ⟨c, false⟩

/-! ### Decoding by opcode -/

/-- The ALU group, opcode 0x00, by fn (R118). -/
def decodeAlu (i : Issue) (w : Word) : Instr :=
  match fnOf w with
  | 0 => .add i (rdOf w) (raOf w) (rbOf w)
  | 1 => .sub i (rdOf w) (raOf w) (rbOf w)
  | 2 => .adc i (rdOf w) (raOf w) (rbOf w)
  | 3 => .sbc i (rdOf w) (raOf w) (rbOf w)
  | 4 => .and i (rdOf w) (raOf w) (rbOf w)
  | 5 => .or i (rdOf w) (raOf w) (rbOf w)
  | 6 => .xor i (rdOf w) (raOf w) (rbOf w)
  | 7 => .andn i (rdOf w) (raOf w) (rbOf w)
  | 8 => .shl i (rdOf w) (raOf w) (rbOf w)
  | 9 => .shr i (rdOf w) (raOf w) (rbOf w)
  | 10 => .sar i (rdOf w) (raOf w) (rbOf w)
  | 11 => .ror i (rdOf w) (raOf w) (rbOf w)
  | 12 => .mul i (rdOf w) (raOf w) (rbOf w)
  | 13 => .mulh i (rdOf w) (raOf w) (rbOf w)
  | 14 => .mulhu i (rdOf w) (raOf w) (rbOf w)
  | _ => illegalWord i.core

/-- The EXT group, opcode 0x01, by fn; functions 4 to 7 take no rb (R119). -/
def decodeExt (i : Issue) (w : Word) : Instr :=
  let one : Issue := ⟨i.core, i.zero && rbOf w == 0⟩
  match fnOf w with
  | 0 => .div i (rdOf w) (raOf w) (rbOf w)
  | 1 => .divu i (rdOf w) (raOf w) (rbOf w)
  | 2 => .rem i (rdOf w) (raOf w) (rbOf w)
  | 3 => .remu i (rdOf w) (raOf w) (rbOf w)
  | 4 => .clz one (rdOf w) (raOf w)
  | 5 => .rev one (rdOf w) (raOf w)
  | 6 => .sxb one (rdOf w) (raOf w)
  | 7 => .sxh one (rdOf w) (raOf w)
  | _ => illegalWord i.core

/-- The immediate shifts, opcode 0x06: imm[6:5] selects the kind (R117). -/
def decodeShift (c : CoreId) (w : Word) : Instr :=
  let i : Issue := ⟨c, w.extractLsb' 7 11 == 0⟩
  let n : BitVec 5 := w.extractLsb' 0 5
  match (w.extractLsb' 5 2).toNat with
  | 0 => .shli i (rdOf w) (raOf w) n
  | 1 => .shri i (rdOf w) (raOf w) n
  | 2 => .sari i (rdOf w) (raOf w) n
  | _ => .rori i (rdOf w) (raOf w) n

/-- The SYS group, opcode 0x1B, by imm[3:0]; fields that a function does not use must be 0 (R124). -/
def decodeSys (c : CoreId) (w : Word) : Instr :=
  let rest : Bool := w.extractLsb' 4 14 == 0
  let rd : Bool := rdOf w == 0
  let ra : Bool := raOf w == 0
  match fnOf w with
  | 0 => .nop ⟨c, rest && rd && ra⟩
  | 1 => .brk ⟨c, rd && ra⟩ (w.extractLsb' 4 14)
  | 2 => .rfe ⟨c, rest && rd && ra⟩
  | 3 => .evset ⟨c, rest && rd⟩ (raOf w)
  | 4 => .evclr ⟨c, rest && rd⟩ (raOf w)
  | 5 => .evpoll ⟨c, rest⟩ (rdOf w) (raOf w)
  | _ => illegalWord c

/-- The device instructions, opcodes 0x20 to 0x2C (R147). -/
def decodeDevice (c : CoreId) (w : Word) : Instr :=
  let t : Issue := ⟨c, resOf w == 0⟩
  let fn0 : Issue := ⟨c, resOf w == 0 && fnOf w == 0⟩
  let noRb : Bool := resOf w == 0 && rbOf w == 0
  let shot : Issue := ⟨c, rdOf w == 0 && w.extractLsb' 9 9 == 0⟩
  match opOf w with
  | 0x20 => .shot shot (raOf w) (w.extractLsb' 0 8) (w.getLsbD 8)
  | 0x21 => .shot2 shot (raOf w) (w.extractLsb' 0 8) (w.getLsbD 8)
  | 0x22 => .qget ⟨c, noRb && fnOf w == 0⟩ (rdOf w) (raOf w)
  | 0x23 => .qput fn0 (rdOf w) (raOf w) (rbOf w)
  | 0x24 => .qpeek fn0 (rdOf w) (raOf w) (rbOf w)
  | 0x25 => .cimld fn0 (rdOf w) (raOf w) (rbOf w)
  | 0x26 => .cimev fn0 (rdOf w) (raOf w) (rbOf w)
  | 0x27 =>
    match fnOf w with
    | 0 => .leaseTake t (rdOf w) (raOf w) (rbOf w)
    | 1 => .leaseGive t (rdOf w) (raOf w) (rbOf w)
    | 2 => .leaseRelease t (rdOf w) (raOf w) (rbOf w)
    | _ => illegalWord c
  | 0x28 =>
    match fnOf w with
    | 0 => .tallyRead t (rdOf w) (raOf w) (rbOf w)
    | 1 => .tallyIndex t (rdOf w) (raOf w) (rbOf w)
    | 2 => .tallyConduit t (rdOf w) (raOf w) (rbOf w)
    | 3 => .tallyCondix t (rdOf w) (raOf w) (rbOf w)
    | _ => illegalWord c
  | 0x29 =>
    match fnOf w with
    | 0 => .ledgCommit ⟨c, noRb && raOf w == 0⟩ (rdOf w)
    | 1 => .ledgLog t (rdOf w) (raOf w) (rbOf w)
    | _ => illegalWord c
  | 0x2A =>
    match fnOf w with
    | 0 => .ldtmSplit ⟨c, noRb⟩ (rdOf w) (raOf w)
    | 1 => .ldtmTicks ⟨c, noRb && raOf w == 0⟩ (rdOf w)
    | _ => illegalWord c
  | 0x2B => .usync ⟨c, noRb && fnOf w == 0⟩ (rdOf w) (raOf w)
  | 0x2C =>
    match fnOf w with
    | 0 => .roodPost t (rdOf w) (raOf w) (rbOf w)
    | 1 => .roodTake ⟨c, noRb⟩ (rdOf w) (raOf w)
    | _ => illegalWord c
  | _ => illegalWord c

/-- The instruction that a word is for a core (R115 to R117): an opcode that is reserved is an illegal word. -/
def decodeProlu (c : CoreId) (w : Word) : Instr :=
  let all : Issue := ⟨c, true⟩
  match opOf w with
  | 0x00 => decodeAlu ⟨c, resOf w == 0⟩ w
  | 0x01 => decodeExt ⟨c, resOf w == 0⟩ w
  | 0x02 => .addi all (rdOf w) (raOf w) (imm18Of w)
  | 0x03 => .andi all (rdOf w) (raOf w) (imm18Of w)
  | 0x04 => .ori all (rdOf w) (raOf w) (imm18Of w)
  | 0x05 => .xori all (rdOf w) (raOf w) (imm18Of w)
  | 0x06 => decodeShift c w
  | 0x07 => .cmpi ⟨c, rdOf w == 0⟩ (raOf w) (imm18Of w)
  | 0x08 => .ldi all (rdOf w) (imm22Of w)
  | 0x09 => .lui ⟨c, w.extractLsb' 16 6 == 0⟩ (rdOf w) (w.extractLsb' 0 16)
  | 0x0A => .ldw all (rdOf w) (raOf w) (imm18Of w)
  | 0x0B => .ldh all (rdOf w) (raOf w) (imm18Of w)
  | 0x0C => .ldhs all (rdOf w) (raOf w) (imm18Of w)
  | 0x0D => .ldb all (rdOf w) (raOf w) (imm18Of w)
  | 0x0E => .ldbs all (rdOf w) (raOf w) (imm18Of w)
  | 0x0F => .stw all (rdOf w) (raOf w) (imm18Of w)
  | 0x10 => .sth all (rdOf w) (raOf w) (imm18Of w)
  | 0x11 => .stb all (rdOf w) (raOf w) (imm18Of w)
  | 0x12 => .push ⟨c, w.extractLsb' 16 10 == 0⟩ (w.extractLsb' 0 16)
  | 0x13 => .pop ⟨c, w.extractLsb' 16 10 == 0⟩ (w.extractLsb' 0 16)
  | 0x14 => .adr all (rdOf w) (imm22Of w)
  | 0x15 => .bcc all (rdOf w) (imm22Of w)
  | 0x16 => .b all (off26Of w)
  | 0x17 => .jal all (off26Of w)
  | 0x18 => .jalr ⟨c, w.extractLsb' 0 18 == 0⟩ (rdOf w) (raOf w)
  | 0x19 => .cbz all (rdOf w) (imm22Of w)
  | 0x1A => .cbnz all (rdOf w) (imm22Of w)
  | 0x1B => decodeSys c w
  | 0x1C => .mfs ⟨c, raOf w == 0 && w.extractLsb' 8 10 == 0⟩ (rdOf w) (w.extractLsb' 0 8)
  | 0x1D => .mts ⟨c, rdOf w == 0 && w.extractLsb' 8 10 == 0⟩ (w.extractLsb' 0 8) (raOf w)
  | 0x2D => .evwait ⟨c, resOf w == 0 && fnOf w == 0⟩ (rdOf w) (raOf w) (rbOf w)
  | _ => decodeDevice c w

/-! ### Encoding -/

/-- A word of format T, of format I or M, of format U or B, and of format J (R115). -/
def formT (op rd ra rb fn : Nat) : Word := BitVec.ofNat 32 (op * 2 ^ 26 + rd * 2 ^ 22 + ra * 2 ^ 18 + rb * 2 ^ 14 + fn)
def formI (op rd ra imm : Nat) : Word := BitVec.ofNat 32 (op * 2 ^ 26 + rd * 2 ^ 22 + ra * 2 ^ 18 + imm)
def formU (op rd imm : Nat) : Word := BitVec.ofNat 32 (op * 2 ^ 26 + rd * 2 ^ 22 + imm)
def formJ (op off : Nat) : Word := BitVec.ofNat 32 (op * 2 ^ 26 + off)

/-- The immediate of a shift (R117) and of `shot` (R147). -/
def shiftImm (kind n : Nat) : Nat := kind * 2 ^ 5 + n
def shotImm (seq : Nat) (dir : Bool) : Nat := (if dir then 2 ^ 8 else 0) + seq

/-- The word of a core instruction whose reserved fields are 0; none of a command that is no instruction. -/
def encodeProlu : Instr → Option Word
  | .add _ rd ra rb => some (formT 0x00 rd.toNat ra.toNat rb.toNat 0)
  | .sub _ rd ra rb => some (formT 0x00 rd.toNat ra.toNat rb.toNat 1)
  | .adc _ rd ra rb => some (formT 0x00 rd.toNat ra.toNat rb.toNat 2)
  | .sbc _ rd ra rb => some (formT 0x00 rd.toNat ra.toNat rb.toNat 3)
  | .and _ rd ra rb => some (formT 0x00 rd.toNat ra.toNat rb.toNat 4)
  | .or _ rd ra rb => some (formT 0x00 rd.toNat ra.toNat rb.toNat 5)
  | .xor _ rd ra rb => some (formT 0x00 rd.toNat ra.toNat rb.toNat 6)
  | .andn _ rd ra rb => some (formT 0x00 rd.toNat ra.toNat rb.toNat 7)
  | .shl _ rd ra rb => some (formT 0x00 rd.toNat ra.toNat rb.toNat 8)
  | .shr _ rd ra rb => some (formT 0x00 rd.toNat ra.toNat rb.toNat 9)
  | .sar _ rd ra rb => some (formT 0x00 rd.toNat ra.toNat rb.toNat 10)
  | .ror _ rd ra rb => some (formT 0x00 rd.toNat ra.toNat rb.toNat 11)
  | .mul _ rd ra rb => some (formT 0x00 rd.toNat ra.toNat rb.toNat 12)
  | .mulh _ rd ra rb => some (formT 0x00 rd.toNat ra.toNat rb.toNat 13)
  | .mulhu _ rd ra rb => some (formT 0x00 rd.toNat ra.toNat rb.toNat 14)
  | .div _ rd ra rb => some (formT 0x01 rd.toNat ra.toNat rb.toNat 0)
  | .divu _ rd ra rb => some (formT 0x01 rd.toNat ra.toNat rb.toNat 1)
  | .rem _ rd ra rb => some (formT 0x01 rd.toNat ra.toNat rb.toNat 2)
  | .remu _ rd ra rb => some (formT 0x01 rd.toNat ra.toNat rb.toNat 3)
  | .clz _ rd ra => some (formT 0x01 rd.toNat ra.toNat 0 4)
  | .rev _ rd ra => some (formT 0x01 rd.toNat ra.toNat 0 5)
  | .sxb _ rd ra => some (formT 0x01 rd.toNat ra.toNat 0 6)
  | .sxh _ rd ra => some (formT 0x01 rd.toNat ra.toNat 0 7)
  | .addi _ rd ra imm => some (formI 0x02 rd.toNat ra.toNat imm.toNat)
  | .andi _ rd ra imm => some (formI 0x03 rd.toNat ra.toNat imm.toNat)
  | .ori _ rd ra imm => some (formI 0x04 rd.toNat ra.toNat imm.toNat)
  | .xori _ rd ra imm => some (formI 0x05 rd.toNat ra.toNat imm.toNat)
  | .shli _ rd ra n => some (formI 0x06 rd.toNat ra.toNat (shiftImm 0 n.toNat))
  | .shri _ rd ra n => some (formI 0x06 rd.toNat ra.toNat (shiftImm 1 n.toNat))
  | .sari _ rd ra n => some (formI 0x06 rd.toNat ra.toNat (shiftImm 2 n.toNat))
  | .rori _ rd ra n => some (formI 0x06 rd.toNat ra.toNat (shiftImm 3 n.toNat))
  | .cmpi _ ra imm => some (formI 0x07 0 ra.toNat imm.toNat)
  | .ldi _ rd imm => some (formU 0x08 rd.toNat imm.toNat)
  | .lui _ rd imm => some (formU 0x09 rd.toNat imm.toNat)
  | .ldw _ rd ra off => some (formI 0x0A rd.toNat ra.toNat off.toNat)
  | .ldh _ rd ra off => some (formI 0x0B rd.toNat ra.toNat off.toNat)
  | .ldhs _ rd ra off => some (formI 0x0C rd.toNat ra.toNat off.toNat)
  | .ldb _ rd ra off => some (formI 0x0D rd.toNat ra.toNat off.toNat)
  | .ldbs _ rd ra off => some (formI 0x0E rd.toNat ra.toNat off.toNat)
  | .stw _ rs ra off => some (formI 0x0F rs.toNat ra.toNat off.toNat)
  | .sth _ rs ra off => some (formI 0x10 rs.toNat ra.toNat off.toNat)
  | .stb _ rs ra off => some (formI 0x11 rs.toNat ra.toNat off.toNat)
  | .push _ mask => some (formI 0x12 0 0 mask.toNat)
  | .pop _ mask => some (formI 0x13 0 0 mask.toNat)
  | .adr _ rd off => some (formU 0x14 rd.toNat off.toNat)
  | .bcc _ cond off => some (formU 0x15 cond.toNat off.toNat)
  | .b _ off => some (formJ 0x16 off.toNat)
  | .jal _ off => some (formJ 0x17 off.toNat)
  | .jalr _ rd ra => some (formI 0x18 rd.toNat ra.toNat 0)
  | .cbz _ ra off => some (formU 0x19 ra.toNat off.toNat)
  | .cbnz _ ra off => some (formU 0x1A ra.toNat off.toNat)
  | .nop _ => some (formI 0x1B 0 0 0)
  | .brk _ code => some (formI 0x1B 0 0 (code.toNat * 16 + 1))
  | .rfe _ => some (formI 0x1B 0 0 2)
  | .evset _ ra => some (formI 0x1B 0 ra.toNat 3)
  | .evclr _ ra => some (formI 0x1B 0 ra.toNat 4)
  | .evpoll _ rd ra => some (formI 0x1B rd.toNat ra.toNat 5)
  | .mfs _ rd sreg => some (formI 0x1C rd.toNat 0 sreg.toNat)
  | .mts _ sreg ra => some (formI 0x1D 0 ra.toNat sreg.toNat)
  | .evwait _ rd ra rb => some (formT 0x2D rd.toNat ra.toNat rb.toNat 0)
  | .shot _ ra seq dir => some (formI 0x20 0 ra.toNat (shotImm seq.toNat dir))
  | .shot2 _ ra seq dir => some (formI 0x21 0 ra.toNat (shotImm seq.toNat dir))
  | .qget _ rd ra => some (formT 0x22 rd.toNat ra.toNat 0 0)
  | .qput _ rd ra rb => some (formT 0x23 rd.toNat ra.toNat rb.toNat 0)
  | .qpeek _ rd ra rb => some (formT 0x24 rd.toNat ra.toNat rb.toNat 0)
  | .cimld _ rd ra rb => some (formT 0x25 rd.toNat ra.toNat rb.toNat 0)
  | .cimev _ rd ra rb => some (formT 0x26 rd.toNat ra.toNat rb.toNat 0)
  | .leaseTake _ rd ra rb => some (formT 0x27 rd.toNat ra.toNat rb.toNat 0)
  | .leaseGive _ rd ra rb => some (formT 0x27 rd.toNat ra.toNat rb.toNat 1)
  | .leaseRelease _ rd ra rb => some (formT 0x27 rd.toNat ra.toNat rb.toNat 2)
  | .tallyRead _ rd ra rb => some (formT 0x28 rd.toNat ra.toNat rb.toNat 0)
  | .tallyIndex _ rd ra rb => some (formT 0x28 rd.toNat ra.toNat rb.toNat 1)
  | .tallyConduit _ rd ra rb => some (formT 0x28 rd.toNat ra.toNat rb.toNat 2)
  | .tallyCondix _ rd ra rb => some (formT 0x28 rd.toNat ra.toNat rb.toNat 3)
  | .ledgCommit _ rd => some (formT 0x29 rd.toNat 0 0 0)
  | .ledgLog _ rd ra rb => some (formT 0x29 rd.toNat ra.toNat rb.toNat 1)
  | .ldtmSplit _ rd ra => some (formT 0x2A rd.toNat ra.toNat 0 0)
  | .ldtmTicks _ rd => some (formT 0x2A rd.toNat 0 0 1)
  | .usync _ rd ra => some (formT 0x2B rd.toNat ra.toNat 0 0)
  | .roodPost _ rd ra rb => some (formT 0x2C rd.toNat ra.toNat rb.toNat 0)
  | .roodTake _ rd ra => some (formT 0x2C rd.toNat ra.toNat 0 1)
  | _ => none

end Sys2Proof
end

