-- ==== Sys2Proof/Config.lean ====
section
/-! DEFINITION. The free values: what the spec leaves open, as opaque constants without a body.
A claim that is proved holds whatever they are. The Nat argument named k is the counter State.free. -/
namespace Sys2Proof.Config

/-- Whether an exact value that a register holds in whole LSB is rounded up; the spec states no rounding. -/
opaque roundUp : Nat → Bool
/-- The error of a time-domain sum (R219 bounds it; the model clamps it to that bound), by counter and output. -/
opaque tdError : Nat → Nat → Int
/-- Whether a lead that XHF loss ends within its first tick was over already (R199, R477; the spec gives no order). -/
opaque leadOver : Nat → Bool
/-- What the readings and the scan of a cimev find wrong; R225 to R231 say what the bank does then, not when cells fail. -/
opaque upsets : Nat → Upsets
/-- Whether a replica scan that started in the last tick is still running (R227 gives its time in fractions of a tick). -/
opaque scanRuns : Nat → Bool
/-- The choir or nave core cycles that a register access or a wait takes (R145 and R169 give bounds only). -/
opaque waitCycles : Nat → Word
/-- A uniform draw (R374 backoff, R411 jitter), reduced by the model to its range. -/
opaque draw : Nat → Nat
/-- Density of water at 1.6 MPa by temperature in degrees Celsius where it is no liquid (R291 states no range of the tables). -/
opaque waterDensity : Rat → Rat
/-- Specific enthalpy of water at 1.6 MPa in J/kg by temperature in degrees Celsius where it is no liquid (R291). -/
opaque waterEnthalpy : Rat → Rat
/-- The relative interpolation error of the ROM tables of density and of enthalpy, by temperature (R291 bounds it by 0.01 %; the
model clamps it to that bound). -/
opaque densityError : Rat → Rat
opaque enthalpyError : Rat → Rat
/-- The CRC-32 of a ledger bank over its items in order (R298 names no polynomial and no widths of items). -/
opaque ledgerCrc : List Nat → Word
/-- The marker of the guard word in the ledger array (R454 states no value). -/
opaque guardMarker : Word
/-- The error of the RTD inversion in kelvin (R268 bounds it by 0.002; the model clamps it). -/
opaque rtdError : Nat → Rat
/-- Whether the standard deviation of CALSD divides by the number of pairs less 1 (R269 names no divisor). -/
opaque calSample : Bool
/-- The crypt's operating level in mV above 1.60 V (R461 states 1.70 V ± 0.1 V; the model takes it modulo 201). -/
opaque cryptLevel : Nat
/-- Where a pin's retention record holds CSTART: its octet, 0 to 15 (R323 gives no layout; the model takes it modulo 16). -/
opaque cstartOctet : Nat
/-- The difference of the current that LPMEAS shows from the command, in 0.5 µA (R73 bounds accuracy and readback; the model clamps
it). -/
opaque loopError : Nat → Int
/-- The error in mV of a supply measurement (R77 bounds it by 20 mV; the model clamps it). -/
opaque measError : Nat → Int
/-- A rational value that the spec leaves open (a quotient by zero). -/
opaque openRat : Nat → Rat
/-- The words of a guard record in crypt retention (R304): the spec gives no layout. -/
opaque guardLayout : List Nat → Nat → Word
/-- A general value that the spec leaves open, by counter. -/
opaque value : Nat → Word
/-- The value a record's capacitance measurement takes where no measurement was made. -/
opaque measured : Nat → Nat

end Sys2Proof.Config
end

