-- ==== Sys2Proof/Machine/Bits.lean ====
section
/-! DEFINITION. Bit fields, sign extension and byte order of words (R3, R5). -/
namespace Sys2Proof.Machine

/-- The mask of the low n bits of a word, 0 to 32. -/
def lowMask (n : Nat) : Word := BitVec.ofNat 32 (2 ^ n - 1)

/-- Bits [hi:lo] of a word as a number. -/
def bitsOf (w : Word) (hi lo : Nat) : Nat := ((w >>> lo) &&& lowMask (hi + 1 - lo)).toNat

/-- A word with bits [hi:lo] replaced by the low bits of v. -/
def bitsPut (w : Word) (hi lo v : Nat) : Word :=
  (w &&& ~~~(lowMask (hi + 1 - lo) <<< lo)) ||| ((BitVec.ofNat 32 v &&& lowMask (hi + 1 - lo)) <<< lo)

/-- The two's-complement value of the low n bits of a number. -/
def signedOf (n v : Nat) : Int :=
  let r := v % 2 ^ n
  if 2 ^ (n - 1) ≤ r then (r : Int) - 2 ^ n else r

/-- The n-bit two's-complement code of an integer. -/
def codeOf (n : Nat) (i : Int) : Nat := (i % (2 ^ n : Int)).toNat

/-- An integer held to a range (R11). -/
def clampInt (lo hi i : Int) : Int := if i < lo then lo else if hi < i then hi else i

/-- A count that stops at its limit. -/
def satAdd (limit a b : Nat) : Nat := if limit ≤ a + b then limit else a + b

/-- The four octets of a word, least significant first (R3). -/
def octetsOfWord (w : Word) : List Octet :=
  [w.extractLsb' 0 8, w.extractLsb' 8 8, w.extractLsb' 16 8, w.extractLsb' 24 8]

/-- The word of four octets, least significant first (R3). -/
def wordOfOctets (a b c d : Octet) : Word := d ++ c ++ b ++ a

/-- The octets of a number of n octets, least significant first. -/
def leOctets : Nat → Nat → List Octet
  | 0, _ => []
  | n + 1, v => BitVec.ofNat 8 v :: leOctets n (v / 256)

/-- The octets of a number of n octets, most significant first. -/
def beOctets (n v : Nat) : List Octet := (leOctets n v).reverse

/-- The number of a list of octets, least significant first. -/
def ofLe : List Octet → Nat
  | [] => 0
  | o :: rest => o.toNat + 256 * ofLe rest

/-- The number of a list of octets, most significant first. -/
def ofBe (l : List Octet) : Nat := ofLe l.reverse

/-- Words of a list of octets, four at a time, the last padded with 0. -/
def wordsOfOctets : List Octet → List Word
  | a :: b :: c :: d :: rest => wordOfOctets a b c d :: wordsOfOctets rest
  | [] => []
  | l => [wordOfOctets (l.getD 0 0) (l.getD 1 0) (l.getD 2 0) 0]

/-- Octets of a list of words, least significant octet of each first. -/
def octetsOfWords (l : List Word) : List Octet := l.flatMap octetsOfWord

/-- Whether bit i of a number is 1. -/
def bitAt (v i : Nat) : Bool := v / 2 ^ i % 2 == 1

/-- 1 for true. -/
def natOfBool (b : Bool) : Nat := if b then 1 else 0

/-- Replace the entry at an index of a list; an index beyond it changes nothing. -/
def listSet {α : Type} : List α → Nat → α → List α
  | [], _, _ => []
  | _ :: rest, 0, x => x :: rest
  | a :: rest, n + 1, x => a :: listSet rest n x

/-- The numbers from a, n of them. -/
def natsFrom : Nat → Nat → List Nat
  | _, 0 => []
  | a, n + 1 => a :: natsFrom (a + 1) n

end Sys2Proof.Machine
end

