-- ==== Sys2Proof/Machine/Regs.lean ====
section
/-! DEFINITION. The memory-mapped registers: address, access code, reset value, range and reserved codes of every field,
read off the register tables of spec/ (R43, R77, R109, R177, R206, R243, R271, R306, R307, R331, R358, R359, R360, R390,
R427, R442, R472, R473), and a name for every field. Fields not listed are reserved and read 0 (R9). -/
namespace Sys2Proof.Machine

/-- The access codes of R5. -/
inductive Access where
  | ro | rw | wo | w1c | rz | sl
  deriving DecidableEq, Repr

/-- What resets a register: the crypt reset, the power-up of a domain, nothing (a non-volatile array or fuse), or it is
only another view of a register (R337, R358). A UNITSTATE entry resets with its unit's domain (R472). -/
inductive ResetGroup where
  | crypt | choir | nave | shared | array | view | unit
  deriving DecidableEq, Repr

/-- One field of a register table: bits, access code, reset value, stated range (R11; signed where two's complement),
reserved codes (R10), and whether only the choir core writes it. -/
structure FieldSpec where
  hi : Nat
  lo : Nat
  acc : Access
  reset : Nat
  rangeLo : Int
  rangeHi : Int
  signed : Bool
  reserved : List Nat
  choirOnly : Bool
  deriving DecidableEq, Repr

/-- One register, or an array of count registers at base + i × stride. -/
structure RegSpec where
  base : Nat
  stride : Nat
  count : Nat
  group : ResetGroup
  fields : List FieldSpec
  deriving DecidableEq, Repr

/-- A named field: the register's address and the field's bits. -/
structure Fld where
  addr : Nat
  hi : Nat
  lo : Nat
  deriving DecidableEq, Repr

/-- Registers of block SYS (part 0). -/
def regsSys0 : List RegSpec := [
  ⟨0x40000000, 0x0, 1, .crypt, [⟨7, 7, .ro, 0, 0, 1, false, [], false⟩, ⟨6, 6, .rw, 0, 0, 1, false, [], true⟩, ⟨5, 5, .ro, 0, 0, 1, false, [], false⟩, ⟨4, 4, .ro, 0, 0, 1, false, [], false⟩, ⟨3, 3, .ro, 0, 0, 1, false, [], false⟩, ⟨2, 2, .ro, 0, 0, 1, false, [], false⟩, ⟨1, 1, .ro, 0, 0, 1, false, [], false⟩, ⟨0, 0, .rw, 0, 0, 1, false, [], true⟩]⟩,
  ⟨0x40000004, 0x0, 1, .choir, [⟨15, 8, .ro, 0, 0, 255, false, [], false⟩, ⟨4, 4, .ro, 0, 0, 1, false, [], false⟩, ⟨3, 3, .ro, 0, 0, 1, false, [], false⟩, ⟨2, 2, .ro, 0, 0, 1, false, [], false⟩, ⟨0, 0, .ro, 0, 0, 1, false, [], false⟩]⟩,
  ⟨0x40000008, 0x0, 1, .crypt, [⟨15, 12, .ro, 0, 0, 15, false, [], false⟩, ⟨11, 8, .ro, 0, 0, 15, false, [], false⟩, ⟨6, 4, .ro, 0, 0, 7, false, [], false⟩, ⟨3, 0, .ro, 0, 0, 15, false, [], false⟩]⟩,
  ⟨0x4000000c, 0x0, 1, .crypt, [⟨31, 16, .wo, 0, 0, 65535, false, [], false⟩, ⟨1, 0, .wo, 0, 0, 3, false, [], false⟩]⟩,
  ⟨0x40000010, 0x4, 2, .crypt, [⟨31, 31, .rw, 0, 0, 1, false, [], false⟩, ⟨16, 16, .wo, 0, 0, 1, false, [], false⟩, ⟨15, 0, .rw, 64, 1, 65535, false, [], false⟩]⟩,
  ⟨0x40000020, 0x0, 1, .crypt, [⟨31, 31, .ro, 0, 0, 1, false, [], false⟩, ⟨11, 11, .ro, 0, 0, 1, false, [], false⟩, ⟨10, 10, .ro, 0, 0, 1, false, [], false⟩, ⟨9, 9, .ro, 0, 0, 1, false, [], false⟩, ⟨7, 4, .ro, 0, 0, 15, false, [], false⟩, ⟨2, 0, .wo, 0, 0, 7, false, [], true⟩]⟩,
  ⟨0x40000024, 0x0, 1, .crypt, [⟨31, 0, .rw, 0, 0, 4294967295, false, [], true⟩]⟩,
  ⟨0x40000028, 0x0, 1, .crypt, [⟨31, 0, .wo, 0, 0, 4294967295, false, [], true⟩]⟩,
  ⟨0x4000002c, 0x0, 1, .crypt, [⟨31, 0, .wo, 0, 0, 4294967295, false, [], true⟩]⟩,
  ⟨0x40000030, 0x0, 1, .crypt, [⟨10, 0, .rw, 0, 0, 2047, false, [], true⟩]⟩,
  ⟨0x40000034, 0x0, 1, .crypt, [⟨31, 0, .ro, 0, 0, 4294967295, false, [], false⟩]⟩,
  ⟨0x40000040, 0x0, 1, .crypt, [⟨7, 6, .ro, 2, 0, 3, false, [], false⟩, ⟨5, 4, .ro, 2, 0, 3, false, [], false⟩, ⟨3, 2, .ro, 2, 0, 3, false, [], false⟩, ⟨1, 0, .ro, 2, 0, 3, false, [], false⟩]⟩,
  ⟨0x40000044, 0x0, 1, .crypt, [⟨31, 16, .rz, 0, 0, 65535, false, [], false⟩, ⟨15, 0, .rz, 0, 0, 65535, false, [], false⟩]⟩,
  ⟨0x40000048, 0x8, 2, .crypt, [⟨31, 0, .ro, 0, 0, 4294967295, false, [], false⟩]⟩,
  ⟨0x4000004c, 0x8, 2, .crypt, [⟨31, 24, .rz, 0, 0, 255, false, [], false⟩, ⟨5, 5, .ro, 0, 0, 1, false, [], false⟩, ⟨4, 4, .ro, 0, 0, 1, false, [], false⟩, ⟨3, 0, .ro, 0, 0, 15, false, [], false⟩]⟩,
  ⟨0x40000058, 0x4, 2, .crypt, [⟨31, 26, .ro, 0, 0, 63, false, [], false⟩, ⟨7, 0, .ro, 0, 0, 255, false, [], false⟩]⟩]

/-- Registers of block SYS (part 1). -/
def regsSys1 : List RegSpec := [
  ⟨0x40000060, 0x10, 2, .crypt, [⟨31, 31, .ro, 0, 0, 1, false, [], false⟩, ⟨11, 11, .ro, 0, 0, 1, false, [], false⟩, ⟨10, 10, .ro, 0, 0, 1, false, [], false⟩, ⟨9, 9, .ro, 0, 0, 1, false, [], false⟩, ⟨7, 4, .ro, 0, 0, 15, false, [], false⟩, ⟨2, 0, .wo, 0, 0, 7, false, [], false⟩]⟩,
  ⟨0x40000064, 0x10, 2, .crypt, [⟨31, 0, .rw, 0, 0, 4294967295, false, [], false⟩]⟩,
  ⟨0x40000068, 0x10, 2, .crypt, [⟨31, 0, .wo, 0, 0, 4294967295, false, [], false⟩]⟩,
  ⟨0x4000006c, 0x10, 2, .crypt, [⟨31, 0, .wo, 0, 0, 4294967295, false, [], false⟩]⟩,
  ⟨0x40000100, 0x4, 67, .unit, [⟨31, 31, .ro, 0, 0, 1, false, [], false⟩, ⟨30, 30, .ro, 0, 0, 1, false, [], false⟩, ⟨17, 10, .ro, 0, 0, 255, false, [], false⟩, ⟨9, 8, .ro, 0, 0, 3, false, [], false⟩, ⟨7, 0, .ro, 0, 0, 255, false, [], false⟩]⟩]

/-- Registers of block QUE (part 0). -/
def regsQue0 : List RegSpec := [
  ⟨0x40010000, 0x20, 256, .shared, [⟨31, 31, .rw, 0, 0, 1, false, [], false⟩, ⟨30, 28, .rw, 0, 0, 7, false, [4, 5, 6, 7], false⟩, ⟨27, 27, .rw, 0, 0, 1, false, [], false⟩, ⟨23, 12, .rw, 0, 0, 4095, false, [], false⟩, ⟨11, 0, .rw, 0, 0, 4095, false, [], false⟩]⟩,
  ⟨0x40010004, 0x20, 256, .shared, [⟨31, 30, .ro, 0, 0, 3, false, [], false⟩, ⟨29, 29, .ro, 0, 0, 1, false, [], false⟩, ⟨28, 28, .ro, 0, 0, 1, false, [], false⟩, ⟨27, 20, .rz, 0, 0, 255, false, [], false⟩, ⟨19, 19, .ro, 0, 0, 1, false, [], false⟩, ⟨18, 0, .ro, 0, 0, 524287, false, [], false⟩]⟩,
  ⟨0x40010008, 0x20, 256, .shared, [⟨19, 0, .ro, 0, 0, 1048575, false, [], false⟩]⟩,
  ⟨0x4001000c, 0x20, 256, .shared, [⟨31, 24, .rz, 0, 0, 255, false, [], false⟩, ⟨23, 16, .rz, 0, 0, 255, false, [], false⟩]⟩,
  ⟨0x40010010, 0x20, 256, .shared, [⟨27, 16, .rz, 0, 0, 4095, false, [], false⟩, ⟨11, 0, .ro, 0, 0, 4095, false, [], false⟩]⟩,
  ⟨0x40012000, 0x0, 1, .shared, [⟨27, 16, .rw, 2048, 0, 4095, false, [], true⟩, ⟨12, 0, .ro, 0, 0, 8191, false, [], false⟩]⟩,
  ⟨0x40012004, 0x0, 1, .shared, [⟨28, 16, .ro, 4096, 0, 8191, false, [], false⟩, ⟨12, 0, .ro, 0, 0, 8191, false, [], false⟩]⟩,
  ⟨0x40012008, 0x0, 1, .shared, [⟨28, 16, .ro, 0, 0, 8191, false, [], false⟩, ⟨12, 0, .ro, 0, 0, 8191, false, [], false⟩]⟩,
  ⟨0x4001200c, 0x0, 1, .shared, [⟨31, 24, .rz, 0, 0, 255, false, [], false⟩, ⟨23, 16, .rz, 0, 0, 255, false, [], false⟩, ⟨7, 0, .ro, 0, 0, 255, false, [], false⟩]⟩,
  ⟨0x40012010, 0x0, 1, .shared, [⟨31, 16, .rz, 0, 0, 65535, false, [], false⟩, ⟨15, 0, .rz, 0, 0, 65535, false, [], false⟩]⟩,
  ⟨0x40012014, 0x0, 1, .shared, [⟨31, 16, .rz, 0, 0, 65535, false, [], false⟩, ⟨15, 0, .rz, 0, 0, 65535, false, [], false⟩]⟩,
  ⟨0x40012018, 0x0, 1, .shared, [⟨31, 16, .rz, 0, 0, 65535, false, [], false⟩, ⟨15, 0, .rz, 0, 0, 65535, false, [], false⟩]⟩]

/-- Registers of block ISLE (part 0). -/
def regsIsle0 : List RegSpec := [
  ⟨0x40020000, 0x1000, 16, .choir, [⟨31, 31, .rw, 0, 0, 1, false, [], false⟩]⟩,
  ⟨0x40020004, 0x1000, 16, .choir, [⟨31, 30, .ro, 0, 0, 3, false, [], false⟩, ⟨29, 29, .ro, 0, 0, 1, false, [], false⟩, ⟨28, 28, .ro, 0, 0, 1, false, [], false⟩, ⟨27, 27, .ro, 0, 0, 1, false, [], false⟩, ⟨26, 26, .ro, 0, 0, 1, false, [], false⟩, ⟨25, 25, .ro, 0, 0, 1, false, [], false⟩]⟩,
  ⟨0x40020008, 0x1000, 16, .choir, [⟨15, 0, .rw, 0, 0, 65535, false, [], false⟩]⟩,
  ⟨0x4002000c, 0x1000, 16, .choir, [⟨6, 0, .rw, 0, 0, 111, false, [], false⟩]⟩,
  ⟨0x40020010, 0x1000, 16, .choir, [⟨31, 16, .ro, 0, 0, 65535, false, [], false⟩, ⟨15, 0, .rw, 0, 0, 65535, false, [], false⟩]⟩,
  ⟨0x40020014, 0x1000, 16, .choir, [⟨31, 30, .rw, 0, 0, 3, false, [3], false⟩, ⟨23, 16, .rw, 255, 0, 255, false, [], false⟩, ⟨15, 8, .rw, 1, 0, 255, false, [], false⟩, ⟨7, 0, .rw, 4, 0, 255, false, [], false⟩]⟩,
  ⟨0x40020018, 0x1000, 16, .choir, [⟨23, 16, .ro, 4, 0, 255, false, [], false⟩, ⟨10, 0, .ro, 0, 0, 2047, false, [], false⟩]⟩,
  ⟨0x4002001c, 0x1000, 16, .choir, [⟨31, 24, .rz, 0, 0, 255, false, [], false⟩, ⟨18, 16, .ro, 0, 0, 7, false, [], false⟩, ⟨14, 8, .ro, 0, 0, 127, false, [], false⟩]⟩,
  ⟨0x40020020, 0x1000, 16, .choir, [⟨22, 16, .ro, 0, 0, 127, false, [], false⟩, ⟨12, 0, .ro, 0, 0, 8191, false, [], false⟩]⟩,
  ⟨0x40020024, 0x1000, 16, .choir, [⟨22, 16, .ro, 0, 0, 127, false, [], false⟩, ⟨5, 5, .w1c, 0, 0, 1, false, [], false⟩, ⟨4, 4, .w1c, 0, 0, 1, false, [], false⟩, ⟨3, 3, .w1c, 0, 0, 1, false, [], false⟩, ⟨2, 2, .w1c, 0, 0, 1, false, [], false⟩, ⟨1, 1, .w1c, 0, 0, 1, false, [], false⟩]⟩]

/-- Registers of block ISLE0 (part 0). -/
def regsIsle00 : List RegSpec := [
  ⟨0x40020700, 0x0, 1, .choir, [⟨31, 16, .rw, 100, 1, 65535, false, [], false⟩, ⟨15, 0, .rw, 0, 0, 65535, false, [], false⟩]⟩,
  ⟨0x40020704, 0x0, 1, .choir, [⟨31, 16, .rz, 0, 0, 65535, false, [], false⟩, ⟨15, 1, .ro, 0, 0, 32767, false, [], false⟩]⟩,
  ⟨0x40020800, 0x10, 128, .choir, [⟨31, 31, .rw, 0, 0, 1, false, [], false⟩, ⟨30, 29, .rw, 0, 0, 3, false, [], false⟩, ⟨28, 28, .rw, 0, 0, 1, false, [], false⟩, ⟨27, 27, .rw, 0, 0, 1, false, [], false⟩, ⟨25, 24, .rw, 0, 0, 3, false, [3], false⟩, ⟨22, 16, .rw, 0, 0, 127, false, [], false⟩, ⟨14, 8, .rw, 0, 0, 127, false, [], false⟩, ⟨7, 4, .rw, 0, 0, 15, false, [], false⟩]⟩,
  ⟨0x40020804, 0x10, 128, .choir, [⟨29, 22, .rw, 0, 0, 255, false, [], false⟩, ⟨21, 18, .rw, 0, 0, 8, false, [], false⟩, ⟨17, 13, .rw, 0, 0, 31, false, [], false⟩, ⟨12, 0, .rw, 100, 100, 5000, false, [], false⟩]⟩,
  ⟨0x40020808, 0x10, 128, .choir, [⟨29, 27, .rw, 0, 0, 7, false, [5, 6, 7], false⟩, ⟨26, 24, .rw, 0, 0, 7, false, [5, 6, 7], false⟩, ⟨23, 0, .rw, 0, 0, 16777215, false, [], false⟩]⟩,
  ⟨0x4002080c, 0x10, 128, .choir, [⟨31, 24, .ro, 0, 0, 255, false, [], false⟩, ⟨23, 16, .rw, 132, 0, 132, false, [], false⟩, ⟨15, 8, .rw, 0, 0, 132, false, [], false⟩, ⟨7, 0, .rw, 0, 0, 132, false, [], false⟩]⟩]

/-- Registers of block CIM (part 0). -/
def regsCim0 : List RegSpec := [
  ⟨0x40030000, 0x400, 32, .shared, [⟨31, 31, .rw, 0, 0, 1, false, [], false⟩]⟩,
  ⟨0x40030004, 0x400, 32, .shared, [⟨31, 30, .ro, 0, 0, 3, false, [], false⟩, ⟨29, 29, .ro, 0, 0, 1, false, [], false⟩, ⟨28, 28, .ro, 1, 0, 1, false, [], false⟩, ⟨23, 16, .ro, 0, 0, 255, false, [], false⟩, ⟨8, 0, .ro, 0, 0, 511, false, [], false⟩]⟩,
  ⟨0x40030008, 0x400, 32, .shared, [⟨31, 16, .rz, 0, 0, 65535, false, [], false⟩, ⟨7, 0, .ro, 0, 0, 255, false, [], false⟩]⟩,
  ⟨0x40038000, 0x100, 4, .shared, [⟨31, 16, .ro, 0, 0, 65535, false, [], false⟩, ⟨11, 11, .rw, 0, 0, 1, false, [], true⟩, ⟨9, 8, .ro, 0, 0, 3, false, [], false⟩, ⟨7, 7, .ro, 0, 0, 1, false, [], false⟩, ⟨6, 4, .ro, 0, 0, 7, false, [], false⟩, ⟨2, 0, .ro, 0, 0, 7, false, [], false⟩]⟩,
  ⟨0x40038004, 0x100, 4, .shared, [⟨15, 0, .rw, 0, 0, 65535, false, [], true⟩]⟩,
  ⟨0x40038008, 0x100, 4, .shared, [⟨31, 31, .rw, 0, 0, 1, false, [], false⟩]⟩,
  ⟨0x4003800c, 0x100, 4, .shared, [⟨31, 30, .ro, 0, 0, 3, false, [], false⟩, ⟨29, 29, .ro, 0, 0, 1, false, [], false⟩, ⟨28, 28, .ro, 0, 0, 1, false, [], false⟩, ⟨27, 27, .ro, 0, 0, 1, false, [], false⟩, ⟨26, 24, .ro, 0, 0, 7, false, [], false⟩, ⟨11, 0, .ro, 0, 0, 4095, false, [], false⟩]⟩,
  ⟨0x40038010, 0x100, 4, .shared, [⟨15, 8, .rw, 255, 0, 255, false, [], false⟩, ⟨1, 0, .rw, 0, 0, 3, false, [], false⟩]⟩,
  ⟨0x40038014, 0x100, 4, .shared, [⟨7, 0, .rw, 0, 0, 255, false, [], false⟩]⟩,
  ⟨0x40038018, 0x100, 4, .shared, [⟨19, 0, .rw, 0, 0, 1048575, false, [], false⟩]⟩,
  ⟨0x4003801c, 0x100, 4, .shared, [⟨31, 30, .rw, 0, 0, 3, false, [3], false⟩, ⟨23, 16, .rw, 255, 1, 255, false, [], false⟩, ⟨15, 8, .rw, 1, 1, 255, false, [], false⟩, ⟨7, 0, .rw, 10, 1, 255, false, [], false⟩]⟩,
  ⟨0x40038020, 0x100, 4, .shared, [⟨31, 20, .rz, 0, 0, 4095, false, [], false⟩, ⟨19, 16, .rz, 0, 0, 15, false, [], false⟩, ⟨15, 8, .rz, 0, 0, 255, false, [], false⟩, ⟨7, 0, .ro, 10, 0, 255, false, [], false⟩]⟩,
  ⟨0x40038024, 0x100, 4, .shared, [⟨28, 24, .ro, 0, 0, 31, false, [], false⟩, ⟨23, 16, .ro, 0, 0, 255, false, [], false⟩, ⟨5, 5, .w1c, 0, 0, 1, false, [], false⟩, ⟨4, 4, .w1c, 0, 0, 1, false, [], false⟩, ⟨3, 3, .w1c, 0, 0, 1, false, [], false⟩, ⟨2, 2, .w1c, 0, 0, 1, false, [], false⟩, ⟨1, 1, .w1c, 0, 0, 1, false, [], false⟩]⟩,
  ⟨0x40038028, 0x100, 4, .shared, [⟨31, 16, .rz, 0, 0, 65535, false, [], false⟩, ⟨15, 0, .rz, 0, 0, 65535, false, [], false⟩]⟩,
  ⟨0x4003802c, 0x100, 4, .shared, [⟨31, 16, .rz, 0, 0, 65535, false, [], false⟩, ⟨15, 0, .rz, 0, 0, 65535, false, [], false⟩]⟩,
  ⟨0x40038030, 0x100, 4, .shared, [⟨7, 0, .wo, 0, 0, 255, false, [], false⟩]⟩]

/-- Registers of block QTY (part 0). -/
def regsQty0 : List RegSpec := [
  ⟨0x40040000, 0x0, 1, .choir, [⟨31, 31, .rw, 0, 0, 1, false, [], false⟩]⟩,
  ⟨0x40040004, 0x0, 1, .choir, [⟨31, 30, .ro, 0, 0, 3, false, [], false⟩, ⟨29, 29, .ro, 0, 0, 1, false, [], false⟩]⟩,
  ⟨0x40040008, 0x0, 1, .choir, [⟨12, 8, .ro, 0, 0, 31, false, [], false⟩, ⟨3, 3, .w1c, 0, 0, 1, false, [], false⟩, ⟨2, 2, .w1c, 0, 0, 1, false, [], false⟩, ⟨1, 1, .w1c, 0, 0, 1, false, [], false⟩, ⟨0, 0, .w1c, 0, 0, 1, false, [], false⟩]⟩,
  ⟨0x40040020, 0x4, 8, .choir, [⟨31, 0, .sl, 0, 0, 4294967295, false, [], false⟩]⟩,
  ⟨0x40040040, 0x4, 8, .choir, [⟨31, 0, .wo, 0, 0, 4294967295, false, [], false⟩]⟩,
  ⟨0x40040060, 0x4, 16, .choir, [⟨31, 31, .rw, 0, 0, 1, false, [], false⟩, ⟨8, 0, .rw, 0, 0, 391, false, [], false⟩]⟩,
  ⟨0x40041000, 0x20, 128, .choir, [⟨31, 31, .sl, 0, 0, 1, false, [], false⟩, ⟨28, 24, .sl, 0, 0, 31, false, [], false⟩, ⟨9, 0, .sl, 30, 0, 600, false, [], false⟩]⟩,
  ⟨0x40041004, 0x20, 128, .choir, [⟨24, 0, .sl, 0, 1, 20000000, false, [], false⟩]⟩,
  ⟨0x40041008, 0x20, 128, .choir, [⟨31, 16, .sl, 0, 0, 65535, false, [], false⟩, ⟨15, 0, .sl, 0, 0, 65535, false, [], false⟩]⟩,
  ⟨0x4004100c, 0x20, 128, .choir, [⟨31, 16, .sl, 0, 0, 65535, false, [], false⟩, ⟨15, 0, .sl, 16384, 0, 65535, false, [], false⟩]⟩,
  ⟨0x40041010, 0x20, 128, .choir, [⟨31, 30, .ro, 0, 0, 3, false, [], false⟩, ⟨29, 29, .ro, 0, 0, 1, false, [], false⟩, ⟨15, 0, .ro, 0, 0, 65535, false, [], false⟩]⟩,
  ⟨0x40041014, 0x20, 128, .choir, [⟨31, 0, .ro, 0, 0, 4294967295, false, [], false⟩]⟩,
  ⟨0x40042000, 0x40, 32, .choir, [⟨31, 31, .sl, 0, 0, 1, false, [], false⟩, ⟨30, 30, .sl, 0, 0, 1, false, [], false⟩, ⟨29, 29, .sl, 0, 0, 1, false, [], false⟩, ⟨28, 28, .sl, 0, 0, 1, false, [], false⟩, ⟨27, 26, .sl, 0, 0, 3, false, [], false⟩, ⟨24, 18, .sl, 0, 0, 127, false, [], false⟩, ⟨15, 0, .sl, 5, 0, 65535, false, [], false⟩]⟩,
  ⟨0x40042004, 0x40, 32, .choir, [⟨31, 0, .sl, 0, 0, 4294967295, false, [], false⟩]⟩,
  ⟨0x40042008, 0x40, 32, .choir, [⟨31, 31, .sl, 0, 0, 1, false, [], false⟩, ⟨30, 30, .sl, 0, 0, 1, false, [], false⟩, ⟨29, 23, .sl, 0, 0, 127, false, [], false⟩, ⟨22, 16, .sl, 0, 0, 127, false, [], false⟩, ⟨7, 0, .sl, 20, 0, 255, false, [], false⟩]⟩,
  ⟨0x4004200c, 0x40, 32, .choir, [⟨31, 16, .sl, 500, 1, 65535, false, [], false⟩, ⟨11, 0, .sl, 16, 1, 3600, false, [], false⟩]⟩]

/-- Registers of block QTY (part 1). -/
def regsQty1 : List RegSpec := [
  ⟨0x40042010, 0x40, 32, .choir, [⟨31, 31, .ro, 0, 0, 1, false, [], false⟩, ⟨30, 30, .ro, 0, 0, 1, false, [], false⟩, ⟨29, 29, .ro, 0, 0, 1, false, [], false⟩, ⟨28, 28, .ro, 0, 0, 1, false, [], false⟩, ⟨7, 4, .ro, 0, 0, 15, false, [], false⟩, ⟨3, 0, .ro, 0, 0, 15, false, [], false⟩]⟩,
  ⟨0x40042014, 0x40, 32, .choir, [⟨31, 0, .ro, 0, 0, 4294967295, false, [], false⟩]⟩,
  ⟨0x40042018, 0x40, 32, .choir, [⟨15, 0, .sl, 0, 0, 65535, false, [], false⟩]⟩,
  ⟨0x4004201c, 0x40, 32, .choir, [⟨31, 16, .ro, 0, 0, 65535, false, [], false⟩, ⟨15, 0, .ro, 0, 0, 65535, false, [], false⟩]⟩,
  ⟨0x40042020, 0x40, 32, .choir, [⟨31, 16, .ro, 0, 0, 65535, false, [], false⟩, ⟨15, 0, .ro, 0, 0, 65535, false, [], false⟩]⟩,
  ⟨0x40042024, 0x40, 32, .choir, [⟨31, 0, .ro, 0, 0, 4294967295, false, [], false⟩]⟩,
  ⟨0x40042028, 0x40, 32, .choir, [⟨7, 0, .ro, 0, 0, 255, false, [], false⟩]⟩,
  ⟨0x40042800, 0x8, 64, .choir, [⟨15, 0, .sl, 0, 0, 65535, false, [], false⟩]⟩,
  ⟨0x40042804, 0x8, 64, .choir, [⟨31, 0, .sl, 0, 0, 4294967295, false, [], false⟩]⟩,
  ⟨0x40043000, 0x8, 128, .choir, [⟨23, 0, .sl, 0, 0, 16777215, false, [], false⟩]⟩,
  ⟨0x40043004, 0x8, 128, .choir, [⟨19, 0, .sl, 0, 0, 1048575, false, [], false⟩]⟩,
  ⟨0x40043400, 0x10, 32, .choir, [⟨31, 30, .sl, 0, 0, 3, false, [3], false⟩, ⟨29, 29, .sl, 0, 0, 1, false, [], false⟩, ⟨28, 25, .sl, 4, 1, 15, false, [], false⟩, ⟨22, 16, .sl, 0, 0, 127, false, [], false⟩, ⟨11, 0, .sl, 200, -400, 1050, true, [], false⟩]⟩,
  ⟨0x40043404, 0x10, 32, .choir, [⟨31, 31, .ro, 0, 0, 1, false, [], false⟩, ⟨15, 8, .rw, 0, 0, 255, false, [], false⟩, ⟨2, 0, .rw, 6, 0, 7, false, [7], false⟩]⟩,
  ⟨0x40043408, 0x10, 32, .choir, [⟨31, 16, .ro, 0, 0, 65535, false, [], false⟩, ⟨12, 12, .ro, 0, 0, 1, false, [], false⟩, ⟨11, 8, .ro, 0, 0, 15, false, [], false⟩, ⟨6, 4, .ro, 6, 0, 7, false, [], false⟩, ⟨2, 0, .ro, 6, 0, 7, false, [], false⟩]⟩,
  ⟨0x4004340c, 0x10, 32, .choir, [⟨31, 16, .ro, 0, 0, 65535, false, [], false⟩, ⟨15, 0, .ro, 0, 0, 65535, false, [], false⟩]⟩,
  ⟨0x40043600, 0x0, 1, .choir, [⟨31, 24, .sl, 150, 0, 255, false, [], false⟩, ⟨23, 16, .sl, 30, 0, 255, false, [], false⟩, ⟨15, 0, .sl, 260, 0, 65535, false, [], false⟩]⟩]

/-- Registers of block QTY (part 2). -/
def regsQty2 : List RegSpec := [
  ⟨0x40043610, 0x0, 1, .choir, [⟨31, 31, .wo, 0, 0, 1, false, [], false⟩, ⟨30, 30, .ro, 0, 0, 1, false, [], false⟩, ⟨29, 29, .w1c, 0, 0, 1, false, [], false⟩, ⟨22, 16, .rw, 0, 0, 127, false, [], false⟩, ⟨11, 0, .rw, 256, 16, 4095, false, [], false⟩]⟩,
  ⟨0x40043614, 0x0, 1, .choir, [⟨11, 0, .ro, 0, 0, 4095, false, [], false⟩]⟩,
  ⟨0x40043618, 0x0, 1, .choir, [⟨31, 0, .ro, 0, 0, 4294967295, false, [], false⟩]⟩,
  ⟨0x4004361c, 0x0, 1, .choir, [⟨31, 0, .ro, 0, 0, 4294967295, false, [], false⟩]⟩,
  ⟨0x40043620, 0x0, 1, .choir, [⟨31, 0, .ro, 0, 0, 4294967295, false, [], false⟩]⟩,
  ⟨0x40043640, 0x4, 16, .choir, [⟨25, 24, .sl, 2, 0, 3, false, [3], false⟩, ⟨22, 0, .sl, 1000000, 0, 8388607, false, [], false⟩]⟩]

/-- Registers of block OUT (part 0). -/
def regsOut0 : List RegSpec := [
  ⟨0x40050000, 0x0, 1, .nave, [⟨0, 0, .rw, 1, 0, 1, false, [], false⟩]⟩,
  ⟨0x40050004, 0x0, 1, .nave, [⟨9, 8, .rw, 0, 0, 3, false, [], true⟩, ⟨7, 0, .rw, 0, 0, 255, false, [], true⟩]⟩,
  ⟨0x40050008, 0x0, 1, .nave, [⟨15, 8, .rz, 0, 0, 255, false, [], false⟩, ⟨3, 3, .w1c, 0, 0, 1, false, [], false⟩, ⟨2, 2, .ro, 0, 0, 1, false, [], false⟩, ⟨1, 1, .ro, 0, 0, 1, false, [], false⟩, ⟨0, 0, .ro, 0, 0, 1, false, [], false⟩]⟩,
  ⟨0x40050100, 0x20, 8, .nave, [⟨31, 31, .rw, 0, 0, 1, false, [], false⟩, ⟨30, 28, .rw, 0, 0, 7, false, [3, 4, 5, 6, 7], false⟩, ⟨27, 26, .rw, 0, 0, 3, false, [3], false⟩, ⟨24, 16, .rw, 0, 0, 511, false, [], false⟩, ⟨7, 0, .rw, 10, 1, 255, false, [], false⟩]⟩,
  ⟨0x40050104, 0x20, 8, .nave, [⟨31, 0, .rw, 1, 1, 4294967295, false, [], false⟩]⟩,
  ⟨0x40050108, 0x20, 8, .nave, [⟨31, 16, .rw, 5000, 1, 65535, false, [], false⟩, ⟨15, 0, .rw, 5000, 1, 65535, false, [], false⟩]⟩,
  ⟨0x4005010c, 0x20, 8, .nave, [⟨31, 30, .ro, 0, 0, 3, false, [], false⟩, ⟨29, 29, .ro, 0, 0, 1, false, [], false⟩, ⟨28, 28, .ro, 0, 0, 1, false, [], false⟩, ⟨23, 16, .ro, 0, 0, 255, false, [], false⟩, ⟨1, 1, .w1c, 0, 0, 1, false, [], false⟩, ⟨0, 0, .w1c, 0, 0, 1, false, [], false⟩]⟩,
  ⟨0x40050110, 0x20, 8, .nave, [⟨31, 24, .rz, 0, 0, 255, false, [], false⟩, ⟨23, 0, .ro, 0, 0, 16777215, false, [], false⟩]⟩,
  ⟨0x40050114, 0x20, 8, .nave, [⟨31, 0, .ro, 0, 0, 4294967295, false, [], false⟩]⟩,
  ⟨0x40050118, 0x20, 8, .nave, [⟨31, 0, .ro, 0, 0, 4294967295, false, [], false⟩]⟩,
  ⟨0x4005011c, 0x20, 8, .nave, [⟨23, 0, .wo, 0, 0, 16777215, false, [], false⟩]⟩,
  ⟨0x40050300, 0x20, 2, .nave, [⟨31, 31, .rw, 0, 0, 1, false, [], false⟩, ⟨30, 28, .rw, 0, 0, 7, false, [4, 5, 6, 7], false⟩, ⟨27, 27, .rw, 0, 0, 1, false, [], false⟩, ⟨26, 26, .rw, 0, 0, 1, false, [], false⟩, ⟨25, 25, .rw, 0, 0, 1, false, [], false⟩, ⟨24, 24, .rw, 0, 0, 1, false, [], false⟩, ⟨16, 8, .rw, 0, 0, 411, false, [], false⟩, ⟨7, 0, .rw, 10, 1, 255, false, [], false⟩]⟩,
  ⟨0x40050304, 0x20, 2, .nave, [⟨31, 0, .rw, 0, 0, 4294967295, false, [], false⟩]⟩,
  ⟨0x40050308, 0x20, 2, .nave, [⟨31, 0, .rw, 0, 0, 4294967295, false, [], false⟩]⟩,
  ⟨0x4005030c, 0x20, 2, .nave, [⟨15, 0, .rw, 7000, 7000, 46000, false, [], false⟩]⟩,
  ⟨0x40050310, 0x20, 2, .nave, [⟨5, 0, .rw, 10, 1, 60, false, [], false⟩]⟩]

/-- Registers of block OUT (part 1). -/
def regsOut1 : List RegSpec := [
  ⟨0x40050314, 0x20, 2, .nave, [⟨31, 30, .ro, 0, 0, 3, false, [], false⟩, ⟨5, 5, .ro, 0, 0, 1, false, [], false⟩, ⟨4, 4, .ro, 0, 0, 1, false, [], false⟩, ⟨3, 3, .ro, 0, 0, 1, false, [], false⟩, ⟨2, 2, .ro, 0, 0, 1, false, [], false⟩, ⟨1, 1, .ro, 0, 0, 1, false, [], false⟩, ⟨0, 0, .w1c, 0, 0, 1, false, [], false⟩]⟩,
  ⟨0x40050318, 0x20, 2, .nave, [⟨15, 0, .ro, 0, 0, 65535, false, [], false⟩]⟩,
  ⟨0x4005031c, 0x20, 2, .nave, [⟨31, 16, .ro, 0, 0, 65535, false, [], false⟩, ⟨15, 0, .ro, 0, 0, 65535, false, [], false⟩]⟩]

/-- Registers of block ROOD (part 0). -/
def regsRood0 : List RegSpec := [
  ⟨0x40060000, 0x0, 1, .shared, [⟨31, 24, .sl, 0, 0, 255, false, [], false⟩, ⟨8, 1, .sl, 255, 0, 255, false, [], false⟩]⟩,
  ⟨0x40060004, 0x0, 1, .shared, [⟨31, 31, .ro, 0, 0, 1, false, [], false⟩, ⟨30, 30, .ro, 0, 0, 1, false, [], false⟩, ⟨23, 16, .ro, 0, 0, 255, false, [], false⟩, ⟨11, 8, .ro, 0, 0, 15, false, [], false⟩, ⟨7, 0, .ro, 0, 0, 255, false, [], false⟩]⟩,
  ⟨0x40060100, 0x4, 32, .shared, [⟨31, 16, .sl, 600, 0, 65535, false, [], false⟩, ⟨15, 0, .sl, 10, 0, 65535, false, [], false⟩]⟩,
  ⟨0x40068004, 0x0, 1, .view, [⟨31, 31, .ro, 0, 0, 1, false, [], false⟩, ⟨30, 30, .ro, 0, 0, 1, false, [], false⟩, ⟨23, 16, .rz, 0, 0, 255, false, [], false⟩, ⟨11, 8, .ro, 0, 0, 15, false, [], false⟩, ⟨7, 0, .ro, 0, 0, 255, false, [], false⟩]⟩]

/-- Registers of block SACR (part 0). -/
def regsSacr0 : List RegSpec := [
  ⟨0x40070000, 0x0, 1, .crypt, [⟨31, 24, .ro, 0, 0, 255, false, [], false⟩, ⟨23, 16, .ro, 0, 0, 255, false, [], false⟩, ⟨11, 11, .ro, 0, 0, 1, false, [], false⟩, ⟨10, 10, .ro, 0, 0, 1, false, [], false⟩, ⟨9, 9, .ro, 0, 0, 1, false, [], false⟩, ⟨8, 8, .ro, 0, 0, 1, false, [], false⟩, ⟨1, 0, .ro, 0, 0, 3, false, [], false⟩]⟩,
  ⟨0x40070004, 0x0, 1, .choir, [⟨31, 16, .wo, 0, 0, 65535, false, [], false⟩, ⟨0, 0, .wo, 0, 0, 1, false, [], false⟩]⟩,
  ⟨0x40070010, 0x0, 1, .choir, [⟨31, 16, .ro, 0, 0, 65535, false, [], false⟩, ⟨15, 0, .ro, 0, 0, 65535, false, [], false⟩]⟩,
  ⟨0x40070018, 0x4, 2, .array, [⟨31, 0, .ro, 0, 0, 4294967295, false, [], false⟩]⟩,
  ⟨0x40070020, 0x4, 8, .choir, [⟨31, 0, .ro, 0, 0, 4294967295, false, [], false⟩]⟩,
  ⟨0x40070040, 0x4, 16, .choir, [⟨31, 0, .wo, 0, 0, 4294967295, false, [], false⟩]⟩,
  ⟨0x40070080, 0x0, 1, .choir, [⟨11, 8, .wo, 0, 0, 15, false, [], false⟩, ⟨2, 0, .wo, 0, 0, 7, false, [], false⟩]⟩,
  ⟨0x40070084, 0x0, 1, .choir, [⟨31, 31, .ro, 0, 0, 1, false, [], false⟩, ⟨30, 28, .ro, 0, 0, 7, false, [], false⟩, ⟨23, 0, .ro, 0, 0, 16777215, false, [], false⟩]⟩,
  ⟨0x40070088, 0x0, 1, .array, [⟨15, 12, .ro, 0, 0, 15, false, [], false⟩, ⟨11, 8, .ro, 0, 0, 15, false, [], false⟩, ⟨7, 0, .ro, 0, 0, 255, false, [], false⟩]⟩,
  ⟨0x400700a0, 0x0, 1, .choir, [⟨31, 31, .ro, 0, 0, 1, false, [], false⟩, ⟨30, 30, .wo, 0, 0, 1, false, [], false⟩, ⟨29, 29, .wo, 0, 0, 1, false, [], false⟩, ⟨28, 28, .ro, 0, 0, 1, false, [], false⟩, ⟨26, 24, .rw, 0, 0, 7, false, [], false⟩, ⟨11, 0, .rw, 0, 16, 4095, false, [], false⟩]⟩,
  ⟨0x400700a4, 0x0, 1, .choir, [⟨31, 0, .wo, 0, 0, 4294967295, false, [], false⟩]⟩,
  ⟨0x400700a8, 0x0, 1, .array, [⟨31, 0, .ro, 0, 0, 4294967295, false, [], false⟩]⟩,
  ⟨0x400700b0, 0x4, 4, .choir, [⟨31, 0, .ro, 0, 0, 4294967295, false, [], false⟩]⟩,
  ⟨0x400700c0, 0x0, 1, .choir, [⟨31, 31, .ro, 0, 0, 1, false, [], false⟩, ⟨30, 30, .ro, 0, 0, 1, false, [], false⟩, ⟨29, 29, .ro, 0, 0, 1, false, [], false⟩, ⟨28, 28, .ro, 0, 0, 1, false, [], false⟩, ⟨1, 1, .wo, 0, 0, 1, false, [], false⟩, ⟨0, 0, .wo, 0, 0, 1, false, [], false⟩]⟩,
  ⟨0x40078000, 0x0, 1, .view, [⟨31, 0, .ro, 0, 0, 4294967295, false, [], false⟩]⟩,
  ⟨0x40078010, 0x0, 1, .view, [⟨31, 0, .ro, 0, 0, 4294967295, false, [], false⟩]⟩]

/-- Registers of block SACR (part 1). -/
def regsSacr1 : List RegSpec := [
  ⟨0x40078018, 0x4, 2, .view, [⟨31, 0, .ro, 0, 0, 4294967295, false, [], false⟩]⟩,
  ⟨0x40078020, 0x4, 8, .view, [⟨31, 0, .ro, 0, 0, 4294967295, false, [], false⟩]⟩,
  ⟨0x40078040, 0x4, 4, .choir, [⟨31, 0, .wo, 0, 0, 4294967295, false, [], false⟩]⟩,
  ⟨0x40078080, 0x0, 1, .choir, [⟨11, 8, .wo, 0, 0, 15, false, [], false⟩, ⟨2, 0, .wo, 0, 0, 7, false, [], false⟩]⟩,
  ⟨0x40078084, 0x0, 1, .choir, [⟨31, 31, .ro, 0, 0, 1, false, [], false⟩, ⟨30, 28, .ro, 0, 0, 7, false, [], false⟩, ⟨23, 0, .ro, 0, 0, 16777215, false, [], false⟩]⟩,
  ⟨0x40078088, 0x0, 1, .array, [⟨15, 8, .ro, 0, 0, 255, false, [], false⟩]⟩]

/-- Registers of block LEDG (part 0). -/
def regsLedg0 : List RegSpec := [
  ⟨0x40080000, 0x0, 1, .choir, [⟨10, 0, .rw, 15, 0, 1440, false, [], false⟩]⟩,
  ⟨0x40080004, 0x0, 1, .choir, [⟨31, 31, .ro, 0, 0, 1, false, [], false⟩, ⟨30, 30, .ro, 0, 0, 1, false, [], false⟩, ⟨29, 29, .ro, 0, 0, 1, false, [], false⟩, ⟨28, 28, .w1c, 0, 0, 1, false, [], false⟩, ⟨27, 27, .ro, 0, 0, 1, false, [], false⟩, ⟨26, 26, .ro, 0, 0, 1, false, [], false⟩, ⟨19, 16, .ro, 0, 0, 15, false, [], false⟩, ⟨7, 0, .rz, 0, 0, 255, false, [], false⟩]⟩,
  ⟨0x40080008, 0x0, 1, .choir, [⟨31, 0, .ro, 0, 0, 4294967295, false, [], false⟩]⟩,
  ⟨0x4008000c, 0x0, 1, .choir, [⟨31, 0, .ro, 0, 0, 4294967295, false, [], false⟩]⟩,
  ⟨0x40080100, 0x0, 1, .array, [⟨31, 31, .ro, 0, 0, 1, false, [], false⟩, ⟨30, 30, .ro, 0, 0, 1, false, [], false⟩, ⟨27, 16, .ro, 0, 0, 4095, false, [], false⟩, ⟨10, 0, .ro, 0, 0, 2047, false, [], false⟩]⟩,
  ⟨0x40080104, 0x0, 1, .choir, [⟨10, 0, .rw, 0, 0, 1791, false, [], false⟩]⟩,
  ⟨0x40080110, 0x4, 4, .choir, [⟨31, 0, .ro, 0, 0, 4294967295, false, [], false⟩]⟩]

/-- Registers of block CRYPT (part 0). -/
def regsCrypt0 : List RegSpec := [
  ⟨0x40090000, 0x0, 1, .crypt, [⟨31, 0, .ro, 0, 0, 4294967295, false, [], false⟩]⟩,
  ⟨0x40090004, 0x0, 1, .crypt, [⟨14, 0, .ro, 0, 0, 32767, false, [], false⟩]⟩,
  ⟨0x40090008, 0x0, 1, .crypt, [⟨31, 0, .wo, 0, 0, 4294967295, false, [], false⟩]⟩,
  ⟨0x4009000c, 0x0, 1, .crypt, [⟨31, 31, .ro, 0, 0, 1, false, [], false⟩, ⟨30, 30, .ro, 0, 0, 1, false, [], false⟩, ⟨29, 29, .ro, 1, 0, 1, false, [], false⟩]⟩,
  ⟨0x40090010, 0x0, 1, .crypt, [⟨31, 0, .ro, 0, 0, 4294967295, false, [], false⟩]⟩,
  ⟨0x40090014, 0x0, 1, .crypt, [⟨6, 0, .sl, 0, 0, 127, false, [], false⟩]⟩,
  ⟨0x40090018, 0x0, 1, .crypt, [⟨31, 31, .ro, 0, 0, 1, false, [], false⟩, ⟨30, 30, .w1c, 0, 0, 1, false, [], false⟩, ⟨29, 29, .ro, 0, 0, 1, false, [], false⟩, ⟨28, 28, .ro, 0, 0, 1, false, [], false⟩, ⟨27, 27, .w1c, 0, 0, 1, false, [], false⟩, ⟨2, 2, .ro, 0, 0, 1, false, [], false⟩, ⟨1, 1, .ro, 0, 0, 1, false, [], false⟩, ⟨0, 0, .ro, 0, 0, 1, false, [], false⟩]⟩,
  ⟨0x4009001c, 0x0, 1, .crypt, [⟨31, 31, .rw, 0, 0, 1, false, [], false⟩, ⟨7, 0, .rw, 20, 0, 255, false, [], false⟩]⟩,
  ⟨0x40090020, 0x0, 1, .crypt, [⟨2, 2, .rw, 0, 0, 1, false, [], false⟩, ⟨1, 1, .rw, 0, 0, 1, false, [], false⟩, ⟨0, 0, .rw, 0, 0, 1, false, [], false⟩]⟩,
  ⟨0x40090024, 0x0, 1, .crypt, [⟨31, 0, .rw, 0, 0, 4294967295, false, [], false⟩]⟩,
  ⟨0x40090100, 0x0, 1, .crypt, [⟨31, 24, .ro, 0, 0, 255, false, [], false⟩, ⟨23, 16, .ro, 0, 0, 255, false, [], false⟩, ⟨4, 4, .ro, 0, 0, 1, false, [], false⟩, ⟨3, 3, .ro, 0, 0, 1, false, [], false⟩, ⟨2, 2, .ro, 0, 0, 1, false, [], false⟩, ⟨1, 0, .ro, 0, 0, 3, false, [], false⟩]⟩,
  ⟨0x40090104, 0x0, 1, .crypt, [⟨16, 16, .wo, 0, 0, 1, false, [], false⟩, ⟨15, 14, .rw, 0, 0, 3, false, [3], false⟩, ⟨11, 8, .rw, 4, 0, 12, false, [], false⟩, ⟨5, 0, .rw, 10, 0, 30, false, [], false⟩]⟩,
  ⟨0x40090108, 0x0, 1, .crypt, [⟨27, 16, .ro, 0, 0, 4095, false, [], false⟩, ⟨11, 0, .ro, 0, 0, 4095, false, [], false⟩]⟩,
  ⟨0x4009010c, 0x0, 1, .crypt, [⟨8, 8, .rw, 0, 0, 1, false, [], false⟩, ⟨5, 0, .rw, 0, 0, 56, false, [], false⟩]⟩,
  ⟨0x40090110, 0x0, 1, .crypt, [⟨3, 3, .ro, 0, 0, 1, false, [], false⟩, ⟨2, 2, .w1c, 0, 0, 1, false, [], false⟩, ⟨1, 1, .ro, 0, 0, 1, false, [], false⟩, ⟨0, 0, .ro, 0, 0, 1, false, [], false⟩]⟩]

/-- Registers of block BELF (part 0). DESIGN CHOICE: R390 states no range for SET, MIN and MAX of PWR; a write is held to the port's
power range of R76 (R11; log entry 71). -/
def regsBelf0 : List RegSpec := [
  ⟨0x400a0100, 0x100, 2, .nave, [⟨31, 31, .rw, 0, 0, 1, false, [], false⟩, ⟨30, 30, .rw, 0, 0, 1, false, [], false⟩, ⟨29, 29, .rw, 0, 0, 1, false, [], false⟩, ⟨28, 27, .rw, 0, 0, 3, false, [3], false⟩, ⟨26, 26, .rw, 1, 0, 1, false, [], false⟩, ⟨24, 20, .rw, 8, 4, 31, false, [], false⟩, ⟨14, 12, .rw, 0, 0, 7, false, [], false⟩, ⟨10, 8, .rw, 3, 0, 7, false, [], false⟩, ⟨6, 0, .rw, 0, 0, 127, false, [], false⟩]⟩,
  ⟨0x400a0104, 0x100, 2, .nave, [⟨31, 30, .ro, 0, 0, 3, false, [], false⟩, ⟨29, 29, .ro, 0, 0, 1, false, [], false⟩, ⟨28, 28, .ro, 0, 0, 1, false, [], false⟩, ⟨27, 27, .ro, 0, 0, 1, false, [], false⟩, ⟨26, 26, .ro, 0, 0, 1, false, [], false⟩, ⟨7, 0, .ro, 0, 0, 255, false, [], false⟩]⟩,
  ⟨0x400a0108, 0, 1, .nave, [⟨31, 16, .rw, 2500, 100, 10000, false, [], false⟩, ⟨15, 0, .rw, 212, 0, 65535, false, [], false⟩]⟩,
  ⟨0x400a0208, 0, 1, .nave, [⟨31, 16, .rw, 1000, 100, 10000, false, [], false⟩, ⟨15, 0, .rw, 212, 0, 65535, false, [], false⟩]⟩,
  ⟨0x400a010c, 0x100, 2, .nave, [⟨31, 16, .rw, 1000, 200, 4000, false, [], false⟩, ⟨15, 0, .rw, 1000, 50, 4000, false, [], false⟩]⟩,
  ⟨0x400a0110, 0x100, 2, .nave, [⟨31, 0, .rw, 0, 0, 4294967295, false, [], false⟩]⟩,
  ⟨0x400a0114, 0x100, 2, .nave, [⟨7, 0, .rw, 0, 0, 255, false, [], false⟩]⟩,
  ⟨0x400a0118, 0x100, 2, .nave, [⟨9, 0, .rw, 101, 0, 1023, false, [], false⟩]⟩,
  ⟨0x400a011c, 0x100, 2, .nave, [⟨31, 31, .wo, 0, 0, 1, false, [], false⟩, ⟨30, 30, .ro, 0, 0, 1, false, [], false⟩, ⟨23, 16, .rw, 0, 0, 128, false, [], false⟩, ⟨15, 0, .rw, 1, 0, 65535, false, [], false⟩]⟩,
  ⟨0x400a0120, 0x4, 4, .nave, [⟨31, 0, .rw, 4294967295, 0, 4294967295, false, [], false⟩]⟩,
  ⟨0x400a0220, 0x4, 4, .nave, [⟨31, 0, .rw, 4294967295, 0, 4294967295, false, [], false⟩]⟩,
  ⟨0x400a0130, 0x100, 2, .nave, [⟨31, 16, .rw, 65535, 0, 65535, false, [], false⟩, ⟨15, 0, .rw, 65535, 0, 65535, false, [], false⟩]⟩,
  ⟨0x400a0134, 0x100, 2, .nave, [⟨31, 24, .rw, 0, 0, 255, false, [], false⟩, ⟨23, 16, .rw, 0, 0, 255, false, [], false⟩]⟩,
  ⟨0x400a0138, 0x100, 2, .nave, [⟨31, 31, .rw, 1, 0, 1, false, [], false⟩, ⟨23, 16, .rw, 0, 0, 255, false, [], false⟩, ⟨15, 0, .rw, 60, 1, 65535, false, [], false⟩]⟩,
  ⟨0x400a013c, 0x100, 2, .nave, [⟨31, 16, .ro, 0, 0, 65535, false, [], false⟩, ⟨15, 0, .ro, 0, 0, 65535, false, [], false⟩]⟩,
  ⟨0x400a0140, 0, 1, .nave, [⟨31, 30, .rw, 0, 0, 3, false, [3], false⟩, ⟨23, 16, .rw, 20, -10, 20, true, [], false⟩, ⟨15, 8, .rw, 246, -10, 20, true, [], false⟩, ⟨7, 0, .rw, 0, -10, 20, true, [], false⟩]⟩]

/-- Registers of block BELF (part 1). -/
def regsBelf1 : List RegSpec := [
  ⟨0x400a0240, 0, 1, .nave, [⟨31, 30, .rw, 0, 0, 3, false, [3], false⟩, ⟨23, 16, .rw, 10, -20, 10, true, [], false⟩, ⟨15, 8, .rw, 236, -20, 10, true, [], false⟩, ⟨7, 0, .rw, 0, -20, 10, true, [], false⟩]⟩,
  ⟨0x400a0144, 0x100, 2, .nave, [⟨31, 29, .rw, 0, 0, 7, false, [4, 5, 6, 7], false⟩, ⟨28, 28, .rw, 1, 0, 1, false, [], false⟩, ⟨23, 16, .rw, 20, 1, 255, false, [], false⟩, ⟨15, 0, .rw, 0, 0, 65535, false, [], false⟩]⟩,
  ⟨0x400a0148, 0x100, 2, .nave, [⟨7, 0, .rw, 171, 0, 255, false, [], false⟩]⟩,
  ⟨0x400a014c, 0x100, 2, .nave, [⟨3, 3, .w1c, 0, 0, 1, false, [], false⟩, ⟨2, 2, .w1c, 0, 0, 1, false, [], false⟩, ⟨1, 1, .w1c, 0, 0, 1, false, [], false⟩, ⟨0, 0, .w1c, 0, 0, 1, false, [], false⟩]⟩,
  ⟨0x400a0150, 0x100, 2, .nave, [⟨31, 16, .rz, 0, 0, 65535, false, [], false⟩, ⟨15, 0, .rz, 0, 0, 65535, false, [], false⟩]⟩,
  ⟨0x400a0154, 0x100, 2, .nave, [⟨31, 16, .rz, 0, 0, 65535, false, [], false⟩, ⟨15, 0, .rz, 0, 0, 65535, false, [], false⟩]⟩,
  ⟨0x400a0158, 0x100, 2, .nave, [⟨31, 16, .rz, 0, 0, 65535, false, [], false⟩, ⟨15, 0, .rz, 0, 0, 65535, false, [], false⟩]⟩,
  ⟨0x400a015c, 0x100, 2, .nave, [⟨31, 16, .rz, 0, 0, 65535, false, [], false⟩, ⟨15, 0, .rz, 0, 0, 65535, false, [], false⟩]⟩,
  ⟨0x400a0160, 0x8, 8, .nave, [⟨31, 20, .rw, 0, 0, 4095, false, [], false⟩, ⟨19, 0, .rw, 0, 0, 1048575, false, [], false⟩]⟩,
  ⟨0x400a0164, 0x8, 8, .nave, [⟨19, 0, .rw, 0, 0, 1048575, false, [], false⟩]⟩,
  ⟨0x400a01a0, 0x4, 8, .nave, [⟨31, 0, .ro, 0, 0, 4294967295, false, [], false⟩]⟩,
  ⟨0x400a0260, 0x8, 8, .nave, [⟨31, 20, .rw, 0, 0, 4095, false, [], false⟩, ⟨19, 0, .rw, 0, 0, 1048575, false, [], false⟩]⟩,
  ⟨0x400a0264, 0x8, 8, .nave, [⟨19, 0, .rw, 0, 0, 1048575, false, [], false⟩]⟩,
  ⟨0x400a02a0, 0x4, 8, .nave, [⟨31, 0, .ro, 0, 0, 4294967295, false, [], false⟩]⟩,
  ⟨0x400a1000, 0x4, 128, .nave, [⟨6, 0, .rw, 0, 0, 127, false, [], false⟩]⟩,
  ⟨0x400a1200, 0x4, 128, .nave, [⟨6, 0, .rw, 0, 0, 127, false, [], false⟩]⟩]

/-- Registers of block BELF (part 2). -/
def regsBelf2 : List RegSpec := [
  ⟨0x400a2000, 0x8, 256, .nave, [⟨31, 31, .rw, 0, 0, 1, false, [], false⟩, ⟨30, 28, .rw, 0, 0, 7, false, [5, 6, 7], false⟩, ⟨25, 16, .rw, 0, 0, 1023, false, [], false⟩, ⟨6, 0, .rw, 0, 0, 127, false, [], false⟩]⟩,
  ⟨0x400a2004, 0x8, 256, .nave, [⟨7, 0, .rw, 0, 112, 255, false, [], false⟩]⟩,
  ⟨0x400a2800, 0x8, 256, .nave, [⟨31, 31, .rw, 0, 0, 1, false, [], false⟩, ⟨30, 28, .rw, 0, 0, 7, false, [5, 6, 7], false⟩, ⟨25, 16, .rw, 0, 0, 1023, false, [], false⟩, ⟨6, 0, .rw, 0, 0, 127, false, [], false⟩]⟩,
  ⟨0x400a2804, 0x8, 256, .nave, [⟨7, 0, .rw, 0, 112, 255, false, [], false⟩]⟩,
  ⟨0x400a3000, 0x4, 128, .nave, [⟨31, 0, .ro, 0, 0, 4294967295, false, [], false⟩]⟩,
  ⟨0x400a3200, 0x4, 128, .nave, [⟨31, 0, .ro, 0, 0, 4294967295, false, [], false⟩]⟩,
  ⟨0x400a3400, 0x100, 2, .nave, [⟨31, 30, .rw, 0, 0, 3, false, [3], false⟩, ⟨29, 29, .rw, 0, 0, 1, false, [], false⟩, ⟨23, 16, .rw, 0, 0, 255, false, [], false⟩, ⟨15, 0, .rw, 0, 0, 65535, false, [], false⟩]⟩,
  ⟨0x400a3404, 0x100, 2, .nave, [⟨31, 24, .rw, 0, 128, 255, false, [], false⟩, ⟨23, 16, .rw, 0, 128, 255, false, [], false⟩, ⟨15, 8, .rw, 0, 128, 255, false, [], false⟩, ⟨7, 0, .rw, 0, 128, 255, false, [], false⟩]⟩,
  ⟨0x400a3408, 0x100, 2, .nave, [⟨31, 16, .rw, 256, 0, 65535, false, [], false⟩, ⟨15, 8, .rw, 0, 0, 128, false, [], false⟩, ⟨7, 0, .rw, 60, 0, 255, false, [], false⟩]⟩,
  ⟨0x400a340c, 0x100, 2, .nave, [⟨15, 0, .rw, 1440, 1, 65535, false, [], false⟩]⟩,
  ⟨0x400a3410, 0x100, 2, .nave, [⟨31, 24, .rw, 8, 6, 255, false, [], false⟩, ⟨21, 12, .rw, 2, 0, 1023, false, [], false⟩, ⟨9, 0, .rw, 1, 0, 1023, false, [], false⟩]⟩,
  ⟨0x400a3414, 0x100, 2, .nave, [⟨22, 16, .rw, 0, 0, 127, false, [], false⟩, ⟨14, 8, .rw, 0, 0, 127, false, [], false⟩, ⟨6, 0, .rw, 0, 0, 127, false, [], false⟩]⟩,
  ⟨0x400a3418, 0x100, 2, .nave, [⟨14, 12, .rw, 0, 0, 7, false, [], false⟩, ⟨10, 8, .rw, 5, 5, 7, false, [], false⟩, ⟨6, 4, .rw, 5, 5, 7, false, [], false⟩, ⟨2, 0, .rw, 0, 0, 7, false, [], false⟩]⟩,
  ⟨0x400a341c, 0x100, 2, .nave, [⟨31, 30, .rw, 0, 0, 3, false, [], false⟩, ⟨29, 26, .rw, 2, 0, 15, false, [], false⟩, ⟨23, 16, .rw, 10, 0, 255, false, [], false⟩, ⟨15, 0, .rw, 600, 1, 65535, false, [], false⟩]⟩,
  ⟨0x400a3420, 0x100, 2, .nave, [⟨15, 0, .rw, 300, 1, 65535, false, [], false⟩]⟩,
  ⟨0x400a3424, 0x100, 2, .nave, [⟨31, 28, .ro, 0, 0, 15, false, [], false⟩, ⟨27, 20, .ro, 0, 0, 255, false, [], false⟩, ⟨19, 12, .ro, 0, 0, 255, false, [], false⟩, ⟨7, 0, .rz, 0, 0, 255, false, [], false⟩]⟩]

/-- Registers of block BELF (part 3). -/
def regsBelf3 : List RegSpec := [
  ⟨0x400a3428, 0x100, 2, .nave, [⟨5, 5, .w1c, 0, 0, 1, false, [], false⟩, ⟨4, 4, .w1c, 0, 0, 1, false, [], false⟩, ⟨3, 3, .w1c, 0, 0, 1, false, [], false⟩, ⟨2, 2, .w1c, 0, 0, 1, false, [], false⟩, ⟨1, 1, .w1c, 0, 0, 1, false, [], false⟩, ⟨0, 0, .w1c, 0, 0, 1, false, [], false⟩]⟩,
  ⟨0x400a342c, 0x100, 2, .nave, [⟨31, 24, .rz, 0, 0, 255, false, [], false⟩, ⟨23, 16, .rz, 0, 0, 255, false, [], false⟩, ⟨15, 8, .rz, 0, 0, 255, false, [], false⟩, ⟨7, 0, .rz, 0, 0, 255, false, [], false⟩]⟩,
  ⟨0x400a3430, 0x100, 2, .nave, [⟨31, 24, .rz, 0, 0, 255, false, [], false⟩, ⟨23, 16, .rz, 0, 0, 255, false, [], false⟩]⟩,
  ⟨0x400a3434, 0x100, 2, .nave, [⟨31, 22, .rz, 0, 0, 1023, false, [], false⟩, ⟨21, 12, .rz, 0, 0, 1023, false, [], false⟩, ⟨11, 0, .rz, 0, 0, 4095, false, [], false⟩]⟩,
  ⟨0x400a3438, 0x100, 2, .nave, [⟨15, 0, .ro, 0, 0, 65535, false, [], false⟩]⟩,
  ⟨0x400a3600, 0x0, 1, .nave, [⟨11, 0, .ro, 0, 0, 4095, false, [], false⟩]⟩,
  ⟨0x400a3700, 0x8, 8, .array, [⟨31, 0, .ro, 0, 0, 4294967295, false, [], false⟩]⟩,
  ⟨0x400a3704, 0x8, 8, .array, [⟨31, 0, .ro, 0, 0, 4294967295, false, [], false⟩]⟩,
  ⟨0x400a3780, 0x0, 1, .nave, [⟨7, 0, .rw, 0, 0, 255, false, [], false⟩]⟩,
  ⟨0x400a3784, 0x0, 1, .nave, [⟨31, 28, .ro, 0, 0, 15, false, [], false⟩, ⟨2, 0, .wo, 0, 0, 7, false, [], false⟩]⟩,
  ⟨0x400a3790, 0x0, 1, .nave, [⟨31, 0, .rw, 0, 0, 4294967295, false, [], false⟩]⟩,
  ⟨0x400a3794, 0x0, 1, .nave, [⟨31, 0, .rw, 0, 0, 4294967295, false, [], false⟩]⟩,
  ⟨0x400a3798, 0x0, 1, .nave, [⟨31, 16, .rw, 65535, 0, 65535, false, [], false⟩, ⟨15, 15, .ro, 0, 0, 1, false, [], false⟩, ⟨14, 14, .rw, 0, 0, 1, false, [], false⟩, ⟨13, 13, .rw, 0, 0, 1, false, [], false⟩, ⟨12, 12, .rw, 0, 0, 1, false, [], false⟩, ⟨11, 11, .ro, 0, 0, 1, false, [], false⟩, ⟨7, 0, .ro, 0, 0, 255, false, [], false⟩]⟩,
  ⟨0x400a379c, 0x0, 1, .nave, [⟨31, 24, .ro, 0, 0, 255, false, [], false⟩, ⟨23, 16, .ro, 0, 0, 255, false, [], false⟩, ⟨15, 0, .ro, 0, 0, 65535, false, [], false⟩]⟩,
  ⟨0x400a37a0, 0x0, 1, .nave, [⟨31, 0, .ro, 0, 0, 4294967295, false, [], false⟩]⟩,
  ⟨0x400a37a4, 0x0, 1, .nave, [⟨31, 0, .ro, 0, 0, 4294967295, false, [], false⟩]⟩]

/-- Registers of block BELF (part 4). -/
def regsBelf4 : List RegSpec := [
  ⟨0x400a37a8, 0x0, 1, .nave, [⟨31, 24, .ro, 0, 0, 255, false, [], false⟩, ⟨23, 0, .ro, 0, 0, 16777215, false, [], false⟩]⟩]

/-- Every memory-mapped register. -/
def regTable : List RegSpec :=
  regsSys0 ++ regsSys1 ++ regsQue0 ++ regsIsle0 ++ regsIsle00 ++ regsCim0 ++ regsQty0 ++ regsQty1 ++ regsQty2 ++ regsOut0 ++ regsOut1 ++ regsRood0 ++ regsSacr0 ++ regsSacr1 ++ regsLedg0 ++ regsCrypt0 ++ regsBelf0 ++ regsBelf1 ++ regsBelf2 ++ regsBelf3 ++ regsBelf4

/-- SYS.MODE (R472). -/
def SYS.MODE : Nat := 0x40000000
def SYS.MODE_GAUTO : Fld := ⟨SYS.MODE, 7, 7⟩
def SYS.MODE_GFORCE : Fld := ⟨SYS.MODE, 6, 6⟩
def SYS.MODE_CSUSP : Fld := ⟨SYS.MODE, 5, 5⟩
def SYS.MODE_VSUSP : Fld := ⟨SYS.MODE, 4, 4⟩
def SYS.MODE_C : Fld := ⟨SYS.MODE, 3, 3⟩
def SYS.MODE_G : Fld := ⟨SYS.MODE, 2, 2⟩
def SYS.MODE_V : Fld := ⟨SYS.MODE, 1, 1⟩
def SYS.MODE_M : Fld := ⟨SYS.MODE, 0, 0⟩
/-- SYS.STATUS (R472). -/
def SYS.STATUS : Nat := 0x40000004
def SYS.STATUS_CFGSKIP : Fld := ⟨SYS.STATUS, 15, 8⟩
def SYS.STATUS_GUARDTORN : Fld := ⟨SYS.STATUS, 4, 4⟩
def SYS.STATUS_CFGONE : Fld := ⟨SYS.STATUS, 3, 3⟩
def SYS.STATUS_CFGCOPY : Fld := ⟨SYS.STATUS, 2, 2⟩
def SYS.STATUS_CFG_DEFAULT : Fld := ⟨SYS.STATUS, 0, 0⟩
/-- SYS.RESETCAUSE (R472). -/
def SYS.RESETCAUSE : Nat := 0x40000008
def SYS.RESETCAUSE_NAVE : Fld := ⟨SYS.RESETCAUSE, 15, 12⟩
def SYS.RESETCAUSE_CHOIR : Fld := ⟨SYS.RESETCAUSE, 11, 8⟩
def SYS.RESETCAUSE_WAKESRC : Fld := ⟨SYS.RESETCAUSE, 6, 4⟩
def SYS.RESETCAUSE_DOMAIN : Fld := ⟨SYS.RESETCAUSE, 3, 0⟩
/-- SYS.RSTREQ (R472). -/
def SYS.RSTREQ : Nat := 0x4000000c
def SYS.RSTREQ_KEY : Fld := ⟨SYS.RSTREQ, 31, 16⟩
def SYS.RSTREQ_WHAT : Fld := ⟨SYS.RSTREQ, 1, 0⟩
/-- SYS.WDOG (R472). -/
def SYS.WDOG (i : Nat) : Nat := 0x40000010 + i * 0x4
def SYS.WDOG_EN (i : Nat) : Fld := ⟨SYS.WDOG i, 31, 31⟩
def SYS.WDOG_KICK (i : Nat) : Fld := ⟨SYS.WDOG i, 16, 16⟩
def SYS.WDOG_PERIOD (i : Nat) : Fld := ⟨SYS.WDOG i, 15, 0⟩
/-- SYS.CFGCTL (R472). -/
def SYS.CFGCTL : Nat := 0x40000020
def SYS.CFGCTL_BUSY : Fld := ⟨SYS.CFGCTL, 31, 31⟩
def SYS.CFGCTL_VALIDB : Fld := ⟨SYS.CFGCTL, 11, 11⟩
def SYS.CFGCTL_VALIDA : Fld := ⟨SYS.CFGCTL, 10, 10⟩
def SYS.CFGCTL_SLOT : Fld := ⟨SYS.CFGCTL, 9, 9⟩
def SYS.CFGCTL_ERR : Fld := ⟨SYS.CFGCTL, 7, 4⟩
def SYS.CFGCTL_CMD : Fld := ⟨SYS.CFGCTL, 2, 0⟩
/-- SYS.CFGADDR (R472). -/
def SYS.CFGADDR : Nat := 0x40000024
def SYS.CFGADDR_ADDR : Fld := ⟨SYS.CFGADDR, 31, 0⟩
/-- SYS.CFGDLO (R472). -/
def SYS.CFGDLO : Nat := 0x40000028
def SYS.CFGDLO_DATA : Fld := ⟨SYS.CFGDLO, 31, 0⟩
/-- SYS.CFGDHI (R472). -/
def SYS.CFGDHI : Nat := 0x4000002c
def SYS.CFGDHI_DATA : Fld := ⟨SYS.CFGDHI, 31, 0⟩
/-- SYS.CFGIDX (R472). -/
def SYS.CFGIDX : Nat := 0x40000030
def SYS.CFGIDX_INDEX : Fld := ⟨SYS.CFGIDX, 10, 0⟩
/-- SYS.CFGDATA (R472). -/
def SYS.CFGDATA : Nat := 0x40000034
def SYS.CFGDATA_DATA : Fld := ⟨SYS.CFGDATA, 31, 0⟩
/-- SYS.DOMPWR (R43). -/
def SYS.DOMPWR : Nat := 0x40000040
def SYS.DOMPWR_SHARED : Fld := ⟨SYS.DOMPWR, 7, 6⟩
def SYS.DOMPWR_CRYPT : Fld := ⟨SYS.DOMPWR, 5, 4⟩
def SYS.DOMPWR_NAVE : Fld := ⟨SYS.DOMPWR, 3, 2⟩
def SYS.DOMPWR_CHOIR : Fld := ⟨SYS.DOMPWR, 1, 0⟩
/-- SYS.STRAITERR (R43). -/
def SYS.STRAITERR : Nat := 0x40000044
def SYS.STRAITERR_PARITY : Fld := ⟨SYS.STRAITERR, 31, 16⟩
def SYS.STRAITERR_PROTO : Fld := ⟨SYS.STRAITERR, 15, 0⟩
/-- SYS.REFADDR (R43). -/
def SYS.REFADDR (i : Nat) : Nat := 0x40000048 + i * 0x8
def SYS.REFADDR_ADDR (i : Nat) : Fld := ⟨SYS.REFADDR i, 31, 0⟩
/-- SYS.REFINFO (R43). -/
def SYS.REFINFO (i : Nat) : Nat := 0x4000004c + i * 0x8
def SYS.REFINFO_COUNT (i : Nat) : Fld := ⟨SYS.REFINFO i, 31, 24⟩
def SYS.REFINFO_FETCH (i : Nat) : Fld := ⟨SYS.REFINFO i, 5, 5⟩
def SYS.REFINFO_WRITE (i : Nat) : Fld := ⟨SYS.REFINFO i, 4, 4⟩
def SYS.REFINFO_CAUSE (i : Nat) : Fld := ⟨SYS.REFINFO i, 3, 0⟩
/-- SYS.DEVINFO (R177). -/
def SYS.DEVINFO (i : Nat) : Nat := 0x40000058 + i * 0x4
def SYS.DEVINFO_OPCODE (i : Nat) : Fld := ⟨SYS.DEVINFO i, 31, 26⟩
def SYS.DEVINFO_CODE (i : Nat) : Fld := ⟨SYS.DEVINFO i, 7, 0⟩
/-- SYS.IMGCTL (R177). -/
def SYS.IMGCTL (i : Nat) : Nat := 0x40000060 + i * 0x10
def SYS.IMGCTL_BUSY (i : Nat) : Fld := ⟨SYS.IMGCTL i, 31, 31⟩
def SYS.IMGCTL_VALIDB (i : Nat) : Fld := ⟨SYS.IMGCTL i, 11, 11⟩
def SYS.IMGCTL_VALIDA (i : Nat) : Fld := ⟨SYS.IMGCTL i, 10, 10⟩
def SYS.IMGCTL_SLOT (i : Nat) : Fld := ⟨SYS.IMGCTL i, 9, 9⟩
def SYS.IMGCTL_ERR (i : Nat) : Fld := ⟨SYS.IMGCTL i, 7, 4⟩
def SYS.IMGCTL_CMD (i : Nat) : Fld := ⟨SYS.IMGCTL i, 2, 0⟩
/-- SYS.IMGADDR (R177). -/
def SYS.IMGADDR (i : Nat) : Nat := 0x40000064 + i * 0x10
def SYS.IMGADDR_ADDR (i : Nat) : Fld := ⟨SYS.IMGADDR i, 31, 0⟩
/-- SYS.IMGDLO (R177). -/
def SYS.IMGDLO (i : Nat) : Nat := 0x40000068 + i * 0x10
def SYS.IMGDLO_DATA (i : Nat) : Fld := ⟨SYS.IMGDLO i, 31, 0⟩
/-- SYS.IMGDHI (R177). -/
def SYS.IMGDHI (i : Nat) : Nat := 0x4000006c + i * 0x10
def SYS.IMGDHI_DATA (i : Nat) : Fld := ⟨SYS.IMGDHI i, 31, 0⟩
/-- SYS.UNITSTATE (R472). -/
def SYS.UNITSTATE (i : Nat) : Nat := 0x40000100 + i * 0x4
def SYS.UNITSTATE_STALE (i : Nat) : Fld := ⟨SYS.UNITSTATE i, 31, 31⟩
def SYS.UNITSTATE_DEFER (i : Nat) : Fld := ⟨SYS.UNITSTATE i, 30, 30⟩
def SYS.UNITSTATE_EPOCH (i : Nat) : Fld := ⟨SYS.UNITSTATE i, 17, 10⟩
def SYS.UNITSTATE_STATE (i : Nat) : Fld := ⟨SYS.UNITSTATE i, 9, 8⟩
def SYS.UNITSTATE_UNIT (i : Nat) : Fld := ⟨SYS.UNITSTATE i, 7, 0⟩
/-- QUE.DESC (R109). -/
def QUE.DESC (i : Nat) : Nat := 0x40010000 + i * 0x20
def QUE.DESC_EN (i : Nat) : Fld := ⟨QUE.DESC i, 31, 31⟩
def QUE.DESC_CONSUMER (i : Nat) : Fld := ⟨QUE.DESC i, 30, 28⟩
def QUE.DESC_DELIVER (i : Nat) : Fld := ⟨QUE.DESC i, 27, 27⟩
def QUE.DESC_DEPTH (i : Nat) : Fld := ⟨QUE.DESC i, 23, 12⟩
def QUE.DESC_QUOTA (i : Nat) : Fld := ⟨QUE.DESC i, 11, 0⟩
/-- QUE.STAT (R109). -/
def QUE.STAT (i : Nat) : Nat := 0x40010004 + i * 0x20
def QUE.STAT_LIFE (i : Nat) : Fld := ⟨QUE.STAT i, 31, 30⟩
def QUE.STAT_OPEN (i : Nat) : Fld := ⟨QUE.STAT i, 29, 29⟩
def QUE.STAT_CONSUMING (i : Nat) : Fld := ⟨QUE.STAT i, 28, 28⟩
def QUE.STAT_DROPS (i : Nat) : Fld := ⟨QUE.STAT i, 27, 20⟩
def QUE.STAT_DEFER (i : Nat) : Fld := ⟨QUE.STAT i, 19, 19⟩
def QUE.STAT_WORDS (i : Nat) : Fld := ⟨QUE.STAT i, 18, 0⟩
/-- QUE.PKT (R109). -/
def QUE.PKT (i : Nat) : Nat := 0x40010008 + i * 0x20
def QUE.PKT_COUNT (i : Nat) : Fld := ⟨QUE.PKT i, 19, 0⟩
/-- QUE.ECC (R109). -/
def QUE.ECC (i : Nat) : Nat := 0x4001000c + i * 0x20
def QUE.ECC_CORR (i : Nat) : Fld := ⟨QUE.ECC i, 31, 24⟩
def QUE.ECC_UNCORR (i : Nat) : Fld := ⟨QUE.ECC i, 23, 16⟩
/-- QUE.BLK (R109). -/
def QUE.BLK (i : Nat) : Nat := 0x40010010 + i * 0x20
def QUE.BLK_PEAK (i : Nat) : Fld := ⟨QUE.BLK i, 27, 16⟩
def QUE.BLK_HELD (i : Nat) : Fld := ⟨QUE.BLK i, 11, 0⟩
/-- QUE.POOL (R109). -/
def QUE.POOL : Nat := 0x40012000
def QUE.POOL_NAVECAP : Fld := ⟨QUE.POOL, 27, 16⟩
def QUE.POOL_SHORT : Fld := ⟨QUE.POOL, 12, 0⟩
/-- QUE.POOLSTAT (R109). -/
def QUE.POOLSTAT : Nat := 0x40012004
def QUE.POOLSTAT_FREE : Fld := ⟨QUE.POOLSTAT, 28, 16⟩
def QUE.POOLSTAT_RESV : Fld := ⟨QUE.POOLSTAT, 12, 0⟩
/-- QUE.POOLUSE (R109). -/
def QUE.POOLUSE : Nat := 0x40012008
def QUE.POOLUSE_NAVE : Fld := ⟨QUE.POOLUSE, 28, 16⟩
def QUE.POOLUSE_CHOIR : Fld := ⟨QUE.POOLUSE, 12, 0⟩
/-- QUE.CONTEND (R109). -/
def QUE.CONTEND : Nat := 0x4001200c
def QUE.CONTEND_CHOIRLOST : Fld := ⟨QUE.CONTEND, 31, 24⟩
def QUE.CONTEND_NAVELOST : Fld := ⟨QUE.CONTEND, 23, 16⟩
def QUE.CONTEND_TOKEN : Fld := ⟨QUE.CONTEND, 7, 0⟩
/-- QUE.CLECC (R109). -/
def QUE.CLECC : Nat := 0x40012010
def QUE.CLECC_CORR : Fld := ⟨QUE.CLECC, 31, 16⟩
def QUE.CLECC_UNCORR : Fld := ⟨QUE.CLECC, 15, 0⟩
/-- QUE.ORPHAN (R109). -/
def QUE.ORPHAN : Nat := 0x40012014
def QUE.ORPHAN_DENIED : Fld := ⟨QUE.ORPHAN, 31, 16⟩
def QUE.ORPHAN_BADSEL : Fld := ⟨QUE.ORPHAN, 15, 0⟩
/-- QUE.FLUSHED (R109). -/
def QUE.FLUSHED : Nat := 0x40012018
def QUE.FLUSHED_CHOIR : Fld := ⟨QUE.FLUSHED, 31, 16⟩
def QUE.FLUSHED_NAVE : Fld := ⟨QUE.FLUSHED, 15, 0⟩
/-- ISLE.CTL (R206). -/
def ISLE.CTL (i : Nat) : Nat := 0x40020000 + i * 0x1000
def ISLE.CTL_EN (i : Nat) : Fld := ⟨ISLE.CTL i, 31, 31⟩
/-- ISLE.STAT (R206). -/
def ISLE.STAT (i : Nat) : Nat := 0x40020004 + i * 0x1000
def ISLE.STAT_LIFE (i : Nat) : Fld := ⟨ISLE.STAT i, 31, 30⟩
def ISLE.STAT_BUSY (i : Nat) : Fld := ⟨ISLE.STAT i, 29, 29⟩
def ISLE.STAT_WAITING (i : Nat) : Fld := ⟨ISLE.STAT i, 28, 28⟩
def ISLE.STAT_CLAIMED (i : Nat) : Fld := ⟨ISLE.STAT i, 27, 27⟩
def ISLE.STAT_RECOV (i : Nat) : Fld := ⟨ISLE.STAT i, 26, 26⟩
def ISLE.STAT_DCO (i : Nat) : Fld := ⟨ISLE.STAT i, 25, 25⟩
/-- ISLE.PORTMODE (R206). -/
def ISLE.PORTMODE (i : Nat) : Nat := 0x40020008 + i * 0x1000
def ISLE.PORTMODE_MODES (i : Nat) : Fld := ⟨ISLE.PORTMODE i, 15, 0⟩
/-- ISLE.RQUEUE (R206). -/
def ISLE.RQUEUE (i : Nat) : Nat := 0x4002000c + i * 0x1000
def ISLE.RQUEUE_QUEUE (i : Nat) : Fld := ⟨ISLE.RQUEUE i, 6, 0⟩
/-- ISLE.SENSE (R206). -/
def ISLE.SENSE (i : Nat) : Nat := 0x40020010 + i * 0x1000
def ISLE.SENSE_CLAST (i : Nat) : Fld := ⟨ISLE.SENSE i, 31, 16⟩
def ISLE.SENSE_OPENC (i : Nat) : Fld := ⟨ISLE.SENSE i, 15, 0⟩
/-- ISLE.GATECFG (R206). -/
def ISLE.GATECFG (i : Nat) : Nat := 0x40020014 + i * 0x1000
def ISLE.GATECFG_LEASH (i : Nat) : Fld := ⟨ISLE.GATECFG i, 31, 30⟩
def ISLE.GATECFG_MAX (i : Nat) : Fld := ⟨ISLE.GATECFG i, 23, 16⟩
def ISLE.GATECFG_MIN (i : Nat) : Fld := ⟨ISLE.GATECFG i, 15, 8⟩
def ISLE.GATECFG_SET (i : Nat) : Fld := ⟨ISLE.GATECFG i, 7, 0⟩
/-- ISLE.GATESTAT (R206). -/
def ISLE.GATESTAT (i : Nat) : Nat := 0x40020018 + i * 0x1000
def ISLE.GATESTAT_WORK (i : Nat) : Fld := ⟨ISLE.GATESTAT i, 23, 16⟩
def ISLE.GATESTAT_NOISE (i : Nat) : Fld := ⟨ISLE.GATESTAT i, 10, 0⟩
/-- ISLE.OVLD (R206). -/
def ISLE.OVLD (i : Nat) : Nat := 0x4002001c + i * 0x1000
def ISLE.OVLD_COUNT (i : Nat) : Fld := ⟨ISLE.OVLD i, 31, 24⟩
def ISLE.OVLD_SOURCE (i : Nat) : Fld := ⟨ISLE.OVLD i, 18, 16⟩
def ISLE.OVLD_PORT (i : Nat) : Fld := ⟨ISLE.OVLD i, 14, 8⟩
/-- ISLE.RING (R206). -/
def ISLE.RING (i : Nat) : Nat := 0x40020020 + i * 0x1000
def ISLE.RING_PD (i : Nat) : Fld := ⟨ISLE.RING i, 22, 16⟩
def ISLE.RING_HALF (i : Nat) : Fld := ⟨ISLE.RING i, 12, 0⟩
/-- ISLE.FAULTS (R206). -/
def ISLE.FAULTS (i : Nat) : Nat := 0x40020024 + i * 0x1000
def ISLE.FAULTS_PD (i : Nat) : Fld := ⟨ISLE.FAULTS i, 22, 16⟩
def ISLE.FAULTS_LEASH (i : Nat) : Fld := ⟨ISLE.FAULTS i, 5, 5⟩
def ISLE.FAULTS_EXWAIT (i : Nat) : Fld := ⟨ISLE.FAULTS i, 4, 4⟩
def ISLE.FAULTS_NOVPUL (i : Nat) : Fld := ⟨ISLE.FAULTS i, 3, 3⟩
def ISLE.FAULTS_SHORT (i : Nat) : Fld := ⟨ISLE.FAULTS i, 2, 2⟩
def ISLE.FAULTS_OPEN (i : Nat) : Fld := ⟨ISLE.FAULTS i, 1, 1⟩
/-- ISLE0.EXCFG (R206). -/
def ISLE0.EXCFG : Nat := 0x40020700
def ISLE0.EXCFG_MAXWAIT : Fld := ⟨ISLE0.EXCFG, 31, 16⟩
def ISLE0.EXCFG_HOLD : Fld := ⟨ISLE0.EXCFG, 15, 0⟩
/-- ISLE0.EXSTAT (R206). -/
def ISLE0.EXSTAT : Nat := 0x40020704
def ISLE0.EXSTAT_DELAYS : Fld := ⟨ISLE0.EXSTAT, 31, 16⟩
def ISLE0.EXSTAT_BUSY : Fld := ⟨ISLE0.EXSTAT, 15, 1⟩
/-- ISLE0.PDCTL (R206). -/
def ISLE0.PDCTL (i : Nat) : Nat := 0x40020800 + i * 0x10
def ISLE0.PDCTL_EN (i : Nat) : Fld := ⟨ISLE0.PDCTL i, 31, 31⟩
def ISLE0.PDCTL_KIND (i : Nat) : Fld := ⟨ISLE0.PDCTL i, 30, 29⟩
def ISLE0.PDCTL_DRV (i : Nat) : Fld := ⟨ISLE0.PDCTL i, 28, 28⟩
def ISLE0.PDCTL_VPFB (i : Nat) : Fld := ⟨ISLE0.PDCTL i, 27, 27⟩
def ISLE0.PDCTL_AGCLEASH (i : Nat) : Fld := ⟨ISLE0.PDCTL i, 25, 24⟩
def ISLE0.PDCTL_PORTA (i : Nat) : Fld := ⟨ISLE0.PDCTL i, 22, 16⟩
def ISLE0.PDCTL_PORTB (i : Nat) : Fld := ⟨ISLE0.PDCTL i, 14, 8⟩
def ISLE0.PDCTL_EXG (i : Nat) : Fld := ⟨ISLE0.PDCTL i, 7, 4⟩
/-- ISLE0.PDBURST (R206). -/
def ISLE0.PDBURST (i : Nat) : Nat := 0x40020804 + i * 0x10
def ISLE0.PDBURST_CLAMP (i : Nat) : Fld := ⟨ISLE0.PDBURST i, 29, 22⟩
def ISLE0.PDBURST_DAMP (i : Nat) : Fld := ⟨ISLE0.PDBURST i, 21, 18⟩
def ISLE0.PDBURST_PULSES (i : Nat) : Fld := ⟨ISLE0.PDBURST i, 17, 13⟩
def ISLE0.PDBURST_HALF (i : Nat) : Fld := ⟨ISLE0.PDBURST i, 12, 0⟩
/-- ISLE0.PDWIN (R206). -/
def ISLE0.PDWIN (i : Nat) : Nat := 0x40020808 + i * 0x10
def ISLE0.PDWIN_LEN (i : Nat) : Fld := ⟨ISLE0.PDWIN i, 29, 27⟩
def ISLE0.PDWIN_RATE (i : Nat) : Fld := ⟨ISLE0.PDWIN i, 26, 24⟩
def ISLE0.PDWIN_EXPECT (i : Nat) : Fld := ⟨ISLE0.PDWIN i, 23, 0⟩
/-- ISLE0.PDGAIN (R206). -/
def ISLE0.PDGAIN (i : Nat) : Nat := 0x4002080c + i * 0x10
def ISLE0.PDGAIN_WGAIN (i : Nat) : Fld := ⟨ISLE0.PDGAIN i, 31, 24⟩
def ISLE0.PDGAIN_GMAX (i : Nat) : Fld := ⟨ISLE0.PDGAIN i, 23, 16⟩
def ISLE0.PDGAIN_GMIN (i : Nat) : Fld := ⟨ISLE0.PDGAIN i, 15, 8⟩
def ISLE0.PDGAIN_GAIN (i : Nat) : Fld := ⟨ISLE0.PDGAIN i, 7, 0⟩
/-- CIM.TCTL (R243). -/
def CIM.TCTL (i : Nat) : Nat := 0x40030000 + i * 0x400
def CIM.TCTL_EN (i : Nat) : Fld := ⟨CIM.TCTL i, 31, 31⟩
/-- CIM.TSTAT (R243). -/
def CIM.TSTAT (i : Nat) : Nat := 0x40030004 + i * 0x400
def CIM.TSTAT_LIFE (i : Nat) : Fld := ⟨CIM.TSTAT i, 31, 30⟩
def CIM.TSTAT_POISON (i : Nat) : Fld := ⟨CIM.TSTAT i, 29, 29⟩
def CIM.TSTAT_EMPTY (i : Nat) : Fld := ⟨CIM.TSTAT i, 28, 28⟩
def CIM.TSTAT_PROW (i : Nat) : Fld := ⟨CIM.TSTAT i, 23, 16⟩
def CIM.TSTAT_ACTIVE (i : Nat) : Fld := ⟨CIM.TSTAT i, 8, 0⟩
/-- CIM.TDRIFT (R243). -/
def CIM.TDRIFT (i : Nat) : Nat := 0x40030008 + i * 0x400
def CIM.TDRIFT_COUNT (i : Nat) : Fld := ⟨CIM.TDRIFT i, 31, 16⟩
def CIM.TDRIFT_LAST (i : Nat) : Fld := ⟨CIM.TDRIFT i, 7, 0⟩
/-- CIM.LEASE (R243). -/
def CIM.LEASE (i : Nat) : Nat := 0x40038000 + i * 0x100
def CIM.LEASE_ISLES (i : Nat) : Fld := ⟨CIM.LEASE i, 31, 16⟩
def CIM.LEASE_NAVEOK (i : Nat) : Fld := ⟨CIM.LEASE i, 11, 11⟩
def CIM.LEASE_LASTDOM (i : Nat) : Fld := ⟨CIM.LEASE i, 9, 8⟩
def CIM.LEASE_PEND (i : Nat) : Fld := ⟨CIM.LEASE i, 7, 7⟩
def CIM.LEASE_PENDTO (i : Nat) : Fld := ⟨CIM.LEASE i, 6, 4⟩
def CIM.LEASE_HOLDER (i : Nat) : Fld := ⟨CIM.LEASE i, 2, 0⟩
/-- CIM.SHARE (R243). -/
def CIM.SHARE (i : Nat) : Nat := 0x40038004 + i * 0x100
def CIM.SHARE_ISLES (i : Nat) : Fld := ⟨CIM.SHARE i, 15, 0⟩
/-- CIM.CTL (R243). -/
def CIM.CTL (i : Nat) : Nat := 0x40038008 + i * 0x100
def CIM.CTL_EN (i : Nat) : Fld := ⟨CIM.CTL i, 31, 31⟩
/-- CIM.STAT (R243). -/
def CIM.STAT (i : Nat) : Nat := 0x4003800c + i * 0x100
def CIM.STAT_LIFE (i : Nat) : Fld := ⟨CIM.STAT i, 31, 30⟩
def CIM.STAT_EVAL (i : Nat) : Fld := ⟨CIM.STAT i, 29, 29⟩
def CIM.STAT_SCAN (i : Nat) : Fld := ⟨CIM.STAT i, 28, 28⟩
def CIM.STAT_LOADING (i : Nat) : Fld := ⟨CIM.STAT i, 27, 27⟩
def CIM.STAT_WAITDG (i : Nat) : Fld := ⟨CIM.STAT i, 26, 24⟩
def CIM.STAT_PENDROWS (i : Nat) : Fld := ⟨CIM.STAT i, 11, 0⟩
/-- CIM.CFG (R243). -/
def CIM.CFG (i : Nat) : Nat := 0x40038010 + i * 0x100
def CIM.CFG_SHOTTILES (i : Nat) : Fld := ⟨CIM.CFG i, 15, 8⟩
def CIM.CFG_SPREAD (i : Nat) : Fld := ⟨CIM.CFG i, 1, 0⟩
/-- CIM.THRIDX (R243). -/
def CIM.THRIDX (i : Nat) : Nat := 0x40038014 + i * 0x100
def CIM.THRIDX_INDEX (i : Nat) : Fld := ⟨CIM.THRIDX i, 7, 0⟩
/-- CIM.THRDATA (R243). -/
def CIM.THRDATA (i : Nat) : Nat := 0x40038018 + i * 0x100
def CIM.THRDATA_THR (i : Nat) : Fld := ⟨CIM.THRDATA i, 19, 0⟩
/-- CIM.REFCFG (R243). -/
def CIM.REFCFG (i : Nat) : Nat := 0x4003801c + i * 0x100
def CIM.REFCFG_LEASH (i : Nat) : Fld := ⟨CIM.REFCFG i, 31, 30⟩
def CIM.REFCFG_MAX (i : Nat) : Fld := ⟨CIM.REFCFG i, 23, 16⟩
def CIM.REFCFG_MIN (i : Nat) : Fld := ⟨CIM.REFCFG i, 15, 8⟩
def CIM.REFCFG_SET (i : Nat) : Fld := ⟨CIM.REFCFG i, 7, 0⟩
/-- CIM.REFSTAT (R243). -/
def CIM.REFSTAT (i : Nat) : Nat := 0x40038020 + i * 0x100
def CIM.REFSTAT_REFRESHED (i : Nat) : Fld := ⟨CIM.REFSTAT i, 31, 20⟩
def CIM.REFSTAT_GCORR (i : Nat) : Fld := ⟨CIM.REFSTAT i, 19, 16⟩
def CIM.REFSTAT_SCANS (i : Nat) : Fld := ⟨CIM.REFSTAT i, 15, 8⟩
def CIM.REFSTAT_WORK (i : Nat) : Fld := ⟨CIM.REFSTAT i, 7, 0⟩
/-- CIM.FAULTS (R243). -/
def CIM.FAULTS (i : Nat) : Nat := 0x40038024 + i * 0x100
def CIM.FAULTS_TILE (i : Nat) : Fld := ⟨CIM.FAULTS i, 28, 24⟩
def CIM.FAULTS_ROW (i : Nat) : Fld := ⟨CIM.FAULTS i, 23, 16⟩
def CIM.FAULTS_LOST (i : Nat) : Fld := ⟨CIM.FAULTS i, 5, 5⟩
def CIM.FAULTS_LEASED (i : Nat) : Fld := ⟨CIM.FAULTS i, 4, 4⟩
def CIM.FAULTS_LEASH (i : Nat) : Fld := ⟨CIM.FAULTS i, 3, 3⟩
def CIM.FAULTS_GOLDUE (i : Nat) : Fld := ⟨CIM.FAULTS i, 2, 2⟩
def CIM.FAULTS_RESIDUE (i : Nat) : Fld := ⟨CIM.FAULTS i, 1, 1⟩
/-- CIM.RESCNT (R243). -/
def CIM.RESCNT (i : Nat) : Nat := 0x40038028 + i * 0x100
def CIM.RESCNT_FIRST (i : Nat) : Fld := ⟨CIM.RESCNT i, 31, 16⟩
def CIM.RESCNT_RETRYOK (i : Nat) : Fld := ⟨CIM.RESCNT i, 15, 0⟩
/-- CIM.EVCNT (R243). -/
def CIM.EVCNT (i : Nat) : Nat := 0x4003802c + i * 0x100
def CIM.EVCNT_TD (i : Nat) : Fld := ⟨CIM.EVCNT i, 31, 16⟩
def CIM.EVCNT_DG (i : Nat) : Fld := ⟨CIM.EVCNT i, 15, 0⟩
/-- CIM.REFNOW (R243). -/
def CIM.REFNOW (i : Nat) : Nat := 0x40038030 + i * 0x100
def CIM.REFNOW_TILES (i : Nat) : Fld := ⟨CIM.REFNOW i, 7, 0⟩
/-- QTY.CTL (R306). -/
def QTY.CTL : Nat := 0x40040000
def QTY.CTL_EN : Fld := ⟨QTY.CTL, 31, 31⟩
/-- QTY.STAT (R306). -/
def QTY.STAT : Nat := 0x40040004
def QTY.STAT_LIFE : Fld := ⟨QTY.STAT, 31, 30⟩
def QTY.STAT_GUARDREC : Fld := ⟨QTY.STAT, 29, 29⟩
/-- QTY.FAULTS (R306). -/
def QTY.FAULTS : Nat := 0x40040008
def QTY.FAULTS_CD : Fld := ⟨QTY.FAULTS, 12, 8⟩
def QTY.FAULTS_NOTEMP : Fld := ⟨QTY.FAULTS, 3, 3⟩
def QTY.FAULTS_NOLEVEL : Fld := ⟨QTY.FAULTS, 2, 2⟩
def QTY.FAULTS_SUBST : Fld := ⟨QTY.FAULTS, 1, 1⟩
def QTY.FAULTS_REJECT : Fld := ⟨QTY.FAULTS, 0, 0⟩
/-- QTY.AUXCFG (R306). -/
def QTY.AUXCFG (i : Nat) : Nat := 0x40040020 + i * 0x4
def QTY.AUXCFG_WEIGHT (i : Nat) : Fld := ⟨QTY.AUXCFG i, 31, 0⟩
/-- QTY.AUXADD (R306). -/
def QTY.AUXADD (i : Nat) : Nat := 0x40040040 + i * 0x4
def QTY.AUXADD_COUNT (i : Nat) : Fld := ⟨QTY.AUXADD i, 31, 0⟩
/-- QTY.TESTSEL (R306). -/
def QTY.TESTSEL (i : Nat) : Nat := 0x40040060 + i * 0x4
def QTY.TESTSEL_EN (i : Nat) : Fld := ⟨QTY.TESTSEL i, 31, 31⟩
def QTY.TESTSEL_SRC (i : Nat) : Fld := ⟨QTY.TESTSEL i, 8, 0⟩
/-- QTY.PATHCFG (R306). -/
def QTY.PATHCFG (i : Nat) : Nat := 0x40041000 + i * 0x20
def QTY.PATHCFG_MEMBER (i : Nat) : Fld := ⟨QTY.PATHCFG i, 31, 31⟩
def QTY.PATHCFG_CD (i : Nat) : Fld := ⟨QTY.PATHCFG i, 28, 24⟩
def QTY.PATHCFG_HOLD (i : Nat) : Fld := ⟨QTY.PATHCFG i, 9, 0⟩
/-- QTY.PLEN (R306). -/
def QTY.PLEN (i : Nat) : Nat := 0x40041004 + i * 0x20
def QTY.PLEN_L (i : Nat) : Fld := ⟨QTY.PLEN i, 24, 0⟩
/-- QTY.PGEOM (R306). -/
def QTY.PGEOM (i : Nat) : Nat := 0x40041008 + i * 0x20
def QTY.PGEOM_COS (i : Nat) : Fld := ⟨QTY.PGEOM i, 31, 16⟩
def QTY.PGEOM_W (i : Nat) : Fld := ⟨QTY.PGEOM i, 15, 0⟩
/-- QTY.PPROF (R306). -/
def QTY.PPROF (i : Nat) : Nat := 0x4004100c + i * 0x20
def QTY.PPROF_ELEV (i : Nat) : Fld := ⟨QTY.PPROF i, 31, 16⟩
def QTY.PPROF_PF (i : Nat) : Fld := ⟨QTY.PPROF i, 15, 0⟩
/-- QTY.PSTAT (R306). -/
def QTY.PSTAT (i : Nat) : Nat := 0x40041010 + i * 0x20
def QTY.PSTAT_STATE (i : Nat) : Fld := ⟨QTY.PSTAT i, 31, 30⟩
def QTY.PSTAT_DRY (i : Nat) : Fld := ⟨QTY.PSTAT i, 29, 29⟩
def QTY.PSTAT_AGE (i : Nat) : Fld := ⟨QTY.PSTAT i, 15, 0⟩
/-- QTY.PVEL (R306). -/
def QTY.PVEL (i : Nat) : Nat := 0x40041014 + i * 0x20
def QTY.PVEL_V (i : Nat) : Fld := ⟨QTY.PVEL i, 31, 0⟩
/-- QTY.CDCFG (R306). -/
def QTY.CDCFG (i : Nat) : Nat := 0x40042000 + i * 0x40
def QTY.CDCFG_EN (i : Nat) : Fld := ⟨QTY.CDCFG i, 31, 31⟩
def QTY.CDCFG_KIND (i : Nat) : Fld := ⟨QTY.CDCFG i, 30, 30⟩
def QTY.CDCFG_POLICY (i : Nat) : Fld := ⟨QTY.CDCFG i, 29, 29⟩
def QTY.CDCFG_FALLBACK (i : Nat) : Fld := ⟨QTY.CDCFG i, 28, 28⟩
def QTY.CDCFG_SATAB (i : Nat) : Fld := ⟨QTY.CDCFG i, 27, 26⟩
def QTY.CDCFG_LVLPD (i : Nat) : Fld := ⟨QTY.CDCFG i, 24, 18⟩
def QTY.CDCFG_CUTOFF (i : Nat) : Fld := ⟨QTY.CDCFG i, 15, 0⟩
/-- QTY.AREA (R306). -/
def QTY.AREA (i : Nat) : Nat := 0x40042004 + i * 0x40
def QTY.AREA_AREA (i : Nat) : Fld := ⟨QTY.AREA i, 31, 0⟩
/-- QTY.ENCFG (R306). -/
def QTY.ENCFG (i : Nat) : Nat := 0x40042008 + i * 0x40
def QTY.ENCFG_EN (i : Nat) : Fld := ⟨QTY.ENCFG i, 31, 31⟩
def QTY.ENCFG_TLOC (i : Nat) : Fld := ⟨QTY.ENCFG i, 30, 30⟩
def QTY.ENCFG_TSUP (i : Nat) : Fld := ⟨QTY.ENCFG i, 29, 23⟩
def QTY.ENCFG_TRET (i : Nat) : Fld := ⟨QTY.ENCFG i, 22, 16⟩
def QTY.ENCFG_DTMIN (i : Nat) : Fld := ⟨QTY.ENCFG i, 7, 0⟩
/-- QTY.TIMECFG (R306). -/
def QTY.TIMECFG (i : Nat) : Nat := 0x4004200c + i * 0x40
def QTY.TIMECFG_SETWIN (i : Nat) : Fld := ⟨QTY.TIMECFG i, 31, 16⟩
def QTY.TIMECFG_MAXINT (i : Nat) : Fld := ⟨QTY.TIMECFG i, 11, 0⟩
/-- QTY.CDSTAT (R306). -/
def QTY.CDSTAT (i : Nat) : Nat := 0x40042010 + i * 0x40
def QTY.CDSTAT_INSET (i : Nat) : Fld := ⟨QTY.CDSTAT i, 31, 31⟩
def QTY.CDSTAT_GUARDING (i : Nat) : Fld := ⟨QTY.CDSTAT i, 30, 30⟩
def QTY.CDSTAT_NOLEVEL (i : Nat) : Fld := ⟨QTY.CDSTAT i, 29, 29⟩
def QTY.CDSTAT_NOTEMP (i : Nat) : Fld := ⟨QTY.CDSTAT i, 28, 28⟩
def QTY.CDSTAT_WET (i : Nat) : Fld := ⟨QTY.CDSTAT i, 7, 4⟩
def QTY.CDSTAT_MEMBERS (i : Nat) : Fld := ⟨QTY.CDSTAT i, 3, 0⟩
/-- QTY.CDFLOW (R306). -/
def QTY.CDFLOW (i : Nat) : Nat := 0x40042014 + i * 0x40
def QTY.CDFLOW_Q (i : Nat) : Fld := ⟨QTY.CDFLOW i, 31, 0⟩
/-- QTY.LVLCFG (R306). -/
def QTY.LVLCFG (i : Nat) : Nat := 0x40042018 + i * 0x40
def QTY.LVLCFG_ZMOUNT (i : Nat) : Fld := ⟨QTY.LVLCFG i, 15, 0⟩
/-- QTY.LEVEL (R306). -/
def QTY.LEVEL (i : Nat) : Nat := 0x4004201c + i * 0x40
def QTY.LEVEL_AGE (i : Nat) : Fld := ⟨QTY.LEVEL i, 31, 16⟩
def QTY.LEVEL_STAGE (i : Nat) : Fld := ⟨QTY.LEVEL i, 15, 0⟩
/-- QTY.CDT (R306). -/
def QTY.CDT (i : Nat) : Nat := 0x40042020 + i * 0x40
def QTY.CDT_TS (i : Nat) : Fld := ⟨QTY.CDT i, 31, 16⟩
def QTY.CDT_TR (i : Nat) : Fld := ⟨QTY.CDT i, 15, 0⟩
/-- QTY.LASTT (R306). -/
def QTY.LASTT (i : Nat) : Nat := 0x40042024 + i * 0x40
def QTY.LASTT_TIME (i : Nat) : Fld := ⟨QTY.LASTT i, 31, 0⟩
/-- QTY.LASTTHI (R306). -/
def QTY.LASTTHI (i : Nat) : Nat := 0x40042028 + i * 0x40
def QTY.LASTTHI_TIME (i : Nat) : Fld := ⟨QTY.LASTTHI i, 7, 0⟩
/-- QTY.SASTAGE (R306). -/
def QTY.SASTAGE (i : Nat) : Nat := 0x40042800 + i * 0x8
def QTY.SASTAGE_STAGE (i : Nat) : Fld := ⟨QTY.SASTAGE i, 15, 0⟩
/-- QTY.SAAREA (R306). -/
def QTY.SAAREA (i : Nat) : Nat := 0x40042804 + i * 0x8
def QTY.SAAREA_AREA (i : Nat) : Fld := ⟨QTY.SAAREA i, 31, 0⟩
/-- QTY.PZERO (R271). -/
def QTY.PZERO (i : Nat) : Nat := 0x40043000 + i * 0x8
def QTY.PZERO_Z (i : Nat) : Fld := ⟨QTY.PZERO i, 23, 0⟩
/-- QTY.PDELAY (R271). -/
def QTY.PDELAY (i : Nat) : Nat := 0x40043004 + i * 0x8
def QTY.PDELAY_TAU (i : Nat) : Fld := ⟨QTY.PDELAY i, 19, 0⟩
/-- QTY.CLCFG (R271). -/
def QTY.CLCFG (i : Nat) : Nat := 0x40043400 + i * 0x10
def QTY.CLCFG_TUSE (i : Nat) : Fld := ⟨QTY.CLCFG i, 31, 30⟩
def QTY.CLCFG_VOTE (i : Nat) : Fld := ⟨QTY.CLCFG i, 29, 29⟩
def QTY.CLCFG_PERSIST (i : Nat) : Fld := ⟨QTY.CLCFG i, 28, 25⟩
def QTY.CLCFG_TSRC (i : Nat) : Fld := ⟨QTY.CLCFG i, 22, 16⟩
def QTY.CLCFG_TFIX (i : Nat) : Fld := ⟨QTY.CLCFG i, 11, 0⟩
/-- QTY.CLVOTE (R271). -/
def QTY.CLVOTE (i : Nat) : Nat := 0x40043404 + i * 0x10
def QTY.CLVOTE_VALID (i : Nat) : Fld := ⟨QTY.CLVOTE i, 31, 31⟩
def QTY.CLVOTE_AGE (i : Nat) : Fld := ⟨QTY.CLVOTE i, 15, 8⟩
def QTY.CLVOTE_CLASS (i : Nat) : Fld := ⟨QTY.CLVOTE i, 2, 0⟩
/-- QTY.CLSTAT (R271). -/
def QTY.CLSTAT (i : Nat) : Nat := 0x40043408 + i * 0x10
def QTY.CLSTAT_DELTAC (i : Nat) : Fld := ⟨QTY.CLSTAT i, 31, 16⟩
def QTY.CLSTAT_TVALID (i : Nat) : Fld := ⟨QTY.CLSTAT i, 12, 12⟩
def QTY.CLSTAT_RUN (i : Nat) : Fld := ⟨QTY.CLSTAT i, 11, 8⟩
def QTY.CLSTAT_CAND (i : Nat) : Fld := ⟨QTY.CLSTAT i, 6, 4⟩
def QTY.CLSTAT_CLASS (i : Nat) : Fld := ⟨QTY.CLSTAT i, 2, 0⟩
/-- QTY.CLSPEED (R271). -/
def QTY.CLSPEED (i : Nat) : Nat := 0x4004340c + i * 0x10
def QTY.CLSPEED_TEMP (i : Nat) : Fld := ⟨QTY.CLSPEED i, 31, 16⟩
def QTY.CLSPEED_C (i : Nat) : Fld := ⟨QTY.CLSPEED i, 15, 0⟩
/-- QTY.CLBANDS (R271). -/
def QTY.CLBANDS : Nat := 0x40043600
def QTY.CLBANDS_B0 : Fld := ⟨QTY.CLBANDS, 31, 24⟩
def QTY.CLBANDS_B1 : Fld := ⟨QTY.CLBANDS, 23, 16⟩
def QTY.CLBANDS_B2 : Fld := ⟨QTY.CLBANDS, 15, 0⟩
/-- QTY.CALCTL (R271). -/
def QTY.CALCTL : Nat := 0x40043610
def QTY.CALCTL_START : Fld := ⟨QTY.CALCTL, 31, 31⟩
def QTY.CALCTL_BUSY : Fld := ⟨QTY.CALCTL, 30, 30⟩
def QTY.CALCTL_DONE : Fld := ⟨QTY.CALCTL, 29, 29⟩
def QTY.CALCTL_PD : Fld := ⟨QTY.CALCTL, 22, 16⟩
def QTY.CALCTL_COUNT : Fld := ⟨QTY.CALCTL, 11, 0⟩
/-- QTY.CALN (R271). -/
def QTY.CALN : Nat := 0x40043614
def QTY.CALN_N : Fld := ⟨QTY.CALN, 11, 0⟩
/-- QTY.CALDT (R271). -/
def QTY.CALDT : Nat := 0x40043618
def QTY.CALDT_MEAN : Fld := ⟨QTY.CALDT, 31, 0⟩
/-- QTY.CALTM (R271). -/
def QTY.CALTM : Nat := 0x4004361c
def QTY.CALTM_MEAN : Fld := ⟨QTY.CALTM, 31, 0⟩
/-- QTY.CALSD (R271). -/
def QTY.CALSD : Nat := 0x40043620
def QTY.CALSD_SD : Fld := ⟨QTY.CALSD, 31, 0⟩
/-- QTY.RREF (R271). -/
def QTY.RREF (i : Nat) : Nat := 0x40043640 + i * 0x4
def QTY.RREF_TYPE (i : Nat) : Fld := ⟨QTY.RREF i, 25, 24⟩
def QTY.RREF_RREF (i : Nat) : Fld := ⟨QTY.RREF i, 22, 0⟩
/-- OUT.CFG (R331). -/
def OUT.CFG : Nat := 0x40050000
def OUT.CFG_CATCHUP : Fld := ⟨OUT.CFG, 0, 0⟩
/-- OUT.LOCK (R331). -/
def OUT.LOCK : Nat := 0x40050004
def OUT.LOCK_LOOP : Fld := ⟨OUT.LOCK, 9, 8⟩
def OUT.LOCK_PIN : Fld := ⟨OUT.LOCK, 7, 0⟩
/-- OUT.FEEDSTAT (R331). -/
def OUT.FEEDSTAT : Nat := 0x40050008
def OUT.FEEDSTAT_PARERR : Fld := ⟨OUT.FEEDSTAT, 15, 8⟩
def OUT.FEEDSTAT_FEEDERR : Fld := ⟨OUT.FEEDSTAT, 3, 3⟩
def OUT.FEEDSTAT_CATCHING : Fld := ⟨OUT.FEEDSTAT, 2, 2⟩
def OUT.FEEDSTAT_G : Fld := ⟨OUT.FEEDSTAT, 1, 1⟩
def OUT.FEEDSTAT_V : Fld := ⟨OUT.FEEDSTAT, 0, 0⟩
/-- OUT.PINCTL (R331). -/
def OUT.PINCTL (i : Nat) : Nat := 0x40050100 + i * 0x20
def OUT.PINCTL_EN (i : Nat) : Fld := ⟨OUT.PINCTL i, 31, 31⟩
def OUT.PINCTL_MODE (i : Nat) : Fld := ⟨OUT.PINCTL i, 30, 28⟩
def OUT.PINCTL_PULL (i : Nat) : Fld := ⟨OUT.PINCTL i, 27, 26⟩
def OUT.PINCTL_SRC (i : Nat) : Fld := ⟨OUT.PINCTL i, 24, 16⟩
def OUT.PINCTL_DEBOUNCE (i : Nat) : Fld := ⟨OUT.PINCTL i, 7, 0⟩
/-- OUT.PINWEIGHT (R331). -/
def OUT.PINWEIGHT (i : Nat) : Nat := 0x40050104 + i * 0x20
def OUT.PINWEIGHT_WEIGHT (i : Nat) : Fld := ⟨OUT.PINWEIGHT i, 31, 0⟩
/-- OUT.PINTIME (R331). -/
def OUT.PINTIME (i : Nat) : Nat := 0x40050108 + i * 0x20
def OUT.PINTIME_GAP (i : Nat) : Fld := ⟨OUT.PINTIME i, 31, 16⟩
def OUT.PINTIME_WIDTH (i : Nat) : Fld := ⟨OUT.PINTIME i, 15, 0⟩
/-- OUT.PINSTAT (R331). -/
def OUT.PINSTAT (i : Nat) : Nat := 0x4005010c + i * 0x20
def OUT.PINSTAT_LIFE (i : Nat) : Fld := ⟨OUT.PINSTAT i, 31, 30⟩
def OUT.PINSTAT_LEVEL (i : Nat) : Fld := ⟨OUT.PINSTAT i, 29, 29⟩
def OUT.PINSTAT_ACTIVE (i : Nat) : Fld := ⟨OUT.PINSTAT i, 28, 28⟩
def OUT.PINSTAT_CSTART (i : Nat) : Fld := ⟨OUT.PINSTAT i, 23, 16⟩
def OUT.PINSTAT_INGAP (i : Nat) : Fld := ⟨OUT.PINSTAT i, 1, 1⟩
def OUT.PINSTAT_DEBTOVF (i : Nat) : Fld := ⟨OUT.PINSTAT i, 0, 0⟩
/-- OUT.PINDEBT (R331). -/
def OUT.PINDEBT (i : Nat) : Nat := 0x40050110 + i * 0x20
def OUT.PINDEBT_OVER (i : Nat) : Fld := ⟨OUT.PINDEBT i, 31, 24⟩
def OUT.PINDEBT_DEBT (i : Nat) : Fld := ⟨OUT.PINDEBT i, 23, 0⟩
/-- OUT.PINACC (R331). -/
def OUT.PINACC (i : Nat) : Nat := 0x40050114 + i * 0x20
def OUT.PINACC_ACC (i : Nat) : Fld := ⟨OUT.PINACC i, 31, 0⟩
/-- OUT.PINCNT (R331). -/
def OUT.PINCNT (i : Nat) : Nat := 0x40050118 + i * 0x20
def OUT.PINCNT_CNT (i : Nat) : Fld := ⟨OUT.PINCNT i, 31, 0⟩
/-- OUT.PINADD (R331). -/
def OUT.PINADD (i : Nat) : Nat := 0x4005011c + i * 0x20
def OUT.PINADD_DEBTADD (i : Nat) : Fld := ⟨OUT.PINADD i, 23, 0⟩
/-- OUT.LPCTL (R331). -/
def OUT.LPCTL (i : Nat) : Nat := 0x40050300 + i * 0x20
def OUT.LPCTL_EN (i : Nat) : Fld := ⟨OUT.LPCTL i, 31, 31⟩
def OUT.LPCTL_SRC (i : Nat) : Fld := ⟨OUT.LPCTL i, 30, 28⟩
def OUT.LPCTL_FAILDIR (i : Nat) : Fld := ⟨OUT.LPCTL i, 27, 27⟩
def OUT.LPCTL_LOWFAIL (i : Nat) : Fld := ⟨OUT.LPCTL i, 26, 26⟩
def OUT.LPCTL_ERRFAIL (i : Nat) : Fld := ⟨OUT.LPCTL i, 25, 25⟩
def OUT.LPCTL_FORCE (i : Nat) : Fld := ⟨OUT.LPCTL i, 24, 24⟩
def OUT.LPCTL_SRCNUM (i : Nat) : Fld := ⟨OUT.LPCTL i, 16, 8⟩
def OUT.LPCTL_STALE (i : Nat) : Fld := ⟨OUT.LPCTL i, 7, 0⟩
/-- OUT.LPLO (R331). -/
def OUT.LPLO (i : Nat) : Nat := 0x40050304 + i * 0x20
def OUT.LPLO_LO (i : Nat) : Fld := ⟨OUT.LPLO i, 31, 0⟩
/-- OUT.LPHI (R331). -/
def OUT.LPHI (i : Nat) : Nat := 0x40050308 + i * 0x20
def OUT.LPHI_HI (i : Nat) : Fld := ⟨OUT.LPHI i, 31, 0⟩
/-- OUT.LPFIX (R331). -/
def OUT.LPFIX (i : Nat) : Nat := 0x4005030c + i * 0x20
def OUT.LPFIX_CODE (i : Nat) : Fld := ⟨OUT.LPFIX i, 15, 0⟩
/-- OUT.LPAVG (R331). -/
def OUT.LPAVG (i : Nat) : Nat := 0x40050310 + i * 0x20
def OUT.LPAVG_AVG (i : Nat) : Fld := ⟨OUT.LPAVG i, 5, 0⟩
/-- OUT.LPSTAT (R331). -/
def OUT.LPSTAT (i : Nat) : Nat := 0x40050314 + i * 0x20
def OUT.LPSTAT_LIFE (i : Nat) : Fld := ⟨OUT.LPSTAT i, 31, 30⟩
def OUT.LPSTAT_LATCHED (i : Nat) : Fld := ⟨OUT.LPSTAT i, 5, 5⟩
def OUT.LPSTAT_FAILING (i : Nat) : Fld := ⟨OUT.LPSTAT i, 4, 4⟩
def OUT.LPSTAT_SRCERR (i : Nat) : Fld := ⟨OUT.LPSTAT i, 3, 3⟩
def OUT.LPSTAT_STALE (i : Nat) : Fld := ⟨OUT.LPSTAT i, 2, 2⟩
def OUT.LPSTAT_LOWNOW (i : Nat) : Fld := ⟨OUT.LPSTAT i, 1, 1⟩
def OUT.LPSTAT_LOOP_LOW (i : Nat) : Fld := ⟨OUT.LPSTAT i, 0, 0⟩
/-- OUT.LPCMD (R331). -/
def OUT.LPCMD (i : Nat) : Nat := 0x40050318 + i * 0x20
def OUT.LPCMD_CMD (i : Nat) : Fld := ⟨OUT.LPCMD i, 15, 0⟩
/-- OUT.LPMEAS (R331). -/
def OUT.LPMEAS (i : Nat) : Nat := 0x4005031c + i * 0x20
def OUT.LPMEAS_VDEV (i : Nat) : Fld := ⟨OUT.LPMEAS i, 31, 16⟩
def OUT.LPMEAS_MEAS (i : Nat) : Fld := ⟨OUT.LPMEAS i, 15, 0⟩
/-- ROOD.MBCFG (R359). -/
def ROOD.MBCFG : Nat := 0x40060000
def ROOD.MBCFG_TSTEP : Fld := ⟨ROOD.MBCFG, 31, 24⟩
def ROOD.MBCFG_ALLOW : Fld := ⟨ROOD.MBCFG, 8, 1⟩
/-- ROOD.MBSTAT (R359). -/
def ROOD.MBSTAT : Nat := 0x40060004
def ROOD.MBSTAT_CMDWAIT : Fld := ⟨ROOD.MBSTAT, 31, 31⟩
def ROOD.MBSTAT_REPLYWAIT : Fld := ⟨ROOD.MBSTAT, 30, 30⟩
def ROOD.MBSTAT_REJECTS : Fld := ⟨ROOD.MBSTAT, 23, 16⟩
def ROOD.MBSTAT_CAUSE : Fld := ⟨ROOD.MBSTAT, 11, 8⟩
def ROOD.MBSTAT_LASTOP : Fld := ⟨ROOD.MBSTAT, 7, 0⟩
/-- ROOD.CADLIM (R359). -/
def ROOD.CADLIM (i : Nat) : Nat := 0x40060100 + i * 0x4
def ROOD.CADLIM_MAX (i : Nat) : Fld := ⟨ROOD.CADLIM i, 31, 16⟩
def ROOD.CADLIM_MIN (i : Nat) : Fld := ⟨ROOD.CADLIM i, 15, 0⟩
/-- ROOD.NMBSTAT (R359). -/
def ROOD.NMBSTAT : Nat := 0x40068004
def ROOD.NMBSTAT_CMDWAIT : Fld := ⟨ROOD.NMBSTAT, 31, 31⟩
def ROOD.NMBSTAT_REPLYWAIT : Fld := ⟨ROOD.NMBSTAT, 30, 30⟩
def ROOD.NMBSTAT_REJECTS : Fld := ⟨ROOD.NMBSTAT, 23, 16⟩
def ROOD.NMBSTAT_CAUSE : Fld := ⟨ROOD.NMBSTAT, 11, 8⟩
def ROOD.NMBSTAT_LASTOP : Fld := ⟨ROOD.NMBSTAT, 7, 0⟩
/-- SACR.SEAL (R358). -/
def SACR.SEAL : Nat := 0x40070000
def SACR.SEAL_CASECNT : Fld := ⟨SACR.SEAL, 31, 24⟩
def SACR.SEAL_MAGCNT : Fld := ⟨SACR.SEAL, 23, 16⟩
def SACR.SEAL_DBG : Fld := ⟨SACR.SEAL, 11, 11⟩
def SACR.SEAL_MAGNET : Fld := ⟨SACR.SEAL, 10, 10⟩
def SACR.SEAL_CASE : Fld := ⟨SACR.SEAL, 9, 9⟩
def SACR.SEAL_VERIFY : Fld := ⟨SACR.SEAL, 8, 8⟩
def SACR.SEAL_STATE : Fld := ⟨SACR.SEAL, 1, 0⟩
/-- SACR.SEALCTL (R358). -/
def SACR.SEALCTL : Nat := 0x40070004
def SACR.SEALCTL_CONFIRM : Fld := ⟨SACR.SEALCTL, 31, 16⟩
def SACR.SEALCTL_SEAL : Fld := ⟨SACR.SEALCTL, 0, 0⟩
/-- SACR.SWCRC (R358). -/
def SACR.SWCRC : Nat := 0x40070010
def SACR.SWCRC_DECL : Fld := ⟨SACR.SWCRC, 31, 16⟩
def SACR.SWCRC_CRC : Fld := ⟨SACR.SWCRC, 15, 0⟩
/-- SACR.EUI (R358). -/
def SACR.EUI (i : Nat) : Nat := 0x40070018 + i * 0x4
def SACR.EUI_EUI (i : Nat) : Fld := ⟨SACR.EUI i, 31, 0⟩
/-- SACR.SWHASH (R358). -/
def SACR.SWHASH (i : Nat) : Nat := 0x40070020 + i * 0x4
def SACR.SWHASH_HASH (i : Nat) : Fld := ⟨SACR.SWHASH i, 31, 0⟩
/-- SACR.KBUF (R358). -/
def SACR.KBUF (i : Nat) : Nat := 0x40070040 + i * 0x4
def SACR.KBUF_DATA (i : Nat) : Fld := ⟨SACR.KBUF i, 31, 0⟩
/-- SACR.KEYCMD (R358). -/
def SACR.KEYCMD : Nat := 0x40070080
def SACR.KEYCMD_SLOT : Fld := ⟨SACR.KEYCMD, 11, 8⟩
def SACR.KEYCMD_CMD : Fld := ⟨SACR.KEYCMD, 2, 0⟩
/-- SACR.KEYSTAT (R358). -/
def SACR.KEYSTAT : Nat := 0x40070084
def SACR.KEYSTAT_BUSY : Fld := ⟨SACR.KEYSTAT, 31, 31⟩
def SACR.KEYSTAT_ERR : Fld := ⟨SACR.KEYSTAT, 30, 28⟩
def SACR.KEYSTAT_KCV : Fld := ⟨SACR.KEYSTAT, 23, 0⟩
/-- SACR.KEYMAP (R358). -/
def SACR.KEYMAP : Nat := 0x40070088
def SACR.KEYMAP_VKREV : Fld := ⟨SACR.KEYMAP, 15, 12⟩
def SACR.KEYMAP_VKSET : Fld := ⟨SACR.KEYMAP, 11, 8⟩
def SACR.KEYMAP_AES : Fld := ⟨SACR.KEYMAP, 7, 0⟩
/-- SACR.MACCTL (R358). -/
def SACR.MACCTL : Nat := 0x400700a0
def SACR.MACCTL_BUSY : Fld := ⟨SACR.MACCTL, 31, 31⟩
def SACR.MACCTL_START : Fld := ⟨SACR.MACCTL, 30, 30⟩
def SACR.MACCTL_FINISH : Fld := ⟨SACR.MACCTL, 29, 29⟩
def SACR.MACCTL_ERR : Fld := ⟨SACR.MACCTL, 28, 28⟩
def SACR.MACCTL_SLOT : Fld := ⟨SACR.MACCTL, 26, 24⟩
def SACR.MACCTL_LEN : Fld := ⟨SACR.MACCTL, 11, 0⟩
/-- SACR.DIN (R358). -/
def SACR.DIN : Nat := 0x400700a4
def SACR.DIN_DATA : Fld := ⟨SACR.DIN, 31, 0⟩
/-- SACR.RPTCTR (R358). -/
def SACR.RPTCTR : Nat := 0x400700a8
def SACR.RPTCTR_COUNT : Fld := ⟨SACR.RPTCTR, 31, 0⟩
/-- SACR.TAG (R358). -/
def SACR.TAG (i : Nat) : Nat := 0x400700b0 + i * 0x4
def SACR.TAG_TAG (i : Nat) : Fld := ⟨SACR.TAG i, 31, 0⟩
/-- SACR.IMGCHK (R358). -/
def SACR.IMGCHK : Nat := 0x400700c0
def SACR.IMGCHK_BUSY : Fld := ⟨SACR.IMGCHK, 31, 31⟩
def SACR.IMGCHK_VALID : Fld := ⟨SACR.IMGCHK, 30, 30⟩
def SACR.IMGCHK_DONE : Fld := ⟨SACR.IMGCHK, 29, 29⟩
def SACR.IMGCHK_REFUSED : Fld := ⟨SACR.IMGCHK, 28, 28⟩
def SACR.IMGCHK_ACTIVATE : Fld := ⟨SACR.IMGCHK, 1, 1⟩
def SACR.IMGCHK_CHECK : Fld := ⟨SACR.IMGCHK, 0, 0⟩
/-- SACR.NSEAL (R358). -/
def SACR.NSEAL : Nat := 0x40078000
def SACR.NSEAL_ALL : Fld := ⟨SACR.NSEAL, 31, 0⟩
/-- SACR.NSWCRC (R358). -/
def SACR.NSWCRC : Nat := 0x40078010
def SACR.NSWCRC_ALL : Fld := ⟨SACR.NSWCRC, 31, 0⟩
/-- SACR.NEUI (R358). -/
def SACR.NEUI (i : Nat) : Nat := 0x40078018 + i * 0x4
def SACR.NEUI_ALL (i : Nat) : Fld := ⟨SACR.NEUI i, 31, 0⟩
/-- SACR.NSWHASH (R358). -/
def SACR.NSWHASH (i : Nat) : Nat := 0x40078020 + i * 0x4
def SACR.NSWHASH_ALL (i : Nat) : Fld := ⟨SACR.NSWHASH i, 31, 0⟩
/-- SACR.NKBUF (R358). -/
def SACR.NKBUF (i : Nat) : Nat := 0x40078040 + i * 0x4
def SACR.NKBUF_DATA (i : Nat) : Fld := ⟨SACR.NKBUF i, 31, 0⟩
/-- SACR.NKEYCMD (R358). -/
def SACR.NKEYCMD : Nat := 0x40078080
def SACR.NKEYCMD_SLOT : Fld := ⟨SACR.NKEYCMD, 11, 8⟩
def SACR.NKEYCMD_CMD : Fld := ⟨SACR.NKEYCMD, 2, 0⟩
/-- SACR.NKEYSTAT (R358). -/
def SACR.NKEYSTAT : Nat := 0x40078084
def SACR.NKEYSTAT_BUSY : Fld := ⟨SACR.NKEYSTAT, 31, 31⟩
def SACR.NKEYSTAT_ERR : Fld := ⟨SACR.NKEYSTAT, 30, 28⟩
def SACR.NKEYSTAT_KCV : Fld := ⟨SACR.NKEYSTAT, 23, 0⟩
/-- SACR.NKEYMAP (R358). -/
def SACR.NKEYMAP : Nat := 0x40078088
def SACR.NKEYMAP_LOADED : Fld := ⟨SACR.NKEYMAP, 15, 8⟩
/-- LEDG.CFG (R307). -/
def LEDG.CFG : Nat := 0x40080000
def LEDG.CFG_PERIOD : Fld := ⟨LEDG.CFG, 10, 0⟩
/-- LEDG.STAT (R307). -/
def LEDG.STAT : Nat := 0x40080004
def LEDG.STAT_BUSY : Fld := ⟨LEDG.STAT, 31, 31⟩
def LEDG.STAT_FOLLOW : Fld := ⟨LEDG.STAT, 30, 30⟩
def LEDG.STAT_BANK : Fld := ⟨LEDG.STAT, 29, 29⟩
def LEDG.STAT_TORN : Fld := ⟨LEDG.STAT, 28, 28⟩
def LEDG.STAT_NOIMAGE : Fld := ⟨LEDG.STAT, 27, 27⟩
def LEDG.STAT_INIT : Fld := ⟨LEDG.STAT, 26, 26⟩
def LEDG.STAT_REASON : Fld := ⟨LEDG.STAT, 19, 16⟩
def LEDG.STAT_TORNS : Fld := ⟨LEDG.STAT, 7, 0⟩
/-- LEDG.SEQ (R307). -/
def LEDG.SEQ : Nat := 0x40080008
def LEDG.SEQ_SEQ : Fld := ⟨LEDG.SEQ, 31, 0⟩
/-- LEDG.TIME (R307). -/
def LEDG.TIME : Nat := 0x4008000c
def LEDG.TIME_SEC : Fld := ⟨LEDG.TIME, 31, 0⟩
/-- LEDG.LOGSTAT (R360). -/
def LEDG.LOGSTAT : Nat := 0x40080100
def LEDG.LOGSTAT_FULL : Fld := ⟨LEDG.LOGSTAT, 31, 31⟩
def LEDG.LOGSTAT_NEAR : Fld := ⟨LEDG.LOGSTAT, 30, 30⟩
def LEDG.LOGSTAT_LOST : Fld := ⟨LEDG.LOGSTAT, 27, 16⟩
def LEDG.LOGSTAT_COUNT : Fld := ⟨LEDG.LOGSTAT, 10, 0⟩
/-- LEDG.LOGIDX (R360). -/
def LEDG.LOGIDX : Nat := 0x40080104
def LEDG.LOGIDX_INDEX : Fld := ⟨LEDG.LOGIDX, 10, 0⟩
/-- LEDG.LOGDATA (R360). -/
def LEDG.LOGDATA (i : Nat) : Nat := 0x40080110 + i * 0x4
def LEDG.LOGDATA_DATA (i : Nat) : Fld := ⟨LEDG.LOGDATA i, 31, 0⟩
/-- CRYPT.TIME_SEC (R442). -/
def CRYPT.TIME_SEC : Nat := 0x40090000
def CRYPT.TIME_SEC_SEC : Fld := ⟨CRYPT.TIME_SEC, 31, 0⟩
/-- CRYPT.TIME_SUB (R442). -/
def CRYPT.TIME_SUB : Nat := 0x40090004
def CRYPT.TIME_SUB_SUB : Fld := ⟨CRYPT.TIME_SUB, 14, 0⟩
/-- CRYPT.TIME_NEW (R442). -/
def CRYPT.TIME_NEW : Nat := 0x40090008
def CRYPT.TIME_NEW_SEC : Fld := ⟨CRYPT.TIME_NEW, 31, 0⟩
/-- CRYPT.TIMESTAT (R442). -/
def CRYPT.TIMESTAT : Nat := 0x4009000c
def CRYPT.TIMESTAT_SET : Fld := ⟨CRYPT.TIMESTAT, 31, 31⟩
def CRYPT.TIMESTAT_PEND : Fld := ⟨CRYPT.TIMESTAT, 30, 30⟩
def CRYPT.TIMESTAT_RTCRST : Fld := ⟨CRYPT.TIMESTAT, 29, 29⟩
/-- CRYPT.TICKS (R442). -/
def CRYPT.TICKS : Nat := 0x40090010
def CRYPT.TICKS_COUNT : Fld := ⟨CRYPT.TICKS, 31, 0⟩
/-- CRYPT.RTCTRIM (R442). -/
def CRYPT.RTCTRIM : Nat := 0x40090014
def CRYPT.RTCTRIM_TRIM : Fld := ⟨CRYPT.RTCTRIM, 6, 0⟩
/-- CRYPT.CLKSTAT (R442). -/
def CRYPT.CLKSTAT : Nat := 0x40090018
def CRYPT.CLKSTAT_XT32K : Fld := ⟨CRYPT.CLKSTAT, 31, 31⟩
def CRYPT.CLKSTAT_XTFAIL : Fld := ⟨CRYPT.CLKSTAT, 30, 30⟩
def CRYPT.CLKSTAT_XHFON : Fld := ⟨CRYPT.CLKSTAT, 29, 29⟩
def CRYPT.CLKSTAT_XHFOK : Fld := ⟨CRYPT.CLKSTAT, 28, 28⟩
def CRYPT.CLKSTAT_XHFFAIL : Fld := ⟨CRYPT.CLKSTAT, 27, 27⟩
def CRYPT.CLKSTAT_HBELF : Fld := ⟨CRYPT.CLKSTAT, 2, 2⟩
def CRYPT.CLKSTAT_HISLE : Fld := ⟨CRYPT.CLKSTAT, 1, 1⟩
def CRYPT.CLKSTAT_HCHOIR : Fld := ⟨CRYPT.CLKSTAT, 0, 0⟩
/-- CRYPT.XHFREQ (R442). -/
def CRYPT.XHFREQ : Nat := 0x4009001c
def CRYPT.XHFREQ_CHOIR : Fld := ⟨CRYPT.XHFREQ, 31, 31⟩
def CRYPT.XHFREQ_LINGER : Fld := ⟨CRYPT.XHFREQ, 7, 0⟩
/-- CRYPT.WAKECFG (R473). -/
def CRYPT.WAKECFG : Nat := 0x40090020
def CRYPT.WAKECFG_MAGNET : Fld := ⟨CRYPT.WAKECFG, 2, 2⟩
def CRYPT.WAKECFG_CASE : Fld := ⟨CRYPT.WAKECFG, 1, 1⟩
def CRYPT.WAKECFG_ALARM : Fld := ⟨CRYPT.WAKECFG, 0, 0⟩
/-- CRYPT.WAKEAT (R473). -/
def CRYPT.WAKEAT : Nat := 0x40090024
def CRYPT.WAKEAT_SEC : Fld := ⟨CRYPT.WAKEAT, 31, 0⟩
/-- CRYPT.PWRSTAT (R77). -/
def CRYPT.PWRSTAT : Nat := 0x40090100
def CRYPT.PWRSTAT_SWITCHES : Fld := ⟨CRYPT.PWRSTAT, 31, 24⟩
def CRYPT.PWRSTAT_HOLDS : Fld := ⟨CRYPT.PWRSTAT, 23, 16⟩
def CRYPT.PWRSTAT_BAKPRES : Fld := ⟨CRYPT.PWRSTAT, 4, 4⟩
def CRYPT.PWRSTAT_BAKOK : Fld := ⟨CRYPT.PWRSTAT, 3, 3⟩
def CRYPT.PWRSTAT_MAINOK : Fld := ⟨CRYPT.PWRSTAT, 2, 2⟩
def CRYPT.PWRSTAT_PATH : Fld := ⟨CRYPT.PWRSTAT, 1, 0⟩
/-- CRYPT.PWRCFG (R77). -/
def CRYPT.PWRCFG : Nat := 0x40090104
def CRYPT.PWRCFG_MEASNOW : Fld := ⟨CRYPT.PWRCFG, 16, 16⟩
def CRYPT.PWRCFG_CHARGE : Fld := ⟨CRYPT.PWRCFG, 15, 14⟩
def CRYPT.PWRCFG_BAKLO : Fld := ⟨CRYPT.PWRCFG, 11, 8⟩
def CRYPT.PWRCFG_MAINLO : Fld := ⟨CRYPT.PWRCFG, 5, 0⟩
/-- CRYPT.VMEAS (R77). -/
def CRYPT.VMEAS : Nat := 0x40090108
def CRYPT.VMEAS_BAK : Fld := ⟨CRYPT.VMEAS, 27, 16⟩
def CRYPT.VMEAS_MAIN : Fld := ⟨CRYPT.VMEAS, 11, 0⟩
/-- CRYPT.VPULCFG (R77). -/
def CRYPT.VPULCFG : Nat := 0x4009010c
def CRYPT.VPULCFG_EN : Fld := ⟨CRYPT.VPULCFG, 8, 8⟩
def CRYPT.VPULCFG_LEVEL : Fld := ⟨CRYPT.VPULCFG, 5, 0⟩
/-- CRYPT.VPULSTAT (R77). -/
def CRYPT.VPULSTAT : Nat := 0x40090110
def CRYPT.VPULSTAT_INHIBIT : Fld := ⟨CRYPT.VPULSTAT, 3, 3⟩
def CRYPT.VPULSTAT_FAULT : Fld := ⟨CRYPT.VPULSTAT, 2, 2⟩
def CRYPT.VPULSTAT_OK : Fld := ⟨CRYPT.VPULSTAT, 1, 1⟩
def CRYPT.VPULSTAT_ON : Fld := ⟨CRYPT.VPULSTAT, 0, 0⟩
/-- BELF.PCTL (R390). -/
def BELF.PCTL (i : Nat) : Nat := 0x400a0100 + i * 0x100
def BELF.PCTL_EN (i : Nat) : Fld := ⟨BELF.PCTL i, 31, 31⟩
def BELF.PCTL_TIMESRC (i : Nat) : Fld := ⟨BELF.PCTL i, 30, 30⟩
def BELF.PCTL_SCAN (i : Nat) : Fld := ⟨BELF.PCTL i, 29, 29⟩
def BELF.PCTL_TEST (i : Nat) : Fld := ⟨BELF.PCTL i, 28, 27⟩
def BELF.PCTL_WHITEN (i : Nat) : Fld := ⟨BELF.PCTL i, 26, 26⟩
def BELF.PCTL_PRE (i : Nat) : Fld := ⟨BELF.PCTL i, 24, 20⟩
def BELF.PCTL_PLAN (i : Nat) : Fld := ⟨BELF.PCTL i, 14, 12⟩
def BELF.PCTL_MAXRETRY (i : Nat) : Fld := ⟨BELF.PCTL i, 10, 8⟩
def BELF.PCTL_SCANCH (i : Nat) : Fld := ⟨BELF.PCTL i, 6, 0⟩
/-- BELF.PSTAT (R390). -/
def BELF.PSTAT (i : Nat) : Nat := 0x400a0104 + i * 0x100
def BELF.PSTAT_LIFE (i : Nat) : Fld := ⟨BELF.PSTAT i, 31, 30⟩
def BELF.PSTAT_SYNCED (i : Nat) : Fld := ⟨BELF.PSTAT i, 29, 29⟩
def BELF.PSTAT_TXON (i : Nat) : Fld := ⟨BELF.PSTAT i, 28, 28⟩
def BELF.PSTAT_RXON (i : Nat) : Fld := ⟨BELF.PSTAT i, 27, 27⟩
def BELF.PSTAT_CAPPED (i : Nat) : Fld := ⟨BELF.PSTAT i, 26, 26⟩
def BELF.PSTAT_WPWR (i : Nat) : Fld := ⟨BELF.PSTAT i, 7, 0⟩
/-- BELF.TIMING (R390). -/
def BELF.TIMING (i : Nat) : Nat := 0x400a0108 + i * 0x100
def BELF.TIMING_TSLEN (i : Nat) : Fld := ⟨BELF.TIMING i, 31, 16⟩
def BELF.TIMING_TXOFF (i : Nat) : Fld := ⟨BELF.TIMING i, 15, 0⟩
/-- BELF.GAPS (R390). -/
def BELF.GAPS (i : Nat) : Nat := 0x400a010c + i * 0x100
def BELF.GAPS_ACKGAP (i : Nat) : Fld := ⟨BELF.GAPS i, 31, 16⟩
def BELF.GAPS_GUARD (i : Nat) : Fld := ⟨BELF.GAPS i, 15, 0⟩
/-- BELF.ASNLO (R390). -/
def BELF.ASNLO (i : Nat) : Nat := 0x400a0110 + i * 0x100
def BELF.ASNLO_ASN (i : Nat) : Fld := ⟨BELF.ASNLO i, 31, 0⟩
/-- BELF.ASNHI (R390). -/
def BELF.ASNHI (i : Nat) : Nat := 0x400a0114 + i * 0x100
def BELF.ASNHI_ASN (i : Nat) : Fld := ⟨BELF.ASNHI i, 7, 0⟩
/-- BELF.FRAME (R390). -/
def BELF.FRAME (i : Nat) : Nat := 0x400a0118 + i * 0x100
def BELF.FRAME_SFLEN (i : Nat) : Fld := ⟨BELF.FRAME i, 9, 0⟩
/-- BELF.HOP (R390). -/
def BELF.HOP (i : Nat) : Nat := 0x400a011c + i * 0x100
def BELF.HOP_GEN (i : Nat) : Fld := ⟨BELF.HOP i, 31, 31⟩
def BELF.HOP_BUSY (i : Nat) : Fld := ⟨BELF.HOP i, 30, 30⟩
def BELF.HOP_HOPLEN (i : Nat) : Fld := ⟨BELF.HOP i, 23, 16⟩
def BELF.HOP_SEED (i : Nat) : Fld := ⟨BELF.HOP i, 15, 0⟩
/-- BELF.MASK0 (R390). -/
def BELF.MASK0 (i : Nat) : Nat := 0x400a0120 + i * 0x4
def BELF.MASK0_MASK (i : Nat) : Fld := ⟨BELF.MASK0 i, 31, 0⟩
/-- BELF.MASK1 (R390). -/
def BELF.MASK1 (i : Nat) : Nat := 0x400a0220 + i * 0x4
def BELF.MASK1_MASK (i : Nat) : Fld := ⟨BELF.MASK1 i, 31, 0⟩
/-- BELF.ADDR (R390). -/
def BELF.ADDR (i : Nat) : Nat := 0x400a0130 + i * 0x100
def BELF.ADDR_PANID (i : Nat) : Fld := ⟨BELF.ADDR i, 31, 16⟩
def BELF.ADDR_SHORT (i : Nat) : Fld := ⟨BELF.ADDR i, 15, 0⟩
/-- BELF.QUEUES (R390). -/
def BELF.QUEUES (i : Nat) : Nat := 0x400a0134 + i * 0x100
def BELF.QUEUES_TXSTATQ (i : Nat) : Fld := ⟨BELF.QUEUES i, 31, 24⟩
def BELF.QUEUES_RXQ (i : Nat) : Fld := ⟨BELF.QUEUES i, 23, 16⟩
/-- BELF.SYNC (R390). -/
def BELF.SYNC (i : Nat) : Nat := 0x400a0138 + i * 0x100
def BELF.SYNC_ANY (i : Nat) : Fld := ⟨BELF.SYNC i, 31, 31⟩
def BELF.SYNC_NBR (i : Nat) : Fld := ⟨BELF.SYNC i, 23, 16⟩
def BELF.SYNC_SYNCTO (i : Nat) : Fld := ⟨BELF.SYNC i, 15, 0⟩
/-- BELF.SYNCSTAT (R390). -/
def BELF.SYNCSTAT (i : Nat) : Nat := 0x400a013c + i * 0x100
def BELF.SYNCSTAT_CORR (i : Nat) : Fld := ⟨BELF.SYNCSTAT i, 31, 16⟩
def BELF.SYNCSTAT_AGE (i : Nat) : Fld := ⟨BELF.SYNCSTAT i, 15, 0⟩
/-- BELF.PWR (R390). -/
def BELF.PWR (i : Nat) : Nat := 0x400a0140 + i * 0x100
def BELF.PWR_LEASH (i : Nat) : Fld := ⟨BELF.PWR i, 31, 30⟩
def BELF.PWR_MAX (i : Nat) : Fld := ⟨BELF.PWR i, 23, 16⟩
def BELF.PWR_MIN (i : Nat) : Fld := ⟨BELF.PWR i, 15, 8⟩
def BELF.PWR_SET (i : Nat) : Fld := ⟨BELF.PWR i, 7, 0⟩
/-- BELF.LIMCFG (R390). -/
def BELF.LIMCFG (i : Nat) : Nat := 0x400a0144 + i * 0x100
def BELF.LIMCFG_PRESET (i : Nat) : Fld := ⟨BELF.LIMCFG i, 31, 29⟩
def BELF.LIMCFG_COLD (i : Nat) : Fld := ⟨BELF.LIMCFG i, 28, 28⟩
def BELF.LIMCFG_DWIN (i : Nat) : Fld := ⟨BELF.LIMCFG i, 23, 16⟩
def BELF.LIMCFG_DLIM (i : Nat) : Fld := ⟨BELF.LIMCFG i, 15, 0⟩
/-- BELF.CCA (R390). -/
def BELF.CCA (i : Nat) : Nat := 0x400a0148 + i * 0x100
def BELF.CCA_THR (i : Nat) : Fld := ⟨BELF.CCA i, 7, 0⟩
/-- BELF.FAULTS (R390). -/
def BELF.FAULTS (i : Nat) : Nat := 0x400a014c + i * 0x100
def BELF.FAULTS_LIMFRESH (i : Nat) : Fld := ⟨BELF.FAULTS i, 3, 3⟩
def BELF.FAULTS_SYNCLOST (i : Nat) : Fld := ⟨BELF.FAULTS i, 2, 2⟩
def BELF.FAULTS_CUT (i : Nat) : Fld := ⟨BELF.FAULTS i, 1, 1⟩
def BELF.FAULTS_LEASH (i : Nat) : Fld := ⟨BELF.FAULTS i, 0, 0⟩
/-- BELF.TXCNT (R390). -/
def BELF.TXCNT (i : Nat) : Nat := 0x400a0150 + i * 0x100
def BELF.TXCNT_OK (i : Nat) : Fld := ⟨BELF.TXCNT i, 31, 16⟩
def BELF.TXCNT_FAIL (i : Nat) : Fld := ⟨BELF.TXCNT i, 15, 0⟩
/-- BELF.RXCNT (R390). -/
def BELF.RXCNT (i : Nat) : Nat := 0x400a0154 + i * 0x100
def BELF.RXCNT_OK (i : Nat) : Fld := ⟨BELF.RXCNT i, 31, 16⟩
def BELF.RXCNT_FCSERR (i : Nat) : Fld := ⟨BELF.RXCNT i, 15, 0⟩
/-- BELF.LIMCNT (R390). -/
def BELF.LIMCNT (i : Nat) : Nat := 0x400a0158 + i * 0x100
def BELF.LIMCNT_DEFER (i : Nat) : Fld := ⟨BELF.LIMCNT i, 31, 16⟩
def BELF.LIMCNT_ACKSUPP (i : Nat) : Fld := ⟨BELF.LIMCNT i, 15, 0⟩
/-- BELF.MISCCNT (R390). -/
def BELF.MISCCNT (i : Nat) : Nat := 0x400a015c + i * 0x100
def BELF.MISCCNT_CUTS (i : Nat) : Fld := ⟨BELF.MISCCNT i, 31, 16⟩
def BELF.MISCCNT_FILTERED (i : Nat) : Fld := ⟨BELF.MISCCNT i, 15, 0⟩
/-- BELF.SBLO0 (R390). -/
def BELF.SBLO0 (i : Nat) : Nat := 0x400a0160 + i * 0x8
def BELF.SBLO0_DUTY (i : Nat) : Fld := ⟨BELF.SBLO0 i, 31, 20⟩
def BELF.SBLO0_LO (i : Nat) : Fld := ⟨BELF.SBLO0 i, 19, 0⟩
/-- BELF.SBHI0 (R390). -/
def BELF.SBHI0 (i : Nat) : Nat := 0x400a0164 + i * 0x8
def BELF.SBHI0_HI (i : Nat) : Fld := ⟨BELF.SBHI0 i, 19, 0⟩
/-- BELF.SBUSE0 (R390). -/
def BELF.SBUSE0 (i : Nat) : Nat := 0x400a01a0 + i * 0x4
def BELF.SBUSE0_MS (i : Nat) : Fld := ⟨BELF.SBUSE0 i, 31, 0⟩
/-- BELF.SBLO1 (R390). -/
def BELF.SBLO1 (i : Nat) : Nat := 0x400a0260 + i * 0x8
def BELF.SBLO1_DUTY (i : Nat) : Fld := ⟨BELF.SBLO1 i, 31, 20⟩
def BELF.SBLO1_LO (i : Nat) : Fld := ⟨BELF.SBLO1 i, 19, 0⟩
/-- BELF.SBHI1 (R390). -/
def BELF.SBHI1 (i : Nat) : Nat := 0x400a0264 + i * 0x8
def BELF.SBHI1_HI (i : Nat) : Fld := ⟨BELF.SBHI1 i, 19, 0⟩
/-- BELF.SBUSE1 (R390). -/
def BELF.SBUSE1 (i : Nat) : Nat := 0x400a02a0 + i * 0x4
def BELF.SBUSE1_MS (i : Nat) : Fld := ⟨BELF.SBUSE1 i, 31, 0⟩
/-- BELF.HOPSEQ0 (R390). -/
def BELF.HOPSEQ0 (i : Nat) : Nat := 0x400a1000 + i * 0x4
def BELF.HOPSEQ0_CH (i : Nat) : Fld := ⟨BELF.HOPSEQ0 i, 6, 0⟩
/-- BELF.HOPSEQ1 (R390). -/
def BELF.HOPSEQ1 (i : Nat) : Nat := 0x400a1200 + i * 0x4
def BELF.HOPSEQ1_CH (i : Nat) : Fld := ⟨BELF.HOPSEQ1 i, 6, 0⟩
/-- BELF.CELLA0 (R390). -/
def BELF.CELLA0 (i : Nat) : Nat := 0x400a2000 + i * 0x8
def BELF.CELLA0_EN (i : Nat) : Fld := ⟨BELF.CELLA0 i, 31, 31⟩
def BELF.CELLA0_TYPE (i : Nat) : Fld := ⟨BELF.CELLA0 i, 30, 28⟩
def BELF.CELLA0_SLOT (i : Nat) : Fld := ⟨BELF.CELLA0 i, 25, 16⟩
def BELF.CELLA0_CHOFF (i : Nat) : Fld := ⟨BELF.CELLA0 i, 6, 0⟩
/-- BELF.CELLB0 (R390). -/
def BELF.CELLB0 (i : Nat) : Nat := 0x400a2004 + i * 0x8
def BELF.CELLB0_QUEUE (i : Nat) : Fld := ⟨BELF.CELLB0 i, 7, 0⟩
/-- BELF.CELLA1 (R390). -/
def BELF.CELLA1 (i : Nat) : Nat := 0x400a2800 + i * 0x8
def BELF.CELLA1_EN (i : Nat) : Fld := ⟨BELF.CELLA1 i, 31, 31⟩
def BELF.CELLA1_TYPE (i : Nat) : Fld := ⟨BELF.CELLA1 i, 30, 28⟩
def BELF.CELLA1_SLOT (i : Nat) : Fld := ⟨BELF.CELLA1 i, 25, 16⟩
def BELF.CELLA1_CHOFF (i : Nat) : Fld := ⟨BELF.CELLA1 i, 6, 0⟩
/-- BELF.CELLB1 (R390). -/
def BELF.CELLB1 (i : Nat) : Nat := 0x400a2804 + i * 0x8
def BELF.CELLB1_QUEUE (i : Nat) : Fld := ⟨BELF.CELLB1 i, 7, 0⟩
/-- BELF.DWELL0 (R390). -/
def BELF.DWELL0 (i : Nat) : Nat := 0x400a3000 + i * 0x4
def BELF.DWELL0_MS (i : Nat) : Fld := ⟨BELF.DWELL0 i, 31, 0⟩
/-- BELF.DWELL1 (R390). -/
def BELF.DWELL1 (i : Nat) : Nat := 0x400a3200 + i * 0x4
def BELF.DWELL1_MS (i : Nat) : Fld := ⟨BELF.DWELL1 i, 31, 0⟩
/-- BELF.NETCTL (R427). -/
def BELF.NETCTL (i : Nat) : Nat := 0x400a3400 + i * 0x100
def BELF.NETCTL_ROLE (i : Nat) : Fld := ⟨BELF.NETCTL i, 31, 30⟩
def BELF.NETCTL_ADMIT (i : Nat) : Fld := ⟨BELF.NETCTL i, 29, 29⟩
def BELF.NETCTL_CRANK (i : Nat) : Fld := ⟨BELF.NETCTL i, 23, 16⟩
def BELF.NETCTL_NETID (i : Nat) : Fld := ⟨BELF.NETCTL i, 15, 0⟩
/-- BELF.NETQS (R427). -/
def BELF.NETQS (i : Nat) : Nat := 0x400a3404 + i * 0x100
def BELF.NETQS_BCNQ (i : Nat) : Fld := ⟨BELF.NETQS i, 31, 24⟩
def BELF.NETQS_NETQ (i : Nat) : Fld := ⟨BELF.NETQS i, 23, 16⟩
def BELF.NETQS_FLOODQ (i : Nat) : Fld := ⟨BELF.NETQS i, 15, 8⟩
def BELF.NETQS_UPQ (i : Nat) : Fld := ⟨BELF.NETQS i, 7, 0⟩
/-- BELF.LEASECFG (R427). -/
def BELF.LEASECFG (i : Nat) : Nat := 0x400a3408 + i * 0x100
def BELF.LEASECFG_LEASEBASE (i : Nat) : Fld := ⟨BELF.LEASECFG i, 31, 16⟩
def BELF.LEASECFG_LEASECNT (i : Nat) : Fld := ⟨BELF.LEASECFG i, 15, 8⟩
def BELF.LEASECFG_QUAR (i : Nat) : Fld := ⟨BELF.LEASECFG i, 7, 0⟩
/-- BELF.LEASETIME (R427). -/
def BELF.LEASETIME (i : Nat) : Nat := 0x400a340c + i * 0x100
def BELF.LEASETIME_LEASE (i : Nat) : Fld := ⟨BELF.LEASETIME i, 15, 0⟩
/-- BELF.CELLCFG (R427). -/
def BELF.CELLCFG (i : Nat) : Nat := 0x400a3410 + i * 0x100
def BELF.CELLCFG_CELLBASE (i : Nat) : Fld := ⟨BELF.CELLCFG i, 31, 24⟩
def BELF.CELLCFG_ULBASE (i : Nat) : Fld := ⟨BELF.CELLCFG i, 21, 12⟩
def BELF.CELLCFG_JOINSLOT (i : Nat) : Fld := ⟨BELF.CELLCFG i, 9, 0⟩
/-- BELF.CHCFG (R427). -/
def BELF.CHCFG (i : Nat) : Nat := 0x400a3414 + i * 0x100
def BELF.CHCFG_JOINCHOFF (i : Nat) : Fld := ⟨BELF.CHCFG i, 22, 16⟩
def BELF.CHCFG_BCHOFF (i : Nat) : Fld := ⟨BELF.CHCFG i, 14, 8⟩
def BELF.CHCFG_STARTCH (i : Nat) : Fld := ⟨BELF.CHCFG i, 6, 0⟩
/-- BELF.SECCFG (R427). -/
def BELF.SECCFG (i : Nat) : Nat := 0x400a3418 + i * 0x100
def BELF.SECCFG_FKEY (i : Nat) : Fld := ⟨BELF.SECCFG i, 14, 12⟩
def BELF.SECCFG_MINLEVEL (i : Nat) : Fld := ⟨BELF.SECCFG i, 10, 8⟩
def BELF.SECCFG_NETLEVEL (i : Nat) : Fld := ⟨BELF.SECCFG i, 6, 4⟩
def BELF.SECCFG_NETKEY (i : Nat) : Fld := ⟨BELF.SECCFG i, 2, 0⟩
/-- BELF.FLOODCFG (R427). -/
def BELF.FLOODCFG (i : Nat) : Nat := 0x400a341c + i * 0x100
def BELF.FLOODCFG_RELAY (i : Nat) : Fld := ⟨BELF.FLOODCFG i, 31, 30⟩
def BELF.FLOODCFG_SUPK (i : Nat) : Fld := ⟨BELF.FLOODCFG i, 29, 26⟩
def BELF.FLOODCFG_JITTER (i : Nat) : Fld := ⟨BELF.FLOODCFG i, 23, 16⟩
def BELF.FLOODCFG_CACHETTL (i : Nat) : Fld := ⟨BELF.FLOODCFG i, 15, 0⟩
/-- BELF.ORPHAN (R427). -/
def BELF.ORPHAN (i : Nat) : Nat := 0x400a3420 + i * 0x100
def BELF.ORPHAN_ORPHANTO (i : Nat) : Fld := ⟨BELF.ORPHAN i, 15, 0⟩
/-- BELF.NETSTAT (R427). -/
def BELF.NETSTAT (i : Nat) : Nat := 0x400a3424 + i * 0x100
def BELF.NETSTAT_STATE (i : Nat) : Fld := ⟨BELF.NETSTAT i, 31, 28⟩
def BELF.NETSTAT_CHILDREN (i : Nat) : Fld := ⟨BELF.NETSTAT i, 27, 20⟩
def BELF.NETSTAT_PARENT (i : Nat) : Fld := ⟨BELF.NETSTAT i, 19, 12⟩
def BELF.NETSTAT_CONFLICTS (i : Nat) : Fld := ⟨BELF.NETSTAT i, 7, 0⟩
/-- BELF.NETFAULTS (R427). -/
def BELF.NETFAULTS (i : Nat) : Nat := 0x400a3428 + i * 0x100
def BELF.NETFAULTS_NBRFRESH (i : Nat) : Fld := ⟨BELF.NETFAULTS i, 5, 5⟩
def BELF.NETFAULTS_FCWAIT (i : Nat) : Fld := ⟨BELF.NETFAULTS i, 4, 4⟩
def BELF.NETFAULTS_NBRFULL (i : Nat) : Fld := ⟨BELF.NETFAULTS i, 3, 3⟩
def BELF.NETFAULTS_LEASEEXP (i : Nat) : Fld := ⟨BELF.NETFAULTS i, 2, 2⟩
def BELF.NETFAULTS_JOINFAIL (i : Nat) : Fld := ⟨BELF.NETFAULTS i, 1, 1⟩
def BELF.NETFAULTS_CONFLICT (i : Nat) : Fld := ⟨BELF.NETFAULTS i, 0, 0⟩
/-- BELF.SECCNT (R427). -/
def BELF.SECCNT (i : Nat) : Nat := 0x400a342c + i * 0x100
def BELF.SECCNT_REPLAY (i : Nat) : Fld := ⟨BELF.SECCNT i, 31, 24⟩
def BELF.SECCNT_MIC (i : Nat) : Fld := ⟨BELF.SECCNT i, 23, 16⟩
def BELF.SECCNT_NOKEY (i : Nat) : Fld := ⟨BELF.SECCNT i, 15, 8⟩
def BELF.SECCNT_LEVEL (i : Nat) : Fld := ⟨BELF.SECCNT i, 7, 0⟩
/-- BELF.SECCNT2 (R427). -/
def BELF.SECCNT2 (i : Nat) : Nat := 0x400a3430 + i * 0x100
def BELF.SECCNT2_NOEUI (i : Nat) : Fld := ⟨BELF.SECCNT2 i, 31, 24⟩
def BELF.SECCNT2_FCWAIT (i : Nat) : Fld := ⟨BELF.SECCNT2 i, 23, 16⟩
/-- BELF.FLOODCNT (R427). -/
def BELF.FLOODCNT (i : Nat) : Nat := 0x400a3434 + i * 0x100
def BELF.FLOODCNT_RELAYED (i : Nat) : Fld := ⟨BELF.FLOODCNT i, 31, 22⟩
def BELF.FLOODCNT_SUPPRESSED (i : Nat) : Fld := ⟨BELF.FLOODCNT i, 21, 12⟩
def BELF.FLOODCNT_DUP (i : Nat) : Fld := ⟨BELF.FLOODCNT i, 11, 0⟩
/-- BELF.NETEPOCH (R427). -/
def BELF.NETEPOCH (i : Nat) : Nat := 0x400a3438 + i * 0x100
def BELF.NETEPOCH_EPOCH (i : Nat) : Fld := ⟨BELF.NETEPOCH i, 15, 0⟩
/-- BELF.FLOODSTAT (R427). -/
def BELF.FLOODSTAT : Nat := 0x400a3600
def BELF.FLOODSTAT_CACHED : Fld := ⟨BELF.FLOODSTAT, 11, 0⟩
/-- BELF.NFC (R427). -/
def BELF.NFC (i : Nat) : Nat := 0x400a3700 + i * 0x8
def BELF.NFC_COUNT (i : Nat) : Fld := ⟨BELF.NFC i, 31, 0⟩
/-- BELF.NMARK (R427). -/
def BELF.NMARK (i : Nat) : Nat := 0x400a3704 + i * 0x8
def BELF.NMARK_MARK (i : Nat) : Fld := ⟨BELF.NMARK i, 31, 0⟩
/-- BELF.NBRIDX (R427). -/
def BELF.NBRIDX : Nat := 0x400a3780
def BELF.NBRIDX_INDEX : Fld := ⟨BELF.NBRIDX, 7, 0⟩
/-- BELF.NBRCMD (R427). -/
def BELF.NBRCMD : Nat := 0x400a3784
def BELF.NBRCMD_ERR : Fld := ⟨BELF.NBRCMD, 31, 28⟩
def BELF.NBRCMD_CMD : Fld := ⟨BELF.NBRCMD, 2, 0⟩
/-- BELF.NBRD0 (R427). -/
def BELF.NBRD0 : Nat := 0x400a3790
def BELF.NBRD0_EUI : Fld := ⟨BELF.NBRD0, 31, 0⟩
/-- BELF.NBRD1 (R427). -/
def BELF.NBRD1 : Nat := 0x400a3794
def BELF.NBRD1_EUI : Fld := ⟨BELF.NBRD1, 31, 0⟩
/-- BELF.NBRD2 (R427). -/
def BELF.NBRD2 : Nat := 0x400a3798
def BELF.NBRD2_SHORT : Fld := ⟨BELF.NBRD2, 31, 16⟩
def BELF.NBRD2_VALID : Fld := ⟨BELF.NBRD2, 15, 15⟩
def BELF.NBRD2_PORT : Fld := ⟨BELF.NBRD2, 14, 14⟩
def BELF.NBRD2_PINNED : Fld := ⟨BELF.NBRD2, 13, 13⟩
def BELF.NBRD2_ALLOW : Fld := ⟨BELF.NBRD2, 12, 12⟩
def BELF.NBRD2_LEASED : Fld := ⟨BELF.NBRD2, 11, 11⟩
def BELF.NBRD2_RSSI : Fld := ⟨BELF.NBRD2, 7, 0⟩
/-- BELF.NBRD3 (R427). -/
def BELF.NBRD3 : Nat := 0x400a379c
def BELF.NBRD3_KCUR : Fld := ⟨BELF.NBRD3, 31, 24⟩
def BELF.NBRD3_KPREV : Fld := ⟨BELF.NBRD3, 23, 16⟩
def BELF.NBRD3_AGE : Fld := ⟨BELF.NBRD3, 15, 0⟩
/-- BELF.NBRD4 (R427). -/
def BELF.NBRD4 : Nat := 0x400a37a0
def BELF.NBRD4_CCUR : Fld := ⟨BELF.NBRD4, 31, 0⟩
/-- BELF.NBRD5 (R427). -/
def BELF.NBRD5 : Nat := 0x400a37a4
def BELF.NBRD5_CPREV : Fld := ⟨BELF.NBRD5, 31, 0⟩
/-- BELF.NBRD6 (R427). -/
def BELF.NBRD6 : Nat := 0x400a37a8
def BELF.NBRD6_LIDX : Fld := ⟨BELF.NBRD6, 31, 24⟩
def BELF.NBRD6_LREM : Fld := ⟨BELF.NBRD6, 23, 0⟩

end Sys2Proof.Machine
end

