-- ==== Sys2Proof/Machine/Sparse.lean ====
section
/-! DEFINITION. Sparse tables: a list of (key, value) pairs with strictly rising keys, in which no entry equals what an
unlisted key reads as. One form per content, so equal contents are equal data. -/
namespace Sys2Proof.Machine

/-- What a key holds: its entry, or the default of the table where none is listed. -/
def tget {α : Type} (dflt : Nat → α) : List (Nat × α) → Nat → α
  | [], k => dflt k
  | (a, v) :: rest, k => if k = a then v else tget dflt rest k

/-- Drop the entry of a key. -/
def terase {α : Type} : List (Nat × α) → Nat → List (Nat × α)
  | [], _ => []
  | (a, v) :: rest, k => if k = a then rest else (a, v) :: terase rest k

/-- Put an entry in its place by key. -/
def tinsert {α : Type} : List (Nat × α) → Nat → α → List (Nat × α)
  | [], k, x => [(k, x)]
  | (a, v) :: rest, k, x =>
    if k < a then (k, x) :: (a, v) :: rest
    else if k = a then (k, x) :: rest
    else (a, v) :: tinsert rest k x

/-- Write a key: the value the key reads as without an entry removes the entry. -/
def tput {α : Type} [DecidableEq α] (dflt : Nat → α) (m : List (Nat × α)) (k : Nat) (x : α) : List (Nat × α) :=
  if x = dflt k then terase m k else tinsert m k x

/-- Drop every entry whose key satisfies p: those keys read their default again. -/
def tdrop {α : Type} (p : Nat → Bool) (m : List (Nat × α)) : List (Nat × α) :=
  m.filter (fun e => !p e.1)

/-- The canonical form from a lower bound on: keys rise strictly, no entry equals the default. -/
def tsortedFrom {α : Type} [DecidableEq α] (dflt : Nat → α) : Nat → List (Nat × α) → Bool
  | _, [] => true
  | lo, (a, v) :: rest => decide (lo ≤ a) && !decide (v = dflt a) && tsortedFrom dflt (a + 1) rest

/-- The canonical form of a table. -/
def twf {α : Type} [DecidableEq α] (dflt : Nat → α) (m : List (Nat × α)) : Bool :=
  tsortedFrom dflt 0 m

end Sys2Proof.Machine
end

