-- ==== Sys2Proof/Machine/State.lean ====
section
/-! DEFINITION. The state of the K128 as plain data, the outcomes of a command, and the state after reset.
A field that a register shows lives in regs under the register's address (Regs.lean); what the spec gives the device
without an address has a field of its own. -/
namespace Sys2Proof.Machine

/-- Why a command would stop with a fault. No meaning of this model answers a fault: the refusals and faults of the
cores are next states (R38, R139). -/
inductive Fault where
  /-- Raised by no meaning (safe). -/
  | none
  deriving DecidableEq, Repr

/-- Why a command has no meaning. -/
inductive Refusal where
  /-- A command of the table without a meaning in this model: raised by Dispatch alone (safe). -/
  | notModelled (mnemonic : String)
  deriving DecidableEq, Repr

/-- What a Prolu core is doing (R136, R174, R357, R456). -/
inductive Run where
  | off
  | booting
  | loader
  | running
  | asleep (rd : Reg) (mask : Word) (deadline : Option (BitVec 40))
  deriving DecidableEq, Repr

/-- One Prolu core: its registers (R111 to R146), its own flash and SRAM, and the SECDED error marks of its words. -/
structure Core where
  w : Vector Word 16
  pc : Word
  psr : Word
  epsr : Word
  epc : Word
  fcause : Word
  faddr : Word
  fvec : Word
  splim : Word
  evpend : Word
  timer : Word
  cycle : Word
  memerr : Word
  qw : Vector Word 8
  run : Run
  /-- held by a debug session (R124, R360) -/
  halted : Bool
  /-- a single step asked for by the debug session: the core halts again after it (R343, R467) -/
  stepping : Bool
  /-- the register the last instruction loaded from own SRAM, for the load-use stall (R143) -/
  lastLoad : Option Reg
  /-- own flash and own SRAM by address -/
  mem : List Host.Cell
  /-- addresses of words of mem that hold a single-bit error, then an uncorrectable error (R131) -/
  single : List Nat
  double : List Nat
  deriving DecidableEq, Repr

/-- The SECDED state of a stored word (R94). -/
inductive Ecc where
  | good | single | double
  deriving DecidableEq, Repr

/-- Where a stored word lies: in the tail stage, in the head stage, or in a Cloister block that the queue holds (R91). -/
inductive Place where
  | tail | head | block (b : Nat)
  deriving DecidableEq, Repr

/-- A queue word, the state of its check bits, and its place (R82, R91, R94). -/
structure QWord where
  word : Word
  ecc : Ecc
  place : Place
  deriving DecidableEq, Repr

/-- The stored words of a packet, oldest first (R83, R95, R99). -/
structure Packet where
  words : List QWord
  marker : Bool
  /-- a reader has taken a word of it -/
  begun : Bool
  deriving DecidableEq, Repr

/-- What the queue manager holds of one queue beside its registers (R83, R91, R98, R101, R104). -/
structure Queue where
  /-- whole packets, oldest first -/
  packets : List Packet
  openPk : Option Packet
  /-- the island whose strait started the open packet, or the packet being dropped (R29, R107) -/
  source : Option Island
  /-- later words up to E = 1 are discarded (R98) -/
  dropping : Bool
  /-- the blocks held, oldest first, each under a number of its own in this queue (R91, R103) -/
  blocks : List Nat
  /-- words of the head packet that a hardware consumer has taken so far (R88) -/
  given : Nat
  /-- reserved blocks not yet covered by the pool (R101) -/
  short : Nat
  /-- packets and words that a fall discarded, for the marker of the next rise (R104) -/
  fell : Option (Nat × Nat)
  deriving DecidableEq, Repr

/-- A word between two islands, in flight or held by its sender: the 37 data lines of its strait (R22, R31). -/
structure Wire where
  src : Island
  dst : Island
  tag : BitVec 4
  word : Word
  parity : Bool
  deriving DecidableEq, Repr

/-- The state of a strait (R30); while it is CLOSING, whether a handshake is still in progress on it. -/
inductive StraitState where
  | isOpen | closing (busy : Bool) | closed
  deriving DecidableEq, Repr

/-- The address half of a write pair that a receiver has taken, until its WDATA comes: as received, or damaged, with the
address that its sender put on the strait (R27, R29, R310). -/
inductive WriteAddr where
  | good (a : Word) | damaged (a : Word)
  deriving DecidableEq, Repr

/-- What hardware has done in the present period of the 32.768 kHz clock to registers that the crypt's shell serves: the
W1C bits it set and the increments of RZ counts, by register address (R6, R7). -/
structure Period where
  set : List (Nat × Word)
  counts : List (Nat × Word)
  deriving DecidableEq, Repr

/-- A period in which nothing has happened yet. -/
def Period.empty : Period where
  set := []
  counts := []

/-- An entry of the legal event log (R351). -/
structure LogEntry where
  sec : Word
  kind : Nat
  repeats : Nat
  a : Word
  b : Word
  deriving DecidableEq, Repr
/-- A shot command (R151, R152). -/
structure ShotCmd where
  pd : Nat
  seq : Nat
  dir : Bool
  pair : Bool
  deriving DecidableEq, Repr

/-- Where the shot under way stands (R185 to R191, R247, R266). -/
inductive Phase where
  | lead | burst | clamp | listen | window | lag | written | discharge
  deriving DecidableEq, Repr

/-- A token after its grant (R198): the set has not started a burst; it holds the token; its last window has closed. -/
inductive TokenUse where
  | granted | held | ended
  deriving DecidableEq, Repr

/-- The window of the shot under way (R189 to R195, R246). -/
structure Window where
  /-- opening, in DCO ticks after burst start -/
  opens : Nat
  /-- gate levels in LSB: for the first 32 samples, and for the rest -/
  gate0 : Nat
  gate1 : Nat
  noise : Nat
  clip : Bool
  peak : Nat
  /-- magnitudes of the first 32 samples -/
  mags : List Nat
  /-- stored crossings: time in 1/128 ticks after burst start, peak of the half-wave that the crossing begins -/
  crossings : List (Nat × Nat)
  /-- samples were streamed to the bank -/
  streamed : Bool
  deriving DecidableEq, Repr

/-- A shot-set in progress (R153, R182). -/
structure ShotSet where
  cmd : ShotCmd
  /-- the latched descriptor: PDCTL, PDBURST, PDWIN, PDGAIN -/
  ctl : Word
  burst : Word
  win : Word
  gains : Word
  /-- the gain code applied -/
  gain : Nat
  bank : Option Nat
  second : Bool
  phase : Phase
  tokenWait : Bool
  claimWait : Bool
  delayed : Bool
  drvsub : Bool
  /-- RTC at burst or conversion start -/
  time : Nat
  /-- provisional arrival of the first shot in 10 ns, and whether this window is centred on it -/
  arrival : Option Nat
  centred : Bool
  window : Window
  /-- identity of the shot, for the bank's reply -/
  shot : Nat
  /-- largest magnitude and clipping over the windows of the set, none before its first window -/
  setPeak : Option Nat
  setClip : Bool
  deriving DecidableEq, Repr

/-- What follows once a record's words are written. -/
inductive After where
  | nothing | nextShot | endSet
  deriving DecidableEq, Repr

/-- A record waiting to be written: its words, and for words 0 to 4 the bank, the summary and the shot (R250, R251). -/
structure OutRecord where
  words : List Word
  summary : Option (Option Nat × Word × Nat)
  after : After
  deriving DecidableEq, Repr

/-- What an isle holds beside its registers. -/
structure Isle where
  cur : Option ShotSet
  /-- latched commands, oldest first (R153, R430) -/
  cmds : List ShotCmd
  /-- a PORTMODE write held during a shot-set (R179) -/
  modes : Option Word
  outbox : List OutRecord
  /-- the shot whose verdict is outstanding (R251) -/
  awaits : Option Nat
  /-- number of the next shot -/
  next : Nat
  deriving DecidableEq, Repr

def Window.empty : Window where
  opens := 0
  gate0 := 0
  gate1 := 0
  noise := 0
  clip := false
  peak := 0
  mags := []
  crossings := []
  streamed := false

def Isle.empty : Isle where
  cur := none
  cmds := []
  modes := none
  outbox := []
  awaits := none
  next := 0

/-- The isles and the choir core island's arbiter beside their registers. -/
structure Isles where
  isle : List (Nat × Isle)
  /-- consecutive marked shots by descriptor (R196) -/
  marks : List (Nat × Nat)
  /-- learned expected discharge time by descriptor, in 1/128 ticks (R267) -/
  expected : List (Nat × Option Nat)
  /-- by exclusion group: the set's lead isle, and what it does with the token (R198) -/
  tokens : List (Nat × Option (Nat × TokenUse))
  /-- token requests, oldest first: group and isle -/
  requests : List (Nat × Nat)
  /-- by isle that samples: shots whose stream header is on the strait, oldest first, and the one last taken off it -/
  sent : List (Nat × List Nat)
  taken : List (Nat × Nat)
  deriving DecidableEq, Repr

def Isles.reset : Isles where
  isle := []
  marks := []
  expected := []
  tokens := []
  requests := []
  sent := []
  taken := []

/-- A stream a bank has accepted (R232 to R235, R250, R251). -/
structure Stream where
  /-- the isle whose strait carries it, the lead isle, and the shot -/
  src : Nat
  lead : Nat
  shot : Nat
  gate0 : Nat
  gate1 : Nat
  /-- window length in samples, and samples taken -/
  len : Nat
  count : Nat
  /-- active bank rows, newest first (R215, R216) -/
  rows : List Nat
  /-- a SAMPLE word failed parity -/
  bad : Bool
  /-- the time-domain evaluation is over: LAG sent -/
  lagged : Bool
  /-- the digital evaluation is over: its lowest crossing output, if any -/
  digital : Option (Option Nat)
  /-- a bank reason of R235 -/
  reason : Option Nat
  /-- the summary, and whether it failed parity -/
  summary : Option (Word × Bool)
  deriving DecidableEq, Repr

/-- An evaluation that a bank is running: its shot, its mode, SPREAD, SHOTTILES and thresholds as latched when it started, and
the bank reason that keeps it from being correct (R224, R233, R235). -/
structure Eval where
  lead : Nat
  shot : Nat
  digital : Bool
  spread : Nat
  tiles : Nat
  thresholds : List (Nat × BitVec 20)
  reason : Option Nat
  deriving DecidableEq, Repr

/-- A replica scan that waits for a gap between evaluations: its tiles by mask, whether it is the periodic one, the rows it
will find drifted, and the tick since which it is due (R229, R231). -/
structure Scan where
  tiles : Nat
  periodic : Bool
  drifted : List RowAt
  due : BitVec 40
  deriving DecidableEq, Repr

/-- The reply to a summary, which waits for the shot's verdict word to reach the queue (R251). -/
structure Ack where
  lead : Nat
  shot : Nat
  bad : Bool
  deriving DecidableEq, Repr

/-- What the CIM banks and tiles hold beside their registers. -/
structure Cim where
  /-- golden store by row (256 × tile + row), and its words with a single and an uncorrectable error (8 × row + word) -/
  golden : List (Nat × BitVec 256)
  single : List Nat
  double : List Nat
  /-- tile cells by row -/
  cells : List (Nat × BitVec 272)
  /-- rows pending (R211), oldest first -/
  pending : List Nat
  /-- words written since power-up by row (R213) -/
  written : List (Nat × BitVec 8)
  /-- poisoned rows, with the words written since (R228) -/
  poisoned : List (Nat × Option (BitVec 8))
  /-- thresholds by 256 × bank + output -/
  thresholds : List (Nat × BitVec 20)
  /-- by bank: accepted shots, oldest first -/
  streams : List (Nat × List Stream)
  /-- by bank and isle (16 × bank + isle): whether the last verdict was RETRACT or FAIL (R255) -/
  failed : List (Nat × Bool)
  /-- by bank: clean scans in a row, marked scans in a row (R229, R230) -/
  clean : List (Nat × Nat)
  marked : List (Nat × Nat)
  /-- by bank: the evaluation that runs (R233), scans that wait (R231), replies that wait for their verdict word (R251), and the
  tick at which the last scan started -/
  running : List (Nat × Option Eval)
  scans : List (Nat × List Scan)
  acks : List (Nat × List Ack)
  scanned : List (Nat × Option (BitVec 40))
  deriving DecidableEq, Repr

def Cim.reset : Cim where
  golden := []
  single := []
  double := []
  cells := []
  pending := []
  written := []
  poisoned := []
  thresholds := []
  streams := []
  failed := []
  clean := []
  marked := []
  running := []
  scans := []
  acks := []
  scanned := []


/-- The result of a path in an open set (R260, R274): the record times t_AB and t_BA of a measured pair in 1/128 ticks,
or a failed measurement, with NOSIGNAL told apart (R264). -/
inductive PathResult where
  | measured (tab tba : Nat)
  | failed (noSignal : Bool)
  deriving DecidableEq, Repr

/-- When something happened: second edges since, saturating at 65,536, and the TIME_SUB of the moment. -/
structure Stamp where
  secs : Nat
  sub : Nat
  deriving DecidableEq, Repr

/-- The fields of a conduit, of its level descriptor and of its member paths that act while no set of it closes, as they are in
effect for it (R279): EN, KIND, POLICY, LVLPD with that descriptor's HOLD and TAU, ZMOUNT, and the member paths with their ELEV. -/
structure CdCfg where
  metered : Bool
  isOpen : Bool
  guarded : Bool
  level : Nat
  hold : Nat
  delay : Nat
  mount : Nat
  members : List (Nat × Nat)
  deriving DecidableEq, Repr

/-- What the quantity engine holds of a conduit beside its registers. -/
structure Conduit where
  /-- the configuration in effect, none for a conduit that is not metered (R279) -/
  inEffect : Option CdCfg
  /-- a close has set LASTT, and the RTC has run since (R278) -/
  closed : Bool
  /-- results of member paths in the open set -/
  results : List (Nat × PathResult)
  /-- when the class vote was written, none before a vote (R264) -/
  vote : Option Stamp
  /-- when the echo record used in the last set was taken (R281) -/
  level : Option Stamp
  deriving DecidableEq, Repr

/-- A guard record (R304): increments since entry, frozen class, SEQ. -/
structure GuardRec where
  forward : Nat
  reverse : Nat
  hold : Nat
  errors : Nat
  guardVol : Nat
  sets : Nat
  cls : Nat
  seq : Word
  deriving DecidableEq, Repr

/-- A read mark of the ledger array: its 8 octets as a number, and the CRC-16 that follows them (R298). -/
structure Mark where
  value : Nat
  crc : Nat
  deriving DecidableEq, Repr

/-- A calibration run (R269): its descriptor and COUNT, and by pair t_BA − t_AB and (t_AB + t_BA) / 2 in taps. -/
structure CalRun where
  pd : Nat
  count : Nat
  pairs : List (Rat × Rat)
  deriving DecidableEq, Repr

/-- The image of a commit (R298). -/
structure Image where
  seq : Word
  reason : Nat
  sec : Word
  indices : List (Nat × Nat)
  /-- by conduit: whether it has closed a set, LASTT, class, run count, candidate -/
  conduits : List (Nat × (Bool × Nat × Nat × Nat))
  /-- by path: last measured velocity in m/s and its age -/
  paths : List (Nat × (Option Rat × Nat))
  /-- registers that hold SL fields -/
  sl : List (Nat × Word)
  deriving DecidableEq, Repr

/-- A bank of the ledger array (R298): whether nothing has ever been written to it, the begin word, items 2 to 5, the CRC-32
over items 1 to 5, and the two halves of the commit word: SEQ, and its complement. -/
structure LedgerBank where
  blank : Bool
  beginSeq : Word
  image : Image
  crc : Word
  commitSeq : Word
  commitInv : Word
  deriving DecidableEq, Repr

/-- A commit that runs (R299): its image, whether a choir core reset follows it (R356), and the guard records at its
snapshot. -/
structure Commit where
  image : Image
  activate : Bool
  guard : List (Nat × Option GuardRec)
  deriving DecidableEq, Repr

/-- The quantity island and the ledger beside their registers. -/
structure Qty where
  /-- the packet taken over the quantity strait, with its queue (R272) -/
  taken : Option (Nat × List Word)
  /-- the queue served last in the rotation of R272 -/
  served : Nat
  /-- by queue: the transit record that waits for its partner, with its descriptor (R260) -/
  halves : List (Nat × Option (Nat × List Word))
  conduits : List (Nat × Conduit)
  /-- last measured velocity of a path in m/s, and when it was measured (R287) -/
  velocity : List (Nat × Option (Rat × Stamp))
  /-- time of the latest CONFIRM echo of a descriptor in 1/128 ticks, and when it was taken (R281) -/
  echoes : List (Nat × Option (Nat × Stamp))
  /-- time of the latest CONFIRM reference of an isle in 1/128 ticks, and when it was taken (R268) -/
  refs : List (Nat × Option (Nat × Stamp))
  /-- latest valid temperature of an RTD descriptor in °C, and when it was taken (R268) -/
  temps : List (Nat × Option (Rat × Stamp))
  cal : Option CalRun
  /-- remainder below one LSB by tally (R284) -/
  remainders : List (Nat × Rat)
  /-- legal indices of tallies 0 to 391 -/
  indices : List (Nat × Nat)
  /-- device and test tallies 392 to 411 -/
  tallies : List (Nat × Nat)
  /-- read marks of the ledger array -/
  marks : List (Nat × Mark)
  /-- guard records in crypt retention by conduit, none where there is none (R304); they are live while there is one -/
  guard : List (Nat × Option GuardRec)
  guardWord : Option Word
  bankA : LedgerBank
  bankB : LedgerBank
  commit : Option Commit
  /-- the follow-up commit: its reason, and whether a choir core reset follows it (R300, R356) -/
  follow : Option (Nat × Bool)
  deriving DecidableEq, Repr

def Conduit.empty : Conduit where
  inEffect := none
  closed := false
  results := []
  vote := none
  level := none

def GuardRec.empty : GuardRec where
  forward := 0
  reverse := 0
  hold := 0
  errors := 0
  guardVol := 0
  sets := 0
  cls := 6
  seq := 0

def Image.empty : Image where
  seq := 0
  reason := 0
  sec := 0
  indices := []
  conduits := []
  paths := []
  sl := []

def LedgerBank.empty : LedgerBank where
  blank := true
  beginSeq := 0
  image := Image.empty
  crc := 0xFFFFFFFF
  commitSeq := 0xFFFFFFFF
  commitInv := 0xFFFFFFFF

def Qty.reset : Qty where
  taken := none
  served := 111
  halves := []
  conduits := []
  velocity := []
  echoes := []
  refs := []
  temps := []
  cal := none
  remainders := []
  indices := []
  tallies := []
  marks := []
  guard := []
  guardWord := none
  bankA := LedgerBank.empty
  bankB := LedgerBank.empty
  commit := none
  follow := none
/-- A pin's retention record: DEBT, ACC, CNT, CSTART (R323), and the words that the nave program has stored over it since, with
which its CRC-16 fails. -/
structure PinRec where
  debt : Nat
  acc : Word
  cnt : Word
  cstart : Nat
  stored : List (Nat × Option Word)
  deriving DecidableEq, Repr

/-- What a loop holds beside its registers (R326, R327). -/
structure LoopSt where
  /-- the measuring command taken at the latest refresh -/
  cmd : Option Nat
  /-- increments of SRCNUM since the last heartbeat, and in the seconds before it, newest first -/
  bucket : Nat
  history : List Nat
  deriving DecidableEq, Repr

def LoopSt.empty : LoopSt where
  cmd := none
  bucket := 0
  history := []

/-- The outputs island and the output feed beside their registers (R308 to R330). -/
structure Outp where
  /-- pending increment sums by tally; kept flow, stage and status items by feed address (R310) -/
  sums : List (Nat × Nat)
  kept : List (Nat × Option Word)
  loops : List (Nat × LoopSt)
  /-- retention records (R323), none since the crypt lost them -/
  records : List (Nat × Option PinRec)
  deriving DecidableEq, Repr

def Outp.reset : Outp where
  sums := []
  kept := []
  loops := []
  records := []


/-- A flash operation that runs (R176, R465). -/
inductive FlashOp where
  | erase (addr : Nat)
  | program (addr : Nat) (lo hi : Word)
  deriving DecidableEq, Repr

/-- The sacristy and the flash controllers beside their registers (R176, R339 to R357, R462). -/
structure Sacr where
  /-- AES keys of slots 0 to 15, octet 0 in bits [7:0] (R344) -/
  aes : List (Nat × Option (BitVec 128))
  /-- verify keys x, y (R344) -/
  vks : List (Nat × Option (BitVec 256 × BitVec 256))
  /-- the SEALED fuse, and its blowing in progress (R339) -/
  sealed : Bool
  sealing : Bool
  /-- a key command of the choir half is running (R345) -/
  keyRuns : Bool
  /-- octets streamed into the CMAC run, and the tag under way (R347) -/
  macStream : List Octet
  macTag : Option (BitVec 128)
  /-- the inactive choir slot was written since its last check (R356) -/
  slotWritten : Bool
  /-- SEQ of the slot that the last check found valid -/
  checkedSeq : Nat
  /-- IMAGE_ERASE has been logged since the last boot (R352) -/
  eraseLogged : Bool
  /-- flash operations under way -/
  opChoir : Option FlashOp
  opNave : Option FlashOp
  opConfig : Option FlashOp
  /-- the configuration flash (R462) -/
  config : List Host.Cell
  /-- SHA-256 and CRC-16 of the choir code at the last choir boot (R350) -/
  lastHash : Option (List Octet × Nat)
  /-- the rood mailbox: the nave's command and the choir's reply (R168) -/
  mailCmd : Option (Word × Word)
  mailReply : Option (Word × Word)
  deriving DecidableEq, Repr

def Sacr.reset : Sacr where
  aes := []
  vks := []
  sealed := false
  sealing := false
  keyRuns := false
  macStream := []
  macTag := none
  slotWritten := false
  checkedSeq := 0
  eraseLogged := false
  opChoir := none
  opNave := none
  opConfig := none
  config := []
  lastHash := none
  mailCmd := none
  mailReply := none
/-- A frame in a retry buffer (R367, R373): its header word, its octets without FCS, attempts made, whether the last
attempt went at the upper power limit (R386). -/
structure RetryBuf where
  header : Word
  octets : List Octet
  attempts : Nat
  upper : Bool
  deriving DecidableEq, Repr

/-- A transmission on air: the queue of its retry buffer, none for an acknowledgement; the octets without FCS; the power in dBm
before any cap (R384, R385). -/
structure Air where
  queue : Option Nat
  shared : Bool
  ar : Bool
  octets : List Octet
  power : Int
  deriving DecidableEq, Repr

/-- An acknowledgement owed (R375): its octets, and key slot and level where it is secured (R420). -/
structure AckJob where
  octets : List Octet
  key : Option (Nat × Nat)
  deriving DecidableEq, Repr

/-- What a port does in the slot under way (R372): send from a cell and queue, or listen. -/
inductive SlotAct where
  | idle
  | send (kind queue : Nat)
  | listen (beaconsOnly continuous : Bool)
  deriving DecidableEq, Repr

/-- The NET IE of a beacon (R396). -/
structure NetIe where
  netid : Nat
  crank : Nat
  flags : Nat
  epoch : Nat
  sflen : Nat
  tslen : Nat
  txoff : Nat
  ackgap : Nat
  guard : Nat
  joinSlot : Nat
  joinChoff : Nat
  bchoff : Nat
  plan : Nat
  seed : Nat
  mask : List Octet
  deriving DecidableEq, Repr

/-- What a port holds beside its registers (R361 to R411). -/
structure Port where
  act : SlotAct
  channel : Nat
  /-- ASN [39:32] as written under OWN, and an ASN for the next slot start (R377) -/
  asnHi : Option Nat
  asnLoad : Option Nat
  /-- the correction not yet applied in µs, and whether it is stepped (R440) -/
  corr : Option (Bool × Rat)
  bufs : List (Nat × Option RetryBuf)
  air : Option Air
  /-- the queue whose frame awaits its ack, and whether it was sent in a SHARED cell (R376) -/
  awaits : Option (Nat × Bool)
  ack : Option AckJob
  /-- backoff exponent less 1, and SHARED cells still to skip (R374) -/
  backoff : Nat
  skip : Nat
  /-- unicast frames acknowledged at once in a row (R384), marked frames in a row (R386) -/
  run : Nat
  marked : Nat
  /-- airtime in µs by channel and by sub-band, newest bucket first (R379, R380) -/
  dwell : List (Nat × List Nat)
  duty : List (Nat × List Nat)
  /-- buckets for which every account still counts as full (R383) -/
  fullDwell : Nat
  fullDuty : Nat
  /-- the saved limiter record has been taken since the belfry rose (R383) -/
  charged : Bool
  /-- the engine's own sequence number -/
  seq : Nat
  /-- beacons of the engine under way to BCNQ that are dropped when taken (R401, R409) -/
  bcnStale : Nat
  /-- the last beacon has left BCNQ for the retry buffer; its slot has passed (R409) -/
  lastBuilt : Bool
  lastDone : Bool
  /-- node: failed requests; a request under way (1) or acknowledged (2); the address wanted; whether the parent's
  beacon named its EUI-64; the schedule to install (R403, R404) -/
  fails : Nat
  asking : Nat
  parentExt : Bool
  wanted : Nat
  install : Option NetIe
  /-- node: index and remaining seconds of its lease, and the length it was granted -/
  lease : Option (Nat × Nat)
  leaseLen : Nat
  /-- node: EPOCH of the schedule in use, and its TX cells of ASSIGN (R398, R403) -/
  epoch : Nat
  /-- coordinator: indices in quarantine with the EUI-64 that may take them and the seconds left (R407) -/
  quarantine : List (Nat × (Nat × Nat))
  deriving DecidableEq, Repr

def Port.empty : Port where
  act := .idle
  channel := 0
  asnHi := none
  asnLoad := none
  corr := none
  bufs := []
  air := none
  awaits := none
  ack := none
  backoff := 0
  skip := 0
  run := 0
  marked := 0
  dwell := []
  duty := []
  fullDwell := 0
  fullDuty := 0
  charged := false
  seq := 0
  bcnStale := 0
  lastBuilt := false
  lastDone := false
  fails := 0
  asking := 0
  parentExt := false
  wanted := 0xFFFF
  install := none
  lease := none
  leaseLen := 0
  epoch := 0
  quarantine := []

/-- A neighbour entry (R419, R424). -/
structure Nbr where
  /-- none while the sender was heard by its short address alone -/
  eui : Option Nat
  short : Nat
  port : Nat
  pinned : Bool
  allow : Bool
  leased : Bool
  /-- current and previous pair of key index and last counter -/
  cur : Option (Nat × Nat)
  prev : Option (Nat × Nat)
  rssi : Nat
  /-- when its last frame came -/
  heard : Stamp
  lidx : Nat
  lrem : Nat
  deriving DecidableEq, Repr

/-- A key of the seen cache: the port that entered it, and when (R410, R412, R413). -/
structure SeenKey where
  origin : Nat
  fseq : Nat
  port : Nat
  entered : Stamp
  deriving DecidableEq, Repr

/-- A relay that waits (R411): its key, the ports, the tick it is due, the frame, its level where it was secured, and
the copies heard. -/
structure Relay where
  origin : Nat
  fseq : Nat
  inPort : Nat
  outPort : Nat
  due : Nat
  octets : List Octet
  level : Option Nat
  copies : Nat
  deriving DecidableEq, Repr

/-- A port's limiter record in crypt retention (R383): tick count, dwell and duty sums in ms. -/
structure LimRec where
  ticks : Nat
  dwell : List (Nat × Nat)
  duty : List (Nat × Nat)
  deriving DecidableEq, Repr

/-- The belfry beside its registers. -/
structure Radio where
  ports : List (Nat × Port)
  nbrs : List (Nat × Option Nbr)
  /-- keys of the seen cache, oldest first (R413) -/
  seen : List SeenKey
  relays : List Relay
  /-- in crypt retention: the limiter records whose CRC-16 holds, and the neighbour records with the tick count of
  their saving (R383, R426) -/
  limits : List (Nat × Option LimRec)
  saved : Option (Nat × List (Nat × Nbr))
  deriving DecidableEq, Repr

def Radio.reset : Radio where
  ports := []
  nbrs := []
  seen := []
  relays := []
  limits := []
  saved := none

/-- What the crypt holds beside its registers: time, supplies and modes (R52 to R63, R428 to R459). -/
structure Crypt where
  /-- the 40-bit tick count (R432) -/
  ticks : BitVec 40
  /-- the staged time of day, and the one committed to the next second edge (R436) -/
  staged : Option Word
  committed : Option Word
  /-- TIME_SEC latched by a core's read of TIME_SUB (R435) -/
  latchChoir : Option Word
  latchNave : Option Word
  /-- the supplies as last reported, in mV -/
  vmain : Nat
  vbak : Nat
  vpul : Nat
  /-- the hold began in standby (R58) -/
  holdInStandby : Bool
  /-- standby (R447), and crypt-only standby after a crypt reset (R59) -/
  standby : Bool
  /-- a power-up latched while FALLING, a power-down latched while RISING (R20) -/
  choirUp : Bool
  naveUp : Bool
  choirDown : Bool
  naveDown : Bool
  /-- the domain start under way follows a crypt reset (R454) -/
  afterCryptReset : Bool
  /-- NRST is low (R466) -/
  nrst : Bool
  /-- ticks of the watchdog count of each core, and whether a debug halt stops it (R467) -/
  wdogChoir : Nat
  wdogNave : Nat
  /-- restarts of XHF tried, and tries given up (R431) -/
  xhfTries : Nat
  /-- the last holder has fallen and XHF lingers (R429) -/
  xhfLinger : Bool
  /-- epochs of the units by number (R459) -/
  epochs : List (Nat × Nat)
  /-- log entries held while the ledger island is OFF (R354) -/
  heldLog : List LogEntry
  /-- counts of the packets flushed with the queue island (R108) -/
  flushedChoir : Nat
  flushedNave : Nat
  deriving DecidableEq, Repr

/-- The state of the block. -/
structure State where
  /-- the commands waiting, first in first out -/
  pending : List Instr
  /-- the model's own counter: which free value is next -/
  free : Nat
  /-- the model's own field: what the last register read returned to its master -/
  reply : Word
  /-- the registers by address: what differs from the reset value (Regs.lean) -/
  regs : List (Nat × Word)
  choir : Core
  nave : Core
  crypt : Crypt
  /-- words in flight or held by their senders, oldest first -/
  wires : List Wire
  /-- straits that are not OPEN, keyed by 32 × source island + destination island (R30) -/
  straits : List (Nat × StraitState)
  /-- the queue selected on the strait of an island into the queue island; 256 where none is (R79) -/
  qsel : List (Nat × Nat)
  /-- the WADDR waiting for its WDATA on a strait, by the same key as straits (R27) -/
  waddr : List (Nat × Option WriteAddr)
  /-- the present period of TICK32 (R6, R7) -/
  period : Period
  /-- islands that a device fault keeps from answering requests, by number (R39, R145) -/
  mute : List Nat
  queues : List (Nat × Queue)
  isles : Isles
  cim : Cim
  qty : Qty
  outp : Outp
  radio : Radio
  sacr : Sacr
  /-- the legal event log, oldest first (R351) -/
  log : List LogEntry
  deriving DecidableEq, Repr

/-- A core right after reset (R112, R146): w15 is the top of own SRAM, SPLIM its base, every other register 0, the
queue watches name the core's first queue. -/
def Core.reset (c : CoreId) : Core where
  w := (Vector.replicate 16 (0 : Word)).set 15 (match c with | .choir => 0x20010000 | .nave => 0x20020000)
  pc := 0
  psr := 0
  epsr := 0
  epc := 0
  fcause := 0
  faddr := 0
  fvec := 0
  splim := 0x20000000
  evpend := 0
  timer := 0
  cycle := 0
  memerr := 0
  qw := Vector.replicate 8 (match c with | .choir => 0 | .nave => 0x70)
  run := .off
  halted := false
  stepping := false
  lastLoad := none
  mem := []
  single := []
  double := []

/-- An empty queue. -/
def Queue.empty : Queue where
  packets := []
  openPk := none
  source := none
  dropping := false
  blocks := []
  given := 0
  short := 0
  fell := none

/-- The crypt right after its reset. -/
def Crypt.reset : Crypt where
  ticks := 0
  staged := none
  committed := none
  latchChoir := none
  latchNave := none
  vmain := 0
  vbak := 0
  vpul := 0
  holdInStandby := false
  standby := false
  choirUp := false
  naveUp := false
  choirDown := false
  naveDown := false
  afterCryptReset := true
  nrst := false
  wdogChoir := 0
  wdogNave := 0
  xhfTries := 0
  xhfLinger := false
  epochs := []
  heldLog := []
  flushedChoir := 0
  flushedNave := 0

/-- The block right after reset: the domains ON (R43), every unit OFF, both cores before their boot checks (R461). -/
def State.reset : State where
  pending := []
  free := 0
  reply := 0
  regs := []
  choir := { Core.reset .choir with run := .booting }
  nave := { Core.reset .nave with run := .booting }
  crypt := Crypt.reset
  wires := []
  straits := []
  qsel := []
  waddr := []
  period := Period.empty
  mute := []
  queues := []
  isles := Isles.reset
  cim := Cim.reset
  qty := Qty.reset
  outp := Outp.reset
  radio := Radio.reset
  sacr := Sacr.reset
  log := []

end Sys2Proof.Machine
end

