-- ==== Sys2Proof/Machine/Ops.lean ====
section
/-! DEFINITION. The operations the meanings share: register fields, free values, domains, straits, units and their
lifecycle, events, and the legal event log. -/
namespace Sys2Proof.Machine

/-- The outcome of every meaning. -/
abbrev Out := Host.Outcome State Fault Refusal

/-- The register at an address, with its index in its array. -/
def regFind (addr : Nat) : Option (RegSpec × Nat) :=
  match regTable.find? (fun r =>
      if r.stride = 0 then decide (addr = r.base)
      else decide (r.base ≤ addr ∧ (addr - r.base) % r.stride = 0 ∧ (addr - r.base) / r.stride < r.count)) with
  | some r => some (r, if r.stride = 0 then 0 else (addr - r.base) / r.stride)
  | none => none

/-- A word with every listed field at its reset value. -/
def fieldsReset : List FieldSpec → Word
  | [] => 0
  | f :: rest => bitsPut (fieldsReset rest) f.hi f.lo f.reset

/-- What a register holds after its reset; a UNITSTATE entry names its unit (R472), a word without a register reads 0. -/
def regReset (addr : Nat) : Word :=
  match regFind addr with
  | some (r, i) => if r.group = .unit then bitsPut (fieldsReset r.fields) 7 0 i else fieldsReset r.fields
  | none => 0

/-- The register or retention word at an address. -/
def State.getReg (s : State) (a : Nat) : Word := tget regReset s.regs a

/-- Store a register or retention word. -/
def State.putReg (s : State) (a : Nat) (w : Word) : State := { s with regs := tput regReset s.regs a w }

/-- A field of a register. -/
def State.fld (s : State) (f : Fld) : Nat := bitsOf (s.getReg f.addr) f.hi f.lo

/-- Store a field of a register. -/
def State.setFld (s : State) (f : Fld) (v : Nat) : State := s.putReg f.addr (bitsPut (s.getReg f.addr) f.hi f.lo v)

/-- A one-bit field. -/
def State.flag (s : State) (f : Fld) : Bool := s.fld f == 1

/-- Set or clear a one-bit field. -/
def State.setFlag (s : State) (f : Fld) (b : Bool) : State := s.setFld f (natOfBool b)

/-- Add to a count that saturates at its all-ones value. -/
def State.bump (s : State) (f : Fld) (k : Nat) : State := s.setFld f (satAdd (2 ^ (f.hi + 1 - f.lo) - 1) (s.fld f) k)

/-! ### Registers that the crypt's shell serves (R6, R7, R26)

One of their cycles is a period of the 32.768 kHz clock. Two commands never fall into one cycle of any other clock. -/

/-- Hardware sets a W1C bit that the crypt holds: a write that clears it in the same period leaves it set (R6). -/
def State.raiseBit (s : State) (f : Fld) : State :=
  let s := s.setFlag f true
  let w := bitsPut (tget (fun _ => 0) s.period.set f.addr) f.hi f.lo 1
  { s with period := { s.period with set := tput (fun _ => 0) s.period.set f.addr w } }

/-- Bits of a register that hardware has set in the present period (R6). -/
def State.setNow (s : State) (a : Nat) : Word := tget (fun _ => 0) s.period.set a

/-- Hardware adds to an RZ count that the crypt's shell serves: the increment joins the count at the end of the period, so
that a read in the same period leaves it to the next one (R7). -/
def State.tally32 (s : State) (f : Fld) (k : Nat) : State :=
  let w := tget (fun _ => 0) s.period.counts f.addr
  let w := bitsPut w f.hi f.lo (satAdd (2 ^ (f.hi + 1 - f.lo) - 1) (bitsOf w f.hi f.lo) k)
  { s with period := { s.period with counts := tput (fun _ => 0) s.period.counts f.addr w } }

/-- The counts of the ended period join their registers: the RZ fields of each (R7). -/
def State.joinCounts (s : State) : State :=
  s.period.counts.foldl (fun s e =>
    match regFind e.1 with
    | some (r, _) => (r.fields.filter (fun f => decide (f.acc = .rz))).foldl
        (fun s f => s.bump ⟨e.1, f.hi, f.lo⟩ (bitsOf e.2 f.hi f.lo)) s
    | none => s) s

/-- A period of the 32.768 kHz clock ends. -/
def State.endPeriod (s : State) : State := { s.joinCounts with period := Period.empty }

/-- Add to a count that wraps at its width. -/
def State.bumpWrap (s : State) (f : Fld) (k : Nat) : State := s.setFld f (s.fld f + k)

/-- A two's-complement field. -/
def State.sfld (s : State) (f : Fld) : Int := signedOf (f.hi + 1 - f.lo) (s.fld f)

/-- Use one free value: the counter moves on. -/
def State.spend (s : State) : State := { s with free := s.free + 1 }

/-- An exact value in whole LSB, to one of its two neighbours: the spec states no rounding. -/
def State.roundFree (s : State) (x : Rat) : Int :=
  if (x.floor : Rat) = x then x.floor else if Config.roundUp s.free then x.floor + 1 else x.floor

/-- The core as data. -/
def State.core (s : State) : CoreId → Core
  | .choir => s.choir
  | .nave => s.nave

/-- Replace a core. -/
def State.setCore (s : State) (c : CoreId) (k : Core) : State :=
  match c with
  | .choir => { s with choir := k }
  | .nave => { s with nave := k }

/-- Number of a core: CORE.ID, and the index of its SYS registers (R146, R43). -/
def coreNum : CoreId → Nat
  | .choir => 0
  | .nave => 1

/-- Rewrite the crypt's fields. -/
def State.onCrypt (s : State) (f : Crypt → Crypt) : State := { s with crypt := f s.crypt }

/-! ### Domains and islands -/

/-- The domains of R16, and the shared islands of R17. -/
inductive Domain where
  | crypt | choir | nave | shared
  deriving DecidableEq, Repr

/-- The domain of an island (R16, R17). -/
def islandDomain : Island → Domain
  | .crypt => .crypt
  | .choirCore => .choir
  | .naveCore => .nave
  | .isle _ => .choir
  | .bank _ => .shared
  | .quantity => .choir
  | .queue => .shared
  | .ledger => .choir
  | .sacristy => .choir
  | .belfry => .nave
  | .outputs => .nave
  | .service => .nave

/-- The island number of R12. -/
def islandNo : Island → Nat
  | .crypt => 0
  | .choirCore => 1
  | .naveCore => 2
  | .isle n => 3 + n.val
  | .bank b => 19 + b.val
  | .quantity => 23
  | .queue => 24
  | .ledger => 25
  | .sacristy => 26
  | .belfry => 27
  | .outputs => 28
  | .service => 29

/-- The thirty islands (R12). -/
def allIslands : List Island :=
  [.crypt, .choirCore, .naveCore] ++ (List.finRange 16).map .isle ++ (List.finRange 4).map .bank ++
    [.quantity, .queue, .ledger, .sacristy, .belfry, .outputs, .service]

/-- The SYS.DOMPWR field of a domain. -/
def domField : Domain → Fld
  | .crypt => SYS.DOMPWR_CRYPT
  | .choir => SYS.DOMPWR_CHOIR
  | .nave => SYS.DOMPWR_NAVE
  | .shared => SYS.DOMPWR_SHARED

/-- State of a domain: 0 OFF, 1 RISING, 2 ON, 3 FALLING (R43). -/
def State.dom (s : State) (d : Domain) : Nat := s.fld (domField d)

/-- Whether a domain is ON. -/
def State.domOn (s : State) (d : Domain) : Bool := s.dom d == 2

/-- Set the state of a domain. -/
def State.setDom (s : State) (d : Domain) (v : Nat) : State := s.setFld (domField d) v

/-- The domain of a core. -/
def coreDomain : CoreId → Domain
  | .choir => .choir
  | .nave => .nave

/-- The island of a core. -/
def coreIsland : CoreId → Island
  | .choir => .choirCore
  | .nave => .naveCore

/-! ### Straits -/

/-- The key of a strait in the tables of straits. -/
def straitKey (src dst : Island) : Nat := 32 * islandNo src + islandNo dst

/-- The state of a strait (R30). -/
def State.strait (s : State) (src dst : Island) : StraitState := tget (fun _ => .isOpen) s.straits (straitKey src dst)

/-- Set the state of a strait; the receiver sets it (R30). -/
def State.setStrait (s : State) (src dst : Island) (x : StraitState) : State :=
  { s with straits := tput (fun _ => .isOpen) s.straits (straitKey src dst) x }

/-- The strait tags of R27. -/
def tagQword : BitVec 4 := 0x0
def tagQsel : BitVec 4 := 0x1
def tagRaddr : BitVec 4 := 0x2
def tagRdata : BitVec 4 := 0x3
def tagWaddr : BitVec 4 := 0x4
def tagWdata : BitVec 4 := 0x5
def tagWack : BitVec 4 := 0x6
def tagRefuse : BitVec 4 := 0x7
def tagSample : BitVec 4 := 0x8
def tagLag : BitVec 4 := 0x9
def tagEvent : BitVec 4 := 0xA
def tagLife : BitVec 4 := 0xB

/-- The parity line of a strait: with it the number of 1 bits across the 37 lines is even (R22). -/
def parityLine (tag : BitVec 4) (word : Word) : Bool :=
  ((List.range 36).filter (fun i => (tag ++ word).getLsbD i)).length % 2 == 1

/-- The islands of a domain. -/
def domainIslands (d : Domain) : List Island := allIslands.filter (fun i => decide (islandDomain i = d))

/-- The oldest word listed on a strait. -/
def State.frontWire (s : State) (src dst : Island) : Option Wire :=
  s.wires.find? (fun x => decide (x.src = src) && decide (x.dst = dst))

/-- A strait that is OPEN enters CLOSING: the handshake of its oldest word is in progress (R19, R30). -/
def State.closeStrait (s : State) (src dst : Island) : State :=
  if s.strait src dst = .isOpen then s.setStrait src dst (.closing (s.frontWire src dst).isSome) else s

/-- Whether a handshake completes on a strait now: it is OPEN, or CLOSING with the word in progress, and its sender's
outbound side is not isolated (R19, R30). -/
def State.carries (s : State) (src dst : Island) : Bool :=
  s.dom (islandDomain src) != 0 && s.dom (islandDomain dst) != 0 &&
    (match s.strait src dst with
    | .isOpen => true
    | .closing busy => busy
    | .closed => false)

/-- A handshake has completed: a strait in CLOSING starts no further one (R30). -/
def State.handshakeDone (s : State) (src dst : Island) : State :=
  match s.strait src dst with
  | .closing _ => s.setStrait src dst (.closing false)
  | _ => s

/-- Put a word on a strait. A sender keeps its queue words for a strait that is not OPEN (R31); any other word toward
an island whose domain is OFF finds no receiver. -/
def State.send (s : State) (src dst : Island) (tag : BitVec 4) (word : Word) : State :=
  if s.dom (islandDomain dst) == 0 && decide (tag ≠ tagQword) && decide (tag ≠ tagQsel) then s
  else { s with wires := s.wires ++ [⟨src, dst, tag, word, parityLine tag word⟩] }

/-- Send a list of words with one tag. -/
def State.sendAll (s : State) (src dst : Island) (tag : BitVec 4) : List Word → State
  | [] => s
  | w :: rest => (s.send src dst tag w).sendAll src dst tag rest

/-- Take the oldest word of a strait off the wires. -/
def dropFirstWire (src dst : Island) : List Wire → List Wire
  | [] => []
  | x :: rest => if x.src = src ∧ x.dst = dst then rest else x :: dropFirstWire src dst rest

/-! ### Events -/

/-- Send an event notice to a core (R27, R132). -/
def State.raiseEvent (s : State) (src : Island) (c : CoreId) (n : Nat) : State :=
  s.send src (coreIsland c) tagEvent (BitVec.ofNat 32 (n % 32 + 32 * coreNum c))

/-- Send the same event to both cores. -/
def State.raiseBoth (s : State) (src : Island) (n : Nat) : State :=
  (s.raiseEvent src .choir n).raiseEvent src .nave n

/-! ### Units (R456 to R460) -/

/-- Unit numbers of R458. -/
def unitCore (c : CoreId) : Nat := coreNum c
def unitIsle (n : Nat) : Nat := 2 + n
def unitBank (b : Nat) : Nat := 18 + b
def unitTile (t : Nat) : Nat := 22 + t
def unitQty : Nat := 54
def unitPort (p : Nat) : Nat := 55 + p
def unitPin (n : Nat) : Nat := 57 + n
def unitLoop (j : Nat) : Nat := 65 + j

/-- The life field of a unit in its own register; the cores have none. -/
def unitLifeFld (u : Nat) : Option Fld :=
  if u < 2 then none
  else if u < 18 then some (ISLE.STAT_LIFE (u - 2))
  else if u < 22 then some (CIM.STAT_LIFE (u - 18))
  else if u < 54 then some (CIM.TSTAT_LIFE (u - 22))
  else if u = 54 then some QTY.STAT_LIFE
  else if u < 57 then some (BELF.PSTAT_LIFE (u - 55))
  else if u < 65 then some (OUT.PINSTAT_LIFE (u - 57))
  else if u < 67 then some (OUT.LPSTAT_LIFE (u - 65))
  else none

/-- The enable field of a unit; the cores have none. -/
def unitEnFld (u : Nat) : Option Fld :=
  if u < 2 then none
  else if u < 18 then some (ISLE.CTL_EN (u - 2))
  else if u < 22 then some (CIM.CTL_EN (u - 18))
  else if u < 54 then some (CIM.TCTL_EN (u - 22))
  else if u = 54 then some QTY.CTL_EN
  else if u < 57 then some (BELF.PCTL_EN (u - 55))
  else if u < 65 then some (OUT.PINCTL_EN (u - 57))
  else if u < 67 then some (OUT.LPCTL_EN (u - 65))
  else none

/-- The island of a unit. -/
def unitIsland (u : Nat) : Island :=
  if u = 0 then .choirCore
  else if u = 1 then .naveCore
  else if u < 18 then .isle (Fin.ofNat 16 (u - 2))
  else if u < 22 then .bank (Fin.ofNat 4 (u - 18))
  else if u < 54 then .bank (Fin.ofNat 4 ((u - 22) / 8))
  else if u = 54 then .quantity
  else if u < 57 then .belfry
  else .outputs

/-- The domain of a unit. -/
def unitDomain (u : Nat) : Domain := islandDomain (unitIsland u)

/-- The life of a core unit (R456). -/
def runLife : Run → Nat
  | .off => 0
  | .booting => 1
  | .loader => 1
  | .running => 2
  | .asleep _ _ _ => 2

/-- The life of a unit: 0 OFF, 1 RISING, 2 ON, 3 FALLING. -/
def State.life (s : State) (u : Nat) : Nat :=
  if u = 0 then runLife s.choir.run
  else if u = 1 then runLife s.nave.run
  else match unitLifeFld u with
    | some f => s.fld f
    | none => 0

/-- Epoch of a unit (R459). -/
def State.epoch (s : State) (u : Nat) : Nat := tget (fun _ => 0) s.crypt.epochs u

/-- Set the epoch of a unit. -/
def State.setEpoch (s : State) (u e : Nat) : State :=
  s.onCrypt (fun c => { c with epochs := tput (fun _ => 0) c.epochs u (e % 256) })

/-- A unit announces its state: its epoch rises by 1 and a LIFE notice goes to the mirror (R459). -/
def State.announce (s : State) (u : Nat) : State :=
  let e := (s.epoch u + 1) % 256
  (s.setEpoch u e).send (unitIsland u) .crypt tagLife (BitVec.ofNat 32 (u + 256 * s.life u + 1024 * e))

/-- A unit changes its state, and announces it. -/
def State.setLife (s : State) (u v : Nat) : State :=
  match unitLifeFld u with
  | some f => (s.setFld f v).announce u
  | none => s

/-- A core changes what it does; where that changes the state of its unit, the unit announces it (R456). -/
def State.setRun (s : State) (c : CoreId) (r : Run) : State :=
  let s' := s.setCore c { s.core c with run := r }
  if runLife (s.core c).run = runLife r then s' else s'.announce (coreNum c)

/-- Activity of a unit that its mirror entry denies: STALE and event 11 on both cores (R460). -/
def State.activity (s : State) (u : Nat) : State :=
  if s.fld (SYS.UNITSTATE_STATE u) < 2 ∧ s.flag (SYS.UNITSTATE_STALE u) = false then
    (s.setFlag (SYS.UNITSTATE_STALE u) true).raiseBoth .crypt 11
  else s

/-- A write of an EN field acts on its unit by R456; the field already holds the value written. -/
def State.enableActs (s : State) (u : Nat) (en : Bool) : State :=
  let dfr := SYS.UNITSTATE_DEFER u
  match s.life u, en with
  | 0, true => (s.setFlag dfr false).setLife u 1
  | 2, false => s.setLife u 3
  | 3, b => s.setFlag dfr b
  | _, _ => s

/-- A unit's fall is complete: it reads OFF, and a latched request starts its rise (R456). -/
def State.unitOff (s : State) (u : Nat) : State :=
  let s := s.setLife u 0
  if s.flag (SYS.UNITSTATE_DEFER u) then (s.setFlag (SYS.UNITSTATE_DEFER u) false).setLife u 1 else s

/-! ### The time of day -/

/-- CRYPT.TIME_SEC. -/
def State.timeSec (s : State) : Word := s.getReg CRYPT.TIME_SEC

/-- TIME_SUB: the tick count mod 32,768 (R432). -/
def State.timeSub (s : State) : Nat := s.crypt.ticks.toNat % 32768

/-- The low 28 bits of the tick count: the timestamp of shot records (R432). -/
def State.stamp (s : State) : Nat := s.crypt.ticks.toNat % 2 ^ 28

/-! ### The legal event log (R351 to R355) -/

/-- Capacity of the log (R351) and the count at which NEAR is set (R355). -/
def logCapacity : Nat := 1792
def logNear : Nat := 1664

/-- Append to a list of entries; an entry equal to the newest raises its REPEAT instead (R354). -/
def logPush (l : List LogEntry) (e : LogEntry) : List LogEntry :=
  match l.getLast? with
  | some n =>
    if n.kind = e.kind ∧ n.a = e.a ∧ n.b = e.b then l.dropLast ++ [{ n with repeats := satAdd 255 n.repeats (e.repeats + 1) }]
    else l ++ [e]
  | none => [e]

/-- Whether an entry only raises the REPEAT of the newest one. -/
def logRepeats (l : List LogEntry) (e : LogEntry) : Bool :=
  match l.getLast? with
  | some n => decide (n.kind = e.kind ∧ n.a = e.a ∧ n.b = e.b)
  | none => false

/-- Whether the log is full (R355). -/
def State.logFull (s : State) : Bool := decide (logCapacity ≤ s.log.length)

/-- The ledger writes an entry, or counts it as lost (R354, R355). -/
def State.ledgerWrite (s : State) (e : LogEntry) : State :=
  if s.logFull then s.bump LEDG.LOGSTAT_LOST 1
  else { s with log := logPush s.log e }

/-- Log an event of R352. While the ledger island is OFF the crypt holds up to 16 entries (R354). -/
def State.logEvent (s : State) (kind : Nat) (a b : Word) : State :=
  let e : LogEntry := ⟨s.timeSec, kind, 0, a, b⟩
  if s.dom .choir == 0 then
    if logRepeats s.crypt.heldLog e || decide (s.crypt.heldLog.length < 16) then
      s.onCrypt (fun c => { c with heldLog := logPush c.heldLog e })
    else s.bump LEDG.LOGSTAT_LOST 1
  else s.ledgerWrite e

/-- The ledger reaches ON and writes the held entries, with the second at which it writes them (R351, R354). -/
def State.flushHeldLog (s : State) : State :=
  s.crypt.heldLog.foldl (fun s e => s.ledgerWrite { e with sec := s.timeSec }) (s.onCrypt (fun c => { c with heldLog := [] }))

/-- Entry kinds of R352. -/
def logBoot : Nat := 0x0001
def logBootFallback : Nat := 0x0002
def logBootNoimage : Nat := 0x0003
def logSwidChange : Nat := 0x0004
def logImageErase : Nat := 0x0005
def logImageActivate : Nat := 0x0006
def logSealed : Nat := 0x0010
def logVerifyOpen : Nat := 0x0011
def logVerifyClose : Nat := 0x0012
def logCase : Nat := 0x0013
def logMagnet : Nat := 0x0014
def logDebugAttach : Nat := 0x0015
def logKeyLoad : Nat := 0x0016
def logVkey : Nat := 0x0017
def logSlWrite : Nat := 0x0018
def logSlDeny : Nat := 0x0019
def logScreenViol : Nat := 0x0020
def logForbiddenOp : Nat := 0x0021
def logRoodReject : Nat := 0x0022
def logDoubleFault : Nat := 0x0023
def logCoreUe : Nat := 0x0024
def logQueueUe : Nat := 0x0030
def logQueueFlush : Nat := 0x0031
def logCimResidue : Nat := 0x0032
def logCimGoldenUe : Nat := 0x0033
def logCommitTorn : Nat := 0x0040
def logLedgerInit : Nat := 0x0041
def logLedgerLost : Nat := 0x0042
def logGuardTorn : Nat := 0x0043
def logGuardEnter : Nat := 0x0044
def logGuardExit : Nat := 0x0045
def logCfgDefault : Nat := 0x0046
def logTimeSet : Nat := 0x0050
def logProgram : Nat := 0x0070

/-- Run an action once for each entry of a list. -/
def State.each {α : Type} (s : State) (l : List α) (f : State → α → State) : State := l.foldl f s

end Sys2Proof.Machine
end

