-- ==== Sys2Proof/Machine/Operands.lean ====
section
/-! DEFINITION. The operands of the core instructions: general registers with w0 hard-wired (R111), immediates and
offsets (R115), and the bytes of own flash and own SRAM (R3, R110, R131). -/
namespace Sys2Proof.Machine

/-- A general register; w0 reads 0 (R111). -/
def Core.reg (k : Core) (r : Reg) : Word := if r = 0 then 0 else k.w.get r.toFin

/-- Write a general register; a write to w0 is discarded (R111). -/
def Core.setReg (k : Core) (r : Reg) (v : Word) : Core := if r = 0 then k else { k with w := k.w.set r.toNat v r.isLt }

/-- A general register of a core. -/
def State.reg (s : State) (c : CoreId) (r : Reg) : Word := (s.core c).reg r

/-- Rewrite a core. -/
def State.onCore (s : State) (c : CoreId) (f : Core → Core) : State := s.setCore c (f (s.core c))

/-- Write a general register of a core. -/
def State.setReg (s : State) (c : CoreId) (r : Reg) (v : Word) : State := s.onCore c (fun k => k.setReg r v)

/-- sext(imm18). -/
def sext18 (imm : BitVec 18) : Word := imm.signExtend 32
/-- zext(imm18). -/
def zext18 (imm : BitVec 18) : Word := imm.setWidth 32
/-- sext(imm22). -/
def sext22 (imm : BitVec 22) : Word := imm.signExtend 32
/-- 4 × sext(off22). -/
def off22 (off : BitVec 22) : Word := off.signExtend 32 <<< 2
/-- 4 × sext(off26). -/
def off26 (off : BitVec 26) : Word := off.signExtend 32 <<< 2

/-! ### Own memory -/

/-- Base of own SRAM (R33). -/
def sramBase : Nat := 0x20000000
/-- Populated size of own flash (R110). -/
def flashSize : CoreId → Nat
  | .choir => 0x80000
  | .nave => 0x100000
/-- Populated size of own SRAM (R110). -/
def sramSize : CoreId → Nat
  | .choir => 0x10000
  | .nave => 0x20000

/-- Whether an address lies in populated own flash. -/
def inFlash (c : CoreId) (a : Nat) : Bool := decide (a < flashSize c)
/-- Whether an address lies in populated own SRAM. -/
def inSram (c : CoreId) (a : Nat) : Bool := decide (sramBase ≤ a ∧ a < sramBase + sramSize c)

/-- What a byte that no write has listed reads as: erased flash all ones (R116), own SRAM 0 (R466). -/
def memDefault (a : Nat) : Octet := if a < sramBase then 0xFF else 0

/-- A byte of own flash or own SRAM. -/
def Core.byte (k : Core) (a : Nat) : Octet := tget memDefault k.mem a

/-- Write a byte of own flash or own SRAM. -/
def Core.setByte (k : Core) (a : Nat) (v : Octet) : Core := { k with mem := tput memDefault k.mem a v }

/-- Write bytes at rising addresses. -/
def Core.setBytes (k : Core) (a : Nat) : List Octet → Core
  | [] => k
  | v :: rest => (k.setByte a v).setBytes (a + 1) rest

/-- n bytes from an address on. -/
def Core.bytes (k : Core) (a n : Nat) : List Octet := (natsFrom a n).map k.byte

/-- The little-endian number of n bytes at an address (R3). -/
def Core.leValue (k : Core) (a n : Nat) : Nat := ofLe (k.bytes a n)

/-- The little-endian word at an address. -/
def Core.word (k : Core) (a : Nat) : Word := BitVec.ofNat 32 (k.leValue a 4)

/-- A memory is in canonical form: addresses rise strictly, no entry equals what an unlisted address reads as. -/
def Memory.wf (m : List Host.Cell) : Bool := twf memDefault m

/-- The memory of a core is in canonical form. -/
def Core.memWf (k : Core) : Bool := Memory.wf k.mem

/-- MEMERR fields (R146). -/
def memerrBump (w : Word) (hi lo : Nat) : Word := bitsPut w hi lo (satAdd 255 (bitsOf w hi lo) 1)

/-- Count a corrected word of own memory (R131): FLCORR for flash, SRCORR for SRAM. -/
def Core.countCorr (k : Core) (a : Nat) : Core :=
  { k with memerr := if a < sramBase then memerrBump k.memerr 31 24 else memerrBump k.memerr 23 16 }

/-- Whether the word that holds an address has an uncorrectable error. -/
def Core.isDouble (k : Core) (a : Nat) : Bool := k.double.contains (a / 4 * 4)

/-- Whether the word that holds an address has a single-bit error. -/
def Core.isSingle (k : Core) (a : Nat) : Bool := k.single.contains (a / 4 * 4)

/-- A word is written whole: fresh check bits (R131). -/
def Core.freshEcc (k : Core) (a : Nat) : Core :=
  { k with single := k.single.erase (a / 4 * 4), double := k.double.erase (a / 4 * 4) }

end Sys2Proof.Machine
end

