-- ==== Sys2Proof/Machine/Flags.lean ====
section
/-! DEFINITION. The flags N, Z, C and V of PSR and the results that set them (R120 to R123). -/
namespace Sys2Proof.Machine

/-- The flags of PSR. -/
structure Flags where
  n : Bool
  z : Bool
  c : Bool
  v : Bool
  deriving DecidableEq, Repr

/-- The flags held in a PSR value (R146). -/
def flagsOf (psr : Word) : Flags :=
  ⟨bitsOf psr 31 31 == 1, bitsOf psr 30 30 == 1, bitsOf psr 29 29 == 1, bitsOf psr 28 28 == 1⟩

/-- A PSR value with its flags replaced. -/
def putFlags (psr : Word) (f : Flags) : Word :=
  bitsPut psr 31 28 (8 * natOfBool f.n + 4 * natOfBool f.z + 2 * natOfBool f.c + natOfBool f.v)

/-- QT of a PSR value: V, E, G, P (R114). -/
def qtOf (psr : Word) : Nat := bitsOf psr 27 24

/-- A PSR value with QT replaced. -/
def putQt (psr : Word) (qt : Nat) : Word := bitsPut psr 27 24 qt

/-- PSR.FH. -/
def fhOf (psr : Word) : Bool := bitsOf psr 0 0 == 1

/-- N and Z by the result, C and V kept (R120). -/
def flagsNZ (f : Flags) (r : Word) : Flags := { f with n := r.msb, z := decide (r = 0) }

/-- The result and flags of a + b + carry (R120). -/
def addWithFlags (a b : Word) (carry : Bool) : Word × Flags :=
  let r := a + b + BitVec.ofNat 32 (natOfBool carry)
  (r, ⟨r.msb, decide (r = 0), decide (2 ^ 32 ≤ a.toNat + b.toNat + natOfBool carry),
    decide (a.toInt + b.toInt + natOfBool carry ≠ r.toInt)⟩)

/-- The result and flags of a − b − (1 − carry): C is 1 when no borrow occurs (R120). -/
def subWithFlags (a b : Word) (carry : Bool) : Word × Flags :=
  let k := 1 - natOfBool carry
  let r := a - b - BitVec.ofNat 32 k
  (r, ⟨r.msb, decide (r = 0), decide (b.toNat + k ≤ a.toNat), decide (a.toInt - b.toInt - k ≠ r.toInt)⟩)

/-- The kinds of shift (R117, R118). -/
inductive ShiftKind where
  | shl | shr | sar | ror
  deriving DecidableEq, Repr

/-- The result of a shift by n (R118, R121). -/
def shiftResult (k : ShiftKind) (a : Word) (n : Nat) : Word :=
  match k with
  | .shl => if 32 ≤ n then 0 else a <<< n
  | .shr => if 32 ≤ n then 0 else a >>> n
  | .sar => if 32 ≤ n then a.sshiftRight 31 else a.sshiftRight n
  | .ror => a.rotateRight (n % 32)

/-- The last bit shifted out by a non-zero amount (R120, R121). -/
def shiftCarry (k : ShiftKind) (a : Word) (n : Nat) : Bool :=
  match k with
  | .shl => if 32 < n then false else a.getLsbD (32 - n)
  | .shr => if 32 < n then false else a.getLsbD (n - 1)
  | .sar => if 32 < n then a.msb else a.getLsbD (n - 1)
  | .ror => a.getLsbD ((n + 31) % 32)

/-- The result and flags of a shift; a shift by zero leaves C (R120). -/
def shiftWithFlags (k : ShiftKind) (f : Flags) (a : Word) (n : Nat) : Word × Flags :=
  let r := shiftResult k a n
  let g := flagsNZ f r
  (r, if n = 0 then g else { g with c := shiftCarry k a n })

/-- High word of the signed product (R118). -/
def mulHigh (a b : Word) : Word := BitVec.ofInt 32 (a.toInt * b.toInt / 2 ^ 32)

/-- High word of the unsigned product (R118). -/
def mulHighU (a b : Word) : Word := BitVec.ofNat 32 (a.toNat * b.toNat / 2 ^ 32)

/-- Signed quotient, rounded toward zero; 0x8000_0000 by −1 gives 0x8000_0000 (R119, R122). -/
def divSigned (a b : Word) : Word := BitVec.ofInt 32 (a.toInt.tdiv b.toInt)

/-- Signed remainder (R119, R122). -/
def remSigned (a b : Word) : Word := BitVec.ofInt 32 (a.toInt.tmod b.toInt)

/-- Flags of div: V only for the one overflowing case (R122). -/
def divFlags (f : Flags) (a b r : Word) : Flags :=
  { flagsNZ f r with v := decide (a = 0x80000000 ∧ b = 0xFFFFFFFF) }

/-- Number of leading zero bits (R119). -/
def leadingZeros (a : Word) : Word := BitVec.ofNat 32 (if a = 0 then 32 else 31 - a.toNat.log2)

/-- The four bytes reversed (R119). -/
def reverseBytes (a : Word) : Word := wordOfOctets (a.extractLsb' 24 8) (a.extractLsb' 16 8) (a.extractLsb' 8 8) (a.extractLsb' 0 8)

/-- Whether a condition code holds (R123). -/
def condHolds (psr : Word) (cond : BitVec 4) : Bool :=
  let f := flagsOf psr
  let qv := qtOf psr / 8 == 1
  match cond.toNat with
  | 0 => f.z
  | 1 => !f.z
  | 2 => f.c
  | 3 => !f.c
  | 4 => f.n
  | 5 => !f.n
  | 6 => f.v
  | 7 => !f.v
  | 8 => f.c && !f.z
  | 9 => !f.c || f.z
  | 10 => f.n == f.v
  | 11 => f.n != f.v
  | 12 => !f.z && f.n == f.v
  | 13 => f.z || f.n != f.v
  | 14 => qv
  | _ => !qv

end Sys2Proof.Machine
end

