-- ==== Sys2Proof/Machine/Queues.lean ====
section
/-! DEFINITION. The queue manager: packets, stages and Cloister blocks, drops and gap markers, SECDED of stored words,
the block pool, delivery and the lifecycle of queues (R78 to R109). -/
namespace Sys2Proof.Machine

/-- A queue by number. -/
def State.queue (s : State) (n : Nat) : Queue := tget (fun _ => Queue.empty) s.queues n

/-- Replace a queue. -/
def State.setQueue (s : State) (n : Nat) (q : Queue) : State := { s with queues := tput (fun _ => Queue.empty) s.queues n q }

/-- Bits of a queue word (R82). -/
def bitV : Word := 0x80000000
def bitE : Word := 0x40000000
def bitG : Word := 0x20000000
def bitP : Word := 0x10000000

/-- The words of the open packet. -/
def Queue.openWords (q : Queue) : List QWord :=
  match q.openPk with
  | some p => p.words
  | none => []

/-- Every stored word, oldest first. -/
def Queue.words (q : Queue) : List QWord := q.packets.flatMap (fun p => p.words) ++ q.openWords

/-- Number of stored words (STAT.WORDS). -/
def Queue.count (q : Queue) : Nat := q.words.length

/-- Whole packets that no reader has begun (PKT.COUNT, R85). -/
def Queue.whole (q : Queue) : Nat :=
  ((q.packets.drop (if q.given = 0 then 0 else 1)).filter (fun p => !p.begun)).length

/-- Blocks held. -/
def Queue.held (q : Queue) : Nat := q.blocks.length

/-- Capacity of a queue in words (R92). -/
def Queue.capacity (q : Queue) : Nat := 16 + 128 * q.held

/-- Size of the head and tail stages, and of a Cloister block, in words (R91). -/
def stageWords : Nat := 8
def blockWords : Nat := 128

/-- Words of a queue at a place. -/
def Queue.wordsAt (q : Queue) (p : Place) : Nat := (q.words.filter (fun w => decide (w.place = p))).length

/-- Whether a block of a queue has room. -/
def Queue.room (q : Queue) (b : Nat) : Bool := decide (q.wordsAt (.block b) < blockWords)

/-- Whether the word at position i of a queue lies in the Cloister (R91). -/
def Queue.inCloister (q : Queue) (i : Nat) : Bool :=
  match (q.words[i]?).map (fun w => w.place) with
  | some (Place.block _) => true
  | _ => false

/-- The word that moves next, by its position, and where it goes (R91): the oldest word outside the head stage into a free
head slot; else the oldest word of the tail stage into the newest block. Where that block is full, the words wait in the tail
stage; those beyond its size go into an older block that has room, so that the capacity of R92 is there (log entry 28). -/
def Queue.nextMove (q : Queue) : Option (Nat × Place) :=
  match q.words.findIdx? (fun w => decide (w.place ≠ .head)), q.words.findIdx? (fun w => decide (w.place = .tail)) with
  | none, _ => none
  | some i, t =>
    if q.wordsAt .head < stageWords then some (i, .head)
    else match t, q.blocks.getLast? with
      | some t, some b =>
        if q.room b then some (t, .block b)
        else if stageWords < q.wordsAt .tail then (q.blocks.reverse.find? q.room).map (fun c => (t, .block c))
        else none
      | _, _ => none

/-- Change the word at position i of a list of packets. -/
def modifyWord : List Packet → Nat → (QWord → QWord) → List Packet
  | [], _, _ => []
  | p :: rest, i, f =>
    if i < p.words.length then { p with words := p.words.modify i f } :: rest
    else p :: modifyWord rest (i - p.words.length) f

/-- Change the stored word at position i. -/
def Queue.modify (q : Queue) (i : Nat) (f : QWord → QWord) : Queue :=
  let wholeWords := (q.packets.flatMap (fun p => p.words)).length
  if i < wholeWords then { q with packets := modifyWord q.packets i f }
  else { q with openPk := q.openPk.map (fun p => { p with words := p.words.modify (i - wholeWords) f }) }

/-- Set the check-bit state of a stored word. -/
def Queue.setEcc (q : Queue) (i : Nat) (e : Ecc) : Queue := q.modify i (fun w => { w with ecc := e })

/-- A stored word moves. -/
def Queue.setPlace (q : Queue) (i : Nat) (p : Place) : Queue := q.modify i (fun w => { w with place := p })

/-- The blocks a queue keeps: an empty block returns, except the newest while the tail stage holds words (R103). -/
def Queue.kept (q : Queue) : List Nat :=
  q.blocks.filter (fun b => decide (0 < q.wordsAt (.block b)) ||
    (decide (q.blocks.getLast? = some b) && decide (0 < q.wordsAt .tail)))

/-! ### The pool (R101, R102) -/

/-- Queue numbers and quotas of the queues whose DESC differs from its reset value. -/
def State.quotas (s : State) : List (Nat × Nat) :=
  (s.regs.filter (fun e => decide (0x40010000 ≤ e.1 ∧ e.1 < 0x40012000 ∧ (e.1 - 0x40010000) % 32 = 0))).map
    (fun e => ((e.1 - 0x40010000) / 32, bitsOf e.2 11 0))

/-- Sum of the quotas over some queues. -/
def State.quotaSum (s : State) (p : Nat → Bool) : Nat := ((s.quotas.filter (fun e => p e.1)).map (fun e => e.2)).sum

/-- Blocks held over some queues. -/
def State.heldSum (s : State) (p : Nat → Bool) : Nat := ((s.queues.filter (fun e => p e.1)).map (fun e => e.2.held)).sum

/-- Reserved blocks a queue does not hold. -/
def State.wanted (s : State) (n quota : Nat) : Nat := quota - (s.queue n).held

/-- Unheld reservations over some queues, covered or not. -/
def State.wantedSum (s : State) (p : Nat → Bool) : Nat :=
  ((s.quotas.filter (fun e => p e.1)).map (fun e => s.wanted e.1 e.2)).sum

/-- Shortfall over all queues (QUE.POOL.SHORT). -/
def State.shortSum (s : State) : Nat := (s.queues.map (fun e => e.2.short)).sum

/-- Whether a queue is a nave queue in the pool's count (R102). -/
def isNaveQueue (n : Nat) : Bool := decide (128 ≤ n)

/-- Covered reservations (QUE.POOLSTAT.RESV). -/
def State.reserved (s : State) : Nat := s.wantedSum (fun _ => true) - s.shortSum

/-- Blocks neither held nor reserved (QUE.POOLSTAT.FREE). -/
def State.freeBlocks (s : State) : Nat := 4096 - s.heldSum (fun _ => true) - s.reserved

/-- Cover shortfalls in ascending queue number from the free blocks (R101). -/
def State.rebalance (s : State) : State :=
  s.each s.quotas (fun s e =>
    let q := s.queue e.1
    if q.short = 0 then s else s.setQueue e.1 { q with short := q.short - min q.short s.freeBlocks })

/-- Set the blocks of a queue; blocks that return cover shortfalls in ascending queue number (R101, R103). A block that a
queue returns within its own quota becomes a reservation again, and where a lower-numbered queue has a shortfall it covers
that one first: DESIGN CHOICE, log entry 31. -/
def State.setBlocks (s : State) (n : Nat) (blocks : List Nat) : State :=
  let q := s.queue n
  if blocks.length < q.held then
    let quota := s.fld (QUE.DESC_QUOTA n)
    let grown := (quota - blocks.length) - (quota - q.held)
    (s.setQueue n { q with blocks := blocks, short := q.short + grown }).rebalance
  else s.setQueue n { q with blocks := blocks }

/-- Return the blocks of a queue that are empty (R103). -/
def State.trim (s : State) (n : Nat) : State := s.setBlocks n (s.queue n).kept

/-- The effective limit of a queue's blocks (R101). -/
def State.blockLimit (s : State) (n : Nat) : Nat := max (s.fld (QUE.DESC_DEPTH n)) (s.fld (QUE.DESC_QUOTA n))

/-- BLK.PEAK follows HELD. -/
def State.notePeak (s : State) (n : Nat) : State :=
  if s.fld (QUE.BLK_PEAK n) < (s.queue n).held then s.setFld (QUE.BLK_PEAK n) (s.queue n).held else s

/-- Grant a block (R102): the queue's newest. -/
def State.grantBlock (s : State) (n : Nat) : State :=
  let q := s.queue n
  (s.setQueue n { q with blocks := q.blocks ++ [q.blocks.foldl max 0 + 1] }).notePeak n

/-- A request of R102 item 1: below the quota, with a covered reservation. Where the shortfall is part of what the quota still
reserves, the covered part is granted: DESIGN CHOICE, log entry 31. -/
def State.withinQuota (s : State) (n : Nat) : Bool :=
  let q := s.queue n
  decide (q.short < s.fld (QUE.DESC_QUOTA n) - q.held)

/-- A request of R102 item 2: at or above the quota, while no shortfall stands. -/
def State.aboveQuota (s : State) (n : Nat) : Bool :=
  decide (s.fld (QUE.DESC_QUOTA n) ≤ (s.queue n).held) && decide (s.shortSum = 0)

/-- Blocks that nave queues may still take above their reservations (R101, R102). -/
def State.naveRoom (s : State) : Nat :=
  s.fld QUE.POOL_NAVECAP - (s.heldSum isNaveQueue + s.wantedSum isNaveQueue)

/-- The first of some queues counting upward from a token, wrapping from Q255 to Q000 (R102 item 3). -/
def firstFrom (token : Nat) : List Nat → Option Nat
  | [] => none
  | n :: rest =>
    match firstFrom token rest with
    | some m => if (n + 256 - token) % 256 < (m + 256 - token) % 256 then some n else some m
    | none => some n

/-- The winners of k free blocks among the requests of one pool cycle, and the token afterwards (R102 item 3): Q000 to Q127
rank first; among equals that outnumber the blocks the token decides and moves behind the winner. room is what NAVECAP leaves. -/
def contest (token room : Nat) (l : List Nat) : Nat → List Nat × Nat
  | 0 => ([], token)
  | k + 1 =>
    let choir := l.filter (fun n => !isNaveQueue n)
    let equals := if choir.isEmpty then (if room = 0 then [] else l.filter isNaveQueue) else choir
    match firstFrom token equals with
    | none => ([], token)
    | some m =>
      let r := contest (if k + 1 < equals.length then (m + 1) % 256 else token) (if isNaveQueue m then room - 1 else room)
        (l.filter (fun n => decide (n ≠ m))) k
      (m :: r.1, r.2)

/-- A request for a block was refused: CONTEND counts it (R102). -/
def State.countRefused (s : State) (n : Nat) : State :=
  if isNaveQueue n then s.bump QUE.CONTEND_NAVELOST 1 else s.bump QUE.CONTEND_CHOIRLOST 1

/-- The requests of one pool cycle, by queue; the second result lists the queues that were granted a block (R102). -/
def State.poolCycle (s : State) (l : List Nat) : State × List Nat :=
  let r := contest (s.fld QUE.CONTEND_TOKEN) s.naveRoom (l.filter s.aboveQuota) s.freeBlocks
  let won := l.filter s.withinQuota ++ r.1
  let t := if r.2 = s.fld QUE.CONTEND_TOKEN then s else s.setFld QUE.CONTEND_TOKEN r.2
  (t.each l (fun s n => if won.contains n then s.grantBlock n else s.countRefused n), won)

/-! ### Reading (R86 to R90) -/

/-- Whether a core is the owning reader of a queue (R78, R155, R156). -/
def queueReader (c : CoreId) (n : Nat) : Bool :=
  match c with
  | .choir => decide (n < 112)
  | .nave => decide (112 ≤ n)

/-- Whether a core writes a queue (R78). -/
def queueWriter (c : CoreId) (n : Nat) : Bool :=
  match c with
  | .choir => decide (n < 128)
  | .nave => decide (128 ≤ n)

/-- Whether an island may write a queue over its strait (R78); the holder of a bank's lease decides for the bank. -/
def State.mayWrite (s : State) (src : Island) (n : Nat) : Bool :=
  match src with
  | .isle _ => decide (n < 112)
  | .bank b =>
    let h := s.fld (CIM.LEASE_HOLDER b.val)
    if h = 3 then decide (128 ≤ n) else decide (h = 1 ∨ h = 2) && decide (n < 112)
  | .choirCore => queueWriter .choir n
  | .naveCore => queueWriter .nave n
  | .belfry => decide (128 ≤ n)
  | .service => decide (128 ≤ n)
  | _ => false

/-- Whether a qget by the owning reader would find a word (R86, R87). -/
def State.hasWord (s : State) (n : Nat) : Bool :=
  let q := s.queue n
  s.fld (QUE.DESC_CONSUMER n) == 0 &&
    (!q.packets.isEmpty || (!s.flag (QUE.DESC_DELIVER n) && !q.openWords.isEmpty))

/-- Bits of a QW register (R146). -/
def watchOn (w : Word) : Bool := bitsOf w 31 31 == 1
def watchQueue (w : Word) : Nat := bitsOf w 7 0

/-- The level bits 16 to 23 of EVPEND (R134). -/
def State.watchBits (s : State) (c : CoreId) : Word :=
  (List.range 8).foldl (fun (acc : Word) k =>
    let w := (s.core c).qw.getD k 0
    if watchOn w && queueReader c (watchQueue w) && s.hasWord (watchQueue w) then bitsPut acc (16 + k) (16 + k) 1 else acc) 0

/-- Notices to the cores whose watches on a queue have become true (R134). -/
def State.notifyWatches (s : State) (n : Nat) (before : Bool) : State :=
  if s.hasWord n && !before then
    s.each [CoreId.choir, CoreId.nave] (fun s c =>
      s.each (List.range 8) (fun s k =>
        let w := (s.core c).qw.getD k 0
        if watchOn w && watchQueue w == n && queueReader c n then s.raiseEvent .queue c (16 + k) else s))
  else s

/-- The status of a read that finds no word (R90). -/
def State.emptyStatus (s : State) (n : Nat) : Word :=
  match s.fld (QUE.STAT_LIFE n) with
  | 2 => 0
  | 3 => 2
  | _ => 1

/-! ### Markers and drops (R98 to R100) -/

/-- The word of a gap marker (R99). -/
def markerWord (packets words : Nat) : Word :=
  bitsPut (bitsPut 0xE0000000 27 16 (min packets 0xFFF)) 15 0 (min words 0xFFFF)

/-- A marker as a packet, at a place. -/
def markerPacket (packets words : Nat) (place : Place) : Packet := ⟨[⟨markerWord packets words, .good, place⟩], true, false⟩

/-- Add counts into a marker. -/
def markerAdd (p : Packet) (packets words : Nat) : Packet :=
  match p.words with
  | w :: _ =>
    { p with words := [⟨bitsPut (bitsPut w.word 27 16 (satAdd 0xFFF (bitsOf w.word 27 16) packets)) 15 0
        (satAdd 0xFFFF (bitsOf w.word 15 0) words), w.ecc, w.place⟩] }
  | [] => p

/-- Whether a packet is a marker that can take a further drop: no reader has begun to take it. -/
def openMarker (p : Option Packet) : Bool :=
  match p with
  | some p => p.marker && !p.begun
  | none => false

/-- Put a drop at index i of the whole packets: into a marker beside it, else as a new marker at a place (R99, R100). -/
def placeMarker (ps : List Packet) (i packets words : Nat) (place : Place) : List Packet :=
  let before := if i = 0 then none else ps[i - 1]?
  if openMarker before then
    match before with
    | some p => listSet ps (i - 1) (markerAdd p packets words)
    | none => ps
  else if openMarker ps[i]? then
    match ps[i]? with
    | some p => listSet ps i (markerAdd p packets words)
    | none => ps
  else ps.take i ++ [markerPacket packets words place] ++ ps.drop i

/-- The place of the oldest of some words; the tail stage where there is none (R100). -/
def firstPlace (ws : List QWord) : Place :=
  match ws with
  | w :: _ => w.place
  | [] => .tail

/-! ### SECDED (R94 to R97) -/

/-- The packet that holds word i of a list of packets: its index, and the number of words before it. -/
def findPacket : List Packet → Nat → Nat → Nat → Option (Nat × Nat)
  | [], _, _, _ => none
  | p :: rest, i, idx, start =>
    if i < p.words.length then some (idx, start) else findPacket rest (i - p.words.length) (idx + 1) (start + p.words.length)

/-- Every packet, the open one last. -/
def Queue.all (q : Queue) : List Packet :=
  match q.openPk with
  | some p => q.packets ++ [p]
  | none => q.packets

/-- Event 5 of a queue: the core that writes its registers, both cores for a rood queue (R96). -/
def State.queueEvent (s : State) (n : Nat) : State :=
  let s := if n < 128 then s.raiseEvent .queue .choir 5 else s
  if 112 ≤ n then s.raiseEvent .queue .nave 5 else s

/-- An uncorrectable error in the word at position i: a marker takes the place of its packet (R96); a delivery of that packet
stops (R88). -/
def State.queueUe (s : State) (n i : Nat) : State :=
  let q := s.queue n
  match findPacket q.all i 0 0 with
  | none => s
  | some (idx, _) =>
    let before := s.hasWord n
    let p := q.all.getD idx ⟨[], false, false⟩
    let isOpen := decide (q.packets.length ≤ idx)
    let whole := if isOpen then q.packets else q.packets.take idx ++ q.packets.drop (idx + 1)
    let q' : Queue := { q with
      packets := placeMarker whole idx 1 p.words.length (firstPlace p.words)
      openPk := if isOpen then none else q.openPk
      dropping := q.dropping || isOpen
      given := if idx = 0 then 0 else q.given }
    let s := if q.inCloister i then s.bump QUE.CLECC_UNCORR 1 else s
    let s := ((s.setQueue n q').bump (QUE.ECC_UNCORR n) 1).bump (QUE.STAT_DROPS n) 1
    let s := if n < 128 then s.logEvent logQueueUe (BitVec.ofNat 32 n) 0 else s
    (s.queueEvent n).notifyWatches n before

/-- Count a corrected word at position i and correct it (R94). -/
def State.queueCorr (s : State) (n i : Nat) : State :=
  let q := s.queue n
  let s := if q.inCloister i then s.bump QUE.CLECC_CORR 1 else s
  (s.setQueue n (q.setEcc i .good)).bump (QUE.ECC_CORR n) 1

/-- Check the word at position i: corrected, or its packet discarded; the second result says whether a packet went. -/
def State.checkWord (s : State) (n i : Nat) : State × Bool :=
  match ((s.queue n).words[i]?).map (fun w => w.ecc) with
  | some Ecc.single => (s.queueCorr n i, false)
  | some Ecc.double => (s.queueUe n i, true)
  | _ => (s, false)

/-- Check the words from position i on, k of them, up to the first uncorrectable one. -/
def State.checkRun (s : State) (n i : Nat) : Nat → State × Bool
  | 0 => (s, false)
  | k + 1 =>
    let r := s.checkWord n i
    if r.2 then r else r.1.checkRun n (i + 1) k

/-- The words of a queue move as far as they can, each checked as it moves (R91, R94). -/
def State.moveWords (s : State) (n : Nat) : Nat → State
  | 0 => s
  | fuel + 1 =>
    match (s.queue n).nextMove with
    | none => s
    | some (i, p) =>
      let r := s.checkWord n i
      if r.2 then r.1.moveWords n fuel else (r.1.setQueue n ((r.1.queue n).setPlace i p)).moveWords n fuel

/-- A queue settles after a change: its words move, and its empty blocks return (R91, R103). -/
def State.settled (s : State) (n : Nat) : State := (s.moveWords n (3 * (s.queue n).count + 2)).trim n

/-! ### Storing and dropping (R83, R84, R92, R98 to R100) -/

/-- Drop the newest packet (R98): arriving words that are discarded with it, and whether the packet has already ended. -/
def State.dropTail (s : State) (n : Nat) (src : Option Island) (arriving : Nat) (ended : Bool) : State :=
  let before := s.hasWord n
  let q := s.queue n
  let q' : Queue := { q with
    packets := placeMarker q.packets q.packets.length 1 (q.openWords.length + arriving) (firstPlace q.openWords)
    openPk := none
    source := if ended then none else match q.source with | some i => some i | none => src
    dropping := !ended }
  (((s.setQueue n q').settled n).bump (QUE.STAT_DROPS n) 1).notifyWatches n before

/-- Discard a later word of a packet that is being dropped (R98, R99). -/
def State.dropLater (s : State) (n : Nat) (word : Word) : State :=
  let before := s.hasWord n
  let q := s.queue n
  let ended := decide (word &&& bitE ≠ 0)
  let q' : Queue := { q with
    packets := placeMarker q.packets q.packets.length 0 1 .tail
    dropping := !ended
    source := if ended then none else q.source }
  ((s.setQueue n q').settled n).notifyWatches n before

/-- Clear P in the words of a packet (R84). -/
def clearP (ws : List QWord) : List QWord := ws.map (fun w => { w with word := w.word &&& ~~~bitP })

/-- Append a word to the open packet, or start one with it; close the packet at E (R83, R84). It arrives in the tail stage. -/
def State.storeWord (s : State) (n : Nat) (src : Option Island) (word : Word) : State :=
  let before := s.hasWord n
  let q := s.queue n
  let p : Packet := match q.openPk with
    | some p => { p with words := p.words ++ [⟨word, .good, .tail⟩] }
    | none => ⟨[⟨word, .good, .tail⟩], false, false⟩
  let q' : Queue :=
    if word &&& bitE ≠ 0 then
      { q with
        packets := q.packets ++ [if word &&& bitP = 0 then { p with words := clearP p.words } else p]
        openPk := none, source := none }
    else { q with openPk := some p, source := match q.openPk with | some _ => q.source | none => src }
  ((s.setQueue n q').settled n).notifyWatches n before

/-- A queue that takes whole packets alone, and whose open packet fills every data slot at the limit of its blocks: the packet
can never close (R98). -/
def State.stuck (s : State) (n : Nat) : Bool :=
  let q := s.queue n
  (decide (s.fld (QUE.DESC_CONSUMER n) ≠ 0) || s.flag (QUE.DESC_DELIVER n)) &&
    decide (q.capacity ≤ q.openWords.length + 1) && decide (s.blockLimit n ≤ q.held)

/-- Drop the open packet of a queue that it blocks (R98). -/
def State.dropStuck (s : State) (n : Nat) : State :=
  if s.stuck n then s.dropTail n (s.queue n).source 0 false else s

/-- The unit whose activity a word of an island shows (R460). -/
def sourceUnit : Island → Option Nat
  | .isle i => some (unitIsle i.val)
  | .bank b => some (unitBank b.val)
  | _ => none

/-- Report the activity of the source of an accepted word. -/
def State.sourceActive (s : State) (src : Option Island) : State :=
  match src.bind sourceUnit with
  | some u => s.activity u
  | none => s

/-- How an offered word ended (R150): 0 DONE, 1 NOTON, 2 DROPPED. -/
abbrev PutStatus := Nat

/-- Store a word for which there is room; a packet that can then never close is dropped with it (R98). -/
def State.storeOrDrop (s : State) (n : Nat) (src : Option Island) (word : Word) : State × PutStatus :=
  let t := s.storeWord n src word
  (t.dropStuck n, if t.stuck n then 2 else 0)

/-- Offer a word to a queue (R92, R98, R102, R105). -/
def State.offer (s : State) (n : Nat) (src : Option Island) (raw : Word) : State × PutStatus :=
  if s.fld (QUE.STAT_LIFE n) ≠ 2 then (s.bump QUE.ORPHAN_DENIED 1, 1)
  else
    let word := (raw ||| bitV) &&& ~~~bitG
    let s := s.sourceActive src
    let q := s.queue n
    if q.dropping then (s.dropLater n word, 2)
    else if q.count + 2 ≤ q.capacity then s.storeOrDrop n src word
    else if q.held < s.blockLimit n then
      let r := s.poolCycle [n]
      if r.2.contains n then r.1.storeOrDrop n src word
      else (r.1.dropTail n src 1 (decide (word &&& bitE ≠ 0)), 2)
    else (s.dropTail n src 1 (decide (word &&& bitE ≠ 0)), 2)

/-! ### Taking words -/

/-- Remove the oldest stored word of a queue. -/
def Queue.popFirst (q : Queue) : Queue :=
  match q.packets with
  | p :: rest =>
    match p.words with
    | _ :: w :: ws => { q with packets := { p with words := w :: ws, begun := true } :: rest }
    | _ => { q with packets := rest }
  | [] =>
    match q.openPk with
    | some p => { q with openPk := some { p with words := p.words.tail, begun := true } }
    | none => q

/-- Check the word at a position and read it; the words of a damaged packet give way to a marker, and the position is read
again (R94, R96). -/
def State.readWord (s : State) (n i : Nat) : Nat → State × Option Word
  | 0 => (s, none)
  | fuel + 1 =>
    match (s.queue n).words[i]? with
    | none => (s, none)
    | some w =>
      match w.ecc with
      | .good => (s, some w.word)
      | .single => (s.queueCorr n i, some w.word)
      | .double => ((s.queueUe n i).settled n).readWord n i fuel

/-- Read a word of a queue, whatever errors stand before it. -/
def State.readAt (s : State) (n i : Nat) : State × Option Word := s.readWord n i ((s.queue n).count + 1)

/-- qget: the next word this core may take, or the status of R90 (R87, R155). The caller has checked the reader. On a queue
of a hardware consumer the status is HWREADER, whatever the state of the queue: DESIGN CHOICE, log entry 70. -/
def State.takeWord (s : State) (n : Nat) : State × Word :=
  if s.fld (QUE.DESC_CONSUMER n) ≠ 0 then (s, 3)
  else if s.hasWord n then
    let r := s.readAt n 0
    match r.2 with
    | some w => ((r.1.setQueue n (r.1.queue n).popFirst).settled n, w)
    | none => (r.1, s.emptyStatus n)
  else (s, s.emptyStatus n)

/-- qpeek: the stored word at a position, or the status of R90 (R156). A damaged word is never passed on. -/
def State.peekWord (s : State) (n i : Nat) : State × Word :=
  let r := s.readAt n i
  match r.2 with
  | some w => (r.1, w)
  | none => (r.1, s.emptyStatus n)

/-- Remove the oldest whole packet. -/
def State.popPacket (s : State) (n : Nat) : State :=
  let q := s.queue n
  match q.packets with
  | _ :: rest => (s.setQueue n { q with packets := rest, given := 0 }).settled n
  | [] => s

/-- The island of a queue's hardware consumer (R86). -/
def consumerIsland : Nat → Option Island
  | 1 => some .quantity
  | 2 => some .belfry
  | 3 => some .service
  | _ => none

/-- A hardware consumer's delivery is broken off: the packet stays whole, and its delivery starts again at its first word
(R88). -/
def State.breakOff (s : State) (n : Nat) : State :=
  if (s.queue n).given = 0 then s else s.setQueue n { s.queue n with given := 0 }

/-! ### Lifecycle (R104 to R108) -/

/-- A queue changes its state; queues have no mirror entry (R458). -/
def State.setQueueLife (s : State) (n v : Nat) : State := s.setFld (QUE.STAT_LIFE n) v

/-- A queue starts to fall: it discards what it stores and keeps the counts for the marker of its next rise (R104). -/
def State.queueFalls (s : State) (n : Nat) : State :=
  let q := s.queue n
  let packets := (q.all.filter (fun p => !p.words.isEmpty)).length
  let q' : Queue := { q with
    packets := [], openPk := none, source := none, dropping := false, given := 0
    fell := if packets = 0 && decide (q.count = 0) then none else some (packets, q.count) }
  (s.setQueue n q').setQueueLife n 3

/-- A queue has risen: it is empty but for the marker of its last fall (R104). -/
def State.queueRises (s : State) (n : Nat) : State :=
  let q := s.queue n
  let q' : Queue := match q.fell with
    | some (p, w) => { q with packets := [markerPacket p w .head], fell := none }
    | none => q
  ((s.setQueue n q').setQueueLife n 2).notifyWatches n false

/-- A write of DESC.EN acts on the queue (R104). -/
def State.queueEnable (s : State) (n : Nat) (en : Bool) : State :=
  match s.fld (QUE.STAT_LIFE n), en with
  | 0, true => (s.setFlag (QUE.STAT_DEFER n) false).setQueueLife n 1
  | 2, false => s.queueFalls n
  | 3, b => s.setFlag (QUE.STAT_DEFER n) b
  | _, _ => s

/-- The quota a write may set (R101). -/
def State.quotaClamp (s : State) (n v : Nat) : Nat :=
  let held := s.fld (QUE.DESC_QUOTA n)
  let others := s.quotaSum (fun m => decide (m ≠ n))
  let v1 := if held < v then max held (min v (4096 - others)) else v
  let naveOthers := s.quotaSum (fun m => isNaveQueue m && decide (m ≠ n))
  if isNaveQueue n && decide (held < v1) then max held (min v1 (s.fld QUE.POOL_NAVECAP - naveOthers)) else v1

/-- Set a quota: a reservation counts once it is covered (R101). -/
def State.setQuota (s : State) (n v : Nat) : State :=
  let q := s.queue n
  let covered := (s.fld (QUE.DESC_QUOTA n) - q.held) - q.short
  let s := s.setFld (QUE.DESC_QUOTA n) v
  let want := v - q.held
  (s.setQueue n { q with short := want - min want covered }).rebalance

/-- A store to QUE.DESC (R86, R101, R104, R106, R109). -/
def State.storeDesc (s : State) (n : Nat) (val : Word) : State :=
  let off := s.fld (QUE.STAT_LIFE n) == 0
  let cons := bitsOf val 30 28
  let okCons := decide (cons = 0) || (decide (cons = 1) && decide (n < 112)) ||
    ((decide (cons = 2) || decide (cons = 3)) && decide (112 ≤ n))
  let s := if off && okCons then s.setFld (QUE.DESC_CONSUMER n) cons else s
  let s := if off then s.setFld (QUE.DESC_DELIVER n) (bitsOf val 27 27) else s
  let s := s.setFld (QUE.DESC_DEPTH n) (bitsOf val 23 12)
  let s := s.setQuota n (s.quotaClamp n (bitsOf val 11 0))
  let en := bitsOf val 31 31
  ((s.setFld (QUE.DESC_EN n) en).queueEnable n (en == 1)).dropStuck n

/-- The packets still stored in some queues, whole and open (R108). -/
def State.packetSum (s : State) (p : Nat → Bool) : Nat :=
  ((s.queues.filter (fun e => p e.1)).map (fun e => (e.2.all.filter (fun k => !k.words.isEmpty)).length)).sum

/-- The queue island is about to enter FALLING: the crypt takes the counts of its whole and open packets (R108). -/
def State.countFlushed (s : State) : State :=
  s.onCrypt (fun c => { c with flushedChoir := s.packetSum (fun n => !isNaveQueue n), flushedNave := s.packetSum isNaveQueue })

/-- The queue island falls: every queue that is ON falls, one that is RISING when it has risen (R104, R108). -/
def State.queuesFall (s : State) : State :=
  s.countFlushed.each (List.range 256) (fun s n => if s.fld (QUE.STAT_LIFE n) = 2 then s.queueFalls n else s)

/-- The queue island loses its power: the queues are gone, with the counts for their markers (R108). -/
def State.queuesOff (s : State) : State := { s with queues := [], qsel := [] }

/-- The queue island reaches ON: it loads the counts and logs the choir's (R108). -/
def State.queuesOn (s : State) : State :=
  let s := (s.setFld QUE.FLUSHED_CHOIR (min 0xFFFF s.crypt.flushedChoir)).setFld QUE.FLUSHED_NAVE (min 0xFFFF s.crypt.flushedNave)
  let s := if s.crypt.flushedChoir = 0 then s else s.logEvent logQueueFlush (BitVec.ofNat 32 s.crypt.flushedChoir) 0
  s.onCrypt (fun c => { c with flushedChoir := 0, flushedNave := 0 })

/-- A domain reached OFF: its open packets are dropped and its drops end (R107). -/
def State.queuesLose (s : State) (d : Domain) : State :=
  s.each (s.queues.map (fun e => e.1)) (fun s n =>
    let q := s.queue n
    if (q.source.map islandDomain) = some d then
      if q.dropping then s.setQueue n { q with dropping := false, source := none }
      else match q.openPk with
        | some _ =>
          let s := s.dropTail n q.source 0 true
          s.setQueue n { s.queue n with source := none }
        | none => s
    else s)

/-! ### Straits into the queue island (R79, R80, R29) -/

/-- The queue selected on a strait into the queue island (R79). -/
def State.selected (s : State) (src : Island) : Nat := tget (fun _ => 256) s.qsel (islandNo src)

/-- Set or clear the selection of a strait. -/
def State.select (s : State) (src : Island) (n : Nat) : State := { s with qsel := tput (fun _ => 256) s.qsel (islandNo src) n }

/-- Whether an island sends for the nave: it lies in the nave domain, or it is a bank under nave lease (R17). -/
def State.naveSender (s : State) (src : Island) : Bool :=
  match src with
  | .bank b => s.fld (CIM.LEASE_HOLDER b.val) == 3
  | i => decide (islandDomain i = .nave)

/-- A QSEL word arrives (R79, R80, R479). -/
def State.recvQsel (s : State) (src : Island) (word : Word) : State :=
  let n := bitsOf word 7 0
  if s.mayWrite src n then s.select src n
  else
    let log := s.naveSender src
    let s := (s.select src 256).send .queue src tagRefuse 2
    if log then s.logEvent logScreenViol (BitVec.ofNat 32 (QUE.DESC n)) 9 else s

/-- A QSEL word with a parity error arrives (R29). -/
def State.recvQselBad (s : State) (src : Island) : State :=
  let n := s.selected src
  let s := s.select src 256
  if n < 256 then
    let q := s.queue n
    match q.openPk with
    | some _ => if q.source = some src ∧ q.dropping = false then s.dropTail n (some src) 0 false else s
    | none => s
  else s

/-- A QWORD arrives (R79 to R83). -/
def State.recvQword (s : State) (src : Island) (word : Word) : State :=
  let n := s.selected src
  if n < 256 then (s.offer n (some src) word).1 else s.bump QUE.ORPHAN_BADSEL 1

/-- A QWORD with a parity error arrives: the packet being assembled is discarded (R29). The received E bit says whether the
packet ends with it, and a damaged word for a queue that is not ON is counted as any other: DESIGN CHOICE, log entry 70. -/
def State.recvQwordBad (s : State) (src : Island) (word : Word) : State :=
  let n := s.selected src
  if n < 256 then
    if s.fld (QUE.STAT_LIFE n) ≠ 2 then s.bump QUE.ORPHAN_DENIED 1
    else if (s.queue n).dropping then s.dropLater n word
    else s.dropTail n (some src) 1 (decide (word &&& bitE ≠ 0))
  else s.bump QUE.ORPHAN_BADSEL 1

/-- Send a packet's words to a queue: QSEL and the words, over the strait of an island (R79). -/
def State.sendQueue (s : State) (src : Island) (n : Nat) (ws : List Word) : State :=
  (s.send src .queue tagQsel (BitVec.ofNat 32 n)).sendAll src .queue tagQword ws

end Sys2Proof.Machine
end

