-- ==== Sys2Proof/Machine/CoreOps.lean ====
section
/-! DEFINITION. What every core instruction shares: the fetch, retirement and cycle count, taking a fault and returning
from one, refusals, event notices, sleep and waking, the special registers, and the core reset (R110 to R146, R466). -/
namespace Sys2Proof.Machine

/-! ### The address map (R33, R34) -/

/-- The regions of R33 above own memory. -/
inductive Region where
  | sys | que | isle (n : Nat) | tile (t : Nat) | bank (b : Nat) | qty | out | rood | sacr | ledg | crypt | belf | svc
  | window (b : Nat)
  deriving DecidableEq, Repr

/-- The region of an address above own memory; none where nothing is populated (R33). -/
def regionOf (a : Nat) : Option Region :=
  if a < 0x40000000 then none
  else if a < 0x40001000 then some .sys
  else if a < 0x40010000 then none
  else if a < 0x40020000 then some .que
  else if a < 0x40030000 then some (.isle ((a - 0x40020000) / 0x1000))
  else if a < 0x40038000 then some (.tile ((a - 0x40030000) / 0x400))
  else if a < 0x40038400 then some (.bank ((a - 0x40038000) / 0x100))
  else if a < 0x40040000 then none
  else if a < 0x40044000 then some .qty
  else if a < 0x40050000 then none
  else if a < 0x40051000 then some .out
  else if a < 0x40060000 then none
  else if a < 0x40070000 then some .rood
  else if a < 0x40080000 then some .sacr
  else if a < 0x40084000 then some .ledg
  else if a < 0x40090000 then none
  else if a < 0x40094000 then some .crypt
  else if a < 0x400A0000 then none
  else if a < 0x400A4000 then some .belf
  else if a < 0x400B0000 then none
  else if a < 0x400B1000 then some .svc
  else if a < 0x60000000 then none
  else if a < 0x60040000 then some (.window ((a - 0x60000000) / 0x10000))
  else none

/-- Refusal causes of R39. -/
def causeUnmapped : Nat := 1
def causeScreen : Nat := 2
def causeLease : Nat := 3
def causeDark : Nat := 4
def causeRdonly : Nat := 5
def causeParity : Nat := 6
def causeTimeout : Nat := 7
def causeEcc : Nat := 8

/-- Fault causes of R140. -/
def faultIllegal : Nat := 1
def faultAlign : Nat := 2
def faultRefused : Nat := 3
def faultStack : Nat := 4
def faultDivzero : Nat := 5
def faultBreak : Nat := 6
def faultMemecc : Nat := 7
def faultForbidden : Nat := 8
def faultDevice : Nat := 9

/-- Record a refused access (R38, R41, R43): kind [0] write, [1] fetch; a nave SCREEN refusal is logged. -/
def State.recordRefusal (s : State) (c : CoreId) (addr : Word) (cause kind : Nat) : State :=
  let i := coreNum c
  let s := (s.putReg (SYS.REFADDR i) addr).tally32 (SYS.REFINFO_COUNT i) 1
  let s := (s.setFld (SYS.REFINFO_CAUSE i) cause).setFlag (SYS.REFINFO_WRITE i) (bitAt kind 0)
  let s := s.setFlag (SYS.REFINFO_FETCH i) (bitAt kind 1)
  if c = .nave ∧ cause = causeScreen then s.logEvent logScreenViol addr (BitVec.ofNat 32 kind) else s

/-! ### Core reset (R466, R456) -/

/-- The cells of own flash: what a core reset leaves of own memory. -/
def flashOnly (m : List Host.Cell) : List Host.Cell := m.filter (fun e => decide (e.1 < sramBase))

/-- A core after a core reset: SRAM 0, own flash kept. -/
def Core.afterReset (c : CoreId) (k : Core) : Core :=
  { Core.reset c with
    mem := flashOnly k.mem
    single := k.single.filter (fun a => decide (a < sramBase))
    double := k.double.filter (fun a => decide (a < sramBase))
    halted := k.halted }

/-- RESETCAUSE field of a core. -/
def causeField : CoreId → Fld
  | .choir => SYS.RESETCAUSE_CHOIR
  | .nave => SYS.RESETCAUSE_NAVE

/-- Clear the watchdog count of a core. -/
def State.clearWdog (s : State) (c : CoreId) : State :=
  s.onCrypt (fun k => match c with | .choir => { k with wdogChoir := 0 } | .nave => { k with wdogNave := 0 })

/-- Reset one core (R466): cause 0 DOMAIN, 1 DOUBLE, 2 WDOG, 3 REQUEST, 4 ACTIVATE. Its watchdog stops (R467), a flash
operation of the core is abandoned (R176), and the unit goes to OFF at once. -/
def State.coreReset (s : State) (c : CoreId) (cause : Nat) : State :=
  let i := coreNum c
  let was := runLife (s.core c).run
  let s := s.setCore c ((s.core c).afterReset c)
  let s := if was = 0 then s else s.announce i
  let s := (s.setFlag (SYS.WDOG_EN i) false).clearWdog c
  (s.setFlag (SYS.IMGCTL_BUSY i) false).setFld (causeField c) cause

/-! ### Faults (R138 to R142) -/

/-- A core takes a fault: saved status and pc, cause and address, FH, and the handler (R139). -/
def Core.enterFault (k : Core) (cause : Nat) (addr : Word) : Core :=
  { k with
    epsr := k.psr
    epc := k.pc
    fcause := BitVec.ofNat 32 cause
    faddr := addr
    psr := bitsPut k.psr 0 0 1
    pc := k.fvec
    cycle := k.cycle + 4
    lastLoad := none }

/-- The faulting instruction of a core ends in a fault, or in a double fault that resets the core (R142). -/
def State.fault (s : State) (c : CoreId) (cause : Nat) (addr : Word) : State :=
  let k := s.core c
  if fhOf k.psr then
    (s.logEvent logDoubleFault (BitVec.ofNat 32 (coreNum c + 256 * cause)) k.pc).coreReset c 1
  else s.setCore c (k.enterFault cause addr)

/-- Return from a fault (R141): the flags and QT from EPSR, FH clear, the pc from EPC. -/
def Core.leaveFault (k : Core) : Core :=
  { k with psr := bitsPut k.epsr 0 0 0, pc := k.epc }

/-- A refused access of a core instruction: recorded, then the precise fault REFUSED (R38). -/
def State.refuse (s : State) (c : CoreId) (addr : Word) (cause kind : Nat) : State :=
  (s.recordRefusal c addr cause kind).fault c faultRefused addr

/-- An uncorrectable word of own memory: counted, logged for the choir core, and the fault MEMECC (R131). -/
def State.memEcc (s : State) (c : CoreId) (addr : Word) : State :=
  let s := s.onCore c (fun k => { k with memerr := memerrBump k.memerr 15 8 })
  let s := if c = .choir then s.logEvent logCoreUe addr 0 else s
  s.fault c faultMemecc addr

/-- A device instruction that this core may not issue (R148). -/
def State.forbid (s : State) (c : CoreId) (opcode : Nat) : State :=
  let s := if c = .nave then s.logEvent logForbiddenOp (BitVec.ofNat 32 opcode) (s.core c).pc else s
  s.fault c faultForbidden 0

/-- A device instruction that fails (R149). -/
def State.devFault (s : State) (c : CoreId) (opcode code : Nat) : State :=
  let i := coreNum c
  ((s.setFld (SYS.DEVINFO_OPCODE i) opcode).setFld (SYS.DEVINFO_CODE i) code).fault c faultDevice 0

/-! ### Fetch and retirement -/

/-- An access to the core's inactive image slot waits while a flash operation of the core runs (R170, R176). The instruction
then has no effect yet: it is to be given again once the operation is over (log entry 72). -/
def State.flashStall (s : State) (c : CoreId) (a : Nat) : Bool :=
  s.flag (SYS.IMGCTL_BUSY (coreNum c)) && inFlash c a &&
    decide (decide (flashSize c / 2 ≤ a) ≠ s.flag (SYS.IMGCTL_SLOT (coreNum c)))

/-- Whether a core executes instructions now: its program runs, no debug session halts it, its domain is ON. -/
def State.executes (s : State) (c : CoreId) : Bool :=
  decide ((s.core c).run = .running) && !(s.core c).halted && s.domOn (coreDomain c)

/-- The cause that refuses a fetch: the reach of R34 ends at own flash and own SRAM (R144). -/
def fetchCause (c : CoreId) (a : Nat) : Option Nat :=
  if inFlash c a || inSram c a then none
  else if (regionOf a).isSome then some causeScreen
  else some causeUnmapped

/-- Stall of a load-use pair (R143). -/
def loadStall (k : Core) (srcs : List Reg) : Word :=
  match k.lastLoad with
  | some r => if srcs.contains r then 1 else 0
  | none => 0

/-- The fetch at the pc, the must-be-zero fields, then the body (R113, R116, R131, R144). -/
def State.runOne (s : State) (i : Issue) (srcs : List Reg) (body : State → State) : State :=
  let c := i.core
  let k := s.core c
  let a := k.pc.toNat
  match fetchCause c a with
  | some cause => s.refuse c k.pc cause 2
  | none =>
    if k.isDouble a then s.memEcc c k.pc
    else
      let s := s.onCore c (fun k =>
        let k := if k.isSingle a then k.countCorr a else k
        { k with cycle := k.cycle + loadStall k srcs, lastLoad := none })
      let s := s.activity (coreNum c)
      if i.zero then body s else s.fault c faultIllegal 0

/-- A debugger's single step is over: the core halts again (R343). -/
def State.endStep (s : State) (c : CoreId) : State :=
  if (s.core c).stepping then s.onCore c (fun k => { k with halted := true, stepping := false }) else s

/-- Issue one instruction. A core that does not execute, or whose fetch stalls, changes nothing. srcs are the registers the
instruction reads. -/
def State.issue (s : State) (i : Issue) (srcs : List Reg) (body : State → State) : State :=
  if s.executes i.core && !s.flashStall i.core (s.core i.core).pc.toNat then (s.runOne i srcs body).endStep i.core else s

/-- Retire an instruction: the pc moves on by one word after n cycles (R143). -/
def State.retire (s : State) (c : CoreId) (n : Nat) : State :=
  s.onCore c (fun k => { k with pc := k.pc + 4, cycle := k.cycle + BitVec.ofNat 32 n })

/-- A taken branch, jump or rfe into flash adds a cycle on the nave core (R144). -/
def branchExtra (c : CoreId) (target : Word) : Nat :=
  if c = .nave ∧ target.toNat < sramBase then 1 else 0

/-- Retire with a jump after n cycles. -/
def State.jump (s : State) (c : CoreId) (target : Word) (n : Nat) : State :=
  s.onCore c (fun k => { k with pc := target, cycle := k.cycle + BitVec.ofNat 32 (n + branchExtra c target) })

/-- Cycles of a wait with a stated least count and a stated most (R145, R169): the count between is a free value. -/
def State.waitFor (s : State) (c : CoreId) (least most : Nat) : State :=
  let n := least + (Config.waitCycles s.free).toNat % (most + 1 - least)
  (s.onCore c (fun k => { k with cycle := k.cycle + BitVec.ofNat 32 n })).spend

/-- The island of an address that keeps a request waiting until its TIMEOUT (R39): a device fault, which no rule of the spec
brings about. -/
def State.silent (s : State) (i : Island) : Bool := s.mute.contains (islandNo i)

/-- Cycles in a time of some nanoseconds (R110). -/
def cyclesOf (c : CoreId) (ns : Nat) : Nat :=
  match c with
  | .choir => ns * 48 / 1000
  | .nave => ns * 96 / 1000

/-- The wait for a reply of a register region: at least 30 ns, at most 4 µs (R145). -/
def State.waitReply (s : State) (c : CoreId) : State :=
  s.waitFor c (match c with | .choir => 2 | .nave => 3) (cyclesOf c 4000)

/-- The wait for a reply that does not come (R39, R145). -/
def State.waitTimeout (s : State) (c : CoreId) : State :=
  s.onCore c (fun k => { k with cycle := k.cycle + BitVec.ofNat 32 (cyclesOf c 4000) })

/-- The wait that a refused request makes (R32, R127, R143, R145): none for an address in no region and for a strait that does
not take the request, 4 µs for TIMEOUT, else the wait for the REFUSE. -/
def State.waitRefuse (s : State) (c : CoreId) (cause : Nat) : State :=
  if cause = causeUnmapped ∨ cause = causeDark then s
  else if cause = causeTimeout then s.waitTimeout c
  else s.waitReply c

/-! ### Events (R132 to R137) -/

/-- EVPEND with its level bits (R134). -/
def State.evpend (s : State) (c : CoreId) : Word := ((s.core c).evpend &&& 0xFF00FFFF) ||| s.watchBits c

/-- Clear the edge bits of a mask. -/
def State.clearEvents (s : State) (c : CoreId) (mask : Word) : State :=
  s.onCore c (fun k => { k with evpend := k.evpend &&& ~~~mask })

/-- A sleeping core whose mask meets a pending event completes its evwait (R136). -/
def State.wake (s : State) (c : CoreId) : State :=
  match (s.core c).run with
  | .asleep rd mask _ =>
    let hit := s.evpend c &&& mask
    if hit = 0 ∨ (s.core c).halted then s
    else ((((s.clearEvents c hit).setRun c .running).setReg c rd hit).retire c 3)
  | _ => s

/-- A sleeping core whose deadline has come completes its evwait with 0; an event found in the same step wins (R136). -/
def State.wakeDeadline (s : State) (c : CoreId) : State :=
  let s := s.wake c
  match (s.core c).run with
  | .asleep rd _ (some d) =>
    if d ≤ s.crypt.ticks ∧ !(s.core c).halted then ((s.setRun c .running).setReg c rd 0).retire c 3 else s
  | _ => s

/-- An event notice reaches a core (R132 to R134): an edge event sets its bit; a queue watch has its level, a soft event is
the core's own, and no notice sets bits 12 to 15. -/
def State.recvEvent (s : State) (c : CoreId) (n : Nat) : State :=
  match (s.core c).run with
  | .off => s
  | _ =>
    let s := if n < 12 then s.onCore c (fun k => { k with evpend := k.evpend ||| (1#32 <<< n) }) else s
    s.wake c

/-- Whether TIMER.AT is due at a tick count (R137). -/
def timerDue (timer : Word) (ticks : BitVec 40) : Bool :=
  bitsOf timer 31 31 == 1 &&
    (let d := (bitsOf timer 27 0 + (2 ^ 28 - ticks.toNat % 2 ^ 28)) % 2 ^ 28
     decide (d = 0) || decide (2 ^ 27 ≤ d))

/-- The core raises event 0 at a due TIMER.AT and disarms it (R137). -/
def State.fireTimer (s : State) (c : CoreId) : State :=
  let k := s.core c
  if decide (k.run ≠ .off) && timerDue k.timer s.crypt.ticks then
    (s.setCore c { k with timer := bitsPut k.timer 31 31 0 }).recvEvent c 0
  else s

/-! ### Special registers (R146) -/

/-- CORE: MHZ and ID. -/
def coreReg : CoreId → Word
  | .choir => 0x00003000
  | .nave => 0x00006001

/-- Read a special register; none where the number is reserved. MEMERR is reset by the read. -/
def State.readSpecial (s : State) (c : CoreId) (n : Nat) : Option (State × Word) :=
  let k := s.core c
  match n with
  | 0x00 => some (s, k.psr)
  | 0x01 => some (s, k.epsr)
  | 0x02 => some (s, k.epc)
  | 0x03 => some (s, k.fcause)
  | 0x04 => some (s, k.faddr)
  | 0x05 => some (s, k.fvec)
  | 0x06 => some (s, k.splim)
  | 0x07 => some (s, s.evpend c)
  | 0x08 => some (s, k.timer)
  | 0x09 => some (s, k.cycle)
  | 0x0A => some (s, coreReg c)
  | 0x0B => some (s.setCore c { k with memerr := 0 }, k.memerr)
  | n => if 0x10 ≤ n ∧ n < 0x18 then some (s, k.qw.getD (n - 0x10) 0) else none

/-- Write a special register; none where the number is reserved. -/
def State.writeSpecial (s : State) (c : CoreId) (n : Nat) (v : Word) : Option State :=
  let k := s.core c
  match n with
  | 0x00 => some (s.setCore c { k with psr := (v &&& 0xFF000000) ||| (k.psr &&& 1) })
  | 0x01 => some (s.setCore c { k with epsr := v &&& 0xFF000001 })
  | 0x02 => some (s.setCore c { k with epc := v &&& 0xFFFFFFFC })
  | 0x03 => some s
  | 0x04 => some s
  | 0x05 => some (s.setCore c { k with fvec := v &&& 0xFFFFFFFC })
  | 0x06 => some (s.setCore c { k with splim := v &&& 0xFFFFFFFC })
  | 0x07 => some (s.clearEvents c v)
  | 0x08 => some (s.setCore c { k with timer := v &&& 0x8FFFFFFF })
  | 0x09 => some s
  | 0x0A => some s
  | 0x0B => some s
  | n =>
    if 0x10 ≤ n ∧ n < 0x18 then
      if queueReader c (watchQueue v) then
        some (s.setCore c { k with qw := k.qw.setIfInBounds (n - 0x10) (v &&& 0x800000FF) })
      else some s
    else none

end Sys2Proof.Machine
end

