-- ==== Sys2Proof/Machine/CoreAlu.lean ====
section
/-! DEFINITION. The ALU and EXT groups and the immediate forms of the Prolu core (R117 to R122, R143). -/
namespace Sys2Proof.Machine

/-- Write a result and its flags, and retire after n cycles. -/
def State.finish (s : State) (c : CoreId) (rd : Reg) (r : Word) (f : Flags) (n : Nat) : State :=
  ((s.setReg c rd r).onCore c (fun k => { k with psr := putFlags k.psr f })).retire c n

/-- Write a result that changes no flag, and retire after n cycles. -/
def State.finishPlain (s : State) (c : CoreId) (rd : Reg) (r : Word) (n : Nat) : State := (s.setReg c rd r).retire c n

/-- The flags of a core. -/
def State.flags (s : State) (c : CoreId) : Flags := flagsOf (s.core c).psr

/-- An ALU instruction: a function of two operand values and the flags (R118). -/
def State.alu (s : State) (i : Issue) (srcs : List Reg) (rd : Reg) (a b : Word) (f : Word → Word → Flags → Word × Flags)
    (n : Nat) : State :=
  s.issue i srcs (fun s =>
    let r := f a b (s.flags i.core)
    s.finish i.core rd r.1 r.2 n)

/-- A division or remainder; a zero divisor raises DIVZERO (R122). -/
def State.divide (s : State) (i : Issue) (rd ra rb : Reg) (f : Word → Word → Flags → Word × Flags) : State :=
  s.issue i [ra, rb] (fun s =>
    let a := s.reg i.core ra
    let b := s.reg i.core rb
    if b = 0 then s.fault i.core faultDivzero 0
    else
      let r := f a b (s.flags i.core)
      s.finish i.core rd r.1 r.2 34)

/-- `add` (R118). -/
def execAdd (i : Issue) (rd ra rb : Reg) (s : State) : Out :=
  .next (s.alu i [ra, rb] rd (s.reg i.core ra) (s.reg i.core rb) (fun a b _ => addWithFlags a b false) 1)

/-- `sub` (R118). -/
def execSub (i : Issue) (rd ra rb : Reg) (s : State) : Out :=
  .next (s.alu i [ra, rb] rd (s.reg i.core ra) (s.reg i.core rb) (fun a b _ => subWithFlags a b true) 1)

/-- `adc` (R118). -/
def execAdc (i : Issue) (rd ra rb : Reg) (s : State) : Out :=
  .next (s.alu i [ra, rb] rd (s.reg i.core ra) (s.reg i.core rb) (fun a b f => addWithFlags a b f.c) 1)

/-- `sbc` (R118). -/
def execSbc (i : Issue) (rd ra rb : Reg) (s : State) : Out :=
  .next (s.alu i [ra, rb] rd (s.reg i.core ra) (s.reg i.core rb) (fun a b f => subWithFlags a b f.c) 1)

/-- `and` (R118). -/
def execAnd (i : Issue) (rd ra rb : Reg) (s : State) : Out :=
  .next (s.alu i [ra, rb] rd (s.reg i.core ra) (s.reg i.core rb) (fun a b f => (a &&& b, flagsNZ f (a &&& b))) 1)

/-- `or` (R118). -/
def execOr (i : Issue) (rd ra rb : Reg) (s : State) : Out :=
  .next (s.alu i [ra, rb] rd (s.reg i.core ra) (s.reg i.core rb) (fun a b f => (a ||| b, flagsNZ f (a ||| b))) 1)

/-- `xor` (R118). -/
def execXor (i : Issue) (rd ra rb : Reg) (s : State) : Out :=
  .next (s.alu i [ra, rb] rd (s.reg i.core ra) (s.reg i.core rb) (fun a b f => (a ^^^ b, flagsNZ f (a ^^^ b))) 1)

/-- `andn` (R118). -/
def execAndn (i : Issue) (rd ra rb : Reg) (s : State) : Out :=
  .next (s.alu i [ra, rb] rd (s.reg i.core ra) (s.reg i.core rb) (fun a b f => (a &&& ~~~b, flagsNZ f (a &&& ~~~b))) 1)

/-- `shl` (R118, R121). -/
def execShl (i : Issue) (rd ra rb : Reg) (s : State) : Out :=
  .next (s.alu i [ra, rb] rd (s.reg i.core ra) (s.reg i.core rb) (fun a b f => shiftWithFlags .shl f a (bitsOf b 7 0)) 1)

/-- `shr` (R118, R121). -/
def execShr (i : Issue) (rd ra rb : Reg) (s : State) : Out :=
  .next (s.alu i [ra, rb] rd (s.reg i.core ra) (s.reg i.core rb) (fun a b f => shiftWithFlags .shr f a (bitsOf b 7 0)) 1)

/-- `sar` (R118, R121). -/
def execSar (i : Issue) (rd ra rb : Reg) (s : State) : Out :=
  .next (s.alu i [ra, rb] rd (s.reg i.core ra) (s.reg i.core rb) (fun a b f => shiftWithFlags .sar f a (bitsOf b 7 0)) 1)

/-- `ror` (R118, R121). -/
def execRor (i : Issue) (rd ra rb : Reg) (s : State) : Out :=
  .next (s.alu i [ra, rb] rd (s.reg i.core ra) (s.reg i.core rb) (fun a b f => shiftWithFlags .ror f a (bitsOf b 4 0)) 1)

/-- `mul` (R118). -/
def execMul (i : Issue) (rd ra rb : Reg) (s : State) : Out :=
  .next (s.alu i [ra, rb] rd (s.reg i.core ra) (s.reg i.core rb) (fun a b f => (a * b, flagsNZ f (a * b))) 2)

/-- `mulh` (R118). -/
def execMulh (i : Issue) (rd ra rb : Reg) (s : State) : Out :=
  .next (s.alu i [ra, rb] rd (s.reg i.core ra) (s.reg i.core rb) (fun a b f => (mulHigh a b, flagsNZ f (mulHigh a b))) 3)

/-- `mulhu` (R118). -/
def execMulhu (i : Issue) (rd ra rb : Reg) (s : State) : Out :=
  .next (s.alu i [ra, rb] rd (s.reg i.core ra) (s.reg i.core rb) (fun a b f => (mulHighU a b, flagsNZ f (mulHighU a b))) 3)

/-- `div` (R119, R122). -/
def execDiv (i : Issue) (rd ra rb : Reg) (s : State) : Out :=
  .next (s.divide i rd ra rb (fun a b f => (divSigned a b, divFlags f a b (divSigned a b))))

/-- `divu` (R119, R122). -/
def execDivu (i : Issue) (rd ra rb : Reg) (s : State) : Out :=
  .next (s.divide i rd ra rb (fun a b f => (a / b, flagsNZ f (a / b))))

/-- `rem` (R119, R122). -/
def execRem (i : Issue) (rd ra rb : Reg) (s : State) : Out :=
  .next (s.divide i rd ra rb (fun a b f => (remSigned a b, flagsNZ f (remSigned a b))))

/-- `remu` (R119, R122). -/
def execRemu (i : Issue) (rd ra rb : Reg) (s : State) : Out :=
  .next (s.divide i rd ra rb (fun a b f => (a % b, flagsNZ f (a % b))))

/-- `clz` (R119). -/
def execClz (i : Issue) (rd ra : Reg) (s : State) : Out :=
  .next (s.alu i [ra] rd (s.reg i.core ra) 0 (fun a _ f => (leadingZeros a, flagsNZ f (leadingZeros a))) 1)

/-- `rev` (R119). -/
def execRev (i : Issue) (rd ra : Reg) (s : State) : Out :=
  .next (s.alu i [ra] rd (s.reg i.core ra) 0 (fun a _ f => (reverseBytes a, flagsNZ f (reverseBytes a))) 1)

/-- `sxb` (R119). -/
def execSxb (i : Issue) (rd ra : Reg) (s : State) : Out :=
  .next (s.alu i [ra] rd (s.reg i.core ra) 0 (fun a _ f => ((a.setWidth 8).signExtend 32, flagsNZ f ((a.setWidth 8).signExtend 32))) 1)

/-- `sxh` (R119). -/
def execSxh (i : Issue) (rd ra : Reg) (s : State) : Out :=
  .next (s.alu i [ra] rd (s.reg i.core ra) 0 (fun a _ f => ((a.setWidth 16).signExtend 32, flagsNZ f ((a.setWidth 16).signExtend 32))) 1)

/-- `addi` (R117). -/
def execAddi (i : Issue) (rd ra : Reg) (imm : BitVec 18) (s : State) : Out :=
  .next (s.alu i [ra] rd (s.reg i.core ra) (sext18 imm) (fun a b _ => addWithFlags a b false) 1)

/-- `andi` (R117). -/
def execAndi (i : Issue) (rd ra : Reg) (imm : BitVec 18) (s : State) : Out :=
  .next (s.alu i [ra] rd (s.reg i.core ra) (zext18 imm) (fun a b f => (a &&& b, flagsNZ f (a &&& b))) 1)

/-- `ori` (R117). -/
def execOri (i : Issue) (rd ra : Reg) (imm : BitVec 18) (s : State) : Out :=
  .next (s.alu i [ra] rd (s.reg i.core ra) (zext18 imm) (fun a b f => (a ||| b, flagsNZ f (a ||| b))) 1)

/-- `xori` (R117). -/
def execXori (i : Issue) (rd ra : Reg) (imm : BitVec 18) (s : State) : Out :=
  .next (s.alu i [ra] rd (s.reg i.core ra) (zext18 imm) (fun a b f => (a ^^^ b, flagsNZ f (a ^^^ b))) 1)

/-- `shli` (R117, R120). -/
def execShli (i : Issue) (rd ra : Reg) (n : BitVec 5) (s : State) : Out :=
  .next (s.alu i [ra] rd (s.reg i.core ra) 0 (fun a _ f => shiftWithFlags .shl f a n.toNat) 1)

/-- `shri` (R117, R120). -/
def execShri (i : Issue) (rd ra : Reg) (n : BitVec 5) (s : State) : Out :=
  .next (s.alu i [ra] rd (s.reg i.core ra) 0 (fun a _ f => shiftWithFlags .shr f a n.toNat) 1)

/-- `sari` (R117, R120). -/
def execSari (i : Issue) (rd ra : Reg) (n : BitVec 5) (s : State) : Out :=
  .next (s.alu i [ra] rd (s.reg i.core ra) 0 (fun a _ f => shiftWithFlags .sar f a n.toNat) 1)

/-- `rori` (R117, R120). -/
def execRori (i : Issue) (rd ra : Reg) (n : BitVec 5) (s : State) : Out :=
  .next (s.alu i [ra] rd (s.reg i.core ra) 0 (fun a _ f => shiftWithFlags .ror f a n.toNat) 1)

/-- `cmpi` (R117): the flags of a subtraction, no result. -/
def execCmpi (i : Issue) (ra : Reg) (imm : BitVec 18) (s : State) : Out :=
  .next (s.alu i [ra] 0 (s.reg i.core ra) (sext18 imm) (fun a b _ => subWithFlags a b true) 1)

/-- `ldi` (R117). -/
def execLdi (i : Issue) (rd : Reg) (imm : BitVec 22) (s : State) : Out :=
  .next (s.issue i [] (fun s => s.finishPlain i.core rd (sext22 imm) 1))

/-- `lui` (R117). -/
def execLui (i : Issue) (rd : Reg) (imm : BitVec 16) (s : State) : Out :=
  .next (s.issue i [] (fun s => s.finishPlain i.core rd (imm.setWidth 32 <<< 16) 1))

/-- `adr` (R117): counted from the address of the instruction itself. -/
def execAdr (i : Issue) (rd : Reg) (off : BitVec 22) (s : State) : Out :=
  .next (s.issue i [] (fun s => s.finishPlain i.core rd ((s.core i.core).pc + off22 off) 1))

end Sys2Proof.Machine
end

