-- ==== Sys2Proof/Machine/CoreCtl.lean ====
section
/-! DEFINITION. Branches and jumps, the SYS group, the special-register moves and evwait (R117, R123, R124, R132 to R146). -/
namespace Sys2Proof.Machine

/-- A branch: taken 2 cycles, not taken 1 (R143). The target's own faults come with its fetch (R117). -/
def State.branch (s : State) (c : CoreId) (taken : Bool) (off : Word) : State :=
  if taken then s.jump c ((s.core c).pc + off) 2 else s.retire c 1

/-- `bcc` (R117, R123). -/
def execBcc (i : Issue) (cond : BitVec 4) (off : BitVec 22) (s : State) : Out :=
  .next (s.issue i [] (fun s => s.branch i.core (condHolds (s.core i.core).psr cond) (off22 off)))

/-- `b` (R117). -/
def execB (i : Issue) (off : BitVec 26) (s : State) : Out :=
  .next (s.issue i [] (fun s => s.branch i.core true (off26 off)))

/-- `jal` (R117): w14 takes the return address. -/
def execJal (i : Issue) (off : BitVec 26) (s : State) : Out :=
  .next (s.issue i [] (fun s =>
    let pc := (s.core i.core).pc
    (s.setReg i.core 14 (pc + 4)).jump i.core (pc + off26 off) 2))

/-- `jalr` (R117): a target that is not a multiple of 4 raises ALIGN with the target in FADDR. -/
def execJalr (i : Issue) (rd ra : Reg) (s : State) : Out :=
  .next (s.issue i [ra] (fun s =>
    let t := s.reg i.core ra
    if t &&& 3 ≠ 0 then s.fault i.core faultAlign t
    else (s.setReg i.core rd ((s.core i.core).pc + 4)).jump i.core t 2))

/-- `cbz` (R117). -/
def execCbz (i : Issue) (ra : Reg) (off : BitVec 22) (s : State) : Out :=
  .next (s.issue i [ra] (fun s => s.branch i.core (decide (s.reg i.core ra = 0)) (off22 off)))

/-- `cbnz` (R117). -/
def execCbnz (i : Issue) (ra : Reg) (off : BitVec 22) (s : State) : Out :=
  .next (s.issue i [ra] (fun s => s.branch i.core (decide (s.reg i.core ra ≠ 0)) (off22 off)))

/-- `nop` (R124). -/
def execNop (i : Issue) (s : State) : Out := .next (s.issue i [] (fun s => s.retire i.core 1))

/-- Whether a debug session holds a core: one is attached to the choir core alone (R124, R343). -/
def State.debugHolds (s : State) (c : CoreId) : Bool := decide (c = .choir) && s.flag SACR.SEAL_DBG

/-- `brk` (R124): BREAK with the code in FADDR; a debug session halts the core instead. -/
def execBrk (i : Issue) (code : BitVec 14) (s : State) : Out :=
  .next (s.issue i [] (fun s =>
    if s.debugHolds i.core then (s.onCore i.core (fun k => { k with halted := true })).retire i.core 1
    else s.fault i.core faultBreak (code.setWidth 32)))

/-- `rfe` (R141): ILLEGAL outside a fault handler. -/
def execRfe (i : Issue) (s : State) : Out :=
  .next (s.issue i [] (fun s =>
    let k := s.core i.core
    if fhOf k.psr then
      s.setCore i.core { k.leaveFault with cycle := k.cycle + BitVec.ofNat 32 (3 + branchExtra i.core k.epc) }
    else s.fault i.core faultIllegal 0))

/-- `evset` (R124): soft events 24 to 31 from ra[31:24]. -/
def execEvset (i : Issue) (ra : Reg) (s : State) : Out :=
  .next (s.issue i [ra] (fun s =>
    let v := s.reg i.core ra &&& 0xFF000000
    (s.onCore i.core (fun k => { k with evpend := k.evpend ||| v })).retire i.core 1))

/-- `evclr` (R124, R134). -/
def execEvclr (i : Issue) (ra : Reg) (s : State) : Out :=
  .next (s.issue i [ra] (fun s => (s.clearEvents i.core (s.reg i.core ra)).retire i.core 1))

/-- `evpoll` (R124): reads and clears without sleeping. -/
def execEvpoll (i : Issue) (rd ra : Reg) (s : State) : Out :=
  .next (s.issue i [ra] (fun s =>
    let hit := s.evpend i.core &&& s.reg i.core ra
    (s.clearEvents i.core hit).finishPlain i.core rd hit 1))

/-- `mfs` (R146): ILLEGAL for a reserved number. -/
def execMfs (i : Issue) (rd : Reg) (sreg : BitVec 8) (s : State) : Out :=
  .next (s.issue i [] (fun s =>
    match s.readSpecial i.core sreg.toNat with
    | some (s', v) => s'.finishPlain i.core rd v 1
    | none => s.fault i.core faultIllegal 0))

/-- `mts` (R146): ILLEGAL for a reserved number. -/
def execMts (i : Issue) (sreg : BitVec 8) (ra : Reg) (s : State) : Out :=
  .next (s.issue i [ra] (fun s =>
    match s.writeSpecial i.core sreg.toNat (s.reg i.core ra) with
    | some s' => s'.retire i.core 1
    | none => s.fault i.core faultIllegal 0))

/-- `evwait` (R136): an event already pending retires in 2 cycles, else the core sleeps; the timeout is rb mod 2^28.
The deadline is the pseudocode's, the tick count at the start plus rb, which lies between rb − 1 and rb whole periods ahead, and not
the text's "between rb and rb + 1 periods": DESIGN CHOICE, log entry 24. -/
def execEvwait (i : Issue) (rd ra rb : Reg) (s : State) : Out :=
  .next (s.issue i [ra, rb] (fun s =>
    let mask := s.reg i.core ra
    let t := bitsOf (s.reg i.core rb) 27 0
    if mask = 0 ∧ t = 0 then s.fault i.core faultIllegal 0
    else
      let hit := s.evpend i.core &&& mask
      if hit ≠ 0 then (s.clearEvents i.core hit).finishPlain i.core rd hit 2
      else s.setRun i.core (.asleep rd mask (if t = 0 then none else some (s.crypt.ticks + BitVec.ofNat 40 t)))))

end Sys2Proof.Machine
end

