-- ==== Sys2Proof/Machine/Crypto.lean ====
section
/-! DEFINITION. The cryptographic functions the spec names: AES-128, CMAC and CCM* (FIPS 197, SP 800-38B, SP 800-38C and
IEEE 802.15.4), SHA-256 (FIPS 180-4), ECDSA over P-256 (FIPS 186-4), and the CRCs of R350, R351 and R462. -/
namespace Sys2Proof.Machine

/-! ### AES-128 -/

/-- The AES S-box, entry i in bits [8 i + 7 : 8 i]. -/
def aesSboxBits : Nat :=
  0x16bb54b00f2d99416842e6bf0d89a18cdf2855cee9871e9b948ed9691198f8e19e1dc186b95735610ef6034866b53e708a8bbd4b1f74dde8c6b4a61c2e2578ba08ae7a65eaf4566ca94ed58d6d37c8e779e4959162acd3c25c2406490a3a32e0db0b5ede14b8ee4688902a22dc4f816073195d643d7ea7c41744975fec130ccdd2f3ff1021dab6bcf5389d928f40a351a89f3c507f02f94585334d43fbaaefd0cf584c4a39becb6a5bb1fc20ed00d153842fe329b3d63b52a05a6e1b1a2c830975b227ebe28012079a059618c323c7041531d871f1e5a534ccf73f362693fdb7c072a49cafa2d4adf04759fa7dc982ca76abd7fe2b670130c56f6bf27b777c63

/-- One S-box entry. -/
def aesSbox (x : Nat) : Nat := aesSboxBits / 2 ^ (8 * (x % 256)) % 256

/-- Multiplication by x in the field of AES. -/
def aesDouble (x : Nat) : Nat := if 128 ≤ x % 256 then Nat.xor (2 * (x % 256) % 256) 0x1B else 2 * (x % 256)

/-- The exclusive or of two lists of octets. -/
def xorBytes : List Nat → List Nat → List Nat
  | a :: as, b :: bs => Nat.xor a b :: xorBytes as bs
  | _, _ => []

/-- The next round key from the last one and its round constant. -/
def aesNextKey (k : List Nat) (rcon : Nat) : List Nat :=
  let t := [Nat.xor (aesSbox (k.getD 13 0)) rcon, aesSbox (k.getD 14 0), aesSbox (k.getD 15 0), aesSbox (k.getD 12 0)]
  let w0 := xorBytes (k.take 4) t
  let w1 := xorBytes ((k.drop 4).take 4) w0
  let w2 := xorBytes ((k.drop 8).take 4) w1
  let w3 := xorBytes ((k.drop 12).take 4) w2
  w0 ++ w1 ++ w2 ++ w3

/-- SubBytes and ShiftRows. -/
def aesSubShift (st : List Nat) : List Nat :=
  (List.range 16).map (fun i => aesSbox (st.getD ((i + 4 * (i % 4)) % 16) 0))

/-- MixColumns on one column. -/
def aesMixColumn (a b c d : Nat) : List Nat :=
  let t := Nat.xor (Nat.xor a b) (Nat.xor c d)
  [Nat.xor a (Nat.xor t (aesDouble (Nat.xor a b))), Nat.xor b (Nat.xor t (aesDouble (Nat.xor b c))),
    Nat.xor c (Nat.xor t (aesDouble (Nat.xor c d))), Nat.xor d (Nat.xor t (aesDouble (Nat.xor d a)))]

/-- MixColumns. -/
def aesMix : List Nat → List Nat
  | a :: b :: c :: d :: rest => aesMixColumn a b c d ++ aesMix rest
  | _ => []

/-- The rounds from a round key on: n full rounds, then the last one. -/
def aesRounds (st key : List Nat) (rcon : Nat) : Nat → List Nat
  | 0 => xorBytes (aesSubShift st) (aesNextKey key rcon)
  | n + 1 =>
    let k := aesNextKey key rcon
    aesRounds (xorBytes (aesMix (aesSubShift st)) k) k (aesDouble rcon) n

/-- The AES-128 encryption of a block of 16 octets under a key of 16 octets (FIPS 197). -/
def aesEncrypt (key block : List Nat) : List Nat := aesRounds (xorBytes block key) key 1 9

/-- Octets as numbers. -/
def natsOf (l : List Octet) : List Nat := l.map (fun o => o.toNat)

/-- Numbers as octets. -/
def octetsOf (l : List Nat) : List Octet := l.map (fun n => BitVec.ofNat 8 n)

/-- A 128-bit key as its 16 octets, octet 0 in bits [7:0] (R345). -/
def keyOctets (k : BitVec 128) : List Nat := natsOf (leOctets 16 k.toNat)

/-- Cut a list into blocks of 16, at most fuel of them. -/
def blocks16 (l : List Nat) : Nat → List (List Nat)
  | 0 => []
  | n + 1 => if l.isEmpty then [] else l.take 16 :: blocks16 (l.drop 16) n

/-- Fill a list with zeros to 16 entries. -/
def pad16 (l : List Nat) : List Nat := l ++ List.replicate (16 - l.length) 0

/-- Key check value: the first 3 octets of the encryption of the zero block, octet 0 in bits [7:0] (R344). -/
def keyCheck (k : BitVec 128) : Nat := ofLe (octetsOf ((aesEncrypt (keyOctets k) (List.replicate 16 0)).take 3))

/-! ### CMAC (SP 800-38B) -/

/-- Doubling of a 16-octet string for the CMAC subkeys. -/
def cmacDouble (l : List Nat) : List Nat :=
  let v := ofBe (octetsOf l)
  let d := 2 * v % 2 ^ 128
  natsOf (beOctets 16 (if 2 ^ 127 ≤ v then Nat.xor d 0x87 else d))

/-- The CMAC tag of a message of octets under a key. -/
def cmac (key msg : List Nat) : List Nat :=
  let k1 := cmacDouble (aesEncrypt key (List.replicate 16 0))
  let full := !msg.isEmpty && msg.length % 16 == 0
  let bs := blocks16 (if full then msg else msg ++ [0x80]) (msg.length / 16 + 1)
  let last := pad16 (bs.getLast?.getD [])
  let st := bs.dropLast.foldl (fun st b => aesEncrypt key (xorBytes st b)) (List.replicate 16 0)
  aesEncrypt key (xorBytes st (xorBytes last (if full then k1 else cmacDouble k1)))

/-! ### CCM* (IEEE 802.15.4 with a 13-octet nonce and a length field of 2 octets) -/

/-- The additional authenticated data with its length prefix, filled to whole blocks. -/
def ccmAad (a : List Nat) : List Nat :=
  if a.isEmpty then []
  else
    let l := [a.length / 256 % 256, a.length % 256] ++ a
    l ++ List.replicate ((16 - l.length % 16) % 16) 0

/-- The keystream block of a counter. -/
def ccmStream (key nonce : List Nat) (i : Nat) : List Nat := aesEncrypt key ([1] ++ nonce ++ [i / 256 % 256, i % 256])

/-- Counter-mode encryption of blocks from a counter on. -/
def ccmCrypt (key nonce : List Nat) : List (List Nat) → Nat → List Nat
  | [], _ => []
  | b :: rest, i => xorBytes b (ccmStream key nonce i) ++ ccmCrypt key nonce rest (i + 1)

/-- The authentication tag of CCM*, micLen octets, before encryption. -/
def ccmTag (key nonce aad msg : List Nat) (micLen : Nat) : List Nat :=
  let flags := (if aad.isEmpty then 0 else 64) + 8 * ((micLen - 2) / 2) + 1
  let b0 := [flags] ++ nonce ++ [msg.length / 256 % 256, msg.length % 256]
  let padded := msg ++ List.replicate ((16 - msg.length % 16) % 16) 0
  let all := ccmAad aad ++ padded
  ((blocks16 all (all.length / 16 + 1)).foldl (fun st b => aesEncrypt key (xorBytes st b)) (aesEncrypt key b0)).take micLen

/-- Encrypt a message: the ciphertext followed by the encrypted tag. -/
def ccmSeal (key nonce aad msg : List Nat) (micLen : Nat) : List Nat :=
  let tag := ccmTag key nonce aad msg micLen
  ccmCrypt key nonce (blocks16 msg (msg.length / 16 + 1)) 1 ++ xorBytes tag (ccmStream key nonce 0)

/-- Decrypt and check a message; none where the tag does not match. -/
def ccmOpen (key nonce aad body : List Nat) (micLen : Nat) : Option (List Nat) :=
  if body.length < micLen then none
  else
    let ct := body.take (body.length - micLen)
    let msg := ccmCrypt key nonce (blocks16 ct (ct.length / 16 + 1)) 1
    if xorBytes (ccmTag key nonce aad msg micLen) (ccmStream key nonce 0) = body.drop (body.length - micLen) then some msg
    else none

/-! ### SHA-256 (FIPS 180-4) -/

/-- The round constants, constant i in bits [32 i + 31 : 32 i]. -/
def shaConstBits : Nat :=
  0xc67178f2bef9a3f7a4506ceb90befffa8cc7020884c8781478a5636f748f82ee682e6ff35b9cca4f4ed8aa4a391c0cb334b0bcb52748774c1e376c0819a4c116106aa070f40e3585d6990624d192e819c76c51a3c24b8b70a81a664ba2bfe8a192722c8581c2c92e766a0abb650a735453380d134d2c6dfc2e1b213827b70a851429296706ca6351d5a79147c6e00bf3bf597fc7b00327c8a831c66d983e515276f988da5cb0a9dc4a7484aa2de92c6f240ca1cc0fc19dc6efbe4786e49b69c1c19bf1749bdc06a780deb1fe72be5d74550c7dc3243185be12835b01d807aa98ab1c5ed5923f82a459f111f13956c25be9b5dba5b5c0fbcf71374491428a2f98

/-- One round constant. -/
def shaConst (i : Nat) : Word := BitVec.ofNat 32 (shaConstBits / 2 ^ (32 * i))

/-- The initial hash value. -/
def shaInit : List Word := [0x6a09e667, 0xbb67ae85, 0x3c6ef372, 0xa54ff53a, 0x510e527f, 0x9b05688c, 0x1f83d9ab, 0x5be0cd19]

/-- Extend the newest-first list of schedule words by n words. -/
def shaExtend (w : List Word) : Nat → List Word
  | 0 => w
  | n + 1 =>
    let a := w.getD 1 0
    let b := w.getD 14 0
    let s1 := a.rotateRight 17 ^^^ a.rotateRight 19 ^^^ (a >>> 10)
    let s0 := b.rotateRight 7 ^^^ b.rotateRight 18 ^^^ (b >>> 3)
    shaExtend ((w.getD 15 0 + s0 + w.getD 6 0 + s1) :: w) n

/-- One round of the compression. -/
def shaRound (st : List Word) (k w : Word) : List Word :=
  match st with
  | [a, b, c, d, e, f, g, h] =>
    let s1 := e.rotateRight 6 ^^^ e.rotateRight 11 ^^^ e.rotateRight 25
    let ch := (e &&& f) ^^^ (~~~e &&& g)
    let t1 := h + s1 + ch + k + w
    let s0 := a.rotateRight 2 ^^^ a.rotateRight 13 ^^^ a.rotateRight 22
    let mj := (a &&& b) ^^^ (a &&& c) ^^^ (b &&& c)
    [t1 + (s0 + mj), a, b, c, d + t1, e, f, g]
  | l => l

/-- The rounds over schedule words, from a round number on. -/
def shaRounds (st : List Word) : List Word → Nat → List Word
  | [], _ => st
  | w :: rest, i => shaRounds (shaRound st (shaConst i) w) rest (i + 1)

/-- The sums of two lists of words. -/
def addWords : List Word → List Word → List Word
  | a :: as, b :: bs => (a + b) :: addWords as bs
  | _, _ => []

/-- Words of octets, most significant first. -/
def beWords : List Octet → List Word
  | a :: b :: c :: d :: rest => wordOfOctets d c b a :: beWords rest
  | _ => []

/-- Process one block of 64 octets. -/
def shaBlock (h : List Word) (block : List Octet) : List Word :=
  let w := (shaExtend (beWords block).reverse 48).reverse
  addWords h (shaRounds h w 0)

/-- Process a padded message block by block. -/
def shaBlocks (h : List Word) (m : List Octet) : Nat → List Word
  | 0 => h
  | n + 1 => if m.isEmpty then h else shaBlocks (shaBlock h (m.take 64)) (m.drop 64) n

/-- SHA-256 of octets: 32 octets in output order. -/
def sha256 (m : List Octet) : List Octet :=
  let n := m.length
  let padded := m ++ [0x80] ++ List.replicate ((119 - n % 64) % 64) 0 ++ beOctets 8 (8 * n)
  (shaBlocks shaInit padded (padded.length / 64)).flatMap (fun w => (octetsOfWord w).reverse)

/-! ### ECDSA over P-256 (FIPS 186-4) -/

/-- The field prime, the group order, the curve coefficient b and the base point. -/
def p256p : Nat := 0xffffffff00000001000000000000000000000000ffffffffffffffffffffffff
def p256n : Nat := 0xffffffff00000000ffffffffffffffffbce6faada7179e84f3b9cac2fc632551
def p256gx : Nat := 0x6b17d1f2e12c4247f8bce6e563a440f277037d812deb33a0f4a13945d898c296
def p256gy : Nat := 0x4fe342e2fe1a7f9b8ee7eb4a7c0f9e162bce33576b315ececbb6406837bf51f5

/-- Modular power by the binary digits of the exponent. -/
def powMod (m : Nat) (base e : Nat) : Nat → Nat
  | 0 => 1 % m
  | fuel + 1 =>
    if e = 0 then 1 % m
    else
      let h := powMod m (base * base % m) (e / 2) fuel
      if e % 2 = 1 then base * h % m else h

/-- The inverse modulo a prime. -/
def invMod (m a : Nat) : Nat := powMod m (a % m) (m - 2) 256

/-- A point of the curve; none is the point at infinity. -/
abbrev CurvePoint := Option (Nat × Nat)

/-- The sum of two points. -/
def curveAdd (p q : CurvePoint) : CurvePoint :=
  match p, q with
  | none, q => q
  | p, none => p
  | some (x1, y1), some (x2, y2) =>
    let p := p256p
    if x1 % p = x2 % p ∧ (y1 + y2) % p = 0 then none
    else
      let l :=
        if x1 % p = x2 % p then (3 * x1 * x1 + (p - 3)) * invMod p (2 * y1) % p
        else (y2 + p - y1 % p) * invMod p (x2 + p - x1 % p) % p
      let x3 := (l * l + 2 * p - x1 % p - x2 % p) % p
      some (x3, (l * (x1 + p - x3) + p - y1 % p) % p)

/-- A multiple of a point. -/
def curveMul (k : Nat) (q : CurvePoint) : Nat → CurvePoint
  | 0 => none
  | fuel + 1 =>
    if k = 0 then none
    else
      let h := curveMul (k / 2) (curveAdd q q) fuel
      if k % 2 = 1 then curveAdd q h else h

/-- Whether a signature (r, s) over a digest verifies under a public key (x, y). -/
def ecdsaVerify (x y digest r s : Nat) : Bool :=
  let n := p256n
  if 1 ≤ r ∧ r < n ∧ 1 ≤ s ∧ s < n then
    let w := invMod n s
    let u1 := digest * w % n
    let u2 := r * w % n
    match curveAdd (curveMul u1 (some (p256gx, p256gy)) 256) (curveMul u2 (some (x, y)) 256) with
    | some (px, _) => decide (px % n = r)
    | none => false
  else false

/-! ### CRCs -/

/-- One bit of an unreflected CRC of some width. -/
def crcStep (width poly c : Nat) : Nat :=
  if 2 ^ (width - 1) ≤ c then Nat.xor (2 * c % 2 ^ width) poly else 2 * c % 2 ^ width

/-- One octet of an unreflected CRC. -/
def crcOctet (width poly c : Nat) (o : Octet) : Nat :=
  (List.range 8).foldl (fun c _ => crcStep width poly c) (Nat.xor c (o.toNat * 2 ^ (width - 8)))

/-- CRC-16, polynomial 0x1021, initial value 0xFFFF, no reflection, no final XOR (R350). -/
def crc16 (m : List Octet) : Nat := m.foldl (crcOctet 16 0x1021) 0xFFFF

/-- CRC-8, polynomial 0x07, initial value 0 (R351). -/
def crc8 (m : List Octet) : Nat := m.foldl (crcOctet 8 0x07) 0

/-- One bit of the reflected CRC-32. -/
def crc32Step (c : Nat) : Nat := if c % 2 = 1 then Nat.xor (c / 2) 0xEDB88320 else c / 2

/-- CRC-32 of R462: polynomial 0x04C1_1DB7, reflected, initial value and final XOR all ones. -/
def crc32 (m : List Octet) : Nat :=
  Nat.xor (m.foldl (fun c o => (List.range 8).foldl (fun c _ => crc32Step c) (Nat.xor c o.toNat)) 0xFFFFFFFF) 0xFFFFFFFF

end Sys2Proof.Machine
end

