-- ==== Sys2Proof/Machine/Access.lean ====
section
/-! DEFINITION. How a register field answers a load and takes a store, by its access code (R5 to R11, R353). -/
namespace Sys2Proof.Machine

/-- The seal is open: UNSEALED or OPEN (R338). -/
def State.sealOpen (s : State) : Bool := s.fld SACR.SEAL_STATE == 0 || s.fld SACR.SEAL_STATE == 2

/-- SL writes are stored while the seal is open and the log is not full (R8, R355). -/
def State.slStores (s : State) : Bool := s.sealOpen && !s.logFull

/-- The value a field takes from a write: none for a reserved code (R10), else held to the field's range (R11). -/
def storedVal (f : FieldSpec) (v : Nat) : Option Nat :=
  if f.reserved.elem v then none
  else if f.signed then some (codeOf (f.hi + 1 - f.lo) (clampInt f.rangeLo f.rangeHi (signedOf (f.hi + 1 - f.lo) v)))
  else some (clampInt f.rangeLo f.rangeHi v).toNat

/-- Store one field of the register at an address (R5). A field that only the choir writes keeps its value for the nave. A
W1C bit that hardware has set in the present cycle of its clock stays set (R6). -/
def State.storeField (s : State) (c : CoreId) (a : Nat) (val : Word) (f : FieldSpec) : State :=
  let v := bitsOf val f.hi f.lo
  let old := s.getReg a
  let take (s : State) : State :=
    match storedVal f v with
    | some x => s.putReg a (bitsPut old f.hi f.lo x)
    | none => s
  if f.choirOnly && decide (c = .nave) then s
  else match f.acc with
    | .ro => s
    | .rz => s
    | .rw => take s
    | .wo => take s
    | .w1c => s.putReg a (bitsPut old f.hi f.lo (bitsOf (old &&& ~~~(val &&& ~~~s.setNow a)) f.hi f.lo))
    | .sl => if s.slStores then take s else s

/-- Whether a register holds an SL field. -/
def hasSl (r : RegSpec) : Bool := r.fields.any (fun f => decide (f.acc = .sl))

/-- Store every field of a register (R5). An SL write is logged: SL_WRITE where it is stored in the state OPEN (R353),
SL_DENY while the seal is closed (R8). -/
def State.storeReg (s : State) (c : CoreId) (a : Nat) (val : Word) : State :=
  match regFind a with
  | some (r, _) =>
    let t := r.fields.foldl (fun s f => s.storeField c a val f) s
    if hasSl r then
      if !s.sealOpen then t.logEvent logSlDeny (BitVec.ofNat 32 a) 0
      else if s.slStores && s.fld SACR.SEAL_STATE == 2 then t.logEvent logSlWrite (BitVec.ofNat 32 a) val
      else t
    else t
  | none => s

/-- What a load returns of one field: nothing of a write-only one. -/
def loadField (w : Word) (acc : Word) (f : FieldSpec) : Word :=
  if f.acc = .wo then acc else bitsPut acc f.hi f.lo (bitsOf w f.hi f.lo)

/-- A load of a register: its readable fields; its RZ fields restart from 0 in the same step (R7). -/
def State.loadReg (s : State) (a : Nat) : State × Word :=
  match regFind a with
  | some (r, _) =>
    let w := s.getReg a
    let v := r.fields.foldl (fun acc f => loadField w acc f) 0
    let rz := r.fields.filter (fun f => decide (f.acc = .rz))
    let w' := rz.foldl (fun x f => bitsPut x f.hi f.lo 0) w
    (if rz.isEmpty then s else s.putReg a w', v)
  | none => (s, 0)

end Sys2Proof.Machine
end

