-- ==== Sys2Proof/Machine/Conduits.lean ====
section
/-! DEFINITION. What a conduit is at this moment: the path, conduit and table fields in effect for it (R279), its member paths,
and whether it is metered (R303). An SL write reaches the registers at once and a conduit at its next set close. -/
namespace Sys2Proof.Machine

/-- Rewrite the quantity island's fields. -/
def State.onQty (s : State) (f : Qty → Qty) : State := { s with qty := f s.qty }

/-- What the engine holds of a conduit. -/
def State.conduit (s : State) (k : Nat) : Conduit := tget (fun _ => Conduit.empty) s.qty.conduits k

/-- Replace it. -/
def State.setConduit (s : State) (k : Nat) (c : Conduit) : State :=
  s.onQty (fun q => { q with conduits := tput (fun _ => Conduit.empty) q.conduits k c })

/-- The paths that the registers make members of a conduit (R306). -/
def State.memberPaths (s : State) (k : Nat) : List Nat :=
  (List.range 128).filter (fun m => s.flag (QTY.PATHCFG_MEMBER m) && s.fld (QTY.PATHCFG_CD m) == k)

/-- What CDCFG.EN takes: 1 to 8 member paths, each with L and COS not 0 (R306). -/
def State.canMeter (s : State) (k : Nat) : Bool :=
  let l := s.memberPaths k
  decide (1 ≤ l.length ∧ l.length ≤ 8) && l.all (fun m => s.fld (QTY.PLEN_L m) != 0 && s.fld (QTY.PGEOM_COS m) != 0)

/-- The configuration of a conduit as the registers give it: what acts between two set closes. -/
def State.configured (s : State) (k : Nat) : CdCfg :=
  let lvl := s.fld (QTY.CDCFG_LVLPD k)
  { metered := s.flag (QTY.CDCFG_EN k)
    isOpen := s.flag (QTY.CDCFG_KIND k)
    guarded := s.flag (QTY.CDCFG_POLICY k)
    level := lvl
    hold := s.fld (QTY.PATHCFG_HOLD lvl)
    delay := s.fld (QTY.PDELAY_TAU lvl)
    mount := s.fld (QTY.LVLCFG_ZMOUNT k)
    members := (s.memberPaths k).map (fun m => (m, s.fld (QTY.PPROF_ELEV m))) }

/-- The configuration in effect for a conduit (R279): as its last set close took it. A conduit that is not metered has no set
that could close, and follows the registers (log entry 74). -/
def State.cdCfg (s : State) (k : Nat) : CdCfg := (s.conduit k).inEffect.getD (s.configured k)

/-- A set close, the enabling of a conduit or the ledger's restore: what the registers hold takes effect for it (R279). -/
def State.takeCfg (s : State) (k : Nat) : State :=
  let c := s.configured k
  s.setConduit k { s.conduit k with inEffect := if c.metered then some c else none }

/-- The member paths of a conduit. -/
def State.members (s : State) (k : Nat) : List Nat := (s.cdCfg k).members.map (fun e => e.1)

/-- A conduit is GUARDED (R303). -/
def State.guarded (s : State) (k : Nat) : Bool := (s.cdCfg k).metered && (s.cdCfg k).guarded

/-- A conduit is metered now (R303). -/
def State.metered (s : State) (k : Nat) : Bool :=
  (s.cdCfg k).metered && (!s.flag SYS.MODE_G || (s.cdCfg k).guarded)

/-- A descriptor serves a GUARDED conduit: as a member path, or as its level descriptor (R154, R303). -/
def State.servesGuarded (s : State) (m : Nat) : Bool :=
  (List.range 32).any (fun k =>
    let c := s.cdCfg k
    c.guarded && (c.members.any (fun e => e.1 == m) || (c.isOpen && c.level == m)))

end Sys2Proof.Machine
end

