-- ==== Sys2Proof/Machine/Xhf.lean ====
section
/-! DEFINITION. The holders of XHF (R429, R431). -/
namespace Sys2Proof.Machine

/-- An isle that is not OFF has a shot-set in progress or a waiting command. -/
def State.isleHolds (s : State) : Bool :=
  (List.range 16).any (fun n => s.fld (ISLE.STAT_LIFE n) != 0 && (s.flag (ISLE.STAT_BUSY n) || s.flag (ISLE.STAT_WAITING n)))

/-- A belfry port is not OFF. -/
def State.belfHolds (s : State) : Bool := (List.range 2).any (fun p => s.fld (BELF.PSTAT_LIFE p) != 0)

/-- A holder of XHF stands (R429). -/
def State.xhfHeld (s : State) : Bool := s.flag CRYPT.XHFREQ_CHOIR || s.isleHolds || s.belfHolds

/-- The holder flags of CLKSTAT follow the holders (R429). A first holder starts XHF, and a new one ends a given-up start
(R431): XHFON reads 1 from the start. Without a holder XHF lingers. -/
def State.xhfSync (s : State) : State :=
  let isle := s.isleHolds
  let belf := s.belfHolds
  let choir := s.flag CRYPT.XHFREQ_CHOIR
  let hi := s.flag CRYPT.CLKSTAT_HISLE
  let hb := s.flag CRYPT.CLKSTAT_HBELF
  let hc := s.flag CRYPT.CLKSTAT_HCHOIR
  let new := (isle && !hi) || (belf && !hb) || (choir && !hc)
  let start := (!hi && !hb && !hc && !s.flag CRYPT.CLKSTAT_XHFON) || (new && decide (s.crypt.xhfTries = 4))
  let s := ((s.setFlag CRYPT.CLKSTAT_HISLE isle).setFlag CRYPT.CLKSTAT_HBELF belf).setFlag CRYPT.CLKSTAT_HCHOIR choir
  if isle || belf || choir then
    let s := s.onCrypt (fun c => { c with xhfLinger := false, xhfTries := if start then 0 else c.xhfTries })
    if start then s.setFlag CRYPT.CLKSTAT_XHFON true else s
  else if s.flag CRYPT.CLKSTAT_XHFON then s.onCrypt (fun c => { c with xhfLinger := true })
  else s

end Sys2Proof.Machine
end

