-- ==== Sys2Proof/Machine/Isles.lean ====
section
/-! DEFINITION. The acoustic isles: commands, shots, windows, records, leashed loops, and RTD conversions
(R151 to R154, R178 to R206, R244 to R253, R257, R258, R266, R267, R430, R477). -/
namespace Sys2Proof.Machine

/-- What an isle holds beside its registers. -/
def State.isle (s : State) (n : Nat) : Isle := tget (fun _ => Isle.empty) s.isles.isle n

/-- Rewrite the isles' fields. -/
def State.onIsles (s : State) (f : Isles → Isles) : State := { s with isles := f s.isles }

/-- Replace what an isle holds. -/
def State.setIsle (s : State) (n : Nat) (x : Isle) : State :=
  s.onIsles (fun k => { k with isle := tput (fun _ => Isle.empty) k.isle n x })

/-- Replace the shot-set of an isle. -/
def State.setCur (s : State) (n : Nat) (x : ShotSet) : State := s.setIsle n { s.isle n with cur := some x }

/-- The twin of an isle (R184). -/
def twinOf (n : Nat) : Nat := if n % 2 = 0 then n + 1 else n - 1

/-- The island of an isle by number. -/
def isleIsland (n : Nat) : Island := .isle (Fin.ofNat 16 n)

/-- The island of a bank by number. -/
def bankIsland (b : Nat) : Island := .bank (Fin.ofNat 4 b)

/-- STAT.BUSY, WAITING and DCO follow what the isle holds (R205, R430). -/
def State.isleSync (s : State) (n : Nat) : State :=
  let k := s.isle n
  let claimed := s.flag (ISLE.STAT_CLAIMED n)
  let busy := k.cur.isSome || (!claimed && !k.cmds.isEmpty)
  let waiting := if k.cur.isSome || claimed then !k.cmds.isEmpty else decide (2 ≤ k.cmds.length)
  let dco := k.cur.isSome || claimed || (s.flag (ISLE.STAT_DCO n) && !k.cmds.isEmpty)
  (((s.setFlag (ISLE.STAT_BUSY n) busy).setFlag (ISLE.STAT_WAITING n) waiting).setFlag (ISLE.STAT_DCO n) dco).xhfSync

/-! ### Records (R154, R204, R257, R258) -/

/-- Reasons of R256, with those of R154 and R204. -/
def reasonNone : Nat := 0x00
def reasonNoverdict : Nat := 0x21
def reasonRtdopen : Nat := 0x30
def reasonRtdshort : Nat := 0x31
def reasonNocap : Nat := 0x32
def reasonCapshort : Nat := 0x33
def reasonOpen : Nat := 0xD0
def reasonShort : Nat := 0xD1
def reasonNovpul : Nat := 0xD2
def reasonExwait : Nat := 0xD3
def reasonPairabort : Nat := 0xD4
def reasonXhflost : Nat := 0xD5
def reasonIsleoff : Nat := 0xE0
def reasonBusy : Nat := 0xE1
def reasonNolease : Nat := 0xE2
def reasonPdoff : Nat := 0xE3
def reasonGuarded : Nat := 0xE4
def reasonTwinoff : Nat := 0xE5

/-- Verdicts of R256. -/
def verdictConfirm : Nat := 0
def verdictRetract : Nat := 1
def verdictFail : Nat := 2
def verdictHeld : Nat := 3

/-- Flags of R258. -/
def flagOpen : Nat := 0x010
def flagShort : Nat := 0x020
def flagPartner : Nat := 0x080

/-- A provisional record word: V = P = 1 (R257). -/
def provWord (v : Nat) : Word := BitVec.ofNat 32 (0x90000000 + v % 2 ^ 28)

/-- Word 5: V = E = 1 (R257). -/
def verdictWord (verdict reason : Nat) : Word := BitVec.ofNat 32 (0xC0000000 + verdict * 2 ^ 24 + reason * 2 ^ 16)

/-- Word 0: isle, transmit and receive port, kind, sequence. -/
def headerWord (n tx rx kind seq : Nat) : Nat := n * 2 ^ 24 + tx * 2 ^ 17 + rx * 2 ^ 10 + kind * 2 ^ 8 + seq

/-- Fields of a PDCTL word. -/
def ctlKind (w : Word) : Nat := bitsOf w 30 29
def ctlPortA (w : Word) : Nat := bitsOf w 22 16
def ctlPortB (w : Word) : Nat := bitsOf w 14 8
def ctlExg (w : Word) : Nat := bitsOf w 7 4

/-- Direction and sequence of a shot of a command (R152, R183). -/
def shotDir (c : ShotCmd) (kind : Nat) (second : Bool) : Bool := if second && decide (kind = 0) then !c.dir else c.dir
def shotSeq (c : ShotCmd) (second : Bool) : Nat := (c.seq + natOfBool second) % 256

/-- Transmit and receive port of a shot. -/
def shotPorts (ctl : Word) (dir : Bool) : Nat × Nat :=
  if ctlKind ctl = 0 then
    if dir then (ctlPortB ctl, ctlPortA ctl) else (ctlPortA ctl, ctlPortB ctl)
  else (ctlPortA ctl, ctlPortA ctl)

/-- Word 0 of a shot of a command. -/
def shotHeader (n : Nat) (ctl : Word) (c : ShotCmd) (second : Bool) : Nat :=
  let p := shotPorts ctl (shotDir c (ctlKind ctl) second)
  headerWord n p.1 p.2 (ctlKind ctl) (shotSeq c second)

/-- A record that the isle writes whole, with verdict FAIL (R154, R204). -/
def failRecord (header gain flags time reason : Nat) : List Word :=
  [provWord header, provWord 0, provWord 0, provWord (gain * 2 ^ 20 + flags), provWord time, verdictWord verdictFail reason]

/-- Queue a record of an isle. -/
def State.emit (s : State) (n : Nat) (r : OutRecord) : State :=
  let k := s.isle n
  s.setIsle n { k with outbox := k.outbox ++ [r] }

/-- Refuse a command: a FAIL record for each of its shots (R154). -/
def State.refuseShots (s : State) (n : Nat) (ctl : Word) (c : ShotCmd) (reason : Nat) : State :=
  let one (s : State) (second : Bool) : State :=
    s.emit n ⟨failRecord (shotHeader n ctl c second) 0 0 s.stamp reason, none, .nothing⟩
  let s := one s false
  if c.pair then one s true else s

/-- Refuse every latched command of an isle with ISLEOFF (R205). -/
def State.refuseLatched (s : State) (n : Nat) : State :=
  let k := s.isle n
  let s := s.setIsle n { k with cmds := [] }
  s.each k.cmds (fun s c => s.refuseShots n (s.getReg (ISLE0.PDCTL c.pd)) c reasonIsleoff)

/-- A falling isle without a set in progress and without a claim refuses what waits (R205). -/
def State.fallRefuse (s : State) (n : Nat) : State :=
  if s.fld (ISLE.STAT_LIFE n) ≠ 2 ∧ (s.isle n).cur = none ∧ s.flag (ISLE.STAT_CLAIMED n) = false then s.refuseLatched n else s

/-! ### Banks of an isle (R237, R239, R241) -/

/-- A bank is held by an isle. -/
def State.bankHeld (s : State) (b n : Nat) : Bool :=
  s.fld (CIM.LEASE_HOLDER b) == 2 && bitAt (s.fld (CIM.LEASE_ISLES b)) n

/-- A command may use the bank: ON, and no TAKE waits. -/
def State.bankUsable (s : State) (b n : Nat) : Bool :=
  s.bankHeld b n && s.fld (CIM.STAT_LIFE b) == 2 && !s.flag (CIM.LEASE_PEND b)

/-- The bank of an isle: the lowest it may use. -/
def State.bankOf (s : State) (n : Nat) : Option Nat := (List.range 4).find? (fun b => s.bankUsable b n)

/-- The sample strait to a bank is OPEN (R241). -/
def State.sampleOpen (s : State) (b n : Nat) : Bool :=
  s.bankHeld b n && (s.fld (CIM.STAT_LIFE b) == 2 || s.fld (CIM.STAT_LIFE b) == 3)

/-! ### Leashed settings (R193 to R196) -/

/-- A value held between two limits; where the limits are crossed the spec states no result, and a value up to top is free. -/
def State.limit (s : State) (top lo hi : Nat) (x : Int) : Nat :=
  if lo ≤ hi then (clampInt lo hi x).toNat else (Config.value s.free).toNat % (top + 1)

/-- Limits of the gain code under the leash of a descriptor, from PDCTL and PDGAIN. -/
def gainLimits (ctl gains : Word) : Nat × Nat :=
  match bitsOf ctl 25 24 with
  | 1 => (bitsOf gains 15 8, bitsOf gains 23 16)
  | 2 => (bitsOf gains 7 0, bitsOf gains 7 0)
  | _ => (0, 132)

/-- round(40 × log10(a / b)), held to 0 to top: the count of steps j with (a/b)^80 ≥ 10^(2j−1). -/
def log40 (a b top : Nat) : Nat := ((natsFrom 1 top).filter (fun j => decide (b ^ 80 * 10 ^ (2 * j - 1) ≤ a ^ 80))).length

/-- The AGC's change in gain code (R194). -/
def agcStep (peak : Nat) (clip : Bool) : Int :=
  if clip then -12
  else if 1843 < peak then -6
  else if 512 ≤ peak then 0
  else log40 1024 (max peak 1) 12

/-- SNR of word 3 (R257). -/
def snrCode (peak noise : Nat) : Nat := if peak ≤ max noise 1 then 0 else log40 peak (max noise 1) 255

/-- WORK that the first 32 samples are gated at (R193, R195). -/
def State.gateStart (s : State) (n : Nat) : Nat :=
  let w := s.fld (ISLE.GATESTAT_WORK n)
  match s.fld (ISLE.GATECFG_LEASH n) with
  | 1 => s.limit 255 (s.fld (ISLE.GATECFG_MIN n)) (s.fld (ISLE.GATECFG_MAX n)) w
  | 2 => s.fld (ISLE.GATECFG_SET n)
  | _ => w

/-- WORK for the rest of a window from its noise (R195). -/
def State.gateWork (s : State) (n noise : Nat) : Nat :=
  let w := (3 * noise + 7) / 8
  match s.fld (ISLE.GATECFG_LEASH n) with
  | 1 => s.limit 255 (s.fld (ISLE.GATECFG_MIN n)) (s.fld (ISLE.GATECFG_MAX n)) w
  | 2 => s.fld (ISLE.GATECFG_SET n)
  | _ => min 255 (max 1 w)

/-- The gate level that the leash allows, in LSB (R196). -/
def State.gateAllowed (s : State) (n : Nat) : Nat :=
  match s.fld (ISLE.GATECFG_LEASH n) with
  | 1 => 8 * s.fld (ISLE.GATECFG_MAX n)
  | 2 => 8 * s.fld (ISLE.GATECFG_SET n)
  | _ => 2040

/-- A sample as the digitiser gives it: an input beyond ±2,047 gives ±2,047 (R191). -/
def sampleValue (x : Sample) : Int := clampInt (-2047) 2047 x.value.toInt

/-- Whether a sample is marked CLIP (R191). -/
def sampleClips (x : Sample) : Bool := x.clip || decide (x.value.toInt < -2047)

/-- Whole square root. -/
def isqrt (x : Nat) : Nat := (List.range 2049).foldl (fun best r => if r * r ≤ x then r else best) 0

/-- The rms of samples in whole LSB: one of the two neighbours of the exact value. -/
def State.rms (s : State) (l : List Sample) : Nat :=
  let sum := (l.map (fun x => (sampleValue x * sampleValue x).toNat)).sum
  let n := max l.length 1
  let r := isqrt (sum / n)
  if r * r * n = sum then r else if Config.roundUp s.free then min 2047 (r + 1) else r

/-! ### Shot-sets: faults and ends -/

/-- Fault of an isle: PD, choir event 9 (R204). -/
def State.isleFault (s : State) (n pd : Nat) (bit : Option Fld) : State :=
  let s := match bit with | some f => s.setFlag f true | none => s
  (s.setFld (ISLE.FAULTS_PD n) pd).raiseEvent (isleIsland n) .choir 9

/-- Streams of a bank. -/
def State.streams (s : State) (b : Nat) : List Stream := tget (fun _ => []) s.cim.streams b

/-- Replace the streams of a bank; LOADING and WAITDG follow (R232). -/
def State.setStreams (s : State) (b : Nat) (l : List Stream) : State :=
  let s := { s with cim := { s.cim with streams := tput (fun _ => []) s.cim.streams b l } }
  let loading := l.any (fun x => decide (x.count < x.len))
  let wait := (l.filter (fun x => decide (x.len ≤ x.count) && x.digital.isNone && x.reason.isNone)).length
  (s.setFlag (CIM.STAT_LOADING b) loading).setFld (CIM.STAT_WAITDG b) (min 4 wait)

/-- Drop the stream words of an isle from the wires; words of summaries stay. -/
def dropStreamWires (src : Island) : Bool → List Wire → List Wire
  | _, [] => []
  | inPair, x :: rest =>
    if x.src = src ∧ x.tag = tagSample then dropStreamWires src inPair rest
    else if x.src = src ∧ x.tag = tagWaddr ∧ x.word.toNat < 2 then dropStreamWires src true rest
    else if x.src = src ∧ x.tag = tagWdata ∧ inPair then dropStreamWires src false rest
    else x :: dropStreamWires src inPair rest

/-- A shot that ends before its window closed abandons its stream. -/
def State.abandon (s : State) (src shot : Nat) : State :=
  let open_ (e : Nat × Option WriteAddr) : Bool :=
    match e.2 with
    | some (.good a) => (List.range 4).any (fun b => decide (e.1 = straitKey (isleIsland src) (bankIsland b))) && decide (a.toNat < 2)
    | some (.damaged a) => (List.range 4).any (fun b => decide (e.1 = straitKey (isleIsland src) (bankIsland b))) && decide (a.toNat < 2)
    | none => false
  let s := { s with
    wires := dropStreamWires (isleIsland src) (s.waddr.any open_) s.wires
    waddr := s.waddr.filter (fun e => !open_ e) }
  let s := s.onIsles (fun k => { k with sent := tput (fun _ => []) k.sent src ((tget (fun _ => []) k.sent src).filter (fun i => decide (i ≠ shot))) })
  s.each (List.range 4) (fun s b =>
    s.setStreams b ((s.streams b).filter (fun x => !(decide (x.src = src) && decide (x.shot = shot)))))

/-- The token of a set: its last window has closed, or the set is over. It falls back HOLD µs later; a token that no burst has
used yet is free at once (R198). -/
def State.tokenDone (s : State) (n : Nat) : State :=
  s.onIsles (fun k => { k with tokens := k.tokens.filterMap (fun e =>
    match e.2 with
    | some (h, .held) => some (if h = n then (e.1, some (h, .ended)) else e)
    | some (h, .granted) => if h = n then none else some e
    | _ => some e) })

/-- Withdraw an isle's token request (R199). -/
def State.withdraw (s : State) (n : Nat) : State :=
  s.onIsles (fun k => { k with requests := k.requests.filter (fun r => decide (r.2 ≠ n)) })

/-- The isle cannot complete a shot: its FAIL record, PAIRABORT for a second shot not fired, and the end of the set (R204). Its claims
and its token request are withdrawn (R198, R199). -/
def State.failShot (s : State) (n : Nat) (x : ShotSet) (reason flags second secondFlags : Nat) : State :=
  let kind := ctlKind x.ctl
  let gain := if kind < 2 then x.gain else 0
  let both := x.cmd.pair && !x.second
  let s := if x.phase = .window then
    s.abandon ((shotPorts x.ctl (shotDir x.cmd kind x.second)).2 / 8) x.shot else s
  let s := s.emit n ⟨failRecord (shotHeader n x.ctl x.cmd x.second) gain flags s.stamp reason, none,
    if both then .nothing else .endSet⟩
  let s := if both then
    s.emit n ⟨failRecord (shotHeader n x.ctl x.cmd true) gain secondFlags s.stamp second, none, .endSet⟩ else s
  ((s.setCur n { x with phase := .written, claimWait := false, tokenWait := false }).withdraw n).tokenDone n

/-- A failure after which a second shot carries PAIRABORT. -/
def State.failPair (s : State) (n : Nat) (x : ShotSet) (reason flags : Nat) : State :=
  s.failShot n x reason flags reasonPairabort flagPartner

/-- A claim of an isle on its twin ends (R184). -/
def State.unclaim (s : State) (n : Nat) : State :=
  let t := twinOf n
  ((s.setFlag (ISLE.STAT_CLAIMED t) false).fallRefuse t).isleSync t

/-- The AGC adjusts WGAIN once after a set with a window (R194). -/
def State.agc (s : State) (x : ShotSet) : State :=
  match x.setPeak with
  | some p =>
    if ctlKind x.ctl < 2 ∧ bitsOf x.ctl 25 24 ≠ 2 then
      let lim := gainLimits x.ctl x.gains
      s.setFld (ISLE0.PDGAIN_WGAIN x.cmd.pd) (s.limit 132 lim.1 lim.2 (s.fld (ISLE0.PDGAIN_WGAIN x.cmd.pd) + agcStep p x.setClip))
    else s
  | none => s

/-- The shot-set has written its last words (R153, R179, R184, R194, R205). -/
def State.endSet (s : State) (n : Nat) : State :=
  match (s.isle n).cur with
  | none => s
  | some x =>
    let s := (((s.agc x).spend).tokenDone n).withdraw n
    let k := s.isle n
    let s := match k.modes with
      | some w => s.setFld (ISLE.PORTMODE_MODES n) (bitsOf w 15 0)
      | none => s
    let s := s.setIsle n { k with cur := none, modes := none }
    let twin := ctlKind x.ctl = 0 && decide (ctlPortB x.ctl / 8 = twinOf n) && !x.claimWait
    let s := if twin then s.unclaim n else s
    (s.fallRefuse n).isleSync n

/-- The second shot of a set begins its lead (R152). -/
def State.nextShot (s : State) (n : Nat) : State :=
  let k := s.isle n
  match k.cur with
  | some x =>
    s.setIsle n { k with
      cur := some { x with second := true, phase := .lead, centred := false, drvsub := false, time := s.stamp,
                           window := Window.empty, shot := k.next }
      next := k.next + 1 }
  | none => s

/-- Send an item of the sample strait: a WADDR word, then a WDATA word (R217, R250). -/
def State.sendItem (s : State) (n b addr : Nat) (w : Word) : State :=
  (s.send (isleIsland n) (bankIsland b) tagWaddr (BitVec.ofNat 32 addr)).send (isleIsland n) (bankIsland b) tagWdata w

/-- Write the records that may be written: none while a verdict is outstanding (R250, R251). -/
def State.flush (s : State) (n : Nat) : Nat → State
  | 0 => s
  | fuel + 1 =>
    let k := s.isle n
    match k.outbox, k.awaits with
    | r :: rest, none =>
      let s := s.setIsle n { k with outbox := rest }
      let s := s.sendQueue (isleIsland n) (s.fld (ISLE.RQUEUE_QUEUE n)) r.words
      let s := match r.summary with
        | some (bank, w, shot) =>
          let s := s.setIsle n { s.isle n with awaits := some shot }
          match bank with
          | some b => if s.sampleOpen b n then s.sendItem n b 2 w else s
          | none => s
        | none => s
      let s := match r.after with
        | .nothing => s
        | .nextShot => s.nextShot n
        | .endSet => s.endSet n
      s.flush n fuel
    | _, _ => s

/-- Write what an isle and its twin may write now. -/
def State.isleRun (s : State) (n : Nat) : State := ((s.flush n 64).flush (twinOf n) 64).isleSync n

/-! ### Commands (R151 to R154, R182, R184, R430) -/

/-- The model's own layout of a command word. -/
def cmdWord (c : ShotCmd) : Word :=
  BitVec.ofNat 32 (c.pd % 128 + 2 ^ 8 * (c.seq % 256) + 2 ^ 16 * natOfBool c.dir + 2 ^ 17 * natOfBool c.pair)

/-- The command of a word. -/
def cmdOfWord (w : Word) : ShotCmd := ⟨bitsOf w 6 0, bitsOf w 15 8, bitsOf w 16 16 == 1, bitsOf w 17 17 == 1⟩

/-- A command word arrives: latched, or refused (R153, R154, R184, R430). -/
def State.recvShot (s : State) (n : Nat) (c : ShotCmd) : State :=
  let k := s.isle n
  let ctl := s.getReg (ISLE0.PDCTL c.pd)
  if s.fld (ISLE.STAT_LIFE n) ≠ 2 then (s.refuseShots n ctl c reasonIsleoff).isleRun n
  else
    let room := if k.cur.isSome || s.flag (ISLE.STAT_CLAIMED n) then 1 else 2
    if room ≤ k.cmds.length then (s.refuseShots n ctl c reasonBusy).isleRun n
    else (s.setIsle n { k with cmds := k.cmds ++ [c] }).isleSync n

/-- Mode of a TP port (R178). -/
def State.portMode (s : State) (p : Nat) : Nat := s.fld (ISLE.PORTMODE_MODES (p / 8)) / 4 ^ (p % 8) % 4

/-- Why a command cannot start, if it cannot (R154, R182, R184, R239, R241, R445). -/
def State.startRefusal (s : State) (n : Nat) (c : ShotCmd) : Option Nat :=
  let ctl := s.getReg (ISLE0.PDCTL c.pd)
  let kind := ctlKind ctl
  let need := match kind with | 0 => 1 | 1 => 2 | _ => 3
  let portsOk := s.portMode (ctlPortA ctl) == need && (kind != 0 || s.portMode (ctlPortB ctl) == need)
  let tw := ctlPortB ctl / 8
  if kind < 2 ∧ s.bankOf n = none then some reasonNolease
  else if bitsOf ctl 31 31 = 0 ∨ ctlPortA ctl / 8 ≠ n ∨ portsOk = false then some reasonPdoff
  else if s.flag SYS.MODE_G ∧ s.servesGuarded c.pd = false then some reasonGuarded
  else if kind = 0 ∧ tw = twinOf n ∧ (s.fld (ISLE.STAT_LIFE tw) = 0 ∨ s.fld (ISLE.STAT_LIFE tw) = 3) then some reasonTwinoff
  else none

/-- ISLE_COMMAND_START (R182): the oldest latched command starts: its copy of the descriptor, its lead, its requests. -/
def execIsleCommandStart (n : Fin 16) (s : State) : Out :=
  let k := s.isle n
  let twinAsks := match (s.isle (twinOf n)).cur with | some x => x.claimWait | none => false
  .next (match k.cmds with
  | c :: rest =>
    if s.fld (ISLE.STAT_LIFE n) = 2 ∧ k.cur = none ∧ s.flag (ISLE.STAT_CLAIMED n) = false ∧ twinAsks = false ∧
        s.flag CRYPT.CLKSTAT_XHFOK = true then
      let ctl := s.getReg (ISLE0.PDCTL c.pd)
      let t := s.setIsle n { k with cmds := rest }
      match s.startRefusal n c with
      | some r => (t.refuseShots n ctl c r).isleRun n
      | none =>
        let kind := ctlKind ctl
        let gains := s.getReg (ISLE0.PDGAIN c.pd)
        let lim := gainLimits ctl gains
        let gain := if kind < 2 then t.limit 132 lim.1 lim.2 (t.fld (ISLE0.PDGAIN_WGAIN c.pd)) else 0
        let t := if kind < 2 then (t.setFld (ISLE0.PDGAIN_WGAIN c.pd) gain).spend else t
        let group := if kind < 2 then ctlExg ctl else 0
        let twin := decide (kind = 0) && decide (ctlPortB ctl / 8 = twinOf n)
        let x : ShotSet :=
          { cmd := c, ctl := ctl, burst := s.getReg (ISLE0.PDBURST c.pd), win := s.getReg (ISLE0.PDWIN c.pd),
            gains := gains, gain := gain, bank := s.bankOf n, second := false, phase := .lead,
            tokenWait := decide (group ≠ 0), claimWait := twin, delayed := false, drvsub := false, time := s.stamp,
            arrival := none, centred := false, window := Window.empty, shot := k.next, setPeak := none, setClip := false }
        let t := if group = 0 then t else t.onIsles (fun i => { i with requests := i.requests ++ [(group, n.val)] })
        ((t.setIsle n { t.isle n with cur := some x, next := k.next + 1 }).setFlag (ISLE.STAT_DCO n) true).isleSync n
    else s
  | [] => s)

/-- Count a set as delayed, once (R199). -/
def State.countDelay (s : State) (n : Nat) (x : ShotSet) (late : Bool) : State :=
  if late && !x.delayed then (s.bump ISLE0.EXSTAT_DELAYS 1).setCur n { x with delayed := true } else s

/-- Whether the 4 µs lead of a set is over: certainly once a whole tick has passed, else a free value (R199, R477). -/
def State.leadOver (s : State) (x : ShotSet) : Bool :=
  decide (2 ≤ (s.stamp + 2 ^ 28 - x.time) % 2 ^ 28) || Config.leadOver s.free

/-- TWIN_CLAIM_GRANT (R184): isle n grants its twin's claim; late: the lead was over. -/
def execTwinClaimGrant (n : Fin 16) (late : Bool) (s : State) : Out :=
  let l := twinOf n
  .next (match (s.isle l).cur with
  | some x =>
    if x.claimWait ∧ x.phase = .lead ∧ s.fld (ISLE.STAT_LIFE n) = 2 ∧ (s.isle n).cur = none ∧ s.flag (ISLE.STAT_CLAIMED n) = false then
      let s := (s.setCur l { x with claimWait := false }).countDelay l { x with claimWait := false } late
      (s.setFlag (ISLE.STAT_CLAIMED n) true).isleSync n
    else s
  | none => s)

/-- A set holds its token from its first burst start (R198). -/
def TokenUse.holds : TokenUse → Bool
  | .granted => false
  | _ => true

/-- Show the held groups in EXSTAT.BUSY. -/
def State.tokenSync (s : State) : State :=
  s.setFld ISLE0.EXSTAT_BUSY (((s.isles.tokens.filter (fun e => match e.2 with | some (_, u) => u.holds | none => false)).map
    (fun e => 2 ^ (e.1 - 1))).sum)

/-- The first burst of a set starts: it holds its token (R198). -/
def State.tokenHeld (s : State) (n : Nat) : State :=
  (s.onIsles (fun k => { k with tokens := k.tokens.map (fun e =>
    match e.2 with
    | some (h, .granted) => if h = n then (e.1, some (h, .held)) else e
    | _ => e) })).tokenSync

/-- EXCLUSION_GRANT (R198): the token of group g is granted to the earliest request. -/
def execExclusionGrant (g : Fin 16) (late : Bool) (s : State) : Out :=
  .next (match tget (fun _ => none) s.isles.tokens g.val, s.isles.requests.find? (fun r => decide (r.1 = g.val)) with
  | none, some (_, n) =>
    let s := (s.withdraw n).onIsles (fun k => { k with tokens := tput (fun _ => none) k.tokens g.val (some (n, .granted)) })
    match (s.isle n).cur with
    | some x => (s.setCur n { x with tokenWait := false }).countDelay n { x with tokenWait := false } late
    | none => s
  | _, _ => s)

/-- EXCLUSION_RELEASE (R198): HOLD µs after the last window of the holder's set. -/
def execExclusionRelease (g : Fin 16) (s : State) : Out :=
  .next (match tget (fun _ => none) s.isles.tokens g.val with
  | some (_, .ended) => (s.onIsles (fun k => { k with tokens := tput (fun _ => none) k.tokens g.val none })).tokenSync
  | _ => s)

/-- EXWAIT (R199): MAXWAIT passes before the grant or the claim. -/
def execExwait (n : Fin 16) (s : State) : Out :=
  .next (match (s.isle n).cur with
  | some x =>
    if x.phase = .lead ∧ (x.tokenWait ∨ x.claimWait) then
      let s := s.countDelay n x true
      let s := s.failShot n { x with delayed := true } reasonExwait 0 reasonExwait 0
      (s.isleFault n x.cmd.pd (some (ISLE.FAULTS_EXWAIT n))).isleRun n
    else s
  | none => s)

/-! ### Bursts (R185 to R188, R201 to R203) -/

/-- Ports of the shot under way. -/
def shotTx (x : ShotSet) : Nat := (shotPorts x.ctl (shotDir x.cmd (ctlKind x.ctl) x.second)).1
def shotRx (x : ShotSet) : Nat := (shotPorts x.ctl (shotDir x.cmd (ctlKind x.ctl) x.second)).2

/-- BURST_START (R185, R187, R201, R203): the burst starts, unless VPUL or the lead's capacitance ends the shot. -/
def execBurstStart (n : Fin 16) (clast : Nat) (s : State) : Out :=
  .next (match (s.isle n).cur with
  | some x =>
    let twin := decide (ctlPortB x.ctl / 8 = twinOf n) && decide (ctlKind x.ctl = 0)
    let recov := s.flag (ISLE.STAT_RECOV n) || (twin && s.flag (ISLE.STAT_RECOV (twinOf n)))
    if x.phase = .lead ∧ ctlKind x.ctl < 2 ∧ x.tokenWait = false ∧ x.claimWait = false ∧ recov = false ∧
        s.flag CRYPT.CLKSTAT_XHFOK = true then
      let vpul := bitsOf x.ctl 28 28 == 1
      let ok := s.flag CRYPT.VPULSTAT_OK
      let x := { x with time := s.stamp, drvsub := vpul && !ok }
      if vpul && !ok && bitsOf x.ctl 27 27 == 1 then
        ((s.failPair n x reasonNovpul 0).isleFault n x.cmd.pd (some (ISLE.FAULTS_NOVPUL n))).isleRun n
      else
        let t := shotTx x / 8
        let c := min clast 0xFFFF
        let s := s.setFld (ISLE.SENSE_CLAST t) c
        if c < s.fld (ISLE.SENSE_OPENC t) then
          ((s.failPair n x reasonOpen flagOpen).isleFault n x.cmd.pd (some (ISLE.FAULTS_OPEN n))).isleRun n
        else (s.setCur n { x with phase := .burst }).tokenHeld n
    else s
  | none => s)

/-- SHORT (R202): during the burst or the damping pulses. -/
def execShort (n : Fin 16) (s : State) : Out :=
  .next (match (s.isle n).cur with
  | some x =>
    if x.phase = .burst ∨ (x.phase = .clamp ∧ 0 < bitsOf x.burst 21 18) then
      ((s.failPair n x reasonShort flagShort).isleFault n x.cmd.pd (some (ISLE.FAULTS_SHORT n))).isleRun n
    else s
  | none => s)

/-- Move the set of an isle from one phase to the next. -/
def State.phaseStep (s : State) (n : Nat) (p q : Phase) : State :=
  match (s.isle n).cur with
  | some x => if x.phase = p then s.setCur n { x with phase := q } else s
  | none => s

/-- BURST_END (R188). -/
def execBurstEnd (n : Fin 16) (s : State) : Out := .next (s.phaseStep n .burst .clamp)

/-- CLAMP_END (R188). -/
def execClampEnd (n : Fin 16) (s : State) : Out := .next (s.phaseStep n .clamp .listen)

/-! ### Windows (R189 to R191, R195, R200, R217, R246) -/

/-- Samples of a window (R190). -/
def windowLen (x : ShotSet) : Nat := 64 * 2 ^ bitsOf x.win 29 27

/-- DCO ticks between samples (R190). -/
def sampleTicks (x : ShotSet) : Nat := 25 * 2 ^ bitsOf x.win 26 24

/-- Window opening in DCO ticks after burst start (R189, R253). -/
def windowOpens (x : ShotSet) : Nat :=
  let half := bitsOf x.burst 12 0
  let clampEnd := (bitsOf x.burst 17 13 + 1 + bitsOf x.burst 21 18) * 2 * half + 800 * bitsOf x.burst 29 22
  let expect := match x.second, x.arrival with
    | true, some a => a
    | _, _ => bitsOf x.win 23 0
  max (8 * expect - windowLen x / 2 * sampleTicks x) (clampEnd + 1600)

/-- The two samples of a SAMPLE word (R27); a sample is held to ±2,047 (R191). -/
def sampleWord (a b : Sample) : Word :=
  let code (x : Sample) : Nat := codeOf 12 (sampleValue x)
  BitVec.ofNat 32 (code a + 2 ^ 12 * code b + 2 ^ 24 * natOfBool (sampleClips a || sampleClips b))

/-- SAMPLE words of samples, two to a word. -/
def sampleWords : List Sample → List Word
  | a :: b :: rest => sampleWord a b :: sampleWords rest
  | _ => []

/-- Magnitudes of samples. -/
def magnitudes (l : List Sample) : List Nat := l.map (fun x => (sampleValue x).natAbs)

/-- Largest magnitude of samples. -/
def peakOf (l : List Sample) : Nat := (magnitudes l).foldl max 0

/-- Any sample is marked CLIP. -/
def clipped (l : List Sample) : Bool := l.any sampleClips

/-- The overloads of some samples (R200): those that the operand names by a source code of the table; samples at the ends of
the digitiser's range that none of them explains are one overload of the ADC. -/
def overloadsOf (l : List Sample) (o : List (BitVec 3)) : List Nat :=
  let named := (o.map (fun b => b.toNat)).filter (fun k => decide (1 ≤ k ∧ k ≤ 3))
  if named.isEmpty && clipped l then [1] else named

/-- An overload of a receive chain (R200, R201). -/
def State.overload (s : State) (x : ShotSet) (src : Nat) : State :=
  let r := shotRx x / 8
  let s := ((s.bump (ISLE.OVLD_COUNT r) 1).setFld (ISLE.OVLD_SOURCE r) src).setFld (ISLE.OVLD_PORT r) (shotRx x)
  if 2 ≤ src then s.setFlag (ISLE.STAT_RECOV r) true else s

/-- Overloads in their order. -/
def State.overloads (s : State) (x : ShotSet) (l : List Nat) : State := s.each l (fun s k => s.overload x k)

/-- WINDOW_OPEN (R189, R195, R217): the first 32 samples, between the stream header and the gate update. -/
def execWindowOpen (n : Fin 16) (first : List Sample) (o : List (BitVec 3)) (s : State) : Out :=
  .next (match (s.isle n).cur with
  | some x =>
    if x.phase = .listen ∧ first.length = 32 then
      let r := shotRx x / 8
      let g0 := s.gateStart r
      let noise := s.rms first
      let s := s.spend
      let g1 := s.gateWork r noise
      let s := s.spend
      let s := (s.setFld (ISLE.GATESTAT_NOISE r) noise).setFld (ISLE.GATESTAT_WORK r) g1
      let overs := overloadsOf first o
      let s := s.overloads x overs
      let streamed := match x.bank with | some b => s.sampleOpen b n | none => false
      let w : Window :=
        { opens := windowOpens x, gate0 := 8 * g0, gate1 := 8 * g1, noise := noise, clip := clipped first || !overs.isEmpty,
          peak := peakOf first, mags := magnitudes first, crossings := [], streamed := streamed }
      let s := s.setCur n { x with phase := .window, window := w, centred := x.second && x.arrival.isSome }
      match x.bank, streamed with
      | some b, true =>
        let s := s.onIsles (fun k => { k with sent := tput (fun _ => []) k.sent r (tget (fun _ => []) k.sent r ++ [x.shot]) })
        let s := s.sendItem r b 0 (BitVec.ofNat 32 (8 * g0 % 2048 + 2 ^ 12 * bitsOf x.win 29 27))
        let s := s.sendAll (isleIsland r) (bankIsland b) tagSample (sampleWords first)
        s.sendItem r b 1 (BitVec.ofNat 32 (8 * g1 % 2048))
      | _, _ => s
    else s
  | none => s)

/-- Gate level in force at a time after burst start, in LSB (R246). -/
def gateAt (x : ShotSet) (t : Nat) : Nat :=
  if t < 128 * (x.window.opens + 32 * sampleTicks x) then x.window.gate0 else x.window.gate1

/-- Time of sample i in 1/128 DCO ticks after burst start; a window's last half-wave ends at that of the sample beyond it. -/
def sampleTaps (x : ShotSet) (i : Nat) : Nat := 128 * (x.window.opens + i * sampleTicks x)

/-- Largest sample magnitude between two times (R246). -/
def peakBetween (x : ShotSet) (mags : List Nat) (t u : Nat) : Nat :=
  ((mags.zipIdx.filter (fun m => decide (t ≤ sampleTaps x m.2 ∧ sampleTaps x m.2 < u))).map (fun m => m.1)).foldl max 0

/-- The crossings of a window, each with the peak of the half-wave that it begins (R246). -/
def halfWaves (x : ShotSet) (mags : List Nat) : List Nat → List (Nat × Nat)
  | [] => []
  | [t] => [(t, peakBetween x mags t (sampleTaps x mags.length))]
  | t :: u :: rest => (t, peakBetween x mags t u) :: halfWaves x mags (u :: rest)

/-- The crossings that are stored (R246): while the window is open, none below half the gate level, and 256 at most. -/
def storedCrossings (x : ShotSet) (mags l : List Nat) : List (Nat × Nat) :=
  let inside := l.filter (fun t => decide (sampleTaps x 0 ≤ t ∧ t < sampleTaps x mags.length))
  ((halfWaves x mags inside).filter (fun c => decide (gateAt x c.1 ≤ 2 * c.2))).take 256

/-- Crossing times rise strictly. -/
def risingTimes : List Nat → Bool
  | a :: b :: rest => decide (a < b) && risingTimes (b :: rest)
  | _ => true

/-- WINDOW_CLOSE (R190, R191, R246): the rest of the samples, and the crossings. -/
def execWindowClose (n : Fin 16) (rest : List Sample) (crossings : List Nat) (o : List (BitVec 3)) (s : State) : Out :=
  .next (match (s.isle n).cur with
  | some x =>
    if x.phase = .window ∧ rest.length + 32 = windowLen x ∧ risingTimes crossings = true then
      let r := shotRx x / 8
      let overs := overloadsOf rest o
      let s := s.overloads x overs
      let w := { x.window with
        clip := x.window.clip || clipped rest || !overs.isEmpty
        peak := max x.window.peak (peakOf rest)
        crossings := storedCrossings x (x.window.mags ++ magnitudes rest) crossings }
      let s := s.setCur n { x with phase := .lag, window := w }
      let s := if x.second || !x.cmd.pair then s.tokenDone n else s
      match x.bank, x.window.streamed with
      | some b, true => s.sendAll (isleIsland r) (bankIsland b) tagSample (sampleWords rest)
      | _, _ => s
    else s
  | none => s)

/-- RECOVERY_END (R201). -/
def execRecoveryEnd (n : Fin 16) (s : State) : Out := .next (s.setFlag (ISLE.STAT_RECOV n) false)

/-! ### The provisional arrival (R247 to R250, R253) -/

/-- Onset of an output in 1/128 ticks after burst start (R247). -/
def onsetTaps (x : ShotSet) (out : Nat) : Nat := 128 * x.window.opens + out * windowLen x * sampleTicks x / 2

/-- Index of the first crossing at or after a time that is gated, from index i (R248). -/
def findGated (x : ShotSet) (t : Nat) : Nat → List (Nat × Nat) → Option Nat
  | _, [] => none
  | i, (a, p) :: rest => if t ≤ a ∧ gateAt x a ≤ p then some i else findGated x t (i + 1) rest

/-- Time of the last gated crossing before index i. -/
def gatedBefore (x : ShotSet) (i : Nat) : Option Nat :=
  (((x.window.crossings.take i).filter (fun c => decide (gateAt x c.1 ≤ c.2))).map (fun c => c.1)).getLast?

/-- Q of R248 at a crossing index, where c1 to c4 are stored. -/
def ratioAt (l : List (Nat × Nat)) (i : Nat) : Option Nat :=
  match (l.drop i).take 4 with
  | [a, b, c, d] => some (min 511 ((128 * (b.1 - a.1) + (d.1 - c.1)) / (2 * (d.1 - c.1))))
  | _ => none

/-- The band of the cycle guard (R249). -/
def inCycle (q : Nat) : Bool := decide (32 ≤ q ∧ q < 56)

/-- What the isle makes of a shot: index of c1 after the guard, Q, HOLD, its tail cause, CYCADJ. -/
structure Arrival where
  index : Nat
  ratio : Nat
  hold : Bool
  tail : Bool
  cycadj : Bool
  deriving DecidableEq, Repr

/-- The tail rule of R248 and the cycle guard of R249. -/
def cycleGuard (l : List (Nat × Nat)) (i : Nat) : Arrival :=
  match ratioAt l i with
  | none => ⟨i, 0, true, true, false⟩
  | some q =>
    if inCycle q then ⟨i, q, false, false, false⟩
    else
      let j := if 56 ≤ q then (if 2 ≤ i then some (i - 2) else none) else some (i + 2)
      match j with
      | some j =>
        match ratioAt l j with
        | some q' => if inCycle q' then ⟨j, q', false, false, true⟩ else ⟨i, q, true, false, false⟩
        | none => ⟨i, q, true, false, false⟩
      | none => ⟨i, q, true, false, false⟩

/-- Lowest output whose onset lies after a time, and highest whose onset does not (R250). -/
def outputsAfter (x : ShotSet) (t : Nat) : Nat := ((List.range 256).filter (fun o => decide (onsetTaps x o ≤ t))).length

/-- Words 0 to 4 and the summary of a shot, from LAG (none without a provisional arrival) (R247 to R250, R257). -/
def State.finishShot (s : State) (n : Nat) (x : ShotSet) (lag : Option Nat) (parerr timeout : Bool) : State :=
  let w := x.window
  let r := shotRx x / 8
  let c1 := match lag with
    | some o => findGated x (onsetTaps x o) 0 w.crossings
    | none => none
  let arr := c1.map (cycleGuard w.crossings)
  let time := match arr with | some a => (w.crossings.getD a.index (0, 0)).1 | none => 0
  let olo := match c1 with
    | some i => (match gatedBefore x i with | some t => min 255 (outputsAfter x t) | none => 0)
    | none => 0
  let ohi := match c1 with | some i => outputsAfter x (w.crossings.getD i (0, 0)).1 - 1 | none => 0
  let hold := match arr with | some a => a.hold | none => false
  let tail := match arr with | some a => a.tail | none => false
  let cyc := match arr with | some a => a.cycadj | none => false
  let noprov := arr.isNone
  let setPeak := max w.peak (x.setPeak.getD 0)
  let setClip := w.clip || x.setClip
  let lim := gainLimits x.ctl x.gains
  let want : Int := s.fld (ISLE0.PDGAIN_WGAIN x.cmd.pd) + agcStep setPeak setClip
  let short := decide (setPeak < 512) && decide (want ≠ clampInt lim.1 lim.2 want)
  let lowsig := short || decide (s.gateAllowed r < 3 * w.noise)
  let flags := natOfBool w.clip + 2 * natOfBool lowsig + 4 * natOfBool cyc + 8 * natOfBool hold + 0x40 * natOfBool timeout +
    0x100 * natOfBool x.drvsub + 0x200 * natOfBool noprov + 0x400 * natOfBool x.centred
  let words := [provWord (shotHeader n x.ctl x.cmd x.second), provWord (time / 128),
    provWord (time % 128 * 2 ^ 21 + w.peak * 2 ^ 9 + (match arr with | some a => a.ratio | none => 0)),
    provWord (x.gain * 2 ^ 20 + snrCode w.peak w.noise * 2 ^ 12 + flags), provWord x.time]
  let summary : Word := BitVec.ofNat 32 (2 ^ 20 * natOfBool tail + 2 ^ 19 * natOfBool parerr + 2 ^ 18 * natOfBool x.centred +
    2 ^ 17 * natOfBool hold + 2 ^ 16 * natOfBool noprov + 2 ^ 8 * ohi + olo)
  let marked := w.clip || lowsig
  let count := if marked then tget (fun _ => 0) s.isles.marks x.cmd.pd + 1 else 0
  let s := s.onIsles (fun k => { k with marks := tput (fun _ => 0) k.marks x.cmd.pd (if 8 ≤ count then 0 else count) })
  let s := if 8 ≤ count then s.isleFault n x.cmd.pd (some (ISLE.FAULTS_LEASH n)) else s
  let s := match arr with
    | some a =>
      match (w.crossings.drop a.index).take 4 with
      | [p, _, _, q] =>
        let half := s.roundFree ((q.1 - p.1 : Nat) / 384)
        ((s.spend).setFld (ISLE.RING_HALF n) (min 0x1FFF half.toNat)).setFld (ISLE.RING_PD n) x.cmd.pd
      | _ => s
    | none => s
  let arrival := if noprov then none else some ((2 * time + 1024) / 2048)
  let s := s.setCur n { x with phase := .written, arrival := arrival, setPeak := some setPeak, setClip := setClip }
  (s.emit n ⟨words, some (x.bank, summary, x.shot), if x.cmd.pair && !x.second then .nextShot else .endSet⟩).isleRun n

/-- LAG arrives at an isle (R247); with a parity error there is no provisional arrival (R29). -/
def State.recvLag (s : State) (n : Nat) (word : Word) (good : Bool) : State :=
  match (s.isle n).cur with
  | some x =>
    if x.phase = .lag then
      let lag := if good && bitsOf word 16 16 == 0 then some (bitsOf word 15 0) else none
      s.finishShot n x lag (!good) false
    else s
  | none => s

/-- Words of one tag on the straits from the banks to an isle are ignored from now on (R252). -/
def State.ignoreReplies (s : State) (n : Nat) (tags : List (BitVec 4)) : State :=
  { s with wires := s.wires.filter (fun w =>
      !(decide (w.dst = isleIsland n) && (List.range 4).any (fun b => decide (w.src = bankIsland b)) && tags.elem w.tag)) }

/-- LAG_TIMEOUT (R252): no LAG 2.0 ms after the window closed. -/
def execLagTimeout (n : Fin 16) (s : State) : Out :=
  .next (match (s.isle n).cur with
  | some x => if x.phase = .lag then (s.ignoreReplies n [tagLag]).finishShot n x none false true else s
  | none => s)

/-- A bank's reply arrives: word 5 is written (R251). A REFUSE to a damaged header or gate update names that pair in the model,
so that the isle does not take it for the reply to a summary (log entry 73). -/
def State.recvReply (s : State) (n : Nat) (w : Word) : State :=
  let k := s.isle n
  match k.awaits with
  | some _ => if bitsOf w 31 4 = 0 then (s.setIsle n { k with awaits := none }).isleRun n else s
  | none => s

/-- NOVERDICT (R252): 10 ms without a reply, the isle writes word 5 itself. -/
def execNoverdict (n : Fin 16) (s : State) : Out :=
  let k := s.isle n
  .next (match k.awaits with
  | some _ =>
    let s := (s.ignoreReplies n [tagWack, tagRefuse]).setIsle n { k with awaits := none }
    (s.sendQueue (isleIsland n) (s.fld (ISLE.RQUEUE_QUEUE n)) [verdictWord verdictFail reasonNoverdict]).isleRun n
  | none => s)

/-! ### RTD and reference conversions (R266, R267) -/

/-- 693 µs, 2.77 µs in 1/128 DCO ticks. -/
def rtdExpected : Nat := 554400 * 128
def rtdShortest : Nat := 2216 * 128

/-- The expected discharge time of a descriptor. -/
def State.expected (s : State) (m : Nat) : Nat := (tget (fun _ => none) s.isles.expected m).getD rtdExpected

/-- A conversion ends with its record. -/
def State.rtdRecord (s : State) (n : Nat) (x : ShotSet) (taps : Nat) (open_ : Bool) (flags verdict reason : Nat) : State :=
  let coarse := if open_ then 0xFFFFFFF else taps / 128
  let fine := if open_ then 0 else taps % 128
  let words := [provWord (shotHeader n x.ctl x.cmd x.second), provWord coarse, provWord (fine * 2 ^ 21), provWord flags,
    provWord x.time, verdictWord verdict reason]
  let s := s.setCur n { x with phase := .written }
  (s.emit n ⟨words, none, if x.cmd.pair && !x.second then .nextShot else .endSet⟩).isleRun n

/-- The set of an isle, where it is an RTD or reference conversion in a phase. -/
def State.conversion (s : State) (n : Nat) (p : Phase) : Option ShotSet :=
  match (s.isle n).cur with
  | some x => if 2 ≤ ctlKind x.ctl ∧ x.phase = p then some x else none
  | none => none

/-- RTD_CHARGE_DONE (R266, R267): TCAP reached 2.000 V; within 20 µs there is no capacitor. -/
def execRtdChargeDone (n : Fin 16) (chargeNs : Nat) (s : State) : Out :=
  .next (match s.conversion n .lead with
  | some x =>
    if s.flag CRYPT.CLKSTAT_XHFOK then
      if chargeNs ≤ 20000 then ((s.isleFault n x.cmd.pd none).rtdRecord n x 0 false 0 verdictFail reasonNocap)
      else if chargeNs ≤ 1000000 then s.setCur n { x with phase := .discharge }
      else s
    else s
  | none => s)

/-- RTD_CROSSING (R267): TCAP fell through 0.500 V after a time in 1/128 ticks. -/
def execRtdCrossing (n : Fin 16) (taps : Nat) (s : State) : Out :=
  .next (match s.conversion n .discharge with
  | some x =>
    let m := x.cmd.pd
    let learned := tget (fun _ => none) s.isles.expected m
    if 4 * s.expected m < taps then s
    else if taps < rtdShortest ∨ (learned.isSome = true ∧ 4 * taps < s.expected m) then
      (s.isleFault n m (some (ISLE.FAULTS_SHORT n))).rtdRecord n x taps false flagShort verdictFail reasonRtdshort
    else
      let s := s.onIsles (fun k => { k with expected := tput (fun _ => none) k.expected m (some (min taps rtdExpected)) })
      s.rtdRecord n x taps false 0 verdictConfirm reasonNone
  | none => s)

/-- RTDOPEN (R267). -/
def execRtdopen (n : Fin 16) (s : State) : Out :=
  .next (match s.conversion n .discharge with
  | some x => (s.isleFault n x.cmd.pd (some (ISLE.FAULTS_OPEN n))).rtdRecord n x 0 true flagOpen verdictFail reasonRtdopen
  | none => s)

/-- CAPSHORT (R267). -/
def execCapshort (n : Fin 16) (s : State) : Out :=
  .next (match s.conversion n .lead with
  | some x => (s.isleFault n x.cmd.pd none).rtdRecord n x 0 false 0 verdictFail reasonCapshort
  | none => s)

/-! ### Writes and lifecycle (R179, R181, R205, R267, R445, R477) -/

/-- A store to PORTMODE: held while a shot-set is in progress (R179). -/
def State.storePortmode (s : State) (n : Nat) (val : Word) : State :=
  let k := s.isle n
  if k.cur.isSome then s.setIsle n { k with modes := some val } else s.setFld (ISLE.PORTMODE_MODES n) (bitsOf val 15 0)

/-- The port rules of a kind (R181). -/
def portsSuit (ctl : Word) : Bool :=
  let a := ctlPortA ctl
  let b := ctlPortB ctl
  decide (ctlKind ctl ≠ 0) || (decide (b ≠ a) && (decide (b / 8 = a / 8) || decide (b / 8 = twinOf (a / 8))))

/-- A store to a word of descriptor m, the same in every ISLEn window (R180, R181, R193, R206, R267). -/
def State.storeDescriptor (s : State) (c : CoreId) (m field : Nat) (val : Word) : State :=
  let s := s.storeReg c (ISLE0.PDCTL m + 4 * field) val
  let s := if field = 0 ∧ portsSuit (s.getReg (ISLE0.PDCTL m)) = false then s.setFlag (ISLE0.PDCTL_EN m) false else s
  let s := if field = 3 then s.setFld (ISLE0.PDGAIN_WGAIN m) (s.fld (ISLE0.PDGAIN_GAIN m)) else s
  s.onIsles (fun k => { k with expected := terase k.expected m })

/-- The isle unit follows EN, held OFF while M is clear (R205, R445, R457). -/
def State.isleFollow (s : State) (n : Nat) : State :=
  let s := s.enableActs (unitIsle n) (s.flag (ISLE.CTL_EN n) && s.flag SYS.MODE_M)
  (s.fallRefuse n).isleRun n

/-- A store to ISLE.CTL (R205). -/
def State.storeIsleCtl (s : State) (c : CoreId) (n : Nat) (val : Word) : State := (s.storeReg c (ISLE.CTL n) val).isleFollow n

/-- M has changed: every isle falls, or follows its EN again (R445, R457). -/
def State.islesFollow (s : State) : State := s.each (List.range 16) State.isleFollow

/-- An isle has risen: its expected times are unlearned (R267). -/
def State.isleRisen (s : State) (n : Nat) : State :=
  s.onIsles (fun k => { k with expected := tdrop (fun m => s.fld (ISLE0.PDCTL_PORTA m) / 8 == n) k.expected })

/-- A falling isle has done its part (R205). -/
def State.isleIdle (s : State) (n : Nat) : Bool :=
  (s.isle n).cur.isNone && !s.flag (ISLE.STAT_CLAIMED n)

/-- XHF is lost: shots from their lead to the end of their window or discharge fail (R477). -/
def State.islesXhfLost (s : State) : State :=
  s.each (List.range 16) (fun s n =>
    match (s.isle n).cur with
    | some x =>
      if x.phase = .lag ∨ x.phase = .written then s
      else
        let waits := decide (x.phase = .lead) && (x.tokenWait || x.claimWait)
        let t := if waits then (s.spend).countDelay n x (s.leadOver x) else s
        (t.failPair n { x with delayed := x.delayed || (waits && s.leadOver x) } reasonXhflost 0).isleRun n
    | none => s)

/-- Power leaves the isles. -/
def State.islesLost (s : State) : State := { s with isles := Isles.reset }

end Sys2Proof.Machine
end

