-- ==== Sys2Proof/Machine/Cim.lean ====
section
/-! DEFINITION. The CIM banks and tiles: golden store, evaluations, residue check, drift and refresh, streams and verdicts,
leases and wipes (R158, R159, R207 to R243, R251, R254, R255). -/
namespace Sys2Proof.Machine

/-- Rewrite the banks' fields. -/
def State.onCim (s : State) (f : Cim → Cim) : State := { s with cim := f s.cim }

/-! ### Rows (R207, R209, R225, R227) -/

/-- Key of a row: 256 × tile + row. -/
def rowKey (tile row : Nat) : Nat := 256 * tile + row

/-- Number of cells that hold 1. -/
def ones (n v : Nat) : Nat := ((List.range n).filter (fun i => v.testBit i)).length

/-- Replica pattern of a row (R227). -/
def replica (row : Nat) : BitVec 8 := BitVec.ofNat 8 row ^^^ 0xA5#8

/-- A tile row from its weights: residue (R225) and replica columns are computed. -/
def rowCells (weights : BitVec 256) (row : Nat) : BitVec 272 :=
  replica (row % 256) ++ BitVec.ofNat 8 (ones 256 weights.toNat % 255) ++ weights

/-- A golden row. -/
def State.golden (s : State) (key : Nat) : BitVec 256 := tget (fun _ => 0) s.cim.golden key

/-- A tile row. -/
def State.cells (s : State) (key : Nat) : BitVec 272 := tget (fun k => rowCells 0 k) s.cim.cells key

/-- Word j of a row. -/
def rowWord (w : BitVec 256) (j : Nat) : Word := (w >>> (32 * j)).setWidth 32

/-- Replace word j of a row. -/
def rowPut (w : BitVec 256) (j : Nat) (v : Word) : BitVec 256 :=
  (w &&& ~~~((BitVec.ofNat 256 0xFFFFFFFF) <<< (32 * j))) ||| ((v.setWidth 256) <<< (32 * j))

/-- A row of eight words. -/
def rowOfWords (l : List Word) : BitVec 256 :=
  (List.range 8).foldl (fun w j => rowPut w j (l.getD j 0)) 0

/-- The core whose lease a bank is under: the choir for CHOIR and ISLES, the nave for NAVE (R158, R237). -/
def State.bankCore (s : State) (b : Nat) : Option CoreId :=
  match s.fld (CIM.LEASE_HOLDER b) with
  | 1 => some .choir
  | 2 => some .choir
  | 3 => some .nave
  | _ => none

/-- Event 7 on the holder's core. -/
def State.cimEvent (s : State) (b : Nat) : State :=
  match s.bankCore b with
  | some c => s.raiseEvent (bankIsland b) c 7
  | none => s

/-- EMPTY, POISON and PROW of a tile follow its rows (R213, R228). -/
def State.tileSync (s : State) (t : Nat) : State :=
  let full := (s.cim.written.filter (fun e => decide (e.1 / 256 = t) && e.2 == 0xFF#8)).length
  let bad := (s.cim.poisoned.filter (fun e => decide (e.1 / 256 = t) && e.2.isSome)).map (fun e => e.1 % 256)
  let s := (s.setFlag (CIM.TSTAT_EMPTY t) (decide (full < 256))).setFlag (CIM.TSTAT_POISON t) (!bad.isEmpty)
  s.setFld (CIM.TSTAT_PROW t) (bad.head?.getD 0)

/-- PENDROWS of a bank follows its pending rows (R211). -/
def State.pendSync (s : State) (b : Nat) : State :=
  s.setFld (CIM.STAT_PENDROWS b) (min 2048 (s.cim.pending.filter (fun k => decide (k / 2048 = b))).length)

/-- Words of a row have been written, by mask (R213, R228). -/
def State.wroteRow (s : State) (key : Nat) (mask : BitVec 8) : State :=
  let s := s.onCim (fun k => { k with
    written := tput (fun _ => 0) k.written key (tget (fun _ => 0) k.written key ||| mask)
    poisoned := match tget (fun _ => none) k.poisoned key with
      | some m => tput (fun _ => none) k.poisoned key (if m ||| mask = 0xFF#8 then none else some (m ||| mask))
      | none => k.poisoned })
  s.tileSync (key / 256)

/-- An uncorrectable golden word poisons its row (R228). -/
def State.poison (s : State) (key : Nat) : State :=
  let b := key / 2048
  let s := s.onCim (fun k => { k with poisoned := tput (fun _ => none) k.poisoned key (some 0) })
  let s := s.tileSync (key / 256)
  let s := ((s.setFlag (CIM.FAULTS_GOLDUE b) true).setFld (CIM.FAULTS_TILE b) (key / 256)).setFld (CIM.FAULTS_ROW b) (key % 256)
  let s := s.cimEvent b
  if s.bankCore b = some .choir then s.logEvent logCimGoldenUe (BitVec.ofNat 32 b) (BitVec.ofNat 32 key) else s

/-- Single-bit errors of a golden row are corrected, written back and counted (R228). -/
def State.correctRow (s : State) (key : Nat) : State :=
  let n := (s.cim.single.filter (fun w => decide (w / 8 = key))).length
  if n = 0 then s
  else (s.onCim (fun k => { k with single := k.single.filter (fun w => decide (w / 8 ≠ key)) })).bump (CIM.REFSTAT_GCORR (key / 2048)) n

/-- Copy a row from the golden store into its tile (R211, R227, R228); a tile that is OFF takes it when it rises. -/
def State.copyRow (s : State) (key : Nat) : State :=
  if s.cim.double.any (fun w => decide (w / 8 = key)) then s.poison key
  else
    let s := s.correctRow key
    s.onCim (fun k => { k with cells := tput (fun a => rowCells 0 a) k.cells key (rowCells (s.golden key) key) })

/-- A tile is ON. -/
def State.tileOn (s : State) (t : Nat) : Bool := s.fld (CIM.TSTAT_LIFE t) == 2

/-- Copy every pending row of a bank (R211). -/
def State.copyPending (s : State) (b : Nat) : State :=
  let rows := s.cim.pending.filter (fun k => decide (k / 2048 = b))
  let s := s.onCim (fun k => { k with pending := k.pending.filter (fun x => decide (x / 2048 ≠ b)) })
  (s.each rows (fun s k => if s.tileOn (k / 256) then s.copyRow k else s)).pendSync b

/-- A weight-window store: a golden word, its row pending (R210). -/
def State.storeGolden (s : State) (key j : Nat) (v : Word) : State :=
  let s := s.onCim (fun k => { k with
    golden := tput (fun _ => 0) k.golden key (rowPut (tget (fun _ => 0) k.golden key) j v)
    single := k.single.filter (fun w => decide (w ≠ 8 * key + j))
    double := k.double.filter (fun w => decide (w ≠ 8 * key + j))
    pending := if k.pending.elem key then k.pending else k.pending ++ [key] })
  (s.wroteRow key (BitVec.ofNat 8 (2 ^ j))).pendSync (key / 2048)

/-- A weight-window load: the checked word, or none where it is uncorrectable (R210). -/
def State.loadGolden (s : State) (key j : Nat) : State × Option Word :=
  let w := 8 * key + j
  if s.cim.double.elem w then (s.poison key, none)
  else if s.cim.single.elem w then
    ((s.onCim (fun k => { k with single := k.single.filter (fun x => decide (x ≠ w)) })).bump (CIM.REFSTAT_GCORR (key / 2048)) 1,
      some (rowWord (s.golden key) j))
  else (s, some (rowWord (s.golden key) j))

/-- cimld writes a row into the tile and the golden store (R160, R211). -/
def State.loadRow (s : State) (key : Nat) (weights : BitVec 256) : State :=
  let on := s.tileOn (key / 256)
  let s := s.onCim (fun k => { k with
    golden := tput (fun _ => 0) k.golden key weights
    single := k.single.filter (fun w => decide (w / 8 ≠ key))
    double := k.double.filter (fun w => decide (w / 8 ≠ key))
    pending := k.pending.filter (fun x => decide (x ≠ key))
    cells := if on then tput (fun a => rowCells 0 a) k.cells key (rowCells weights key) else k.cells })
  (s.wroteRow key 0xFF#8).pendSync (key / 2048)

/-! ### Summation (R208, R214 to R225) -/

/-- Columns per output by SPREAD. -/
def spreadCols (spread : Nat) : Nat := 2 ^ (spread % 4)

/-- Outputs per tile by SPREAD. -/
def spreadOuts (spread : Nat) : Nat := 256 / spreadCols spread

/-- Largest weight magnitude by SPREAD (R219). -/
def spreadMax (spread : Nat) : Nat := if spread % 4 = 0 then 1 else 2 ^ (spreadCols spread - 1)

/-- Weight of output o in a row. -/
def weightOf (spread : Nat) (cells : BitVec 272) (o : Nat) : Int :=
  let n := spreadCols spread
  let v := cells.toNat / 2 ^ (o * n) % 2 ^ n
  if n = 1 then v else signedOf n v

/-- The cells of the active rows of one tile, as an evaluation reads them. -/
abbrev TileRows := Nat × List (BitVec 272)

/-- Exact sum of an output over tiles. -/
def exactSum (spread o : Nat) (l : List TileRows) : Int :=
  (l.map (fun t => (t.2.map (fun c => weightOf spread c o)).sum)).sum

/-- The residue check of one tile (R225). -/
def residueOk (t : TileRows) : Bool :=
  decide ((t.2.map (fun c => ones 256 (c.toNat % 2 ^ 256))).sum % 255 =
    (t.2.map (fun c => c.toNat / 2 ^ 256 % 256)).sum % 255)

/-- First tile whose check fails. -/
def firstResidue (l : List TileRows) : Option Nat := (l.find? (fun t => !residueOk t)).map (fun t => t.1)

/-- The bound on the error of a time-domain sum (R218, R219). -/
def tdBound (spread : Nat) (l : List TileRows) : Nat :=
  (l.map (fun t => (1 + 2 * spreadMax spread) * max 1 ((t.2.length + 63) / 64))).sum

/-- Outputs that cross their threshold, in rising order (R223). -/
def crossing (spread : Nat) (thr : List (Nat × BitVec 20)) (sum : Nat → Int) : List Nat :=
  (List.range (spreadOuts spread)).filter (fun o => decide ((tget (fun _ => (0 : BitVec 20)) thr o).toInt ≤ sum o))

/-- Crossing outputs of a time-domain evaluation: each sum is off by a free error within the bound (R219). -/
def State.tdCrossing (s : State) (spread : Nat) (thr : List (Nat × BitVec 20)) (l : List TileRows) : List Nat :=
  let m : Int := tdBound spread l
  crossing spread thr (fun o => exactSum spread o l + clampInt (-m) m (Config.tdError s.free o))

/-- Thresholds of a bank by output (R224). -/
def State.thresholdsOf (s : State) (b : Nat) : List (Nat × BitVec 20) :=
  (s.cim.thresholds.filter (fun e => decide (e.1 / 256 = b))).map (fun e => (e.1 % 256, e.2))

/-- Tiles of a bank that a mask names, in rising order. -/
def maskTiles (b mask : Nat) : List Nat := ((List.range 8).filter (fun t => bitAt mask t)).map (fun t => 8 * b + t)

/-- A tile row as read, with cells read wrong. -/
def State.readCells (s : State) (bad : List CellAt) (t r : Nat) : BitVec 272 :=
  bad.foldl (fun w c => if c.tile.val = t ∧ c.row.val = r then w ^^^ (1#272 <<< c.col.val) else w) (s.cells (rowKey t r))

/-- Active rows of each selected tile, from active bank rows (R215). -/
def tileActive (tiles rows : List Nat) : List (Nat × List Nat) :=
  tiles.mapIdx (fun i t => (t, (rows.filter (fun r => decide (r / 256 = i))).map (fun r => r % 256)))

/-- What an evaluation reads. -/
def State.readTiles (s : State) (bad : List CellAt) (l : List (Nat × List Nat)) : List TileRows :=
  l.map (fun t => (t.1, t.2.map (fun r => s.readCells bad t.1 r)))

/-- An evaluation touches its tiles: ACTIVE, and activity of each (R460). -/
def State.touchTiles (s : State) (l : List (Nat × List Nat)) : State :=
  s.each l (fun s t => (s.setFld (CIM.TSTAT_ACTIVE t.1) (min 256 t.2.length)).activity (unitTile t.1))

/-- The bank reason that keeps an evaluation over tiles from being correct when it starts: POISON, NOFIT, EMPTY (R235). -/
def State.tileReason (s : State) (tiles : List Nat) (rowsNeeded : Nat) : Option Nat :=
  if tiles.any (fun t => s.flag (CIM.TSTAT_POISON t)) then some 0xC1
  else if 256 * tiles.length < rowsNeeded ∨ tiles.any (fun t => !s.tileOn t) = true then some 0xC2
  else if tiles.any (fun t => s.flag (CIM.TSTAT_EMPTY t)) then some 0xC3
  else none

/-! ### Scans (R226, R227, R229 to R231) -/

/-- Scan tiles: each drifted row is counted and refreshed from the golden store (R227). -/
def State.scanTiles (s : State) (b : Nat) (tiles : List Nat) (drifted : List RowAt) : State :=
  let s := s.bump (CIM.REFSTAT_SCANS b) tiles.length
  s.each (drifted.filter (fun d => tiles.elem d.tile.val)) (fun s d =>
    let t := d.tile.val
    let s := (s.bump (CIM.TDRIFT_COUNT t) 1).setFld (CIM.TDRIFT_LAST t) d.row.val
    let ue := s.cim.double.any (fun w => decide (w / 8 = rowKey t d.row.val))
    let s := s.copyRow (rowKey t d.row.val)
    if ue then s else s.bump (CIM.REFSTAT_REFRESHED b) 1)

/-- A scan finds drifted rows or none: it counts as marked where WORK stands at its lower limit or the leash is PINNED; any other
scan starts the count again. At the eighth in a row, LEASH and event 7 (R230). -/
def State.markScan (s : State) (b : Nat) (found atLimit : Bool) : State :=
  let n := if found && atLimit then tget (fun _ => 0) s.cim.marked b + 1 else 0
  let s := if 8 ≤ n then (s.setFlag (CIM.FAULTS_LEASH b) true).cimEvent b else s
  s.onCim (fun k => { k with marked := tput (fun _ => 0) k.marked b (if 8 ≤ n then 0 else n) })

/-- ON tiles of a bank. -/
def State.onTiles (s : State) (b : Nat) : List Nat := (maskTiles b 0xFF).filter (fun t => s.tileOn t)

/-- Limits of WORK (R229). -/
def State.workLimits (s : State) (b : Nat) : Nat × Nat :=
  match s.fld (CIM.REFCFG_LEASH b) with
  | 1 => (s.fld (CIM.REFCFG_MIN b), s.fld (CIM.REFCFG_MAX b))
  | 2 => (s.fld (CIM.REFCFG_SET b), s.fld (CIM.REFCFG_SET b))
  | _ => (1, 255)

/-- WORK as the limits hold it, and whether it stands at its lower limit or is pinned (R229, R230). -/
def State.workNow (s : State) (b : Nat) : Nat :=
  let lim := s.workLimits b
  s.limit 255 lim.1 lim.2 (s.fld (CIM.REFSTAT_WORK b))
def State.workLow (s : State) (b : Nat) : Bool :=
  s.fld (CIM.REFCFG_LEASH b) == 2 || decide (s.workNow b ≤ (s.workLimits b).1)

/-- WORK after a periodic scan (R229): halved where it found drifted rows, doubled after the eighth clean scan in a row. -/
def State.adaptWork (s : State) (b : Nat) (found : Bool) : State :=
  let lim := s.workLimits b
  let work := s.workNow b
  let s := s.spend
  let clean := if found then 0 else tget (fun _ => 0) s.cim.clean b + 1
  let work' := if s.fld (CIM.REFCFG_LEASH b) = 2 then work
    else if found then s.limit 255 lim.1 lim.2 ((work / 2 : Nat) : Int)
    else if 8 ≤ clean then s.limit 255 lim.1 lim.2 ((2 * work : Nat) : Int)
    else work
  ((s.setFld (CIM.REFSTAT_WORK b) work').spend).onCim (fun k => { k with
    clean := tput (fun _ => 0) k.clean b (if 8 ≤ clean then 0 else clean) })

/-- A replica scan runs (R211, R227, R229, R230): pending rows first, then the ON tiles it names. The periodic scan alone changes
WORK. -/
def State.runScan (s : State) (b : Nat) (x : Scan) : State :=
  let s := s.copyPending b
  let tiles := (maskTiles b x.tiles).filter (fun t => s.tileOn t)
  if tiles.isEmpty then s
  else
    let found := x.drifted.any (fun d => tiles.elem d.tile.val)
    let low := s.workLow b
    let s := (s.scanTiles b tiles x.drifted).onCim (fun k => { k with
      scanned := tput (fun _ => none) k.scanned b (some s.crypt.ticks) })
    let s := s.markScan b found low
    if x.periodic then s.adaptWork b found else s

/-- The scans that wait on a bank, oldest first. -/
def State.scansOf (s : State) (b : Nat) : List Scan := tget (fun _ => []) s.cim.scans b

/-- Replace them. -/
def State.setScans (s : State) (b : Nat) (l : List Scan) : State :=
  s.onCim (fun k => { k with scans := tput (fun _ => []) k.scans b l })

/-- The evaluation that a bank runs. -/
def State.evalOf (s : State) (b : Nat) : Option Eval := tget (fun _ => none) s.cim.running b

/-- Set it. -/
def State.setEval (s : State) (b : Nat) (e : Option Eval) : State :=
  s.onCim (fun k => { k with
    running := tput (fun _ => none) k.running b e
    scanned := if e.isSome then tput (fun _ => none) k.scanned b none else k.scanned })

/-- 10 ms in ticks of the RTC: a scan that has been due for that long precedes evaluations that have not started (R231). -/
def scanPatience : Nat := 328

/-- Whether a scan has been due for 10 ms. -/
def State.overdue (s : State) (x : Scan) : Bool := decide (scanPatience ≤ (s.crypt.ticks - x.due).toNat)

/-- The stream whose evaluation starts next: time-domain ones in the order in which their streams completed, then digital ones
(R233). -/
def nextStream (l : List Stream) : Option (Stream × Bool) :=
  match l.find? (fun x => decide (x.len ≤ x.count) && !x.lagged && x.reason.isNone) with
  | some x => some (x, false)
  | none => (l.find? (fun x => x.lagged && x.digital.isNone && x.reason.isNone)).map (fun x => (x, true))

/-- An evaluation starts (R211, R224, R235): pending rows are copied, and SPREAD, SHOTTILES and the thresholds latched. -/
def State.startEval (s : State) (b : Nat) (x : Stream) (digital : Bool) : State :=
  let s := s.copyPending b
  let mask := s.fld (CIM.CFG_SHOTTILES b)
  s.setEval b (some ⟨x.lead, x.shot, digital, s.fld (CIM.CFG_SPREAD b), mask, s.thresholdsOf b,
    s.tileReason (maskTiles b mask) (2 * x.len)⟩)

/-- A bank that runs nothing takes its next work in the order of R233: scans due for 10 ms, an evaluation, other scans. A bank
scans only while it is ON. -/
def State.bankNext (s : State) (b : Nat) : Nat → State
  | 0 => s
  | fuel + 1 =>
    if (s.evalOf b).isSome ∨ s.fld (CIM.STAT_LIFE b) < 2 then s
    else
      let run (x : Scan) : State := (s.setScans b ((s.scansOf b).erase x)).runScan b x
      let ready := if s.fld (CIM.STAT_LIFE b) = 2 then s.scansOf b else []
      match ready.find? s.overdue, nextStream (s.streams b), ready.head? with
      | some x, _, _ => (run x).bankNext b fuel
      | none, some (x, digital), _ => s.startEval b x digital
      | none, none, some x => (run x).bankNext b fuel
      | none, none, none => s

/-- A bank goes on with its work. -/
def State.bankRun (s : State) (b : Nat) : State := s.bankNext b ((s.scansOf b).length + 1)

/-- A scan becomes due: it waits for a gap between evaluations (R231). -/
def State.scanDue (s : State) (b mask : Nat) (periodic : Bool) (drifted : List RowAt) : State :=
  (s.setScans b (s.scansOf b ++ [⟨mask, periodic, drifted, s.crypt.ticks⟩])).bankRun b

/-- REPLICA_SCAN_DUE (R229, R230): the ON tiles are scanned, and WORK adapts. -/
def execReplicaScanDue (bk : Fin 4) (drifted : List RowAt) (s : State) : Out :=
  .next (if s.fld (CIM.STAT_LIFE bk.val) = 2 then s.scanDue bk.val 0xFF true drifted else s)

/-- A store to REFNOW: a scan of the named ON tiles is queued (R231). -/
def State.storeRefnow (s : State) (b : Nat) (val : Word) (drifted : List RowAt) : State :=
  if s.fld (CIM.STAT_LIFE b) = 2 then s.scanDue b (bitsOf val 7 0) false drifted else s

/-! ### Leases (R158, R159, R237 to R240) -/

/-- A bank gets a holder; LASTDOM records the holder's domain. -/
def State.setHolder (s : State) (b h : Nat) : State :=
  let s := s.setFld (CIM.LEASE_HOLDER b) h
  let s := if h = 1 ∨ h = 2 then s.setFld (CIM.LEASE_LASTDOM b) 1 else if h = 3 then s.setFld (CIM.LEASE_LASTDOM b) 2 else s
  if h = 2 then s else s.setFld (CIM.LEASE_ISLES b) 0

/-- A change waits. -/
def State.setPend (s : State) (b : Nat) (p : Bool) (h : Nat) : State :=
  (s.setFlag (CIM.LEASE_PEND b) p).setFld (CIM.LEASE_PENDTO b) (if p then h else 0)

/-- A deferred change takes effect: LEASED, event 7 on the new holder's core (R238). -/
def State.leaseApplies (s : State) (b : Nat) : State :=
  let h := s.fld (CIM.LEASE_PENDTO b)
  (((s.setHolder b h).setPend b false 0).setFlag (CIM.FAULTS_LEASED b) true).cimEvent b

/-- The replies that wait for their verdict words, oldest first (R251). -/
def State.acksOf (s : State) (b : Nat) : List Ack := tget (fun _ => []) s.cim.acks b

/-- Replace them. -/
def State.setAcks (s : State) (b : Nat) (l : List Ack) : State :=
  s.onCim (fun k => { k with acks := tput (fun _ => []) k.acks b l })

/-- A bank has completed every shot it accepted: its last verdict word is in its queue. -/
def State.bankIdle (s : State) (b : Nat) : Bool := (s.streams b).isEmpty && (s.acksOf b).isEmpty

/-- A TAKE that waits on isles applies once every accepted shot has its verdict (R238, R239). -/
def State.leaseSync (s : State) (b : Nat) : State :=
  if s.flag (CIM.LEASE_PEND b) ∧ s.fld (CIM.LEASE_HOLDER b) = 2 ∧ s.bankIdle b then s.leaseApplies b else s

/-- Statuses of R150. -/
def statusDone : Word := 0
def statusNoton : Word := 1
def statusDropped : Word := 2
def statusDeferred : Word := 3
def statusDenied : Word := 4
def statusNotheld : Word := 5
def statusFull : Word := 6

/-- A wipe toward a holder starts (R240). -/
def State.wipeFor (s : State) (b h : Nat) : State := (s.setPend b true h).setHolder b 4

/-- lease TAKE (R159, R238). -/
def State.leaseTake (s : State) (c : CoreId) (b : Nat) : State × Word :=
  let h := s.fld (CIM.LEASE_HOLDER b)
  let last := s.fld (CIM.LEASE_LASTDOM b)
  let pend := s.flag (CIM.LEASE_PEND b)
  match c with
  | .choir =>
    match h with
    | 0 => if last = 2 then (s.wipeFor b 1, statusDeferred) else (s.setHolder b 1, statusDone)
    | 1 => (s, statusDone)
    | 2 =>
      if pend then (s, statusDeferred)
      else if s.bankIdle b then (s.setHolder b 1, statusDone)
      else (s.setPend b true 1, statusDeferred)
    | 3 =>
      let s := (s.setFlag (CIM.FAULTS_LOST b) true).raiseEvent (bankIsland b) .nave 7
      (s.wipeFor b 1, statusDeferred)
    | _ => (s.setPend b true 1, statusDeferred)
  | .nave =>
    match h with
    | 0 =>
      if s.flag (CIM.LEASE_NAVEOK b) = false then (s, statusDenied)
      else if last = 1 then (s.wipeFor b 3, statusDeferred)
      else (s.setHolder b 3, statusDone)
    | 3 => (s, statusDone)
    | _ => (s, statusDenied)

/-- lease GIVE (R159, R238). -/
def State.leaseGive (s : State) (c : CoreId) (b isle : Nat) : State × Word :=
  match c with
  | .nave => (s, statusDenied)
  | .choir =>
    if s.fld (CIM.LEASE_HOLDER b) = 1 then
      let set := (2 ^ isle) ||| s.fld (CIM.SHARE_ISLES b)
      ((s.setHolder b 2).setFld (CIM.LEASE_ISLES b) set, statusDone)
    else (s, statusNotheld)

/-- lease RELEASE (R159, R238). -/
def State.leaseRelease (s : State) (c : CoreId) (b : Nat) : State × Word :=
  let h := s.fld (CIM.LEASE_HOLDER b)
  if (c = .choir ∧ h = 1) ∨ (c = .nave ∧ h = 3) then (s.setHolder b 0, statusDone) else (s, statusNotheld)

/-- BANK_WIPE_DONE (R240). -/
def execBankWipeDone (bk : Fin 4) (s : State) : Out :=
  let b := bk.val
  .next (if s.fld (CIM.LEASE_HOLDER b) = 4 then
    let mine (key : Nat) : Bool := decide (key / 2048 = b)
    let s := s.onCim (fun k => { k with
      golden := tdrop mine k.golden, cells := tdrop mine k.cells, written := tdrop mine k.written
      poisoned := tdrop mine k.poisoned, pending := k.pending.filter (fun x => !mine x)
      single := k.single.filter (fun w => !mine (w / 8)), double := k.double.filter (fun w => !mine (w / 8))
      thresholds := tdrop (fun e => decide (e / 256 = b)) k.thresholds })
    let s := (s.each (maskTiles b 0xFF) State.tileSync).pendSync b
    s.leaseApplies b
  else s)

/-! ### Streams (R215 to R217, R232, R239, R250, R251) -/

/-- Replace a stream of a bank by lead isle and shot. -/
def State.setStream (s : State) (b : Nat) (x : Stream) : State :=
  s.setStreams b ((s.streams b).map (fun y => if y.lead = x.lead ∧ y.shot = x.shot then x else y))

/-- The lead of a shot whose samples an isle sends: itself, or the twin that claimed it (R184). -/
def State.leadOf (s : State) (src : Nat) : Nat := if s.flag (ISLE.STAT_CLAIMED src) then twinOf src else src

/-- A bank takes streams of a lead isle (R239, R241, R242). -/
def State.bankAccepts (s : State) (b lead : Nat) : Bool := s.bankUsable b lead

/-- A free input register: none is loading, and fewer than five hold inputs (R232). -/
def State.bankFree (s : State) (b : Nat) : Bool :=
  !(s.streams b).any (fun x => decide (x.count < x.len)) &&
    decide (((s.streams b).filter (fun x => x.digital.isNone && x.reason.isNone)).length < 5)

/-- A stream header must wait on its strait for a free input register. -/
def State.headerWaits (s : State) (b src addr : Nat) : Bool := addr == 0 && s.bankAccepts b (s.leadOf src) && !s.bankFree b

/-- A WADDR word of 0 leaves the strait: the shot of the header that follows. -/
def State.headerTaken (s : State) (src : Nat) : State :=
  match tget (fun _ => []) s.isles.sent src with
  | i :: rest => s.onIsles (fun k => { k with
      sent := tput (fun _ => []) k.sent src rest, taken := tput (fun _ => 0) k.taken src i })
  | [] => s

/-- A stream header (R217). -/
def State.recvHeader (s : State) (b src : Nat) (w : Word) : State :=
  let lead := s.leadOf src
  if s.bankAccepts b lead ∧ s.bankFree b then
    let x : Stream :=
      { src := src, lead := lead, shot := tget (fun _ => 0) s.isles.taken src, gate0 := bitsOf w 10 0, gate1 := bitsOf w 10 0,
        len := 64 * 2 ^ bitsOf w 14 12, count := 0, rows := [], bad := false, lagged := false, digital := none, reason := none,
        summary := none }
    s.setStreams b (s.streams b ++ [x])
  else s

/-- The stream that an isle is loading. -/
def State.loading (s : State) (b src : Nat) : Option Stream :=
  (s.streams b).find? (fun x => decide (x.src = src) && decide (x.count < x.len))

/-- A gate update (R217). -/
def State.recvGate (s : State) (b src : Nat) (w : Word) : State :=
  match s.loading b src with
  | some x => s.setStream b { x with gate1 := bitsOf w 10 0 }
  | none => s

/-- The bank row that a sample makes active, if any (R216). -/
def sampleRow (i gate : Nat) (clip : Bool) (v : Int) : Option Nat :=
  if clip then (if 0 < v then some (2 * i) else if v < 0 then some (2 * i + 1) else none)
  else if (gate : Int) ≤ v then some (2 * i)
  else if v ≤ -(gate : Int) then some (2 * i + 1)
  else none

/-- A SAMPLE word: two samples (R27, R216); with a parity error it marks the stream (R29). The last one makes the evaluation
ready (R234). -/
def State.recvSample (s : State) (b src : Nat) (w : Word) (good : Bool) : State :=
  match s.loading b src with
  | some x =>
    let gate := if x.count < 32 then x.gate0 else x.gate1
    let clip := bitsOf w 24 24 == 1
    let r1 := sampleRow x.count gate clip (signedOf 12 (bitsOf w 11 0))
    let r2 := sampleRow (x.count + 1) gate clip (signedOf 12 (bitsOf w 23 12))
    (s.setStream b { x with count := x.count + 2, rows := r2.toList ++ r1.toList ++ x.rows, bad := x.bad || !good }).bankRun b
  | none => s

/-- Flags of a summary word (R250). -/
def sumTail (w : Word) : Bool := bitsOf w 20 20 == 1
def sumParerr (w : Word) : Bool := bitsOf w 19 19 == 1
def sumCentred (w : Word) : Bool := bitsOf w 18 18 == 1
def sumHold (w : Word) : Bool := bitsOf w 17 17 == 1
def sumNoprov (w : Word) : Bool := bitsOf w 16 16 == 1

/-- Verdict and reason of a shot (R254, R255, R29); a damaged summary means PARITY whatever else holds (R251). -/
def settle (x : Stream) (w : Word) (parity prevFailed : Bool) : Nat × Nat :=
  let base : Nat × Nat :=
    if parity then (verdictFail, 0x22)
    else match x.reason with
    | some r => (verdictFail, r)
    | none =>
      if sumParerr w || x.bad then (verdictFail, 0x22)
      else
        match sumNoprov w, x.digital.getD none with
        | true, none => (verdictFail, 0x20)
        | true, some _ => (verdictRetract, 0x02)
        | false, none => (verdictRetract, 0x01)
        | false, some i =>
          if i < bitsOf w 7 0 ∨ bitsOf w 15 8 < i then (verdictRetract, 0x03)
          else if sumHold w then (verdictHeld, if sumTail w then 0x11 else 0x10)
          else (verdictConfirm, 0x00)
  if !parity && sumCentred w && prevFailed && (base.1 == verdictConfirm || base.1 == verdictHeld) then (verdictRetract, 0x04) else base

/-- A bank enters FALLING: once it has completed what it accepted, its ON tiles fall with it (R242). -/
def State.bankFalls (s : State) (b : Nat) : State :=
  if s.fld (CIM.STAT_LIFE b) = 3 ∧ s.bankIdle b then
    (s.setScans b []).each (maskTiles b 0xFF) (fun s t => if s.tileOn t then s.setLife (unitTile t) 3 else s)
  else s

/-- Write the verdicts that are settled; the replies to the summaries wait for them to be in their queue (R251, R254, R255). -/
def State.settleAll (s : State) (b : Nat) : State :=
  s.each (s.streams b) (fun s x =>
    match x.summary with
    | some (w, bad) =>
      if x.digital.isSome || x.reason.isSome then
        let key := 16 * b + x.lead
        let v := settle x w bad (tget (fun _ => false) s.cim.failed key)
        let s := s.sendQueue (bankIsland b) (s.fld (ISLE.RQUEUE_QUEUE x.lead)) [verdictWord v.1 v.2]
        let s := s.setAcks b (s.acksOf b ++ [⟨x.lead, x.shot, bad⟩])
        let s := s.onCim (fun k => { k with failed := tput (fun _ => false) k.failed key (v.1 == verdictRetract || v.1 == verdictFail) })
        s.setStreams b ((s.streams b).filter (fun y => !(decide (y.lead = x.lead) && decide (y.shot = x.shot))))
      else s
    | none => s)

/-- The queue island has taken a queue word of an island: where it is a verdict word, the bank answers the summary, unless the
isle has given that shot up; then what waited for the last verdict follows (R238, R242, R251, R252). -/
def State.verdictTaken (s : State) (src : Island) : State :=
  match src with
  | .bank b =>
    match s.acksOf b.val with
    | a :: rest =>
      let s := s.setAcks b.val rest
      let s := if (s.isle a.lead).awaits = some a.shot then
        (if a.bad then s.send src (isleIsland a.lead) tagRefuse 6 else s.send src (isleIsland a.lead) tagWack 0) else s
      (s.leaseSync b.val).bankFalls b.val
    | [] => s
  | _ => s

/-- A summary arrives, or fails parity (R250, R251, R29). -/
def State.recvSummary (s : State) (b lead : Nat) (w : Word) (bad : Bool) : State :=
  let held : List Stream := (s.streams b).filter (fun (x : Stream) => decide (x.lead = lead) && x.summary.isNone)
  let hit := match (s.isle lead).awaits with
    | some i => held.find? (fun (x : Stream) => decide (x.shot = i))
    | none => held.head?
  match hit with
  | some x => (s.setStream b { x with summary := some (w, bad) }).settleAll b
  | none => s

/-! ### Evaluations (R211, R224, R226, R233 to R236) -/

/-- Send LAG to the isle that waits for it (R234, R252). -/
def State.sendLag (s : State) (b : Nat) (x : Stream) (out : Option Nat) : State :=
  match (s.isle x.lead).cur with
  | some c =>
    if c.shot = x.shot ∧ (c.phase = .lag ∨ c.phase = .window) then
      s.send (bankIsland b) (isleIsland x.lead) tagLag (match out with | some o => BitVec.ofNat 32 o | none => 0x10000)
    else s
  | none => s

/-- The stream of an evaluation. -/
def State.streamOf (s : State) (b : Nat) (e : Eval) : Option Stream :=
  (s.streams b).find? (fun x => decide (x.lead = e.lead) && decide (x.shot = e.shot))

/-- The evaluation that ends with a command: the one that runs, or the next one where none does, in the mode asked for. -/
def State.evalEnds (s : State) (b : Nat) (digital : Bool) : State × Option (Eval × Stream) :=
  let s := s.bankRun b
  match s.evalOf b with
  | some e => if e.digital = digital then (s, (s.streamOf b e).map (fun x => (e, x))) else (s, none)
  | none => (s, none)

/-- The bank has no evaluation running any more, and goes on. -/
def State.evalOver (s : State) (b : Nat) : State := (s.setEval b none).bankRun b

/-- TIME_DOMAIN_EVAL (R234, R235): the time-domain evaluation that runs is complete; LAG follows. -/
def execTimeDomainEval (bk : Fin 4) (s : State) : Out :=
  let b := bk.val
  let r := s.evalEnds b false
  let s := r.1
  .next (match r.2 with
  | some (e, x) =>
    let y := { x with lagged := true }
    match e.reason with
    | some q => (((s.setStream b { y with reason := some q }).sendLag b x none).settleAll b).evalOver b
    | none =>
      let act := tileActive (maskTiles b e.tiles) x.rows
      let out := s.tdCrossing e.spread e.thresholds (s.readTiles [] act)
      let s := ((s.touchTiles act).bump (CIM.EVCNT_TD b) 1).spend
      ((s.setStream b y).sendLag b x out.head?).evalOver b
  | none => s)

/-- A digital evaluation with its residue check, replica scan and one retry (R225, R226, R230): the crossing outputs, none where
the check failed twice. -/
def State.digitalRun (s : State) (b spread : Nat) (thr : List (Nat × BitVec 20)) (act : List (Nat × List Nat))
    (u : Upsets) : State × Option (List Nat) :=
  let s := s.touchTiles act
  let first := s.readTiles u.first act
  match firstResidue first with
  | none => (s.bump (CIM.EVCNT_DG b) 1, some (crossing spread thr (fun o => exactSum spread o first)))
  | some _ =>
    let tiles := act.map (fun t => t.1)
    let low := s.workLow b
    let s := ((s.bump (CIM.RESCNT_FIRST b) 1).scanTiles b tiles u.drifted).markScan b
      (u.drifted.any (fun d => tiles.elem d.tile.val)) low
    let second := s.readTiles u.again act
    let s := s.bump (CIM.EVCNT_DG b) 1
    match firstResidue second with
    | none => (s.bump (CIM.RESCNT_RETRYOK b) 1, some (crossing spread thr (fun o => exactSum spread o second)))
    | some t =>
      let s := ((s.setFlag (CIM.FAULTS_RESIDUE b) true).setFld (CIM.FAULTS_TILE b) t).cimEvent b
      (if s.bankCore b = some .choir then s.logEvent logCimResidue (BitVec.ofNat 32 b) (BitVec.ofNat 32 t) else s, none)

/-- DIGITAL_EVAL (R221, R226, R233, R234): the digital evaluation that runs is complete. A row that its retry's scan poisons makes
it fail with POISON (R228). -/
def execDigitalEval (bk : Fin 4) (bad1 : List CellAt) (drifted : List RowAt) (bad2 : List CellAt) (s : State) : Out :=
  let b := bk.val
  let r := s.evalEnds b true
  let s := r.1
  .next (match r.2 with
  | some (e, x) =>
    let tiles := maskTiles b e.tiles
    match e.reason with
    | some q => ((s.setStream b { x with reason := some q }).settleAll b).evalOver b
    | none =>
      let r := s.digitalRun b e.spread e.thresholds (tileActive tiles x.rows) ⟨bad1, drifted, bad2⟩
      let y := match r.2, tiles.any (fun t => r.1.flag (CIM.TSTAT_POISON t)) with
        | none, _ => { x with reason := some 0xC0 }
        | some _, true => { x with reason := some 0xC1 }
        | some out, false => { x with digital := some out.head? }
      ((r.1.setStream b y).settleAll b).evalOver b
  | none => s)

/-- cimev on a bank a core holds (R161, R223, R228, R236): it fails too where its retry's scan poisons a row of a tile it uses.
What its readings find wrong is a free value (log entry 73). -/
def State.cimev (s : State) (b mask : Nat) (timeDomain : Bool) (inputs : List Word) : State × Word :=
  let s := s.copyPending b
  let tiles := maskTiles b mask
  if (s.tileReason tiles 0).isSome then (s, 0x30000)
  else
    let rows := (List.range 256).filter (fun k => bitAt (inputs.getD (k / 32) 0).toNat (k % 32))
    let act := tiles.map (fun t => (t, rows))
    let spread := s.fld (CIM.CFG_SPREAD b)
    let thr := s.thresholdsOf b
    let word (out : List Nat) : Word :=
      BitVec.ofNat 32 (2 ^ 24 * min 255 out.length + 2 ^ 16 * natOfBool out.isEmpty + out.headD 0)
    if timeDomain then
      let out := s.tdCrossing spread thr (s.readTiles [] act)
      ((((s.touchTiles act).bump (CIM.EVCNT_TD b) 1).spend), word out)
    else
      let r := s.spend.digitalRun b spread thr act (Config.upsets s.free)
      match r.2, tiles.any (fun t => r.1.flag (CIM.TSTAT_POISON t)) with
      | some out, false => (r.1, word out)
      | _, _ => (r.1, 0x30000)

/-! ### Registers and lifecycle (R224, R242) -/

/-- A read of THRDATA: entry INDEX, which then rises (R224). -/
def State.readThr (s : State) (b : Nat) : State × Word :=
  let i := s.fld (CIM.THRIDX_INDEX b)
  (s.setFld (CIM.THRIDX_INDEX b) (i + 1), (tget (fun _ => (0 : BitVec 20)) s.cim.thresholds (256 * b + i)).setWidth 32)

/-- A write of THRDATA (R224). -/
def State.writeThr (s : State) (b : Nat) (v : Word) : State :=
  let i := s.fld (CIM.THRIDX_INDEX b)
  (s.onCim (fun k => { k with thresholds := tput (fun _ => 0) k.thresholds (256 * b + i) (v.setWidth 20) })).setFld
    (CIM.THRIDX_INDEX b) (i + 1)

/-- A store to CIM.CTL (R242). -/
def State.storeBankCtl (s : State) (c : CoreId) (b : Nat) (val : Word) : State :=
  let s := s.storeReg c (CIM.CTL b) val
  (s.enableActs (unitBank b) (s.flag (CIM.CTL_EN b))).bankFalls b

/-- A store to CIM.TCTL (R242). -/
def State.storeTileCtl (s : State) (c : CoreId) (t : Nat) (val : Word) : State :=
  let s := s.storeReg c (CIM.TCTL t) val
  s.enableActs (unitTile t) (s.flag (CIM.TCTL_EN t))

/-- A bank has risen: each tile with EN = 1 rises (R242). -/
def State.bankRisen (s : State) (b : Nat) : State :=
  s.each (maskTiles b 0xFF) (fun s t =>
    if s.flag (CIM.TCTL_EN t) ∧ s.fld (CIM.TSTAT_LIFE t) = 0 then s.setLife (unitTile t) 1 else s)

/-- STAT with its live bits (R243): an evaluation runs from its start to the command that ends it. A scan takes less than a tick, so
that after one has started the bit is a free value until a tick has passed. -/
def State.bankStat (s : State) (b : Nat) : State × Word :=
  let w := bitsPut (s.getReg (CIM.STAT b)) 29 29 (natOfBool (s.evalOf b).isSome)
  match tget (fun _ => none) s.cim.scanned b with
  | some t => if (s.crypt.ticks - t).toNat ≤ 1 then (s.spend, bitsPut w 28 28 (natOfBool (Config.scanRuns s.free))) else (s, w)
  | none => (s, w)

/-- An evaluation that runs uses a tile. -/
def State.tileBusy (s : State) (t : Nat) : Bool :=
  match s.evalOf (t / 8) with
  | some e => bitAt e.tiles (t % 8)
  | none => false

/-- A tile loses its cells (R242). -/
def State.tileLost (s : State) (t : Nat) : State :=
  s.onCim (fun k => { k with cells := tdrop (fun key => decide (key / 256 = t)) k.cells })

/-- A rising tile copies its rows from the golden store (R242). -/
def State.tileRisen (s : State) (t : Nat) : State :=
  let s := s.each (List.range 256) (fun s r => s.copyRow (rowKey t r))
  (s.onCim (fun k => { k with pending := k.pending.filter (fun x => decide (x / 256 ≠ t)) })).pendSync (t / 8)

/-- Power leaves the shared islands: golden store, tiles and streams are gone (R209, R213). -/
def State.cimLost (s : State) : State := { s with cim := Cim.reset }

/-- The choir domain is OFF: shots whose summary has not come end without a verdict (R251). -/
def State.streamsLost (s : State) : State :=
  s.each (List.range 4) (fun s b =>
    let s := s.setStreams b ((s.streams b).filter (fun x => x.summary.isSome))
    let s := match s.evalOf b with
      | some e => if (s.streamOf b e).isNone then s.evalOver b else s
      | none => s
    (s.leaseSync b).bankFalls b)

end Sys2Proof.Machine
end

