-- ==== Sys2Proof/Machine/Outputs.lean ====
section
/-! DEFINITION. The outputs island: the output feed, pulse pins and current loops (R308 to R331). -/
namespace Sys2Proof.Machine

/-- Rewrite the outputs' fields. -/
def State.onOut (s : State) (f : Outp → Outp) : State := { s with outp := f s.outp }

/-- Nave event 9 of the outputs island (R331). -/
def State.outEvent (s : State) : State := s.raiseEvent .outputs .nave 9

/-! ### The feed as the quantity island sends it (R308, R310) -/

/-- Feed addresses of R308. -/
def feedFlow (k : Nat) : Nat := 0x200 + k
def feedStage (k : Nat) : Nat := 0x240 + k
def feedStatus (k : Nat) : Nat := 0x280 + k
def feedHeartbeat : Nat := 0x300
def feedCatchStart : Nat := 0x301
def feedCatchEnd : Nat := 0x302

/-- One item: a WADDR word, then a WDATA word. -/
def State.feedPair (s : State) (addr : Nat) (w : Word) : State :=
  (s.send .quantity .outputs tagWaddr (BitVec.ofNat 32 addr)).send .quantity .outputs tagWdata w

/-- An increment as one item, or as several that together make it up; none is above 0xFFFF_FFFF. -/
def State.feedSplit (s : State) (addr n : Nat) : Nat → State
  | 0 => s
  | fuel + 1 =>
    if n ≤ 0xFFFFFFFF then s.feedPair addr (BitVec.ofNat 32 n)
    else (s.feedPair addr 0xFFFFFFFF).feedSplit addr (n - 0xFFFFFFFF) fuel

/-- An increment of a tally reaches the feed: sent while the strait is OPEN, else added to the pending sum (R310). -/
def State.feedTally (s : State) (tally n : Nat) : State :=
  if n = 0 then s
  else if s.strait .quantity .outputs = .isOpen then s.feedSplit tally n (n / 0xFFFFFFFF + 1)
  else s.onOut (fun o =>
    { o with sums := tput (fun _ => 0) o.sums tally ((tget (fun _ => 0) o.sums tally + n) % 2 ^ 64) })

/-- A flow, stage or status reaches the feed: sent, or kept as the latest of its kind (R310). -/
def State.feedItem (s : State) (addr : Nat) (w : Word) : State :=
  if s.strait .quantity .outputs = .isOpen then s.feedPair addr w
  else s.onOut (fun o => { o with kept := tput (fun _ => none) o.kept addr (some w) })

/-- The strait is OPEN again: start of catch-up, the pending sums, the kept values, end of catch-up (R310). -/
def State.feedReopen (s : State) : State :=
  let sums := s.outp.sums
  let kept := s.outp.kept
  let s := s.onOut (fun o => { o with sums := [], kept := [] })
  let s := s.feedPair feedCatchStart 0
  let s := s.each sums (fun s e => s.feedSplit e.1 e.2 (e.2 / 0xFFFFFFFF + 1))
  let s := s.each kept (fun s e => match e.2 with | some w => s.feedPair e.1 w | none => s)
  s.feedPair feedCatchEnd 0

/-- Take back one item that has not completed its handshake. -/
def State.feedUnsend (s : State) (addr : Nat) (w : Word) : State :=
  if addr ≤ 0x19B then s.feedTally addr w.toNat
  else if 0x200 ≤ addr ∧ addr < 0x300 then s.feedItem addr w
  else s

/-- Take back items from the words of the feed strait, oldest first; w0 is a WADDR whose WDATA has not come. -/
def State.feedUnsendAll (s : State) (w0 : Option Word) : List Wire → State
  | [] => s
  | x :: rest =>
    if x.tag = tagWaddr then s.feedUnsendAll (some x.word) rest
    else match w0 with
      | some a => (s.feedUnsend (a.toNat % 1024) x.word).feedUnsendAll none rest
      | none => s.feedUnsendAll none rest

/-- The address that the quantity island put on the feed for an item whose WDATA has not crossed. -/
def WriteAddr.sent : WriteAddr → Word
  | .good a => a
  | .damaged a => a

/-- The feed strait has entered CLOSING: an amount whose WDATA has not completed its handshake counts as pending again, whether
or not its WADDR crossed whole; the word whose handshake is in progress still crosses (R30, R310). -/
def State.feedRecall (s : State) : State :=
  let mine (x : Wire) : Bool := decide (x.src = .quantity) && decide (x.dst = .outputs)
  let key := straitKey .quantity .outputs
  let all := s.wires.filter mine
  let busy := decide (s.strait .quantity .outputs = .closing true)
  let front := if busy then all.take 1 else []
  let held := (tget (fun _ => none) s.waddr key).map WriteAddr.sent
  let t := { s with wires := s.wires.filter (fun x => !mine x) ++ front, waddr := if front.isEmpty then terase s.waddr key else s.waddr }
  match front with
  | x :: _ => t.feedUnsendAll (if x.tag = tagWaddr then some x.word else none) (all.drop 1)
  | [] => t.feedUnsendAll held all

/-- HEARTBEAT_SEND (R308): V set and not suspended, and G; nothing is kept while the strait is not OPEN (R310). -/
def execHeartbeatSend (s : State) : Out :=
  let v := s.flag SYS.MODE_V && !s.flag SYS.MODE_VSUSP
  .next (if s.domOn .choir ∧ s.strait .quantity .outputs = .isOpen then
    s.feedPair feedHeartbeat (BitVec.ofNat 32 (natOfBool v + 2 * natOfBool (s.flag SYS.MODE_G)))
  else s)

/-! ### Pins (R312 to R325) -/

/-- Pin modes of R312. -/
def pinEmit : Nat := 0
def pinVerify : Nat := 1
def pinInput : Nat := 2

/-- The unit of a pin is ON. -/
def State.pinOn (s : State) (n : Nat) : Bool := s.fld (OUT.PINSTAT_LIFE n) == 2

/-- Whether SRC lies in the range that MODE allows (R312). -/
def srcAllowed (mode src : Nat) : Bool :=
  if mode = pinEmit then decide (src ≤ 391)
  else if mode = pinVerify then decide (396 ≤ src ∧ src ≤ 411)
  else true

/-- Raise the debt of a pin; pulses beyond 0xFF_FFFF are lost and counted (R317). -/
def State.addDebt (s : State) (n k : Nat) : State :=
  let sum := s.fld (OUT.PINDEBT_DEBT n) + k
  if sum ≤ 0xFFFFFF then s.setFld (OUT.PINDEBT_DEBT n) sum
  else
    (((s.setFld (OUT.PINDEBT_DEBT n) 0xFFFFFF).bump (OUT.PINDEBT_OVER n) (sum - 0xFFFFFF)).setFlag
      (OUT.PINSTAT_DEBTOVF n) true).outEvent

/-- An emitter takes an increment of its tally (R315). -/
def State.emitAdd (s : State) (n inc : Nat) : State :=
  let weight := s.fld (OUT.PINWEIGHT_WEIGHT n)
  let acc := s.fld (OUT.PINACC_ACC n) + inc
  (s.setFld (OUT.PINACC_ACC n) (acc % weight)).addDebt n (acc / weight)

/-- Whether a pin takes increments now: an EMIT pin, subject to CATCHUP (R318), or a VERIFY pin under V = 1 (R319). -/
def State.emitter (s : State) (n : Nat) : Bool :=
  let mode := s.fld (OUT.PINCTL_MODE n)
  s.pinOn n && s.flag (OUT.PINCTL_EN n) && (mode == pinEmit || (mode == pinVerify && s.flag OUT.FEEDSTAT_V)) &&
    (!s.flag OUT.FEEDSTAT_CATCHING || s.flag OUT.CFG_CATCHUP)

/-- A VERIFY pin goes quiet: pulse cut, ACC and DEBT cleared (R319). -/
def State.quiet (s : State) (n : Nat) : State :=
  if s.fld (OUT.PINCTL_MODE n) = pinVerify then
    ((s.setFlag (OUT.PINSTAT_ACTIVE n) false).setFld (OUT.PINACC_ACC n) 0).setFld (OUT.PINDEBT_DEBT n) 0
  else s

/-- PULSE_START (R316): DEBT > 0 and the gap elapsed. -/
def execPulseStart (n : Fin 8) (s : State) : Out :=
  let mode := s.fld (OUT.PINCTL_MODE n)
  .next (if s.pinOn n && (mode == pinEmit || (mode == pinVerify && s.flag OUT.FEEDSTAT_V)) &&
      !s.flag (OUT.PINSTAT_ACTIVE n) && decide (0 < s.fld (OUT.PINDEBT_DEBT n)) then
    ((s.setFld (OUT.PINDEBT_DEBT n) (s.fld (OUT.PINDEBT_DEBT n) - 1)).setFlag (OUT.PINSTAT_ACTIVE n) true).activity (unitPin n)
  else s)

/-- PULSE_END (R316): CNT rises by 1. -/
def execPulseEnd (n : Fin 8) (s : State) : Out :=
  .next (if s.flag (OUT.PINSTAT_ACTIVE n) then
    (s.setFlag (OUT.PINSTAT_ACTIVE n) false).bumpWrap (OUT.PINCNT_CNT n) 1
  else s)

/-- INPUT_PULSE_COUNT (R321). -/
def execInputPulseCount (n : Fin 8) (s : State) : Out :=
  .next (if s.pinOn n && s.fld (OUT.PINCTL_MODE n) == pinInput then
    (s.bumpWrap (OUT.PINCNT_CNT n) 1).activity (unitPin n)
  else s)

/-- Whether OUT.LOCK keeps the nave from a register of the OUT block (R313). -/
def State.outLocked (s : State) (c : CoreId) (a : Nat) : Bool :=
  let off := a - 0x40050000
  decide (c = .nave) &&
    (decide (0x100 ≤ off ∧ off < 0x200) && bitAt (s.fld OUT.LOCK_PIN) ((off - 0x100) / 0x20) ||
      decide (0x300 ≤ off ∧ off < 0x340) && bitAt (s.fld OUT.LOCK_LOOP) ((off - 0x300) / 0x20))

/-- A store to PINADD (R319): adds pulses to a VERIFY pin while V = 1. -/
def State.storePinadd (s : State) (n : Nat) (val : Word) : State :=
  if s.fld (OUT.PINCTL_MODE n) = pinVerify ∧ s.flag OUT.FEEDSTAT_V = true then s.addDebt n (bitsOf val 23 0) else s

/-- A store to PINCTL (R312, R314, R320): MODE only while OFF; EN = 1 is stored as 0 with SRC out of range. A pin that
leaves ON drops its line at once. -/
def State.storePinctl (s : State) (c : CoreId) (n : Nat) (val : Word) : State :=
  let mode := s.fld (OUT.PINCTL_MODE n)
  let off := s.fld (OUT.PINSTAT_LIFE n) == 0
  let s := s.storeReg c (OUT.PINCTL n) val
  let s := if off then s else s.setFld (OUT.PINCTL_MODE n) mode
  let s := if srcAllowed (s.fld (OUT.PINCTL_MODE n)) (s.fld (OUT.PINCTL_SRC n)) then s else s.setFlag (OUT.PINCTL_EN n) false
  let s := s.enableActs (unitPin n) (s.flag (OUT.PINCTL_EN n))
  if s.pinOn n then s else s.setFlag (OUT.PINSTAT_ACTIVE n) false

/-! ### Loops (R326 to R330) -/

/-- Loop sources of R326. -/
def loopFixed : Nat := 0
def loopFlow : Nat := 1
def loopStage : Nat := 2
def loopRate : Nat := 3

/-- The unit of a loop is ON. -/
def State.loopOn (s : State) (j : Nat) : Bool := s.fld (OUT.LPSTAT_LIFE j) == 2

/-- What a loop holds beside its registers. -/
def State.loop (s : State) (j : Nat) : LoopSt := tget (fun _ => LoopSt.empty) s.outp.loops j

/-- Replace it. -/
def State.setLoop (s : State) (j : Nat) (l : LoopSt) : State :=
  s.onOut (fun o => { o with loops := tput (fun _ => LoopSt.empty) o.loops j l })

/-- Round to the nearest integer; a tie goes either way: the spec states no rounding of ties. -/
def State.roundNear (s : State) (x : Rat) : Int :=
  let f := (x + 1/2).floor
  if ((f : Rat) = x + 1/2) && !Config.roundUp s.free then f - 1 else f

/-- The measuring command for a source value, in 0.5 µA (R327). -/
def State.loopCommand (s : State) (j : Nat) (x : Rat) : Nat :=
  let lo := s.sfld (OUT.LPLO_LO j)
  let hi := s.sfld (OUT.LPHI_HI j)
  let q : Rat := if hi = lo then Config.openRat s.free else (x - lo) / ((hi : Rat) - lo)
  (clampInt 7600 41000 (s.roundNear (8000 + 32000 * q))).toNat

/-- A loop that is ON takes its state from R328: a failure level, or its command. -/
def State.loopSync (s : State) (j : Nat) : State :=
  if s.loopOn j then
    let src := s.fld (OUT.LPCTL_SRC j)
    let fail := s.flag (OUT.LPCTL_FORCE j) || (src != loopFixed && s.flag (OUT.LPSTAT_STALE j)) ||
      (s.flag (OUT.LPCTL_ERRFAIL j) && (src == loopFlow || src == loopStage) && s.flag (OUT.LPSTAT_SRCERR j)) ||
      (s.flag (OUT.LPCTL_LOWFAIL j) && s.flag (OUT.LPSTAT_LATCHED j))
    let s := s.setFlag (OUT.LPSTAT_FAILING j) fail
    if fail then s.setFld (OUT.LPCMD_CMD j) (if s.flag (OUT.LPCTL_FAILDIR j) then 43000 else 7000)
    else if src = loopFixed then s.setFld (OUT.LPCMD_CMD j) (s.fld (OUT.LPFIX_CODE j))
    else match (s.loop j).cmd with
      | some x => s.setFld (OUT.LPCMD_CMD j) x
      | none => s
  else s.setFlag (OUT.LPSTAT_FAILING j) false

/-- The source of a loop is refreshed with a value (R326, R327). -/
def State.loopRefresh (s : State) (j : Nat) (x : Rat) : State :=
  if s.loopOn j then
    let s := s.setLoop j { s.loop j with cmd := some (s.loopCommand j x) }
    (((s.setFlag (OUT.LPSTAT_STALE j) false).spend).loopSync j).activity (unitLoop j)
  else s

/-- A store to LPCTL (R326 to R328): EN = 1 is stored as 0 while SRC is not FIXED and HI ≤ LO; another source starts
unrefreshed. DESIGN CHOICE: SRCNUM is held to 0–411 whatever SRC selects (R11; log entry 71). -/
def State.storeLpctl (s : State) (c : CoreId) (j : Nat) (val : Word) : State :=
  let before := (s.fld (OUT.LPCTL_SRC j), s.fld (OUT.LPCTL_SRCNUM j))
  let s := s.storeReg c (OUT.LPCTL j) val
  let s := if s.fld (OUT.LPCTL_SRC j) ≠ loopFixed ∧ s.sfld (OUT.LPHI_HI j) ≤ s.sfld (OUT.LPLO_LO j) then
    s.setFlag (OUT.LPCTL_EN j) false else s
  let s := if (s.fld (OUT.LPCTL_SRC j), s.fld (OUT.LPCTL_SRCNUM j)) = before then s
    else (s.setLoop j LoopSt.empty).setFlag (OUT.LPSTAT_SRCERR j) false
  (s.enableActs (unitLoop j) (s.flag (OUT.LPCTL_EN j))).loopSync j

/-- A store to another loop register acts at once on a FIXED command (R327). -/
def State.storeLoopReg (s : State) (c : CoreId) (a j : Nat) (val : Word) : State := (s.storeReg c a val).loopSync j

/-- A store to LPSTAT: clearing LOOP_LOW ends the latch (R330). -/
def State.storeLpstat (s : State) (c : CoreId) (j : Nat) (val : Word) : State :=
  let s := s.storeReg c (OUT.LPSTAT j) val
  (if s.flag (OUT.LPSTAT_LOOP_LOW j) then s else s.setFlag (OUT.LPSTAT_LATCHED j) false).loopSync j

/-- What LPMEAS shows (R329): while the loop voltage is low, what the loop measured last; else the current that flows, within the
accuracy and the readback error of R73 of the command, or at most 10 µA from a loop that is not ON, and a voltage that the board
sets: a free value. -/
def State.loadLpmeas (s : State) (j : Nat) : State × Word :=
  if s.loopOn j && s.flag (OUT.LPSTAT_LOWNOW j) then s.loadReg (OUT.LPMEAS j)
  else
    let cmd : Int := if s.loopOn j then s.fld (OUT.LPCMD_CMD j) else 0
    let e := if s.loopOn j then clampInt (-60) 60 (Config.loopError s.free) else clampInt 0 40 (Config.loopError s.free)
    (s.spend, bitsPut (bitsPut 0 31 16 (Config.value s.free).toNat) 15 0 (cmd + e).toNat)

/-- What the loop measures now (R329). -/
def State.loopMeas (s : State) (j : Nat) (vdev meas : BitVec 16) : State :=
  (s.setFld (OUT.LPMEAS_VDEV j) vdev.toNat).setFld (OUT.LPMEAS_MEAS j) meas.toNat

/-- LOOP_STALE (R328): STALE s passed without a refresh. -/
def execLoopStale (j : Fin 2) (s : State) : Out :=
  .next (if s.loopOn j && s.fld (OUT.LPCTL_SRC j) != loopFixed then (s.setFlag (OUT.LPSTAT_STALE j) true).loopSync j else s)

/-- LOOP_LOW (R329). -/
def execLoopLow (j : Fin 2) (vdev meas : BitVec 16) (s : State) : Out :=
  .next (if s.loopOn j then
    (((s.loopMeas j vdev meas).setFlag (OUT.LPSTAT_LOOP_LOW j) true).setFlag (OUT.LPSTAT_LOWNOW j) true).outEvent
  else s)

/-- LOWNOW_CLEAR (R329, R330). -/
def execLownowClear (j : Fin 2) (vdev meas : BitVec 16) (s : State) : Out :=
  .next (if s.loopOn j && s.flag (OUT.LPSTAT_LOWNOW j) then
    let s := (s.loopMeas j vdev meas).setFlag (OUT.LPSTAT_LOWNOW j) false
    let s := if s.flag (OUT.LPCTL_LOWFAIL j) && s.flag (OUT.LPSTAT_LOOP_LOW j) then s.setFlag (OUT.LPSTAT_LATCHED j) true else s
    s.loopSync j
  else s)

/-! ### The feed as the outputs island receives it (R308, R309, R318, R319, R326) -/

/-- An increment reaches the pins and loops that name its tally. -/
def State.takeIncrement (s : State) (tally inc : Nat) : State :=
  let s := s.each (List.range 8) (fun s n =>
    if s.emitter n && s.fld (OUT.PINCTL_SRC n) == tally then s.emitAdd n inc else s)
  if s.flag OUT.FEEDSTAT_CATCHING then s
  else s.each (List.range 2) (fun s j =>
    if s.loopOn j && s.fld (OUT.LPCTL_SRC j) == loopRate && s.fld (OUT.LPCTL_SRCNUM j) == tally then
      let l := s.loop j
      s.setLoop j { l with bucket := l.bucket + inc }
    else s)

/-- A heartbeat: V and G; VERIFY pins go quiet at V = 0 and at a rise of V; RATE loops are refreshed. -/
def State.takeHeartbeat (s : State) (w : Word) : State :=
  let was := s.flag OUT.FEEDSTAT_V
  let v := bitsOf w 0 0 == 1
  let s := (s.setFlag OUT.FEEDSTAT_V v).setFlag OUT.FEEDSTAT_G (bitsOf w 1 1 == 1)
  let s := if !v || !was then s.each (List.range 8) State.quiet else s
  s.each (List.range 2) (fun s j =>
    if s.loopOn j && s.fld (OUT.LPCTL_SRC j) == loopRate then
      let l := s.loop j
      let h := (l.bucket :: l.history).take 60
      let avg := s.fld (OUT.LPAVG_AVG j)
      (s.setLoop j { l with bucket := 0, history := h }).loopRefresh j (((h.take avg).sum : Nat) / (avg : Rat))
    else s)

/-- A feed item arrives whole; an item with a reserved address is ignored (R308). -/
def State.feedTake (s : State) (addr : Nat) (w : Word) : State :=
  if addr ≤ 0x19B then s.takeIncrement addr w.toNat
  else if 0x200 ≤ addr ∧ addr < 0x220 then
    s.each (List.range 2) (fun s j =>
      if s.fld (OUT.LPCTL_SRC j) = loopFlow ∧ s.fld (OUT.LPCTL_SRCNUM j) = addr - 0x200 then s.loopRefresh j w.toInt else s)
  else if 0x240 ≤ addr ∧ addr < 0x260 then
    s.each (List.range 2) (fun s j =>
      if s.fld (OUT.LPCTL_SRC j) = loopStage ∧ s.fld (OUT.LPCTL_SRCNUM j) = addr - 0x240 then s.loopRefresh j w.toNat else s)
  else if 0x280 ≤ addr ∧ addr < 0x2A0 then
    s.each (List.range 2) (fun s j =>
      let src := s.fld (OUT.LPCTL_SRC j)
      if (src = loopFlow ∨ src = loopStage) ∧ s.fld (OUT.LPCTL_SRCNUM j) = addr - 0x280 then
        (s.setFlag (OUT.LPSTAT_SRCERR j) (bitsOf w 0 0 == 1)).loopSync j
      else s)
  else if addr = feedHeartbeat then s.takeHeartbeat w
  else if addr = feedCatchStart then (s.setFlag OUT.FEEDSTAT_CATCHING true).each (List.range 8) State.quiet
  else if addr = feedCatchEnd then s.setFlag OUT.FEEDSTAT_CATCHING false
  else s

/-- A pair of the feed is discarded for a parity error (R309). -/
def State.feedBad (s : State) : State :=
  ((s.setFlag OUT.FEEDSTAT_FEEDERR true).bump OUT.FEEDSTAT_PARERR 1).outEvent

/-! ### Lifecycle and retention (R314, R323 to R325) -/

/-- The record of a pin: a pulse in progress counts as owed again (R323). -/
def State.pinRecord (s : State) (n : Nat) : PinRec :=
  { debt := min 0xFFFFFF (s.fld (OUT.PINDEBT_DEBT n) + natOfBool (s.flag (OUT.PINSTAT_ACTIVE n)))
    acc := s.getReg (OUT.PINACC n)
    cnt := s.getReg (OUT.PINCNT n)
    cstart := s.fld (OUT.PINSTAT_CSTART n)
    stored := [] }

/-- The CRC-16 of a record holds: nothing has been stored over it (R324). -/
def PinRec.good (r : PinRec) : Bool := r.stored.isEmpty

/-- The outputs island writes its retention records before power leaves it (R323). -/
def State.outRecords (s : State) : State :=
  let recs := (List.range 8).map (fun n => (n, some (s.pinRecord n)))
  let s := s.each (List.range 8) (fun s n => s.setFlag (OUT.PINSTAT_ACTIVE n) false)
  s.onOut (fun o => { o with records := recs })

/-- Power leaves the outputs island. -/
def State.outLost (s : State) : State := s.onOut (fun o => { o with loops := [] })

/-- A pin takes its record at the rise of the island: a record whose CRC-16 holds is restored (R324); of one that fails, DEBT, ACC
and CNT start at 0 and CSTART, kept in the record itself, counts 1 on; after a crypt reset it reads 1 (R325). -/
def State.pinRestore (s : State) (n : Nat) : State :=
  match tget (fun _ => none) s.outp.records n with
  | some r =>
    if r.good then
      (((s.setFld (OUT.PINDEBT_DEBT n) r.debt).putReg (OUT.PINACC n) r.acc).putReg (OUT.PINCNT n) r.cnt).setFld
        (OUT.PINSTAT_CSTART n) r.cstart
    else (s.setFld (OUT.PINSTAT_CSTART n) r.cstart).bumpWrap (OUT.PINSTAT_CSTART n) 1
  | none => s.bumpWrap (OUT.PINSTAT_CSTART n) 1

/-- The outputs island reaches ON: each pin takes its record; INGAP (R324, R325). -/
def State.outRestore (s : State) : State :=
  (s.each (List.range 8) (fun s n => (s.pinRestore n).setFlag (OUT.PINSTAT_INGAP n) true)).outEvent

/-- A loop that has risen counts its refresh from now and takes its state (R328). -/
def State.loopRisen (s : State) (j : Nat) : State :=
  (((s.setLoop j LoopSt.empty).setFlag (OUT.LPSTAT_STALE j) false).loopSync j).activity (unitLoop j)

/-- A word of a pin's retention record; the spec gives no layout. -/
def PinRec.word (r : PinRec) (i : Nat) : Word :=
  (tget (fun _ => none) r.stored i).getD (Config.guardLayout [r.debt, r.acc.toNat, r.cnt.toNat, r.cstart] i)

/-- A store into a word of a record: its CRC-16 then fails, and CSTART is what its octet now holds (R325). -/
def PinRec.store (r : PinRec) (i : Nat) (val : Word) : PinRec :=
  let o := Config.cstartOctet % 16
  { r with stored := tput (fun _ => none) r.stored i (some val)
           cstart := if o / 4 = i then bitsOf val (8 * (o % 4) + 7) (8 * (o % 4)) else r.cstart }

/-- A store of the nave program into a pin's retention record: it breaks a record, unless it stores what the word held (R323). -/
def State.outRetentionStore (s : State) (a : Nat) (val : Word) : State :=
  let n := (a - 0x40093F00) / 0x10
  let i := a % 0x10 / 4
  let r := (tget (fun _ => none) s.outp.records n).getD ⟨0, 0, 0, 0, []⟩
  if r.word i = val then s
  else s.onOut (fun o => { o with records := tput (fun _ => none) o.records n (some (r.store i val)) })

/-- Words of the pins' retention records. -/
def State.outRetentionLoad (s : State) (a : Nat) : Word :=
  match tget (fun _ => none) s.outp.records ((a - 0x40093F00) / 0x10) with
  | some r => r.word (a % 0x10 / 4)
  | none => Config.guardLayout [] (a - 0x40093F00)

end Sys2Proof.Machine
end

