-- ==== Sys2Proof/Machine/Water.lean ====
section
/-! DEFINITION. Density and specific enthalpy of water at 1.6 MPa (R291): the equations of region 1 of IAPWS-IF97, which the
device's ROM tables hold within 0.01 %. The coefficients are PRESUMED, from IAPWS-IF97 itself (log entry 45). -/
namespace Sys2Proof.Machine

/-- A coefficient of region 1: the exponents I and J, and n as mantissa and power of ten, n = mant × 10^(-exp). -/
structure If97 where
  i : Nat
  j : Int
  mant : Int
  exp : Nat

/-- The 34 coefficients of region 1. -/
def if97Table : List If97 :=
  [⟨0, -2, 14632971213167, 14⟩, ⟨0, -1, -84548187169114, 14⟩, ⟨0, 0, -37563603672040, 13⟩, ⟨0, 1, 33855169168385, 13⟩,
   ⟨0, 2, -95791963387872, 14⟩, ⟨0, 3, 15772038513228, 14⟩, ⟨0, 4, -16616417199501, 15⟩, ⟨0, 5, 81214629983568, 17⟩,
   ⟨1, -9, 28319080123804, 17⟩, ⟨1, -7, -60706301565874, 17⟩, ⟨1, -1, -18990068218419, 15⟩, ⟨1, 0, -32529748770505, 15⟩]
  ++
  [⟨1, 1, -21841717175414, 15⟩, ⟨1, 3, -52838357969930, 18⟩, ⟨2, -3, -47184321073267, 17⟩, ⟨2, 0, -30001780793026, 17⟩,
   ⟨2, 1, 47661393906987, 18⟩, ⟨2, 3, -44141845330846, 19⟩, ⟨2, 17, -72694996297594, 29⟩, ⟨3, -4, -31679644845054, 18⟩,
   ⟨3, 0, -28270797985312, 19⟩, ⟨3, 6, -85205128120103, 23⟩, ⟨4, -5, -22425281908000, 19⟩]
  ++
  [⟨4, -2, -65171222895601, 20⟩, ⟨4, 10, -14341729937924, 26⟩, ⟨5, -8, -40516996860117, 20⟩, ⟨8, -11, -12734301741641, 22⟩,
   ⟨8, -6, -17424871230634, 23⟩, ⟨21, -29, -68762131295531, 32⟩, ⟨23, -31, 14478307828521, 33⟩, ⟨29, -38, 26335781662795, 36⟩,
   ⟨30, -39, -11947622640071, 36⟩, ⟨31, -40, 18228094581404, 37⟩, ⟨32, -41, -93537087292458, 39⟩]

/-- An integer power. -/
def ratPow (x : Rat) (j : Int) : Rat := if 0 ≤ j then x ^ j.toNat else 1 / x ^ (-j).toNat

/-- n of a coefficient. -/
def If97.n (c : If97) : Rat := (c.mant : Rat) / 10 ^ c.exp

/-- 7.1 − π at 1.6 MPa, and τ − 1.222 at a temperature in °C. -/
def if97Pressure : Rat := 71 / 10 - 160 / 1653
def if97Tau (t : Rat) : Rat := 1386 / (t + 27315 / 100)

/-- The derivatives of the reduced Gibbs energy, by pressure and by temperature. -/
def gibbsPi (t : Rat) : Rat :=
  if97Table.foldl (fun a c =>
    if c.i = 0 then a else a - c.n * c.i * if97Pressure ^ (c.i - 1) * ratPow (if97Tau t - 1222 / 1000) c.j) 0
def gibbsTau (t : Rat) : Rat :=
  if97Table.foldl (fun a c => a + c.n * if97Pressure ^ c.i * c.j * ratPow (if97Tau t - 1222 / 1000) (c.j - 1)) 0

/-- Density in kg/m³ and specific enthalpy in J/kg by the equations; the gas constant is 461.526 J/(kg K). -/
def if97Density (t : Rat) : Rat := 16530000 / (461526 / 1000 * (t + 27315 / 100) * gibbsPi t)
def if97Enthalpy (t : Rat) : Rat := 461526 / 1000 * 1386 * gibbsTau t

/-- Water at 1.6 MPa is a liquid from 0 °C to 201.3 °C: what the equations of region 1 cover. -/
def isLiquid (t : Rat) : Bool := decide (0 ≤ t ∧ t ≤ 2013 / 10)

/-- An interpolation error held to its bound of 0.01 % (R291). -/
def romError (e : Rat) : Rat := if e < -1 / 10000 then -1 / 10000 else if 1 / 10000 < e then 1 / 10000 else e

/-- Density of water from the ROM (R291); where the water is no liquid the spec states no value. -/
def waterDensity (t : Rat) : Rat :=
  if isLiquid t then if97Density t * (1 + romError (Config.densityError t)) else Config.waterDensity t

/-- Specific enthalpy of water from the ROM (R291); where the water is no liquid the spec states no value. -/
def waterEnthalpy (t : Rat) : Rat :=
  if isLiquid t then if97Enthalpy t * (1 + romError (Config.enthalpyError t)) else Config.waterEnthalpy t

end Sys2Proof.Machine
end

