-- ==== Sys2Proof/Machine/Qty.lean ====
section
/-! DEFINITION. The quantity island: records, pairs, temperatures, water class, conduit flow, energy and tallies
(R260 to R297, R303, R304). Times are in taps of 1.25 ns / 128; velocities and flows are exact rationals. -/
namespace Sys2Proof.Machine

/-- The quantity engine is ON. -/
def State.qtyOn (s : State) : Bool := s.fld QTY.STAT_LIFE == 2

/-- Choir event 10 (R132). -/
def State.qtyEvent (s : State) : State := s.raiseEvent .quantity .choir 10

/-! ### Numbers -/

/-- One tap of the TDC in seconds (R244). -/
def tapSeconds : Rat := 1 / 102400000000

/-- Put an exact value into a two's-complement field: rounded to a neighbour; beyond the field the spec states no value. -/
def State.putSigned (s : State) (f : Fld) (x : Rat) : State :=
  let n := f.hi + 1 - f.lo
  let i := s.roundFree x
  (s.setFld f (if -(2 ^ (n - 1) : Int) ≤ i ∧ i < 2 ^ (n - 1) then codeOf n i else (Config.value s.free).toNat)).spend

/-- The same for an unsigned field. -/
def State.putUnsigned (s : State) (f : Fld) (x : Rat) : State :=
  let i := s.roundFree x
  (s.setFld f (if 0 ≤ i ∧ i < 2 ^ (f.hi + 1 - f.lo) then i.toNat else (Config.value s.free).toNat)).spend

/-- A quotient; by zero the spec states no value. -/
def State.quot (s : State) (x y : Rat) : Rat := if y = 0 then Config.openRat s.free else x / y

/-- The sum of a list. -/
def ratSum (l : List Rat) : Rat := l.foldl (fun a b => a + b) 0

/-! ### Ages -/

/-- This moment. -/
def State.now (s : State) : Stamp := ⟨0, s.timeSub⟩

/-- Ticks since a moment. -/
def State.age (s : State) (t : Stamp) : Nat := t.secs * 32768 + s.timeSub - t.sub

/-- Whether a moment is no longer than some seconds ago. -/
def State.within (s : State) (t : Stamp) (secs : Nat) : Bool := decide (s.age t ≤ secs * 32768)

/-- A second edge passes. -/
def Stamp.tick (t : Stamp) : Stamp := { t with secs := satAdd 65536 t.secs 1 }

/-- An age in whole seconds as a 16-bit register reads it, saturating. -/
def State.ageSeconds (s : State) (t : Stamp) : Nat := min 0xFFFF (s.age t / 32768)

/-! ### Tallies (R284, R293 to R297) -/

/-- A legal index. -/
def State.index (s : State) (n : Nat) : Nat := tget (fun _ => 0) s.qty.indices n

/-- The record of a read mark in the ledger array: 8 octets and their CRC-16 (R298). -/
def markOf (v : Nat) : Mark := ⟨v, crc16 (leOctets 8 v)⟩

/-- The CRC-16 of a read mark holds (R302). -/
def Mark.good (x : Mark) : Bool := x.crc == crc16 (leOctets 8 x.value)

/-- A read mark of the array. -/
def State.mark (s : State) (n : Nat) : Mark := tget (fun _ => markOf 0) s.qty.marks n

/-- Write a read mark (R295). -/
def State.setMark (s : State) (n v : Nat) : State :=
  s.onQty (fun q => { q with marks := tput (fun _ => markOf 0) q.marks n (markOf v) })

/-- A device or test tally. -/
def State.tallyReg (s : State) (n : Nat) : Nat := tget (fun _ => 0) s.qty.tallies n

/-- Set a device or test tally. -/
def State.setTallyReg (s : State) (n v : Nat) : State :=
  s.onQty (fun q => { q with tallies := tput (fun _ => 0) q.tallies n v })

/-- The value of a tally: a billing tally is its index minus its read mark (R295). -/
def State.tally (s : State) (n : Nat) : Nat := if n < 392 then s.index n - (s.mark n).value else s.tallyReg n

/-- Add to a device or test tally; the output feed takes every increment (R308). -/
def State.bumpTally (s : State) (n k : Nat) : State :=
  if k = 0 then s else (s.setTallyReg n (satAdd (2 ^ 64 - 1) (s.tallyReg n) k)).feedTally n k

/-- Add an increment to a billing tally and its index, and to the test tallies that follow it (R294, R297). -/
def State.bill (s : State) (n k : Nat) : State :=
  if k = 0 then s
  else
    let v := satAdd (2 ^ 64 - 1) (s.index n) k
    let s := (s.onQty (fun q => { q with indices := tput (fun _ => 0) q.indices n v })).feedTally n k
    if s.flag SYS.MODE_V && !s.flag SYS.MODE_VSUSP then
      s.each (List.range 16) (fun s i =>
        if s.flag (QTY.TESTSEL_EN i) && s.fld (QTY.TESTSEL_SRC i) == n then s.bumpTally (396 + i) k else s)
    else s

/-- The whole LSB of an amount and the tally's remainder; the rest is carried (R284). -/
def State.whole (s : State) (n : Nat) (x : Rat) : State × Nat :=
  let r := tget (fun _ => 0) s.qty.remainders n + x
  let w := r.floor.toNat
  (s.onQty (fun q => { q with remainders := tput (fun _ => 0) q.remainders n (r - w) }), w)

/-- Test tallies are cleared at each entry into V (R297). -/
def State.clearTests (s : State) : State := s.onQty (fun q => { q with tallies := tdrop (fun n => decide (396 ≤ n)) q.tallies })

/-- An RZ read of some tallies in one step; it sets the read marks (R7, R295). -/
def State.readTallies (s : State) (l : List Nat) : State × List Nat :=
  (s.each l (fun s n => if n < 392 then s.setMark n (s.index n) else s.setTallyReg n 0), l.map s.tally)

/-- A store to AUXADD (R296). -/
def State.storeAuxadd (s : State) (a : Nat) (val : Word) : State := s.bill (384 + a) (val.toNat * s.fld (QTY.AUXCFG_WEIGHT a))

/-! ### Conduits and paths -/

/-- The acoustic times t_AB′ and t_BA′ of a measured pair in seconds (R261). -/
def State.acoustic (s : State) (m t : Nat) : Rat := ((t : Rat) - s.fld (QTY.PDELAY_TAU m)) * tapSeconds

/-- The transit difference Δt of a measured pair in seconds: less the zero-flow offset (R261). -/
def State.transit (s : State) (m tab tba : Nat) : Rat :=
  ((tba : Rat) - tab) * tapSeconds - (signedOf 24 (s.fld (QTY.PZERO_Z m)) : Rat) / 1000000000000000

/-- The velocity of a measured pair in m/s (R275). -/
def State.pairVelocity (s : State) (m tab tba : Nat) : Rat :=
  s.quot ((s.fld (QTY.PLEN_L m) : Rat) / 1000000 * s.transit m tab tba)
    (2 * ((s.fld (QTY.PGEOM_COS m) : Rat) / 65536) * s.acoustic m tab * s.acoustic m tba)

/-- The speed of sound of a measured pair in m/s (R261). -/
def State.pairSpeed (s : State) (m tab tba : Nat) : Rat :=
  s.quot ((s.fld (QTY.PLEN_L m) : Rat) / 1000000 * (s.acoustic m tab + s.acoustic m tba))
    (2 * s.acoustic m tab * s.acoustic m tba)

/-- The stage of an open conduit in mm, and when its echo record was taken; none while it is invalid (R281). -/
def State.stage (s : State) (k : Nat) : Option (Rat × Stamp) :=
  let f := s.cdCfg k
  match tget (fun _ => none) s.qty.echoes f.level with
  | some (t, at_) =>
    if s.within at_ f.hold then
      let c : Rat := if s.fld (QTY.CLSPEED_C k) = 0 then 1480 else (s.fld (QTY.CLSPEED_C k) : Rat) / 10
      let t' : Rat := ((t : Rat) - f.delay) * tapSeconds
      some (f.mount + c * t' / 2 * 1000, at_)
    else none
  | none => none

/-- The member paths of an open conduit that are DRY (R281). -/
def State.dryPaths (s : State) (k : Nat) : List Nat :=
  let f := s.cdCfg k
  match s.stage k with
  | some (g, _) =>
    if f.isOpen then (f.members.filter (fun e => decide (g < (e.2 + 50 : Nat)))).map (fun e => e.1) else []
  | none => []

/-- A member path of an open conduit is DRY (R281). -/
def State.dry (s : State) (k m : Nat) : Bool := (s.dryPaths k).elem m

/-- The points of a stage–area table up to the first whose stage does not rise (R282). -/
def risingPoints : List (Nat × Nat) → List (Nat × Nat)
  | [] => []
  | [p] => [p]
  | p :: q :: rest => if p.1 < q.1 then p :: risingPoints (q :: rest) else [p]

/-- The points of table t. -/
def State.tablePoints (s : State) (t : Nat) : List (Nat × Nat) :=
  risingPoints ((List.range 16).map (fun i => (s.fld (QTY.SASTAGE_STAGE (16 * t + i)), s.fld (QTY.SAAREA_AREA (16 * t + i)))))

/-- Linear interpolation between the points around a stage. -/
def interpolate (g : Rat) : List (Nat × Nat) → Rat
  | (s0, a0) :: (s1, a1) :: rest =>
    if g ≤ s1 then (a0 : Rat) + ((a1 : Rat) - a0) * (g - s0) / ((s1 : Rat) - s0) else interpolate g ((s1, a1) :: rest)
  | [(_, a)] => a
  | [] => 0

/-- The area of a stage in 10⁻⁶ m², and whether the stage lies outside the table (R282). -/
def tableArea (pts : List (Nat × Nat)) (g : Rat) : Option (Rat × Bool) :=
  match pts, pts.getLast? with
  | p :: _ :: _, some q =>
    if g < p.1 then some (p.2, true) else if (q.1 : Rat) < g then some (q.2, true) else some (interpolate g pts, false)
  | _, _ => none

/-- The result of a path in the open set. -/
def resultOf (c : Conduit) (m : Nat) : Option PathResult := (c.results.find? (fun e => decide (e.1 = m))).map (fun e => e.2)

/-- The last measured velocity of a path, and when it was measured. -/
def State.velocity (s : State) (m : Nat) : Option (Rat × Stamp) := tget (fun _ => none) s.qty.velocity m

/-- Set it. -/
def State.setVelocity (s : State) (m : Nat) (v : Rat) (t : Stamp) : State :=
  s.onQty (fun y => { y with velocity := tput (fun _ => none) y.velocity m (some (v, t)) })

/-- State and velocity of a member path in a set: 1 measured, 2 HELD, 3 SUBST with no velocity yet (R287). -/
def State.pathUse (s : State) (c : Conduit) (m : Nat) : Nat × Rat :=
  match resultOf c m with
  | some (.measured tab tba) => (1, s.pairVelocity m tab tba)
  | _ =>
    match s.velocity m with
    | some (v, at_) =>
      if s.fld (QTY.PATHCFG_HOLD m) ≠ 0 ∧ s.within at_ (s.fld (QTY.PATHCFG_HOLD m)) then (2, v) else (3, 0)
    | none => (3, 0)

/-- Profile factor, Q2.14. -/
def State.profileOf (s : State) (m : Nat) : Rat := (s.fld (QTY.PPROF_PF m) : Rat) / 16384

/-- Velocity of the SUBST paths of a set per unit of profile factor (R288). -/
def State.profileBase (s : State) (k : Nat) (uses : List (Nat × Nat × Rat)) : Rat :=
  let known := uses.filter (fun u => decide (u.2.1 ≠ 3))
  if s.flag (QTY.CDCFG_FALLBACK k) || known.isEmpty then 0
  else ratSum (known.map (fun u => s.quot u.2.2 (s.profileOf u.1))) / known.length

/-- The wet member paths of a set with their states and velocities. -/
def State.uses (s : State) (k : Nat) (wet : List Nat) : List (Nat × Nat × Rat) :=
  let first := wet.map (fun m => (m, s.pathUse (s.conduit k) m))
  let base := s.profileBase k first
  first.map (fun u => if u.2.1 = 3 then (u.1, 3, s.profileOf u.1 * base) else u)

/-- A quadrature weight, Q0.16. -/
def State.weight (s : State) (m : Nat) : Rat := (s.fld (QTY.PGEOM_W m) : Rat) / 65536

/-- The weighted sum of velocities (R280). -/
def State.weighted (s : State) (uses : List (Nat × Nat × Rat)) : Rat := ratSum (uses.map (fun u => s.weight u.1 * u.2.2))

/-- The area used for a set in 10⁻⁶ m²: none where an open conduit has no valid stage or table; and whether the stage
counts as an error (R281, R282). -/
def State.areaUsed (s : State) (k : Nat) : Option Rat × Bool :=
  if s.flag (QTY.CDCFG_KIND k) then
    match s.stage k with
    | some (g, _) =>
      match tableArea (s.tablePoints (s.fld (QTY.CDCFG_SATAB k))) g with
      | some (a, out) => (some a, out)
      | none => (none, true)
    | none => (none, true)
  else (some (s.fld (QTY.AREA_AREA k)), false)

/-- The flow of a set in m³/s (R280, R281, R283). -/
def State.flowOf (s : State) (k : Nat) (uses : List (Nat × Nat × Rat)) : Rat :=
  match (s.areaUsed k).1 with
  | none => 0
  | some a6 =>
    let a := a6 / 1000000
    let q :=
      if s.flag (QTY.CDCFG_KIND k) then
        if uses.isEmpty then 0
        else a * ratSum ((s.members k).map s.weight) * s.quot (s.weighted uses) (ratSum (uses.map (fun u => s.weight u.1)))
      else a * s.weighted uses
    if a ≠ 0 ∧ (if q < 0 then -q else q) / a * 1000 < s.fld (QTY.CDCFG_CUTOFF k) then 0 else q

/-- A temperature that is valid now: no older than 64 s (R262, R268). -/
def State.temperature (s : State) (m : Nat) : Option Rat :=
  match tget (fun _ => none) s.qty.temps m with
  | some (t, at_) => if s.within at_ 64 then some t else none
  | none => none

/-! ### The water class (R262 to R265) -/

/-- Reference speed of sound of fresh water in m/s (R263). -/
def freshSpeed (t : Rat) : Rat :=
  1402385 / 1000 + 5038813 / 1000000 * t - 5799136 / 100000000 * t ^ 2 + 3287156 / 10000000000 * t ^ 3
    - 1398845 / 1000000000000 * t ^ 4 + 2787860 / 1000000000000000 * t ^ 5

/-- Classes 0 fresh, 1 brackish, 2 saline, and 7 for the speed result LOW (R263). -/
def State.speedResult (s : State) (dc : Rat) : Nat :=
  if dc < -(s.fld QTY.CLBANDS_B0 : Rat) / 10 then 7
  else if dc < (s.fld QTY.CLBANDS_B1 : Rat) / 10 then 0
  else if dc < (s.fld QTY.CLBANDS_B2 : Rat) / 10 then 1
  else 2

/-- The class vote is valid (R264). -/
def State.voteValid (s : State) (k : Nat) : Bool :=
  s.flag (QTY.CLCFG_VOTE k) && (match (s.conduit k).vote with
    | some t => s.fld (QTY.CLVOTE_AGE k) == 0 || decide (s.age t < s.fld (QTY.CLVOTE_AGE k) * 32768)
    | none => false)

/-- The candidate class of a set: the first rule of R264 that applies. -/
def State.candidate (s : State) (k : Nat) (allSilent : Bool) (speed : Option Nat) (anyPair : Bool) : Option Nat :=
  let vote := s.fld (QTY.CLVOTE_CLASS k)
  let valid := s.voteValid k
  if allSilent then some 4
  else if valid && (vote == 3 || vote == 5) then some vote
  else match speed with
    | some 7 => some 6
    | some x => some (if valid && decide (vote ≤ 2) && vote != x then 6 else x)
    | none => if valid && decide (vote ≤ 2) then some vote else if anyPair then some 6 else none

/-- A candidate is found: the run counts, and the class changes after PERSIST sets (R265). -/
def State.takeCandidate (s : State) (k cand : Nat) : State :=
  let s := if s.fld (QTY.CLSTAT_CAND k) = cand then s.bump (QTY.CLSTAT_RUN k) 1
    else (s.setFld (QTY.CLSTAT_CAND k) cand).setFld (QTY.CLSTAT_RUN k) 1
  if s.fld (QTY.CLCFG_PERSIST k) ≤ s.fld (QTY.CLSTAT_RUN k) then s.setFld (QTY.CLSTAT_CLASS k) cand else s

/-- The class decision of a set (R262 to R265); under G the classes are frozen (R303). -/
def State.classify (s : State) (k : Nat) (wet : List Nat) (c : Conduit) : State :=
  let speeds := wet.filterMap (fun m => match resultOf c m with
    | some (.measured tab tba) => some (s.pairSpeed m tab tba)
    | _ => none)
  let t : Option Rat := match s.fld (QTY.CLCFG_TUSE k) with
    | 1 => some ((s.sfld (QTY.CLCFG_TFIX k) : Rat) / 10)
    | 2 => s.temperature (s.fld (QTY.CLCFG_TSRC k))
    | _ => none
  let silent := !wet.isEmpty && wet.all (fun m => decide (resultOf c m = some (.failed true)))
  let mean := ratSum speeds / speeds.length
  let s := s.setFlag (QTY.CLSTAT_TVALID k) t.isSome
  let s := match t with | some t => s.putSigned (QTY.CLSPEED_TEMP k) (t * 100) | none => s
  let s := if speeds.isEmpty then s else s.putUnsigned (QTY.CLSPEED_C k) (mean * 10)
  let dc : Option Rat := match t with
    | some t => if speeds.isEmpty then none else some (mean - freshSpeed t)
    | none => none
  let s := match dc with | some d => s.putSigned (QTY.CLSTAT_DELTAC k) (d * 100) | none => s
  if s.flag SYS.MODE_G then s
  else match s.candidate k silent (dc.map s.speedResult) (!speeds.isEmpty) with
    | some cand => s.takeCandidate k cand
    | none => s

/-! ### Closing a set (R277 to R292, R304) -/

/-- What a set that closes uses: its stage, its DRY and its wet member paths, their states and velocities, its flow in m³/s,
whether the stage counts as an error, whether a path is SUBST or HELD, the temperatures of its energy, whether a temperature is
not valid, and whether energy is enabled and not formed (R281, R282, R287, R290, R292). -/
structure SetUse where
  stage : Option (Rat × Stamp)
  dry : List Nat
  wet : List Nat
  uses : List (Nat × Nat × Rat)
  flow : Rat
  badStage : Bool
  subst : Bool
  held : Bool
  temps : Option (Rat × Rat)
  noTemp : Bool
  noEnergy : Bool

/-- FAULTS takes a flag and the conduit it concerns (R306). -/
def State.qtyFault (s : State) (f : Fld) (k : Nat) : State := ((s.setFlag f true).setFld QTY.FAULTS_CD k).qtyEvent

/-- A guard record takes the increments of a set (R304). -/
def State.guardAdd (s : State) (k : Nat) (fwd rev hold errs gvol : Nat) : State :=
  match tget (fun _ => none) s.qty.guard k with
  | some r =>
    let r' : GuardRec := { r with forward := r.forward + fwd, reverse := r.reverse + rev, hold := r.hold + hold,
                                  errors := r.errors + errs, guardVol := r.guardVol + gvol, sets := r.sets + 1 }
    s.onQty (fun q => { q with guard := tput (fun _ => none) q.guard k (some r') })
  | none => s

/-- A GUARDED conduit without a record gets one: frozen class, SEQ of the newest commit that completed (R304, R452). -/
def State.guardOpen (s : State) (k : Nat) : State :=
  match tget (fun _ => none) s.qty.guard k with
  | some _ => s
  | none =>
    let r : GuardRec := { GuardRec.empty with cls := s.fld (QTY.CLSTAT_CLASS k), seq := s.getReg LEDG.SEQ }
    s.onQty (fun q => { q with guard := tput (fun _ => none) q.guard k (some r) })

/-- Guard records are live (R304). -/
def State.guardLive (s : State) : Bool := !s.qty.guard.isEmpty

/-- The class tally of a class (R285, R163). -/
def classTally (cls : Nat) : Nat := if cls ≤ 2 then 5 + cls else 8

/-- Tick count of the last close (R278). -/
def State.lastTicks (s : State) (k : Nat) : Nat := s.fld (QTY.LASTT_TIME k) + 2 ^ 32 * s.fld (QTY.LASTTHI_TIME k)

/-- Set it. -/
def State.setLastTicks (s : State) (k t : Nat) : State :=
  (s.setFld (QTY.LASTT_TIME k) (t % 2 ^ 32)).setFld (QTY.LASTTHI_TIME k) (t / 2 ^ 32)

/-- Bill the volume of a set in LSB, signed: forward with its class tally and guard volume, or reverse; and the
error-hold share (R284, R285, R289, R293). The whole LSB of forward, reverse, hold and guard volume follow. -/
def State.billVolume (s : State) (k : Nat) (lsb : Rat) (held : Bool) : State × Nat × Nat × Nat × Nat :=
  let g := s.flag SYS.MODE_G
  let (s, fwd, rev) :=
    if 0 ≤ lsb then
      let (s, w) := s.whole (12 * k) lsb
      let s := (s.bill (12 * k) w).bill (12 * k + classTally (s.fld (QTY.CLSTAT_CLASS k))) w
      (if g then s.bill (12 * k + 10) w else s, w, 0)
    else
      let (s, w) := s.whole (12 * k + 1) (-lsb)
      (s.bill (12 * k + 1) w, 0, w)
  let (s, hold) :=
    if held then
      let (s, w) := s.whole (12 * k + 2) (if lsb < 0 then -lsb else lsb)
      (s.bill (12 * k + 2) w, w)
    else (s, 0)
  (s, fwd, rev, hold, if g then fwd else 0)

/-- Bill an energy in J, signed (R291). -/
def State.billEnergy (s : State) (k : Nat) (e : Rat) : State :=
  let j := if 0 ≤ e then 3 else 4
  let (s, w) := s.whole (12 * k + j) (if e < 0 then -e else e)
  s.bill (12 * k + j) w

/-- The energy of a set, where it can be formed (R291, R292); dv in m³. -/
def State.energyOf (s : State) (k : Nat) (dv ts tr : Rat) : Rat :=
  let diff := if ts < tr then tr - ts else ts - tr
  if diff < (s.fld (QTY.ENCFG_DTMIN k) : Rat) / 100 then 0
  else dv * waterDensity (if s.flag (QTY.ENCFG_TLOC k) then tr else ts) * (waterEnthalpy ts - waterEnthalpy tr)

/-- The temperatures of a set's energy, where both are valid (R292). -/
def State.energyTemps (s : State) (k : Nat) : Option (Rat × Rat) :=
  match s.temperature (s.fld (QTY.ENCFG_TSUP k)), s.temperature (s.fld (QTY.ENCFG_TRET k)) with
  | some ts, some tr => some (ts, tr)
  | _, _ => none

/-- The stage that a set of an open conduit used goes to the registers (R281). -/
def State.showLevel (s : State) (k : Nat) (stage : Option (Rat × Stamp)) : State :=
  match stage with
  | some (g, at_) =>
    if s.flag (QTY.CDCFG_KIND k) then (s.putUnsigned (QTY.LEVEL_STAGE k) g).setConduit k { s.conduit k with level := some at_ }
    else s
  | none => s

/-- The member paths of a set, with those that were DRY in it, go to the registers (R306). -/
def State.showPaths (s : State) (k : Nat) (dry : List Nat) (uses : List (Nat × Nat × Rat)) : State :=
  let s := s.each (s.members k) (fun s m => (s.setFlag (QTY.PSTAT_DRY m) (dry.elem m)).setFld (QTY.PSTAT_STATE m) 0)
  s.each uses (fun s u => (s.setFld (QTY.PSTAT_STATE u.1) u.2.1).putSigned (QTY.PVEL_V u.1) (u.2.2 * 1000000))

/-- The increments of a set that closes (R278, R282 to R286, R450): volumes over the interval, energy, error time, one
set; with Guard, the open guard record takes them. bad says that the set has an error, whatever its interval. -/
def State.billSet (s : State) (k : Nat) (c : Conduit) (q : Rat) (held bad : Bool) (temps : Option (Rat × Rat)) : State :=
  let ticks := s.crypt.ticks.toNat
  let span := if c.closed then (ticks + 2 ^ 40 - s.lastTicks k) % 2 ^ 40 else 0
  let used := min span (s.fld (QTY.TIMECFG_MAXINT k) * 32768)
  let dv : Rat := q * used / 32768
  let v := s.billVolume k (dv * 10000000) held
  let s := match temps with
    | some (ts, tr) =>
      ((v.1.putSigned (QTY.CDT_TS k) (ts * 100)).putSigned (QTY.CDT_TR k) (tr * 100)).billEnergy k (v.1.energyOf k dv ts tr)
    | none => v.1
  let errTicks := (if bad then used else 0) + (span - used)
  let e := s.whole (12 * k + 9) ((errTicks : Rat) / 32768)
  let s := (e.1.bill (12 * k + 9) e.2).bill (12 * k + 11) 1
  let s := if s.flag SYS.MODE_G && s.guarded k then s.guardOpen k else s
  s.guardAdd k v.2.1 v.2.2.1 v.2.2.2.1 e.2 v.2.2.2.2

/-- The registers and the feed items of a set that closes, from what the set used (R278, R292, R303, R306, R308). -/
def State.showSet (s : State) (k : Nat) (x : SetUse) : State :=
  let s := (s.showLevel k x.stage).showPaths k x.dry x.uses
  let s := s.putSigned (QTY.CDFLOW_Q k) (x.flow * 1000000)
  let s := ((s.setFlag (QTY.CDSTAT_NOLEVEL k) x.badStage).setFlag (QTY.CDSTAT_NOTEMP k) x.noEnergy).setFld (QTY.CDSTAT_WET k) x.wet.length
  let s := if x.subst then s.qtyFault QTY.FAULTS_SUBST k else s
  let s := if x.badStage then s.qtyFault QTY.FAULTS_NOLEVEL k else s
  let s := if x.noTemp then s.qtyFault QTY.FAULTS_NOTEMP k else s
  let s := (s.setLastTicks k s.crypt.ticks.toNat).setFlag (QTY.CDSTAT_INSET k) false
  let s := s.setConduit k { s.conduit k with closed := true, results := [] }
  let s := s.feedItem (feedFlow k) (s.getReg (QTY.CDFLOW k))
  let s := if s.flag (QTY.CDCFG_KIND k) then s.feedItem (feedStage k) (BitVec.ofNat 32 (s.fld (QTY.LEVEL_STAGE k))) else s
  s.feedItem (feedStatus k) (BitVec.ofNat 32 (natOfBool (x.subst || x.badStage || x.noEnergy)))

/-- What a set that closes uses (R280 to R283, R287, R288, R292): the state is the one in which the configuration of the
registers has taken effect (R279). -/
def State.setUse (s : State) (k : Nat) : SetUse :=
  let wet := (s.members k).filter (fun m => !s.dry k m)
  let uses := s.uses k wet
  let en := s.flag (QTY.ENCFG_EN k)
  { stage := s.stage k
    dry := s.dryPaths k
    wet := wet
    uses := uses
    flow := s.flowOf k uses
    badStage := (s.areaUsed k).2
    subst := uses.any (fun u => decide (u.2.1 = 3))
    held := uses.any (fun u => decide (u.2.1 = 2))
    temps := if en && !s.flag SYS.MODE_G then s.energyTemps k else none
    noTemp := en && (s.energyTemps k).isNone
    noEnergy := en && (s.flag SYS.MODE_G || (s.energyTemps k).isNone) }

/-- The set closes: the configuration takes effect; flow, increments, energy, class and the feed follow in one step (R164,
R277 to R292, R304, R308). -/
def State.closeSet (s : State) (k : Nat) : State :=
  let s := s.takeCfg k
  let c := s.conduit k
  let x := s.setUse k
  -- paths without a result have failed; measured velocities are kept (R277, R287)
  let s := (s.bumpTally 395 (x.wet.filter (fun m => (resultOf c m).isNone)).length).spend
  let s := s.each x.uses (fun s u =>
    if u.2.1 = 1 then s.setVelocity u.1 u.2.2 (((s.velocity u.1).map (fun e => e.2)).getD s.now) else s)
  ((s.billSet k c x.flow x.held (x.subst || x.badStage || x.noEnergy) x.temps).classify k x.wet c).showSet k x

/-- The set is discarded without increment (R450). -/
def State.dropSet (s : State) (k : Nat) : State :=
  (s.setFlag (QTY.CDSTAT_INSET k) false).setConduit k { s.conduit k with results := [] }

/-- Close the open set of a conduit once every member path that is not DRY has a result (R277). -/
def State.closeIfFull (s : State) (k : Nat) : State :=
  if s.flag (QTY.CDSTAT_INSET k) && s.metered k &&
      (s.members k).all (fun m => s.dry k m || (resultOf (s.conduit k) m).isSome) then s.closeSet k
  else s

/-- A path result reaches a conduit: the latest counts; the first opens the set (R274, R277). -/
def State.addTo (s : State) (m : Nat) (r : PathResult) (k : Nat) : State :=
  let c := s.conduit k
  let s := s.setConduit k { c with results := (c.results.filter (fun e => decide (e.1 ≠ m))) ++ [(m, r)] }
  (s.setFlag (QTY.CDSTAT_INSET k) true).closeIfFull k

/-- A path result arrives: it goes to the metered conduit for which the path is in effect a member (R274, R277, R279); a DRY path
gives no result (R281). -/
def State.addResult (s : State) (m : Nat) (r : PathResult) : State :=
  s.each ((List.range 32).filter (fun k => s.metered k && (s.members k).elem m && !s.dry k m)) (fun s k => s.addTo m r k)

/-- SET_WINDOW_EXPIRY (R277): SETWIN ms have passed since the set opened. -/
def execSetWindowExpiry (k : Fin 32) (s : State) : Out :=
  .next (if s.flag (QTY.CDSTAT_INSET k) && s.fld QTY.STAT_LIFE != 0 then
    if s.metered k then s.closeSet k else s.dropSet k
  else s)

/-! ### Records (R257, R260, R268, R272, R273) -/

/-- Fields of a record (R257). -/
def recWord (l : List Word) (i : Nat) : Word := l.getD i 0
def recIsle (l : List Word) : Nat := bitsOf (recWord l 0) 27 24
def recTx (l : List Word) : Nat := bitsOf (recWord l 0) 23 17
def recRx (l : List Word) : Nat := bitsOf (recWord l 0) 16 10
def recKind (l : List Word) : Nat := bitsOf (recWord l 0) 9 8
def recSeq (l : List Word) : Nat := bitsOf (recWord l 0) 7 0
def recVerdict (l : List Word) : Nat := bitsOf (recWord l 5) 27 24
def recReason (l : List Word) : Nat := bitsOf (recWord l 5) 23 16
/-- The time of a record in taps (R244). -/
def recTime (l : List Word) : Nat := 128 * bitsOf (recWord l 1) 27 0 + bitsOf (recWord l 2) 27 21

/-- A record tells NOSIGNAL (R264). -/
def recSilent (l : List Word) : Bool := recVerdict l == verdictFail && recReason l == 0x20

/-- Whether a record matches a descriptor (R272). -/
def State.recMatches (s : State) (l : List Word) (m : Nat) : Bool :=
  let ctl := s.getReg (ISLE0.PDCTL m)
  let a := ctlPortA ctl
  let b := ctlPortB ctl
  bitsOf ctl 31 31 == 1 && a / 8 == recIsle l && ctlKind ctl == recKind l &&
    (if recKind l = 0 then (recTx l == a && recRx l == b) || (recTx l == b && recRx l == a)
     else recTx l == a && recRx l == a)

/-- The descriptor of a packet: none where it is rejected (R272, R273). -/
def State.recDescriptor (s : State) (l : List Word) : Option Nat :=
  if l.length = 6 then (List.range 128).find? (fun m => s.recMatches l m) else none

/-- A failed measurement of a path (R260). -/
def State.failedPath (s : State) (m : Nat) (silent : Bool) : State := (s.bumpTally 395 1).addResult m (.failed silent)

/-- The record that waits in a queue for its partner, with its descriptor. -/
def State.half (s : State) (q : Nat) : Option (Nat × List Word) := tget (fun _ => none) s.qty.halves q

/-- Replace it. -/
def State.setHalf (s : State) (q : Nat) (h : Option (Nat × List Word)) : State :=
  s.onQty (fun y => { y with halves := tput (fun _ => none) y.halves q h })

/-- A waiting record stays without partner: a failed measurement of its path (R260). -/
def State.breakHalf (s : State) (q : Nat) : State :=
  match s.half q with
  | some (m, l) => (s.setHalf q none).failedPath m (recSilent l)
  | none => s

/-- The square root of a rational that is not negative, for a register that holds whole LSB: exact where it is whole, else between
its two neighbours. -/
def ratSqrt (x : Rat) : Rat :=
  let r := Nat.sqrt x.floor.toNat
  if (r : Rat) ^ 2 = x then r else (r : Rat) + 1 / 2

/-- The standard deviation of the pair differences of a run (R269); the divisor is the number of pairs, or one less (log 45). -/
def State.deviation (s : State) (l : List Rat) : Rat :=
  let n := l.length
  let mean := ratSum l / n
  ratSqrt (s.quot (ratSum (l.map (fun x => (x - mean) ^ 2))) (if Config.calSample then (n - 1 : Nat) else n))

/-- The calibration accumulator takes a measured pair (R269). -/
def State.calAdd (s : State) (m tab tba : Nat) : State :=
  match s.qty.cal with
  | some r =>
    if r.pd = m then
      let pairs := r.pairs ++ [((tba : Rat) - tab, ((tab : Rat) + tba) / 2)]
      let n := pairs.length
      let s := s.setFld QTY.CALN_N n
      if n < r.count then s.onQty (fun y => { y with cal := some { r with pairs := pairs } })
      else
        let fs : Rat := 9765625 / 1000
        let s := s.putSigned QTY.CALDT_MEAN (ratSum (pairs.map (fun p => p.1)) / n * fs)
        let s := s.putUnsigned QTY.CALTM_MEAN (ratSum (pairs.map (fun p => p.2)) / n)
        let s := s.putUnsigned QTY.CALSD_SD (s.deviation (pairs.map (fun p => p.1 * fs)))
        let s := (s.setFlag QTY.CALCTL_BUSY false).setFlag QTY.CALCTL_DONE true
        (s.onQty (fun y => { y with cal := none })).qtyEvent
    else s
  | none => s

/-- A store to CALCTL: START begins or restarts a run (R269). -/
def State.storeCalctl (s : State) (c : CoreId) (val : Word) : State :=
  let s := (s.storeReg c QTY.CALCTL val).setFld QTY.CALCTL_START 0
  if bitsOf val 31 31 = 1 then
    let r : CalRun := ⟨s.fld QTY.CALCTL_PD, s.fld QTY.CALCTL_COUNT, []⟩
    ((s.setFlag QTY.CALCTL_BUSY true).setFld QTY.CALN_N 0).onQty (fun y => { y with cal := some r })
  else s

/-- A pair of records of one descriptor (R260, R261); l came first. -/
def State.addPair (s : State) (m : Nat) (l r : List Word) : State :=
  if recVerdict l = verdictConfirm ∧ recVerdict r = verdictConfirm then
    let forward := recTx l == ctlPortA (s.getReg (ISLE0.PDCTL m))
    let tab := recTime (if forward then l else r)
    let tba := recTime (if forward then r else l)
    let s := (s.bumpTally 394 1).calAdd m tab tba
    let s := (s.setVelocity m (s.pairVelocity m tab tba) s.now).spend
    s.addResult m (.measured tab tba)
  else s.failedPath m (recSilent l || recSilent r)

/-- A TRANSIT record: it completes the waiting record's pair, or waits for its own partner (R260). -/
def State.takeTransit (s : State) (q m : Nat) (r : List Word) : State :=
  match s.half q with
  | some (m', l) =>
    if m' = m ∧ recTx l = recRx r ∧ recRx l = recTx r ∧ recSeq r = (recSeq l + 1) % 256 then
      (s.setHalf q none).addPair m l r
    else (s.breakHalf q).setHalf q (some (m, r))
  | none => s.setHalf q (some (m, r))

/-- Resistance ratio of a platinum sensor by temperature in °C (R268). -/
def platinum (t : Rat) : Rat :=
  let r := 1 + 39083 / 10000000 * t - 5775 / 10000000000 * t ^ 2
  if t < 0 then r - 4183 / 1000000000000000 * (t - 100) * t ^ 3 else r

/-- Invert the characteristic by halving an interval. -/
def platinumInverse (ratio : Rat) : Rat → Rat → Nat → Rat
  | lo, hi, 0 => (lo + hi) / 2
  | lo, hi, n + 1 =>
    let mid := (lo + hi) / 2
    if platinum mid ≤ ratio then platinumInverse ratio mid hi n else platinumInverse ratio lo mid n

/-- The temperature of a resistance ratio: the free value where it lies within 0.002 K of the characteristic (R268). -/
def State.invertRtd (s : State) (ratio : Rat) : Rat :=
  let t := platinumInverse ratio (-200) 850 40
  let u := t + Config.rtdError s.free
  if platinum (u - 2 / 1000) ≤ ratio ∧ ratio ≤ platinum (u + 2 / 1000) then u else t

/-- The temperature of a CONFIRM RTD record, where it is valid (R268). -/
def State.rtdTemperature (s : State) (r : List Word) : Option Rat :=
  let n := recIsle r
  match tget (fun _ => none) s.qty.refs n with
  | some (t, at_) =>
    if s.within at_ 64 ∧ t ≠ 0 then
      let ohm := (s.fld (QTY.RREF_RREF n) : Rat) / 1000 * recTime r / t
      let nominal : Rat := match s.fld (QTY.RREF_TYPE n) with | 0 => 100 | 1 => 500 | _ => 1000
      let ratio := ohm / nominal
      if 100 ≤ ohm ∧ ohm ≤ 5000 ∧ platinum (-200) ≤ ratio ∧ ratio ≤ platinum 850 then some (s.invertRtd ratio) else none
    else none
  | none => none

/-- An ECHO, RTD or REFERENCE record; only a CONFIRM one is used (R260, R268, R281). -/
def State.takeSingle (s : State) (m : Nat) (r : List Word) : State :=
  if recVerdict r ≠ verdictConfirm then s
  else match recKind r with
    | 1 =>
      let s := s.onQty (fun y => { y with echoes := tput (fun _ => none) y.echoes m (some (recTime r, s.now)) })
      s.each ((List.range 32).filter (fun k => (s.cdCfg k).isOpen && (s.cdCfg k).level == m)) State.closeIfFull
    | 2 =>
      let t := s.rtdTemperature r
      (s.onQty (fun y => { y with temps := tput (fun _ => none) y.temps m (t.map (fun t => (t, s.now))) })).spend
    | _ => s.onQty (fun y => { y with refs := tput (fun _ => none) y.refs (recIsle r) (some (recTime r, s.now)) })

/-- A packet that is rejected (R273). -/
def State.rejectPacket (s : State) (q : Nat) : State :=
  (((s.bumpTally 392 1).setFlag QTY.FAULTS_REJECT true).qtyEvent).breakHalf q

/-- A gap marker: one word with G = 1 (R99, R260). -/
def isMarker (l : List Word) : Bool := l.length == 1 && bitsOf (recWord l 0) 29 29 == 1

/-- QTY_TAKE_PACKET (R272): the packet on the strait is matched and used. -/
def execQtyTakePacket (s : State) : Out :=
  .next (match s.qty.taken with
    | some (q, l) =>
      if s.qtyOn then
        let s := s.onQty (fun y => { y with taken := none })
        if isMarker l then s.breakHalf q
        else match s.recDescriptor l with
          | some m => if recKind l = 0 then s.takeTransit q m l else (s.breakHalf q).takeSingle m l
          | none => s.rejectPacket q
      else s
    | none => s)

/-! ### Register stores of the QTY block -/

/-- A store to CLVOTE: a write restarts the age (R264, R271). DESIGN CHOICE: so does a write whose CLASS is the reserved code 7,
which stores no class (R10; log entry 71). -/
def State.storeClvote (s : State) (c : CoreId) (k : Nat) (val : Word) : State :=
  let s := s.storeReg c (QTY.CLVOTE k) val
  s.setConduit k { s.conduit k with vote := some s.now }

/-- A store to CDCFG: EN = 1 is stored as 0 unless the conduit can be metered (R306); the log shows the whole value written
(R353). A conduit that was not metered has no set to wait for: enabling it puts its configuration into effect (log entry 74). -/
def State.storeCdcfg (s : State) (c : CoreId) (k : Nat) (val : Word) : State :=
  let t := s.storeReg c (QTY.CDCFG k) val
  let t := if s.slStores && !s.canMeter k then t.setFlag (QTY.CDCFG_EN k) false else t
  if (t.conduit k).inEffect.isNone then t.takeCfg k else t

/-- A store to CTL (R306, R456). -/
def State.storeQtyCtl (s : State) (c : CoreId) (val : Word) : State :=
  let s := s.storeReg c QTY.CTL val
  s.enableActs unitQty (s.flag QTY.CTL_EN)

/-- VOTE_AGE_EXPIRY (R264): the lifetime of the vote has passed. -/
def execVoteAgeExpiry (k : Fin 32) (s : State) : Out :=
  .next (if s.fld (QTY.CLVOTE_AGE k) ≠ 0 then s.setConduit k { s.conduit k with vote := none } else s)

/-! ### What passes with the seconds, and with Guard -/

/-- Stamps of a table move by a second. -/
def tickTable {α : Type} (l : List (Nat × Option (α × Stamp))) : List (Nat × Option (α × Stamp)) :=
  l.map (fun e => (e.1, e.2.map (fun v => (v.1, v.2.tick))))

/-- A second edge: ages advance, and GUARDSEC counts while G is set (R293, R451). -/
def State.qtySecond (s : State) : State :=
  let s := s.onQty (fun y => { y with
    velocity := tickTable y.velocity
    echoes := tickTable y.echoes
    refs := tickTable y.refs
    temps := tickTable y.temps
    conduits := y.conduits.map (fun e => (e.1, { e.2 with vote := e.2.vote.map Stamp.tick, level := e.2.level.map Stamp.tick })) })
  if s.flag SYS.MODE_G && s.domOn .choir then s.bumpTally 393 1 else s

/-- Guard entry (R450): SAVED conduits lose their open set; the guard records start, or go on. -/
def State.qtyGuardEnter (s : State) : State :=
  if s.domOn .choir then
    s.each (List.range 32) (fun s k =>
      if s.guarded k then s.guardOpen k
      else if s.flag (QTY.CDSTAT_INSET k) then s.dropSet k else s)
  else s

/-- Power leaves the quantity island: its tallies, indices and sets are gone; what lies in the ledger array and in
crypt retention stays (R57, R284, R298, R304, R310). -/
def State.qtyLost (s : State) : State :=
  let y := s.qty
  { s with
    qty := { Qty.reset with marks := y.marks, guard := y.guard, guardWord := y.guardWord, bankA := y.bankA, bankB := y.bankB }
    outp := { s.outp with sums := [], kept := [] } }

end Sys2Proof.Machine
end

