-- ==== Sys2Proof/Machine/Ledger.lean ====
section
/-! DEFINITION. The ledger: commits, restore at start-up, guard records and guard word (R298 to R305, R452 to R454). -/
namespace Sys2Proof.Machine

/-! ### Banks and images (R298) -/

/-- A velocity as numbers: sign, numerator and denominator. -/
def ratItems (x : Rat) : List Nat := [natOfBool (decide (x.num < 0)), x.num.natAbs, x.den]

/-- Items 1 to 5 of a bank, in the order of R298: SEQ; reason and TIME_SEC; the 392 legal indices; LASTT, class and run count of
every conduit, with whether it has closed a set, and velocity and age of the paths; and the SL fields. -/
def Image.items (x : Image) : List Nat :=
  [x.seq.toNat, x.reason, x.sec.toNat] ++ (List.range 392).map (tget (fun _ => 0) x.indices) ++
    x.conduits.flatMap (fun e => [e.1, natOfBool e.2.1, e.2.2.1, e.2.2.2.1, e.2.2.2.2]) ++
    x.paths.flatMap (fun e => e.1 :: ((e.2.1.map ratItems).getD [] ++ [e.2.2])) ++
    x.sl.flatMap (fun e => [e.1, e.2.toNat])

/-- A bank is valid: its commit word and the complement agree, and its CRC-32 matches (R302). -/
def LedgerBank.valid (b : LedgerBank) : Bool :=
  b.commitInv == ~~~b.commitSeq && b.crc == Config.ledgerCrc b.image.items

/-- A bank as a commit starts: the begin word is written, and the commit word is erased (R299). -/
def LedgerBank.begun (seq : Word) : LedgerBank := { LedgerBank.empty with blank := false, beginSeq := seq }

/-- A bank as a commit completes: items 1 to 5, their CRC-32, and the commit word (R298, R299). -/
def LedgerBank.written (x : Image) : LedgerBank where
  blank := false
  beginSeq := x.seq
  image := x
  crc := Config.ledgerCrc x.items
  commitSeq := x.seq
  commitInv := ~~~x.seq

/-- The newest valid bank: true for bank B (R302). -/
def Qty.newest (q : Qty) : Option (Bool × LedgerBank) :=
  match q.bankA.valid, q.bankB.valid with
  | true, true => if q.bankA.image.seq.toNat < q.bankB.image.seq.toNat then some (true, q.bankB) else some (false, q.bankA)
  | true, false => some (false, q.bankA)
  | false, true => some (true, q.bankB)
  | false, false => none

/-- The bank that a commit writes: the one without the newest valid image (R299). -/
def Qty.target (q : Qty) : Bool :=
  match q.newest with
  | some (b, _) => !b
  | none => false

/-- Write a bank of the array. -/
def Qty.setBank (q : Qty) (b : Bool) (x : LedgerBank) : Qty := if b then { q with bankB := x } else { q with bankA := x }

/-- The SL bits of a register. -/
def slMask (r : RegSpec) : Word :=
  (r.fields.filter (fun f => decide (f.acc = .sl))).foldl (fun m f => bitsPut m f.hi f.lo (2 ^ (f.hi + 1 - f.lo) - 1)) 0

/-- The SL bits of a word of the register at an address. -/
def slBits (a : Nat) (w : Word) : Word :=
  match regFind a with
  | some (r, _) => w &&& slMask r
  | none => 0

/-- The SL fields of the device as they stand: the registers that differ from their reset values (R298). -/
def State.slFields (s : State) : List (Nat × Word) :=
  (s.regs.filter (fun e => decide (slBits e.1 0xFFFFFFFF ≠ 0))).map (fun e => (e.1, slBits e.1 e.2))

/-- Put the SL bits of a register. -/
def State.putSl (s : State) (a : Nat) (w : Word) : State :=
  let mask := slBits a 0xFFFFFFFF
  s.putReg a ((s.getReg a &&& ~~~mask) ||| (w &&& mask))

/-- Restore every SL field from an image: those it does not list take their reset values (R302). -/
def State.restoreSl (s : State) (l : List (Nat × Word)) : State :=
  let s := s.each (s.regs.map (fun e => e.1)) (fun s a => s.putSl a (regReset a))
  s.each l (fun s e => s.putSl e.1 e.2)

/-- The snapshot of a commit (R298, R299). -/
def State.image (s : State) (reason : Nat) : Image :=
  { seq := s.getReg LEDG.SEQ + 1
    reason := reason
    sec := s.timeSec
    indices := s.qty.indices
    conduits := (List.range 32).map (fun k =>
      (k, ((s.conduit k).closed, s.lastTicks k, s.fld (QTY.CLSTAT_CLASS k), s.fld (QTY.CLSTAT_RUN k))))
    paths := s.qty.velocity.filterMap (fun e => e.2.map (fun v => (e.1, (some v.1, v.2.secs))))
    sl := s.slFields }

/-! ### Commits (R165, R299 to R301, R452) -/

/-- A commit starts: snapshot, begin word, and the target's commit word is erased (R299). -/
def State.beginCommit (s : State) (reason : Nat) (activate : Bool) : State :=
  let img := s.image reason
  s.onQty (fun q =>
    { (q.setBank q.target (LedgerBank.begun img.seq)) with
      commit := some ⟨img, activate, q.guard⟩ })

/-- A cause of R300 arises: a commit starts, or it merges into the follow-up of the running one. -/
def State.askCommit (s : State) (reason : Nat) (activate : Bool) : State :=
  if s.domOn .choir then
    match s.qty.commit with
    | none => s.beginCommit reason activate
    | some _ =>
      let f := match s.qty.follow with
        | some (r, a) => (r, a || activate)
        | none => (reason, activate)
      s.onQty (fun q => { q with follow := some f })
  else s

/-- A cause of R300 other than ACTIVATE. -/
def State.startCommit (s : State) (reason : Nat) : State := s.askCommit reason false

/-- The follow-up starts once the running commit has ended (R165, R300). -/
def State.followUp (s : State) : State :=
  match s.qty.follow with
  | some (r, a) => (s.onQty (fun q => { q with follow := none })).beginCommit r a
  | none => s

/-- A guard record loses what it held at a commit's snapshot, and takes its SEQ (R452). -/
def GuardRec.rebase (r snap : GuardRec) (seq : Word) : GuardRec :=
  { r with
    forward := r.forward - snap.forward
    reverse := r.reverse - snap.reverse
    hold := r.hold - snap.hold
    errors := r.errors - snap.errors
    guardVol := r.guardVol - snap.guardVol
    sets := r.sets - snap.sets
    seq := seq }

/-- The guard records after a commit completed: cleared with the guard word while G is clear, else rebased (R305, R452). -/
def State.guardCommitted (s : State) (c : Commit) : State :=
  if s.flag SYS.MODE_G then
    s.onQty (fun q => { q with guard := q.guard.map (fun e =>
      (e.1, e.2.map (fun r => r.rebase ((tget (fun _ => none) c.guard e.1).getD GuardRec.empty) c.image.seq))) })
  else s.onQty (fun q => { q with guard := [], guardWord := none })

/-- COMMIT_COMPLETE (R299, R301): the commit word is written and read back. -/
def execCommitComplete (readsBack : Bool) (s : State) : Out :=
  .next (match s.qty.commit with
    | some c =>
      if s.domOn .choir then
        let b := s.qty.target
        let s := s.onQty (fun q => { q with commit := none })
        if readsBack then
          let s := s.onQty (fun q => q.setBank b (LedgerBank.written c.image))
          let s := ((s.putReg LEDG.SEQ c.image.seq).putReg LEDG.TIME c.image.sec).setFlag LEDG.STAT_BANK b
          let s := (s.setFld LEDG.STAT_REASON c.image.reason).setFlag CRYPT.TIMESTAT_RTCRST false
          let s := (s.raiseEvent .ledger .choir 8).guardCommitted c
          let s := s.followUp
          if c.activate then s.coreReset .choir 4 else s
        else
          let s := ((s.setFlag LEDG.STAT_TORN true).bump LEDG.STAT_TORNS 1).logEvent logCommitTorn c.image.seq 0
          (s.raiseEvent .ledger .choir 8).followUp
      else s
    | none => s)

/-- COMMIT_PERIODIC_DUE (R300): PERIOD minutes since the last commit. -/
def execCommitPeriodicDue (s : State) : Out := .next (if s.fld LEDG.CFG_PERIOD = 0 then s else s.startCommit 0)

/-! ### Guard word and start-up (R302, R305, R453, R454) -/

/-- The guard word is written at Guard entry (R454). -/
def State.writeGuardWord (s : State) : State :=
  if s.domOn .choir then s.onQty (fun q => { q with guardWord := some (s.getReg LEDG.SEQ) }) else s

/-- Log GUARD_TORN and show it (R453, R454). -/
def State.guardTorn (s : State) : State := (s.logEvent logGuardTorn 0 0).setFlag SYS.STATUS_GUARDTORN true

/-- Add to an index and its tally without billing a test tally or the feed: a restore (R305). -/
def State.addIndex (s : State) (n k : Nat) : State :=
  s.onQty (fun q => { q with indices := tput (fun _ => 0) q.indices n (satAdd (2 ^ 64 - 1) (s.index n) k) })

/-- Add a guard record (R305): forward volume goes also into the frozen class tally. -/
def State.addGuard (s : State) (k : Nat) (r : GuardRec) : State :=
  let b := 12 * k
  let s := (s.addIndex b r.forward).addIndex (b + classTally r.cls) r.forward
  let s := ((s.addIndex (b + 1) r.reverse).addIndex (b + 2) r.hold).addIndex (b + 9) r.errors
  (s.addIndex (b + 10) r.guardVol).addIndex (b + 11) r.sets

/-- The guard records at a restart: added where every one carries the restored SEQ, else discarded (R305, R453). -/
def State.guardRestart (s : State) (seq : Word) : State :=
  let l := s.qty.guard.filterMap (fun e => e.2.map (fun r => (e.1, r)))
  if l.isEmpty then s
  else if l.all (fun e => decide (e.2.seq = seq)) then s.each l (fun s e => s.addGuard e.1 e.2)
  else (s.onQty (fun q => { q with guard := [] })).guardTorn

/-- The state a bank saved of a conduit: the run of a set's class starts at the saved class (R298, R302); with RTCRST
set the first close integrates nothing (R278, R439). -/
def State.restoreConduit (s : State) (k : Nat) (x : Bool × Nat × Nat × Nat) : State :=
  let closed := x.1 && !s.flag CRYPT.TIMESTAT_RTCRST
  let s := (s.setLastTicks k x.2.1).setConduit k { s.conduit k with closed := closed }
  ((s.setFld (QTY.CLSTAT_CLASS k) x.2.2.1).setFld (QTY.CLSTAT_CAND k) x.2.2.1).setFld (QTY.CLSTAT_RUN k) x.2.2.2

/-- The read marks at a restore: a mark that exceeds its index, or whose CRC-16 fails, is taken as the index (R302). -/
def State.restoreMarks (s : State) : State :=
  s.each (s.qty.marks.map (fun e => e.1)) (fun s n =>
    if (s.mark n).good ∧ (s.mark n).value ≤ s.index n then s else s.setMark n (s.index n))

/-- A bank that begins a SEQ greater than the restored one was torn (R302). -/
def State.logTorn (s : State) (b : LedgerBank) (seq : Nat) : State :=
  if !b.blank ∧ seq < b.beginSeq.toNat then s.logEvent logCommitTorn b.beginSeq 0 else s

/-- The ledger restores its newest valid bank at the choir domain's power-up (R302), then come the guard word after a
crypt reset (R454) and the guard records (R453). -/
def State.ledgerRestore (s : State) (afterCryptReset : Bool) : State :=
  let a := s.qty.bankA
  let b := s.qty.bankB
  let seq : Word := match s.qty.newest with | some (_, x) => x.image.seq | none => 0
  let s := match s.qty.newest with
    | some (isB, x) =>
      let img := x.image
      let s := s.onQty (fun q => { q with indices := img.indices })
      let s := s.each img.conduits (fun s e => s.restoreConduit e.1 e.2)
      let s := s.each img.paths (fun s e => match e.2.1 with
        | some v => s.setVelocity e.1 v ⟨e.2.2, s.timeSub⟩
        | none => s)
      let s := ((s.restoreSl img.sl).each (List.range 32) State.takeCfg).restoreMarks
      ((s.setFlag LEDG.STAT_BANK isB).putReg LEDG.SEQ img.seq).putReg LEDG.TIME img.sec
    | none =>
      let s := s.onQty (fun q => { q with indices := [], marks := [] })
      if a.blank && b.blank then (s.setFlag LEDG.STAT_INIT true).logEvent logLedgerInit 0 0
      else (s.setFlag LEDG.STAT_NOIMAGE true).logEvent logLedgerLost 0 0
  let s := (s.logTorn a seq.toNat).logTorn b seq.toNat
  let s := if afterCryptReset && s.qty.guardWord.isSome then
      (s.guardTorn).onQty (fun q => { q with guardWord := none })
    else s
  s.guardRestart seq

end Sys2Proof.Machine
end

