-- ==== Sys2Proof/Machine/Mac.lean ====
section
/-! DEFINITION. MAC frames of the belfry: headers, information elements and CCM* (R364 to R368, R375, R395 to R404,
R414 to R417), with the field layouts of IEEE 802.15.4 that the rules name. Octets come without the FCS. -/
namespace Sys2Proof.Machine

/-- An address of a MAC header. -/
inductive MacAddr where
  | none
  | short (a : Nat)
  | ext (a : Nat)
  deriving DecidableEq, Repr

/-- A MAC header (R364, R365, R414). -/
structure Mhr where
  type : Nat
  version : Nat
  secured : Bool
  ar : Bool
  hasIe : Bool
  seq : Option Nat
  dstPan : Option Nat
  dst : MacAddr
  srcPan : Option Nat
  src : MacAddr
  level : Nat
  keyMode : Nat
  ctrSupp : Bool
  counter : Nat
  keyIndex : Nat
  /-- offset of the auxiliary security header, and of what follows it -/
  auxOff : Nat
  bodyOff : Nat
  deriving DecidableEq, Repr

/-- Frame types. -/
def macBeacon : Nat := 0
def macData : Nat := 1
def macAck : Nat := 2
def macCommand : Nat := 3

/-- A little-endian number of n octets at an offset. -/
def leAt (l : List Octet) (i n : Nat) : Nat := ofLe ((l.drop i).take n)

/-- Which PAN IDs a header carries, by version, address modes and compression bit. -/
def panPresence (version dm sm : Nat) (comp : Bool) : Bool × Bool :=
  if version < 2 then (decide (dm ≠ 0), decide (sm ≠ 0) && !(comp && decide (dm ≠ 0)))
  else if dm = 0 then (if sm = 0 then comp else false, decide (sm ≠ 0) && !comp)
  else if sm = 0 then (!comp, false)
  else if dm = 3 ∧ sm = 3 then (!comp, false)
  else (true, !comp)

/-- Octets of an address by its mode. -/
def addrLen (m : Nat) : Nat := if m = 2 then 2 else if m = 3 then 8 else 0

/-- An address at an offset. -/
def addrAt (l : List Octet) (i m : Nat) : MacAddr :=
  if m = 2 then .short (leAt l i 2) else if m = 3 then .ext (leAt l i 8) else .none

/-- Octets of a key identifier by its mode. -/
def keyIdLen (m : Nat) : Nat := match m with | 0 => 0 | 1 => 1 | 2 => 5 | _ => 9

/-- Parse a MAC header; none where the frame is too short or uses a reserved address mode. -/
def parseMhr (l : List Octet) : Option Mhr :=
  let fc := leAt l 0 2
  let version := fc / 4096 % 4
  let dm := fc / 1024 % 4
  let sm := fc / 16384 % 4
  let pans := panPresence version dm sm (bitAt fc 6)
  let hasSeq := !(version == 2 && bitAt fc 8)
  let o1 := if hasSeq then 3 else 2
  let o2 := o1 + (if pans.1 then 2 else 0)
  let o3 := o2 + addrLen dm
  let o4 := o3 + (if pans.2 then 2 else 0)
  let o5 := o4 + addrLen sm
  let secured := bitAt fc 3
  let sc := if secured then leAt l o5 1 else 0
  let supp := bitAt sc 5
  let o6 := o5 + 1 + (if supp then 0 else 4)
  let mode := sc / 8 % 4
  let body := if secured then o6 + keyIdLen mode else o5
  if l.length < body ∨ l.length < 2 ∨ dm = 1 ∨ sm = 1 then none
  else some
    { type := fc % 8
      version := version
      secured := secured
      ar := bitAt fc 5
      hasIe := version == 2 && bitAt fc 9
      seq := if hasSeq then some (leAt l 2 1) else none
      dstPan := if pans.1 then some (leAt l o1 2) else none
      dst := addrAt l o2 dm
      srcPan := if pans.2 then some (leAt l o3 2) else none
      src := addrAt l o4 sm
      level := sc % 8
      keyMode := mode
      ctrSupp := secured && supp
      counter := if secured && !supp then leAt l (o5 + 1) 4 else 0
      keyIndex := if mode = 1 then leAt l o6 1 else 0
      auxOff := o5
      bodyOff := body }

/-! ### Information elements -/

/-- Header IEs from an offset: identifiers with contents, the offset after the list, and whether payload IEs follow. -/
def scanHeaderIes (l : List Octet) (i : Nat) : Nat → List (Nat × List Octet) × Nat × Bool
  | 0 => ([], i, false)
  | fuel + 1 =>
    if l.length < i + 2 then ([], i, false)
    else
      let d := leAt l i 2
      let n := d % 128
      let id := d / 128 % 256
      if id = 0x7E then ([], i + 2, true)
      else if id = 0x7F then ([], i + 2, false)
      else if l.length < i + 2 + n then ([], l.length, false)
      else
        let r := scanHeaderIes l (i + 2 + n) fuel
        ((id, (l.drop (i + 2)).take n) :: r.1, r.2)

/-- Payload IEs from an offset: groups with contents, and the offset after the list. -/
def scanPayloadIes (l : List Octet) (i : Nat) : Nat → List (Nat × List Octet) × Nat
  | 0 => ([], i)
  | fuel + 1 =>
    if l.length < i + 2 then ([], i)
    else
      let d := leAt l i 2
      let n := d % 2048
      let g := d / 2048 % 16
      if g = 0xF then ([], i + 2)
      else if l.length < i + 2 + n then ([], l.length)
      else
        let r := scanPayloadIes l (i + 2 + n) fuel
        ((g, (l.drop (i + 2)).take n) :: r.1, r.2)

/-- The information elements of a plain frame and its payload. -/
structure Parsed where
  mhr : Mhr
  headers : List (Nat × List Octet)
  payloads : List (Nat × List Octet)
  /-- octets that are authenticated only: to the end of the header IE list (R414) -/
  authLen : Nat
  payload : List Octet
  deriving DecidableEq, Repr

/-- Length of the authenticated part of a frame (R414). -/
def authLength (h : Mhr) (l : List Octet) : Nat := if h.hasIe then (scanHeaderIes l h.bodyOff l.length).2.1 else h.bodyOff

/-- Parse a plain frame. -/
def parseFrame (h : Mhr) (l : List Octet) : Parsed :=
  if h.hasIe then
    let a := scanHeaderIes l h.bodyOff l.length
    if a.2.2 then
      let b := scanPayloadIes l a.2.1 l.length
      ⟨h, a.1, b.1, a.2.1, l.drop b.2⟩
    else ⟨h, a.1, [], a.2.1, l.drop a.2.1⟩
  else ⟨h, [], [], h.bodyOff, l.drop h.bodyOff⟩

/-- The Weaxisum vendor identifier 0x0C_B5_57, little-endian (R395). -/
def vendorId : List Octet := leOctets 3 0x0CB557

/-- Sub-IDs of R395. -/
def subNet : Nat := 1
def subLease : Nat := 2
def subAssign : Nat := 3
def subFlood : Nat := 4

/-- The content of the first Weaxisum IE with a sub-ID in a list of IEs; id is the vendor-specific identifier or group. -/
def findVendor (ies : List (Nat × List Octet)) (id sub : Nat) : Option (List Octet) :=
  match ies.find? (fun e => decide (e.1 = id) && (e.2.take 3 == vendorId) && decide (leAt e.2 3 1 = sub) && decide (4 ≤ e.2.length)) with
  | some e => some (e.2.drop 4)
  | none => none

/-- Encode a header IE, or a payload IE. -/
def headerIe (id : Nat) (c : List Octet) : List Octet := leOctets 2 (c.length % 128 + 128 * id) ++ c
def payloadIe (g : Nat) (c : List Octet) : List Octet := leOctets 2 (c.length % 2048 + 2048 * g + 32768) ++ c

/-- The content of a Weaxisum IE. -/
def vendorContent (sub : Nat) (c : List Octet) : List Octet := vendorId ++ leOctets 1 sub ++ c

/-- The header termination IE before payload IEs, and the payload termination IE. -/
def termHeader : List Octet := headerIe 0x7E []
def termPayload : List Octet := payloadIe 0xF []

/-- The TSCH Synchronization sub-IE of an MLME payload IE: its ASN (R377, R400). -/
def findSync (ies : List (Nat × List Octet)) : Option Nat :=
  match ies.find? (fun e => decide (e.1 = 1) && decide (leAt e.2 0 2 % 32768 / 256 = 0x1A) && decide (8 ≤ e.2.length)) with
  | some e => some (leAt e.2 2 5)
  | none => none

/-- The MLME payload IE with a TSCH Synchronization sub-IE and its join metric; the ASN is stamped when the frame is
sent (R400). -/
def syncIe (metric : Nat) : List Octet := payloadIe 1 (leOctets 2 (6 + 256 * 0x1A) ++ leOctets 5 0 ++ leOctets 1 metric)

/-- Channels of a plan (R362). -/
def planChannels (p plan : Nat) : Nat :=
  if p = 0 then (match plan with | 0 => 34 | 1 => 17 | 2 => 128 | 3 => 64 | 4 => 64 | _ => 0)
  else if plan = 0 then 16 else 0

/-- Octets of the mask of a NET IE (R396). -/
def maskOctets (p plan : Nat) : Nat := (planChannels p plan + 7) / 8

/-- Parse a NET IE (R396). -/
def parseNet (p : Nat) (c : List Octet) : Option NetIe :=
  let plan := leAt c 22 1
  if c.length < 25 + maskOctets p plan then none
  else some
    { netid := leAt c 0 2, crank := leAt c 2 1, flags := leAt c 3 1, epoch := leAt c 4 2, sflen := leAt c 8 2
      tslen := leAt c 10 2, txoff := leAt c 12 2, ackgap := leAt c 14 2, guard := leAt c 16 2, joinSlot := leAt c 18 2
      joinChoff := leAt c 20 1, bchoff := leAt c 21 1, plan := plan, seed := leAt c 23 2, mask := (c.drop 25).take (maskOctets p plan) }

/-- Flags of a NET IE (R396). -/
def NetIe.openNet (n : NetIe) : Bool := bitAt n.flags 1
def NetIe.full (n : NetIe) : Bool := bitAt n.flags 2
def NetIe.starting (n : NetIe) : Bool := bitAt n.flags 3
def NetIe.last (n : NetIe) : Bool := bitAt n.flags 4

/-! ### Building headers -/

/-- Mode and octets of an address. -/
def macAddrMode : MacAddr → Nat
  | .none => 0
  | .short _ => 2
  | .ext _ => 3
def macAddrOctets : MacAddr → List Octet
  | .none => []
  | .short a => leOctets 2 a
  | .ext a => leOctets 8 a

/-- An auxiliary security header of key identifier mode 1 with counter 0 (R417). -/
def auxHeader (level keyIndex : Nat) : List Octet := leOctets 1 (level + 8) ++ leOctets 4 0 ++ leOctets 1 keyIndex

/-- A version 2 header: type, AR, IEs, sequence number, PAN ID and addresses; with both addresses, or with a destination
alone, the destination's PAN ID is carried, with a source alone the source's. -/
def buildMhr (type : Nat) (ar ies : Bool) (seq : Option Nat) (pan : Nat) (dst src : MacAddr) (aux : Option (Nat × Nat)) : List Octet :=
  let dm := macAddrMode dst
  let sm := macAddrMode src
  let comp := dm ≠ 0 && sm ≠ 0 && !(dm == 3 && sm == 3)
  let fc := type + 8 * natOfBool aux.isSome + 32 * natOfBool ar + 64 * natOfBool comp + 256 * natOfBool seq.isNone +
    512 * natOfBool ies + 1024 * dm + 4096 * 2 + 16384 * sm
  leOctets 2 fc ++ (match seq with | some q => leOctets 1 q | none => []) ++
    (if dm = 0 then [] else leOctets 2 pan ++ macAddrOctets dst) ++
    (if sm = 0 then [] else (if dm = 0 then leOctets 2 pan else []) ++ macAddrOctets src) ++
    (match aux with | some (lv, k) => auxHeader lv k | none => [])

/-- An immediate acknowledgement (R375). -/
def immAck (seq : Nat) : List Octet := leOctets 2 macAck ++ leOctets 1 seq

/-- MIC octets of a level: 4, 8 or 16 (R414). -/
def micLen (level : Nat) : Nat := match level with | 5 => 4 | 6 => 8 | _ => 16

/-- The largest enhanced ack, with its FCS (R375). -/
def ackLimit : Nat := 32

/-- A header with a destination and no source, its PAN ID compressed away: n octets of sequence number precede the PAN ID. -/
def dropPan (n : Nat) (l : List Octet) : List Octet :=
  leOctets 2 (leAt l 0 2 + 64) ++ (l.drop 2).take n ++ l.drop (2 + n + 2)

/-- An enhanced acknowledgement with its Time Correction header IE (R375). DESIGN CHOICE: where it would exceed 32 octets with its
MIC and FCS, its PAN ID is compressed away (log entry 76). -/
def enhAck (h : Mhr) (correction : Int) : List Octet :=
  let l := buildMhr macAck false true h.seq ((h.srcPan.orElse (fun _ => h.dstPan)).getD 0xFFFF) h.src .none
    (if h.secured then some (h.level, h.keyIndex) else none) ++
    headerIe 0x1E (leOctets 2 (codeOf 12 correction))
  let mic := if h.secured then micLen h.level else 0
  if l.length + mic + 2 ≤ ackLimit ∨ h.src = .none then l else dropPan (natOfBool h.seq.isSome) l

/-- The value of a Time Correction header IE in µs, two's complement (R375). -/
def findCorrection (ies : List (Nat × List Octet)) : Option Int :=
  match ies.find? (fun e => decide (e.1 = 0x1E) && decide (2 ≤ e.2.length)) with
  | some e => some (signedOf 12 (leAt e.2 0 2))
  | none => none

/-! ### CCM* (R414, R415) -/

/-- The nonce: EUI-64, counter, level, each most significant octet first (R415). -/
def ccmNonce (eui counter level : Nat) : List Nat := natsOf (beOctets 8 eui ++ beOctets 4 counter ++ beOctets 1 level)

/-- Replace n octets at an offset, as far as the list reaches. -/
def putOctets (l : List Octet) (i : Nat) (x : List Octet) : List Octet := (l.take i ++ x).take l.length ++ l.drop (i + x.length)

/-- Secure a frame that carries no room for the MIC: counter, encryption, MIC (R414, R417). -/
def secureFrame (key : BitVec 128) (eui counter : Nat) (h : Mhr) (l : List Octet) : List Octet :=
  let l := putOctets l (h.auxOff + 1) (leOctets 4 counter)
  let n := authLength h l
  l.take n ++ octetsOf (ccmSeal (keyOctets key) (ccmNonce eui counter h.level) (natsOf (l.take n)) (natsOf (l.drop n)) (micLen h.level))

/-- Check and decrypt a frame; none where the MIC does not verify (R418). A header IE list without a termination IE ends where
the MIC begins (R414). -/
def openFrame (key : BitVec 128) (eui : Nat) (h : Mhr) (l : List Octet) : Option (List Octet) :=
  let n := authLength h (l.take (l.length - micLen h.level))
  (ccmOpen (keyOctets key) (ccmNonce eui h.counter h.level) (natsOf (l.take n)) (natsOf (l.drop n)) (micLen h.level)).map
    (fun m => l.take n ++ octetsOf m)

/-! ### Packets on the radio strait (R366) -/

/-- Words of frame octets: three a word, the valid count less 1 in [27:26], E on the last. -/
def frameWords : List Octet → List Word
  | a :: b :: c :: d :: rest => BitVec.ofNat 32 (0x80000000 + 2 * 2 ^ 26 + ofLe [a, b, c]) :: frameWords (d :: rest)
  | [] => []
  | l => [BitVec.ofNat 32 (0xC0000000 + (l.length - 1) * 2 ^ 26 + ofLe l)]

/-- A word of a packet as the belfry writes it: V, and E on the last. -/
def packetWord (v : Nat) (last : Bool) : Word := BitVec.ofNat 32 (0x80000000 + natOfBool last * 2 ^ 30 + v % 2 ^ 28)

/-- The octets of a packet's words after its header; none where the packing is malformed. -/
def unpackFrame : List Word → Option (List Octet)
  | [] => some []
  | [w] => if bitsOf w 27 26 = 3 then none else some ((octetsOfWord w).take (bitsOf w 27 26 + 1))
  | w :: rest =>
    if bitsOf w 27 26 = 2 then (unpackFrame rest).map (fun t => (octetsOfWord w).take 3 ++ t) else none

end Sys2Proof.Machine
end

