-- ==== Sys2Proof/Machine/Air.lean ====
section
/-! DEFINITION. The belfry's ports: channels, airtime, the limiter, power, keys and counters, the neighbour table, retry
buffers and outcomes (R361 to R389, R421 to R427). -/
namespace Sys2Proof.Machine

/-- Rewrite the belfry's fields. -/
def State.onRadio (s : State) (f : Radio → Radio) : State := { s with radio := f s.radio }

/-- A port beside its registers. -/
def State.port (s : State) (p : Nat) : Port := tget (fun _ => Port.empty) s.radio.ports p

/-- Replace a port. -/
def State.setPort (s : State) (p : Nat) (x : Port) : State :=
  s.onRadio (fun r => { r with ports := tput (fun _ => Port.empty) r.ports p x })

/-- Rewrite a port. -/
def State.onPort (s : State) (p : Nat) (f : Port → Port) : State := s.setPort p (f (s.port p))

/-- The port is ON. -/
def State.portOn (s : State) (p : Nat) : Bool := s.fld (BELF.PSTAT_LIFE p) == 2

/-- The port is ON or completes its slot while FALLING (R388). -/
def State.portLive (s : State) (p : Nat) : Bool := s.fld (BELF.PSTAT_LIFE p) == 2 || s.fld (BELF.PSTAT_LIFE p) == 3

/-- The path allows transmission (R363). -/
def State.pathMain (s : State) : Bool := s.fld CRYPT.PWRSTAT_PATH == 0

/-- Nave event 8 (R132). -/
def State.belfEvent (s : State) : State := s.raiseEvent .belfry .nave 8

/-- Set a flag of FAULTS or NETFAULTS and raise nave event 8 (R390). -/
def State.belfFault (s : State) (f : Fld) : State := (s.setFlag f true).belfEvent

/-! ### Registers of a port's arrays (R390) -/

def cellA (p c : Nat) : Nat := BELF.CELLA0 c + p * 0x800
def cellB (p c : Nat) : Nat := BELF.CELLB0 c + p * 0x800
def hopSeq (p j : Nat) : Nat := BELF.HOPSEQ0 j + p * 0x200
def maskReg (p i : Nat) : Nat := BELF.MASK0 i + p * 0x100
def sbLo (p i : Nat) : Nat := BELF.SBLO0 i + p * 0x100
def sbHi (p i : Nat) : Nat := BELF.SBHI0 i + p * 0x100

/-- A cell (R372). -/
structure Cell where
  num : Nat
  type : Nat
  slot : Nat
  choff : Nat
  queue : Nat
  deriving DecidableEq, Repr

/-- The enabled cells of a port in ascending number (R372). -/
def State.slotCells (s : State) (p : Nat) : List Cell :=
  (s.regs.filter (fun e => decide (cellA p 0 ≤ e.1 ∧ e.1 < cellA p 256 ∧ (e.1 - cellA p 0) % 8 = 0 ∧ bitsOf e.2 31 31 = 1))).map
    (fun e =>
      let c := (e.1 - cellA p 0) / 8
      ⟨c, bitsOf e.2 30 28, bitsOf e.2 25 16, bitsOf e.2 6 0, bitsOf (s.getReg (cellB p c)) 7 0⟩)

/-- A cell sends from a queue (R373). -/
def Cell.sends (c : Cell) : Bool := c.type == 0 || c.type == 2 || c.type == 4

/-- The queues that the sending cells of a port name, once each. -/
def State.cellQueues (s : State) (p : Nat) : List Nat := ((s.slotCells p).filter Cell.sends).map (fun c => c.queue) |>.eraseDups

/-- A store of a cell whose word A and queue are given: a 17th queue stores EN = 0 (R372). -/
def State.writeCell (s : State) (p c : Nat) (a : Word) (queue : Nat) : State :=
  let off := (s.putReg (cellA p c) (bitsPut a 31 31 0)).putReg (cellB p c) (BitVec.ofNat 32 (queue % 256))
  let on := off.putReg (cellA p c) a
  if bitsOf a 31 31 = 1 ∧ 16 < (on.cellQueues p).length then off else on

/-- Word A of an enabled cell. -/
def cellWord (type slot choff : Nat) : Word := bitsPut (bitsPut (bitsPut 0x80000000 30 28 type) 25 16 slot) 6 0 choff

/-! ### Channels and airtime (R361, R362, R370, R371) -/

/-- F0 and spacing in kHz of a plan (R362). -/
def planBand (p plan : Nat) : Nat × Nat :=
  if p = 0 then (match plan with | 0 => (863125, 200) | 1 => (863225, 400) | 2 => (902200, 200) | _ => (902400, 400))
  else (2405000, 5000)

/-- The plan of a port. -/
def State.plan (s : State) (p : Nat) : Nat := s.fld (BELF.PCTL_PLAN p)

/-- Airtime in µs of a PSDU of n octets with its FCS, rounded up (R361, R378). -/
def State.airtime (s : State) (p n : Nat) : Nat :=
  if p = 0 then
    let rate := match s.plan 0 with | 0 => 50 | 1 => 100 | 2 => 50 | 3 => 150 | _ => 200
    ((s.fld (BELF.PCTL_PRE 0) + 4 + n) * 8000 + rate - 1) / rate
  else (6 + n) * 32

/-- Slot length, transmit offset and receive guard in µs. -/
def State.slotMicros (s : State) (p : Nat) : Nat := s.fld (BELF.TIMING_TSLEN p) * 10
def State.txMicros (s : State) (p : Nat) : Nat := s.fld (BELF.TIMING_TXOFF p) * 10
def State.guardMicros (s : State) (p : Nat) : Nat := s.fld (BELF.GAPS_GUARD p)

/-- Whether a frame of n octets without FCS fits the slot (R373). -/
def State.fits (s : State) (p n : Nat) (ar : Bool) : Bool :=
  decide (s.txMicros p + s.airtime p (n + 2) + s.guardMicros p +
    (if ar then s.fld (BELF.GAPS_ACKGAP p) + s.airtime p 32 else 0) ≤ s.slotMicros p)

/-- Length of the slotframe (R372). -/
def State.sflen (s : State) (p : Nat) : Nat := if s.fld (BELF.FRAME_SFLEN p) = 0 then 1024 else s.fld (BELF.FRAME_SFLEN p)

/-- The absolute slot number. -/
def State.asn (s : State) (p : Nat) : Nat := s.fld (BELF.ASNHI_ASN p) * 2 ^ 32 + s.fld (BELF.ASNLO_ASN p)

/-- Set the absolute slot number, 40 bits. -/
def State.setAsn (s : State) (p v : Nat) : State :=
  (s.setFld (BELF.ASNLO_ASN p) (v % 2 ^ 32)).setFld (BELF.ASNHI_ASN p) (v / 2 ^ 32 % 256)

/-- The channel of a channel offset in the slot under way (R370). -/
def State.hopChannel (s : State) (p choff : Nat) : Nat :=
  bitsOf (s.getReg (hopSeq p ((s.asn p + choff) % s.fld (BELF.HOP_HOPLEN p)))) 6 0

/-- The preset of the limiter: 0 NONE, 1 EU868, 2 US915, 3 CUSTOM (R381). -/
def State.preset (s : State) (p : Nat) : Nat := s.fld (BELF.LIMCFG_PRESET p)

/-- The sub-band of a channel: the first that contains its centre ± spacing / 2 (R380). -/
def State.subBand (s : State) (p n : Nat) : Option Nat :=
  let b := planBand p (s.plan p)
  (List.range 8).find? (fun i =>
    let lo := s.getReg (sbLo p i)
    decide (bitsOf lo 31 20 ≠ 0 ∧ 2 * bitsOf lo 19 0 + b.2 ≤ 2 * (b.1 + n * b.2) ∧
      2 * (b.1 + n * b.2) + b.2 ≤ 2 * bitsOf (s.getReg (sbHi p i)) 19 0))

/-- A channel on which the port never transmits: beyond the plan, or in no sub-band under EU868 (R362, R382). -/
def State.barred (s : State) (p n : Nat) : Bool :=
  decide (planChannels p (s.plan p) ≤ n) || (s.preset p == 1 && (s.subBand p n).isNone)

/-- One step of the hop generator's LFSR (R371). -/
def hopLfsr (l : Nat) : Nat := if l % 2 = 1 then Nat.xor (l / 2) 0xB400 else l / 2

/-- The shuffle of R371 from index i down to 1. -/
def hopShuffle (lfsr : Nat) (l : List Nat) : Nat → List Nat
  | 0 => l
  | i + 1 =>
    let r := hopLfsr lfsr
    let j := r % (i + 2)
    hopShuffle r (listSet (listSet l (i + 1) (l.getD j 0)) j (l.getD (i + 1) 0)) i

/-- The hop sequence of R371. -/
def State.hopList (s : State) (p : Nat) : List Nat :=
  let l := ((List.range (planChannels p (s.plan p))).filter (fun n =>
    bitAt (s.getReg (maskReg p (n / 32))).toNat (n % 32) && !s.barred p n)).take 128
  let seed := s.fld (BELF.HOP_SEED p)
  hopShuffle (if seed = 0 then 1 else seed) l (l.length - 1)

/-! ### The limiter (R378 to R383) -/

/-- Add to the newest bucket of an account, and advance it by one bucket of n. -/
def accAdd (l : List Nat) (a : Nat) : List Nat :=
  match l with
  | [] => [a]
  | x :: rest => (x + a) :: rest
def accNext (l : List Nat) (n : Nat) : List Nat :=
  let k := (0 :: l).take n
  if k.all (fun x => decide (x = 0)) then [] else k

/-- The dwell limit and the duty limit of a sub-band, in µs. -/
def State.dwellLimit (s : State) (p : Nat) : Nat := s.fld (BELF.LIMCFG_DLIM p) * 1000
def State.dutyLimit (s : State) (p i : Nat) : Nat := bitsOf (s.getReg (sbLo p i)) 31 20 * 360000

/-- Sum of a dwell account and of a duty account in µs; an account that starts full reads its limit (R379, R380, R383). -/
def State.dwellSum (s : State) (p n : Nat) : Nat :=
  if 0 < (s.port p).fullDwell then s.dwellLimit p else (tget (fun _ => []) (s.port p).dwell n).sum
def State.dutySum (s : State) (p i : Nat) : Nat :=
  if 0 < (s.port p).fullDuty then s.dutyLimit p i else (tget (fun _ => []) (s.port p).duty i).sum

/-- Whether the limiter allows airtime a on channel n (R379, R380, R382). -/
def State.limitAllows (s : State) (p n a : Nat) : Bool :=
  !s.barred p n &&
    (s.fld (BELF.LIMCFG_DLIM p) == 0 || decide (s.dwellSum p n + a ≤ s.dwellLimit p)) &&
    (match s.subBand p n with
      | none => true
      | some i => bitsOf (s.getReg (sbLo p i)) 31 20 == 4095 || decide (s.dutySum p i + a ≤ s.dutyLimit p i))

/-- Charge airtime to the accounts of a channel (R378). -/
def State.charge (s : State) (p n a : Nat) : State :=
  let sub := s.subBand p n
  s.onPort p (fun x => { x with
    dwell := tput (fun _ => []) x.dwell n (accAdd (tget (fun _ => []) x.dwell n) a)
    duty := match sub with
      | some i => tput (fun _ => []) x.duty i (accAdd (tget (fun _ => []) x.duty i) a)
      | none => x.duty })

/-- LIMIT_BUCKET_ADVANCE (R379, R380): the dwell or the duty buckets of a port advance; the oldest expires. -/
def execLimitBucketAdvance (p : Fin 2) (dwell : Bool) (s : State) : Out :=
  .next (s.onPort p.val (fun x =>
    if dwell then { x with
      dwell := x.dwell.foldl (fun m e => tput (fun _ => []) m e.1 (accNext e.2 21)) [], fullDwell := x.fullDwell - 1 }
    else { x with
      duty := x.duty.foldl (fun m e => tput (fun _ => []) m e.1 (accNext e.2 61)) [], fullDuty := x.fullDuty - 1 }))

/-- The limiter record of a port: its sums in ms (R383); an account that still counts as full is saved as full. -/
def State.limitRecord (s : State) (p : Nat) : LimRec where
  ticks := s.crypt.ticks.toNat
  dwell := (if 0 < (s.port p).fullDwell then List.range (planChannels p (s.plan p)) else (s.port p).dwell.map (fun e => e.1)).map
    (fun n => (n, (s.dwellSum p n + 999) / 1000))
  duty := (if 0 < (s.port p).fullDuty then List.range 8 else (s.port p).duty.map (fun e => e.1)).map
    (fun i => (i, (s.dutySum p i + 999) / 1000))

/-- Charge a saved record as one bucket of its age (R383). -/
def chargedBuckets (l : List (Nat × Nat)) (idx n : Nat) : List (Nat × List Nat) :=
  if n ≤ idx then []
  else l.foldl (fun m e => if e.2 = 0 then m else tput (fun _ => []) m e.1 (List.replicate idx 0 ++ [e.2 * 1000])) []

/-- Ticks since a moment of the 40-bit tick count. -/
def State.ticksSince (s : State) (t : Nat) : Nat := (s.crypt.ticks.toNat + 2 ^ 40 - t) % 2 ^ 40

/-- At the first rise of a port since the belfry rose, its limiter record is charged; a record that fails its CRC-16
sets LIMFRESH, and with COLD = 1 every account starts full (R383). -/
def State.limitRestore (s : State) (p : Nat) : State :=
  if (s.port p).charged then s
  else
    let s := s.onPort p (fun x => { x with charged := true })
    match tget (fun _ => none) s.radio.limits p with
    | some r =>
      let t := s.ticksSince r.ticks
      let w := s.fld (BELF.LIMCFG_DWIN p)
      s.onPort p (fun x => { x with
        dwell := if t < w * 32768 then chargedBuckets r.dwell (t * 20 / (w * 32768)) 21 else []
        duty := if t < 3600 * 32768 then chargedBuckets r.duty (t / (60 * 32768)) 61 else [] })
    | none =>
      let s := s.belfFault (BELF.FAULTS_LIMFRESH p)
      if s.flag (BELF.LIMCFG_COLD p) then s.onPort p (fun x => { x with fullDwell := 21, fullDuty := 61 }) else s

/-! ### Transmit power (R384 to R386) -/

/-- The port's power range in dBm (R76). -/
def portMin (p : Nat) : Int := if p = 0 then -10 else -20
def portMax (p : Nat) : Int := if p = 0 then 20 else 10

/-- The lower and the upper limit of the working power (R384). -/
def State.powerLo (s : State) (p : Nat) : Int :=
  match s.fld (BELF.PWR_LEASH p) with | 0 => portMin p | 1 => s.sfld (BELF.PWR_MIN p) | _ => s.sfld (BELF.PWR_SET p)
def State.powerHi (s : State) (p : Nat) : Int :=
  match s.fld (BELF.PWR_LEASH p) with | 0 => portMax p | 1 => s.sfld (BELF.PWR_MAX p) | _ => s.sfld (BELF.PWR_SET p)

/-- Set the working power within the leash's limits; where MIN lies above MAX the spec states no value. -/
def State.setPower (s : State) (p : Nat) (v : Int) : State :=
  if s.powerHi p < s.powerLo p then (s.setFld (BELF.PSTAT_WPWR p) (Config.value s.free).toNat).spend
  else s.setFld (BELF.PSTAT_WPWR p) (codeOf 8 (clampInt (s.powerLo p) (s.powerHi p) v))

/-- The cap on the power on air (R381, R385). -/
def State.powerCap (s : State) (p : Nat) : Int :=
  let c : Int := match s.preset p with | 1 => 14 | 2 => 20 | _ => portMax p
  if p = 0 ∧ s.fld CRYPT.VMEAS_MAIN < 3100 then min c 17 else c

/-- Change the working power, which under PINNED does not change (R384). -/
def State.adaptPower (s : State) (p : Nat) (d : Int) : State :=
  if s.fld (BELF.PWR_LEASH p) = 2 then s else s.setPower p (s.sfld (BELF.PSTAT_WPWR p) + d)

/-- Whether the working power stands at the upper limit (R386). -/
def State.atUpper (s : State) (p : Nat) : Bool := decide (s.powerHi p ≤ s.sfld (BELF.PSTAT_WPWR p))

/-! ### Keys and frame counters (R344, R416, R421 to R423) -/

/-- An AES key. -/
def State.aesKey (s : State) (slot : Nat) : Option (BitVec 128) := tget (fun _ => none) s.sacr.aes slot

/-- Set or clear an AES key and its loaded bit (R344); a nave cell slot's counter and mark become 0 (R421). -/
def State.setAesKey (s : State) (slot : Nat) (k : Option (BitVec 128)) : State :=
  let s := { s with sacr := { s.sacr with aes := tput (fun _ => none) s.sacr.aes slot k } }
  let f := if slot < 8 then SACR.KEYMAP_AES else SACR.NKEYMAP_LOADED
  let s := s.setFld f (bitsPut (BitVec.ofNat 32 (s.fld f)) (slot % 8) (slot % 8) (natOfBool k.isSome)).toNat
  if slot < 8 then s else (s.setFld (BELF.NFC_COUNT (slot - 8)) 0).setFld (BELF.NMARK_MARK (slot - 8)) 0

/-- The next counter of a slot lies below its mark (R422). -/
def State.counterReady (s : State) (slot : Nat) : Bool :=
  decide (s.fld (BELF.NFC_COUNT (slot - 8)) < s.fld (BELF.NMARK_MARK (slot - 8)))

/-- Take a slot's next counter; a counter that reaches its end clears the slot and raises nave event 8 (R421, R423). -/
def State.takeCounter (s : State) (slot : Nat) : State × Nat :=
  let c := s.fld (BELF.NFC_COUNT (slot - 8))
  if c + 1 = 0xFFFFFFFF then ((s.setAesKey slot none).belfEvent, c)
  else (s.setFld (BELF.NFC_COUNT (slot - 8)) (c + 1), c)

/-- COUNTER_MARK_DONE (R421): the nave cell has written the next mark of a slot. -/
def execCounterMarkDone (slot : Fin 8) (s : State) : Out :=
  let mark := s.fld (BELF.NMARK_MARK slot.val)
  let count := s.fld (BELF.NFC_COUNT slot.val)
  .next (if mark = 0 ∨ mark - 4096 ≤ count then s.setFld (BELF.NMARK_MARK slot.val) (min 0xFFFFFFFF (mark + 65536)) else s)

/-- At every rise of the nave domain COUNT takes the stored MARK (R421); a COUNT that is then at its end clears the slot (R423). -/
def State.counterRise (s : State) : State :=
  s.each (List.range 8) (fun s i =>
    let mark := s.fld (BELF.NMARK_MARK i)
    if mark = 0xFFFFFFFF then (s.setAesKey (8 + i) none).belfEvent else s.setFld (BELF.NFC_COUNT i) mark)

/-! ### The neighbour table (R419, R424 to R426) -/

/-- The device's EUI-64. -/
def State.eui (s : State) : Nat := s.fld (SACR.EUI_EUI 1) * 2 ^ 32 + s.fld (SACR.EUI_EUI 0)

/-- A neighbour entry. -/
def State.nbr (s : State) (i : Nat) : Option Nbr := tget (fun _ => none) s.radio.nbrs i

/-- Set or remove a neighbour entry. -/
def State.setNbr (s : State) (i : Nat) (n : Option Nbr) : State :=
  s.onRadio (fun r => { r with nbrs := tput (fun _ => none) r.nbrs i n })

/-- Rewrite a neighbour entry. -/
def State.onNbr (s : State) (i : Nat) (f : Nbr → Nbr) : State := s.setNbr i ((s.nbr i).map f)

/-- The first entry that satisfies p. -/
def State.findNbr (s : State) (p : Nbr → Bool) : Option Nat :=
  (s.radio.nbrs.find? (fun e => match e.2 with | some n => p n | none => false)).map (fun e => e.1)

/-- The entry of an EUI-64, and of a source address on a port: of two entries of a short address the one whose EUI-64 is known. -/
def State.nbrOfEui (s : State) (e : Nat) : Option Nat := s.findNbr (fun n => n.eui == some e)
def State.nbrOf (s : State) (p : Nat) : MacAddr → Option Nat
  | .none => none
  | .short a =>
    (s.findNbr (fun n => n.port == p && n.short == a && n.eui.isSome)).orElse (fun _ =>
      s.findNbr (fun n => n.port == p && n.short == a))
  | .ext e => s.nbrOfEui e

/-- Number of PINNED entries. -/
def State.pinnedCount (s : State) : Nat :=
  (s.radio.nbrs.filter (fun e => match e.2 with | some n => n.pinned | none => false)).length

/-- The lowest free entry. -/
def State.freeNbr (s : State) : Option Nat := (List.range 256).find? (fun i => (s.nbr i).isNone)

/-- The entry not PINNED that was heard longest ago. -/
def State.oldestNbr (s : State) : Option Nat :=
  (s.radio.nbrs.foldl (fun best e =>
    match e.2 with
    | some n =>
      if n.pinned then best
      else match best with
        | some (_, a) => if a < s.age n.heard then some (e.1, s.age n.heard) else best
        | none => some (e.1, s.age n.heard)
    | none => best) (none : Option (Nat × Nat))).map (fun b => b.1)

/-- A new entry. -/
def Nbr.new (eui : Option Nat) (short port : Nat) (now : Stamp) : Nbr :=
  ⟨eui, short, port, false, false, false, none, none, 0, now, 0, 0⟩

/-- The sender of a frame that passes R365: its entry is found, or made (R424). -/
def State.heardFrom (s : State) (p : Nat) (src : MacAddr) (rssi : Nat) : State × Option Nat :=
  match src with
  | .none => (s, none)
  | _ =>
    match s.nbrOf p src with
    | some i => (s.onNbr i (fun n => { n with rssi := rssi, heard := s.now }), some i)
    | none =>
      let fresh := match src with | .ext e => Nbr.new (some e) 0xFFFF p s.now | .short a => Nbr.new none a p s.now | .none => Nbr.new none 0xFFFF p s.now
      match s.freeNbr.orElse (fun _ => s.oldestNbr) with
      | some i => (s.setNbr i (some { fresh with rssi := rssi }), some i)
      | none => (s.belfFault (BELF.NETFAULTS_NBRFULL p), none)

/-- Whether a counter under a key index passes the replay check (R419). -/
def Nbr.counterPasses (n : Nbr) (key counter : Nat) : Bool :=
  match n.cur, n.prev with
  | some (k, c), q =>
    if k = key then decide (c < counter)
    else match q with
      | some (k2, c2) => if k2 = key then decide (c2 < counter) else true
      | none => true
  | none, some (k2, c2) => if k2 = key then decide (c2 < counter) else true
  | none, none => true

/-- A frame has passed every check: its counter becomes the pair's (R418, R419). -/
def Nbr.take (n : Nbr) (key counter : Nat) : Nbr :=
  if n.cur.map (fun x => x.1) = some key then { n with cur := some (key, counter) }
  else if n.prev.map (fun x => x.1) = some key then { n with prev := some (key, counter) }
  else { n with prev := n.cur, cur := some (key, counter) }

/-- A second edge passes for the neighbours: ages, and leases in whole seconds (R406, R424). -/
def State.nbrSecond (s : State) : State :=
  s.onRadio (fun r => { r with nbrs := r.nbrs.map (fun e =>
    (e.1, e.2.map (fun n => { n with heard := n.heard.tick, lrem := n.lrem - 1 }))) })

/-! ### Outcomes and retry buffers (R369, R373) -/

/-- The retry buffer of a queue. -/
def Port.buf (x : Port) (q : Nat) : Option RetryBuf := tget (fun _ => none) x.bufs q

/-- Fill or free a retry buffer. -/
def State.setBuf (s : State) (p q : Nat) (b : Option RetryBuf) : State :=
  s.onPort p (fun x => { x with bufs := tput (fun _ => none) x.bufs q b })

/-- HANDLE, KEYSLOT, SECURE and STAMP of a transmit header (R367). -/
def hdrHandle (w : Word) : Nat := bitsOf w 7 0
def hdrSecure (w : Word) : Bool := bitsOf w 8 8 == 1
def hdrKey (w : Word) : Nat := bitsOf w 12 9
def hdrStamp (w : Word) : Bool := bitsOf w 13 13 == 1
def hdrAsnOff (w : Word) : Nat := bitsOf w 21 14

/-- Write an outcome to TXSTATQ and count it (R369). -/
def State.outcome (s : State) (p : Nat) (handle code attempts rssi : Nat) : State :=
  let w := packetWord (handle + code * 256 + attempts * 2048 + rssi * 32768) true
  let s := s.sendQueue .belfry (s.fld (BELF.QUEUES_TXSTATQ p)) [w]
  if code < 2 then s.bump (BELF.TXCNT_OK p) 1 else s.bump (BELF.TXCNT_FAIL p) 1

/-- Why a packet taken from a queue cannot be sent: the code of R369, 0 for none (R364, R367, R415 to R417, R423); fits says
whether it fits an enabled cell. DESIGN CHOICE: so is a frame without the room for its MIC that R417 asks for (log entry 76). -/
def State.badFrame (s : State) (p : Nat) (header : Word) (octets : Option (List Octet)) (fits : Bool) : Nat :=
  match octets with
  | none => 4
  | some l =>
    match parseMhr l with
    | none => 4
    | some h =>
      let size := l.length + 2
      if bitsOf header 27 22 ≠ 0 ∨ size < 5 ∨ (if p = 0 then 255 else 127) < size then 4
      else if h.type = 2 ∨ 4 ≤ h.type ∨ h.version = 3 ∨ (h.secured = true ∧ h.version ≠ 2) then 4
      else if hdrSecure header then
        if 8 ≤ hdrKey header then 6
        else if h.secured = false ∨ h.version ≠ 2 ∨ h.keyMode ≠ 1 ∨ h.ctrSupp = true ∨ h.level < 5 ∨ h.keyIndex ≠ hdrKey header + 1 then 4
        else if l.length < h.bodyOff + micLen h.level then 4
        else if (s.aesKey (8 + hdrKey header)).isNone then 6
        else if fits then 0 else 3
      else if h.secured then 4
      else if fits then 0 else 3

/-- Whether a frame asks for an acknowledgement in a cell: a BEACON_TX cell sends AR = 0 (R372). -/
def asksAck (type : Nat) (l : List Octet) : Bool := type != 0 && bitAt (leAt l 0 2) 5

/-- Whether a frame of a queue fits an enabled cell of the port that sends from it (R373). -/
def State.fitsCell (s : State) (p q : Nat) (l : List Octet) : Bool :=
  (s.slotCells p).any (fun c => c.sends && c.queue == q && s.fits p l.length (asksAck c.type l))

/-- The port whose sending cells name a queue and whose retry buffer for it is empty (R373). -/
def State.bufTaker (s : State) (q : Nat) : Option Nat :=
  (List.range 2).find? (fun p => s.portOn p && ((s.port p).buf q).isNone && (s.cellQueues p).contains q)

/-- The seen cache holds 2,048 keys (R413). -/
def seenCapacity : Nat := 2048

/-- A flood's key is in the seen cache (R410). -/
def State.hasSeen (s : State) (origin fseq : Nat) : Bool :=
  s.radio.seen.any (fun x => decide (x.origin = origin) && decide (x.fseq = fseq))

/-- A port enters a key in the seen cache: it replaces the oldest key of a full cache (R413). -/
def State.enterSeen (s : State) (p origin fseq : Nat) : State :=
  s.onRadio (fun r =>
    let l := r.seen.filter (fun x => !(decide (x.origin = origin) && decide (x.fseq = fseq))) ++ [⟨origin, fseq, p, s.now⟩]
    { r with seen := l.drop (l.length - seenCapacity) })

/-- Ticks by which a key has outlived CACHETTL of the port that entered it (R413). -/
def State.overTtl (s : State) (x : SeenKey) : Int :=
  (s.age x.entered : Int) - s.fld (BELF.FLOODCFG_CACHETTL x.port) * 32768

/-- The key of the cache that is due first: the one whose CACHETTL ends first (R413). -/
def State.dueKey (s : State) : Option SeenKey :=
  s.radio.seen.foldl (fun best x =>
    match best with
    | some b => if s.overTtl b < s.overTtl x then some x else best
    | none => some x) none

/-- The origin and sequence number of a FLOOD IE (R399): origin, FSEQ, TTL. -/
def floodOf (h : Mhr) (l : List Octet) : Option (Nat × Nat × Nat) :=
  match findVendor (parseFrame h l).headers 0 subFlood with
  | some c => if c.length = 12 then some (leAt c 0 8, leAt c 8 2, leAt c 10 1) else none
  | none => none

/-- A frame taken from a queue enters the retry buffer of a port, or yields its outcome at once (R369, R373, R412). -/
def State.loadBuf (s : State) (p q : Nat) (header : Word) (octets : Option (List Octet)) : State :=
  let l := octets.getD []
  let code := s.badFrame p header octets (s.fitsCell p q l)
  let s := match parseMhr l with
    | some h => (match floodOf h l with | some (o, f, _) => if o = s.eui then s.enterSeen p o f else s | none => s)
    | none => s
  if code = 0 then s.setBuf p q (some ⟨header, l, 0, false⟩)
  else s.outcome p (hdrHandle header) code 0 0

end Sys2Proof.Machine
end

