-- ==== Sys2Proof/Machine/Net.lean ====
section
/-! DEFINITION. The network engine of each port: beacons, start, association, leases, orphan recovery, and managed
flooding (R391 to R413). -/
namespace Sys2Proof.Machine

/-- Role of a port's engine: 0 OFF, 1 NODE, 2 COORD (R391). -/
def State.role (s : State) (p : Nat) : Nat := s.fld (BELF.NETCTL_ROLE p)

/-- State of the engine (R427): 0 IDLE, 1 SCANNING, 2 ASSOCIATING, 3 JOINED, 4 ORPHAN, 5 STARTING, 6 RUNNING, 7 CLOSING. -/
def State.netState (s : State) (p : Nat) : Nat := s.fld (BELF.NETSTAT_STATE p)

/-- Set the state of the engine. -/
def State.setNetState (s : State) (p v : Nat) : State := s.setFld (BELF.NETSTAT_STATE p) v

/-- MODE.C follows NETCTL0.ROLE except while G is set (R391, R443, R444). -/
def State.cFollows (s : State) : State :=
  if s.flag SYS.MODE_G then s else (s.setFlag SYS.MODE_C (s.role 0 == 2)).setFlag SYS.MODE_CSUSP false

/-- EPOCH rises with a change of the schedule (R396). -/
def State.epochUp (s : State) (p : Nat) : State := s.bumpWrap (BELF.NETEPOCH_EPOCH p) 1

/-- The port's own source address (R411). -/
def State.ownAddr (s : State) (p : Nat) : MacAddr :=
  if s.fld (BELF.ADDR_SHORT p) = 0xFFFF then .ext s.eui else .short (s.fld (BELF.ADDR_SHORT p))

/-- Write a frame of the engine to a queue: header word and octets (R366, R367, R392). HANDLE is a free value. -/
def State.engineSend (s : State) (p queue fields : Nat) (octets : List Octet) : State :=
  let s := s.onPort p (fun x => { x with seq := (x.seq + 1) % 256 })
  (s.sendQueue .belfry queue (packetWord ((Config.value s.free).toNat % 256 + fields) false :: frameWords octets)).spend

/-- Header fields of a frame that the engine secures under key slot 8 + k. -/
def secureFields (k : Nat) : Nat := 256 + 512 * k

/-! ### Leases (R405 to R407) -/

/-- The entry that holds lease index i of a port. -/
def State.leaseHolder (s : State) (p i : Nat) : Option Nat := s.findNbr (fun n => n.leased && n.port == p && n.lidx == i)

/-- Active leases of a port. -/
def State.activeLeases (s : State) (p : Nat) : Nat :=
  (s.radio.nbrs.filter (fun e => match e.2 with | some n => n.leased && n.port == p | none => false)).length

/-- Whether index i may be granted to an EUI-64: not leased, and not in quarantine for another (R405, R407). -/
def State.leaseOpen (s : State) (p i eui : Nat) : Bool :=
  (s.leaseHolder p i).isNone &&
    (match tget (fun _ => (0, 0)) (s.port p).quarantine i with | (_, 0) => true | (e, _) => decide (e = eui))

/-- Lease indices neither leased nor in quarantine. -/
def State.freeLeases (s : State) (p : Nat) : Nat :=
  ((List.range (s.fld (BELF.LEASECFG_LEASECNT p))).filter (fun i =>
    (s.leaseHolder p i).isNone && decide ((tget (fun _ => (0, 0)) (s.port p).quarantine i).2 = 0))).length

/-- Set or end the quarantine of an index. -/
def State.setQuarantine (s : State) (p i : Nat) (q : Nat × Nat) : State :=
  s.onPort p (fun x => { x with quarantine := tput (fun _ => (0, 0)) x.quarantine i (if q.2 = 0 then (0, 0) else q) })

/-- The engine writes a cell of its own (R393). -/
def State.engineCell (s : State) (p c type slot choff queue : Nat) : State :=
  if c < 256 then s.writeCell p c (cellWord type slot choff) queue else s

/-- Disable a cell. -/
def State.disableCell (s : State) (p c : Nat) : State :=
  if c < 256 then s.putReg (cellA p c) (bitsPut (s.getReg (cellA p c)) 31 31 0) else s

/-- Uplink cell of a lease index: slot offset and channel offset (R405). -/
def State.uplink (s : State) (p i : Nat) : Nat × Nat :=
  ((s.fld (BELF.CELLCFG_ULBASE p) + i) % s.sflen p, i % s.fld (BELF.HOP_HOPLEN p))

/-- A lease ends (R407): its cell is disabled, the entry loses LEASED and its pin, the index enters quarantine. -/
def State.endLease (s : State) (p i : Nat) : State :=
  match s.leaseHolder p i with
  | some j =>
    let e := match s.nbr j with | some n => n.eui.getD 0 | none => 0
    let s := s.onNbr j (fun n => { n with leased := false, pinned := false, lrem := 0 })
    let s := s.setQuarantine p i (e, s.fld (BELF.LEASECFG_QUAR p) * 60)
    s.disableCell p (s.fld (BELF.CELLCFG_CELLBASE p) + i)
  | none => s

/-- A LEASE IE (R397). -/
structure LeaseIe where
  short : Nat
  secs : Nat
  index : Nat
  status : Nat
  deriving DecidableEq, Repr

/-- The LEASE IE of a frame; one with a reserved STATUS is ignored (R397). -/
def leaseOf (f : Parsed) : Option LeaseIe :=
  match findVendor f.payloads 2 subLease with
  | some c =>
    if c.length = 8 ∧ leAt c 7 1 < 6 then some ⟨leAt c 0 2, leAt c 2 4, leAt c 6 1, leAt c 7 1⟩ else none
  | none => none

/-- Octets of a LEASE IE. -/
def leaseOctets (l : LeaseIe) : List Octet :=
  payloadIe 2 (vendorContent subLease (leOctets 2 l.short ++ leOctets 4 l.secs ++ leOctets 1 l.index ++ leOctets 1 l.status))

/-- Send a MAC command of the engine: version 2, AR = 1, secured at NETLEVEL under NETKEY (R404, R417). -/
def State.engineCommand (s : State) (p : Nat) (dst src : MacAddr) (ies payload : List Octet) : State :=
  let k := s.fld (BELF.SECCFG_NETKEY p)
  let lv := s.fld (BELF.SECCFG_NETLEVEL p)
  let mhr := buildMhr macCommand true true (some (s.port p).seq) (s.fld (BELF.ADDR_PANID p)) dst src (some (lv, k + 1))
  s.engineSend p (s.fld (BELF.NETQS_NETQ p)) (secureFields k)
    (mhr ++ termHeader ++ ies ++ termPayload ++ payload ++ List.replicate (micLen lv) 0)

/-- The coordinator answers a node's EUI-64 (R404, R405). The fields of a refusal that the spec leaves open, and the one cell of its
ASSIGN IE, are free. -/
def State.answer (s : State) (p eui status : Nat) (index : Option Nat) : State :=
  let free := (Config.value s.free).toNat
  let short := match index with | some i => s.fld (BELF.LEASECFG_LEASEBASE p) + i | none => free % 65536
  let lease : LeaseIe := match index with
    | some i => ⟨short, s.fld (BELF.LEASETIME_LEASE p) * 60, i, status⟩
    | none => ⟨short, (Config.value (s.free + 1)).toNat, free / 65536 % 256, status⟩
  let assign := match index with
    | some i => payloadIe 2 (vendorContent subAssign (leOctets 2 (s.uplink p i).1 ++ leOctets 1 (s.uplink p i).2 ++ leOctets 1 2))
    | none => payloadIe 2 (vendorContent subAssign (octetsOfWord (Config.value (s.free + 2))))
  (s.spend.spend.spend).engineCommand p (.ext eui) (s.ownAddr p) (leaseOctets lease ++ assign)
    (leOctets 1 2 ++ leOctets 2 short ++ leOctets 1 status)

/-- A short address of a port leaves every other entry that held it. -/
def State.freeShort (s : State) (p short : Nat) : State :=
  s.onRadio (fun r => { r with nbrs := r.nbrs.map (fun e =>
    (e.1, e.2.map (fun n => if n.port = p ∧ n.short = short then { n with short := 0xFFFF } else n))) })

/-- Grant index i to the sender of entry j: its entry takes the short address LEASEBASE + i (R405, R406). -/
def State.grantLease (s : State) (p j eui i : Nat) : State :=
  let short := (s.fld (BELF.LEASECFG_LEASEBASE p) + i) % 65536
  let s := (s.freeShort p short).onNbr j (fun n => { n with
    leased := true, pinned := true, port := p, short := short, lidx := i, lrem := s.fld (BELF.LEASETIME_LEASE p) * 60 })
  let s := s.setQuarantine p i (0, 0)
  let u := s.uplink p i
  (s.engineCell p (s.fld (BELF.CELLCFG_CELLBASE p) + i) 3 u.1 u.2 0).answer p eui 0 (some i)

/-- The coordinator answers a request with status REQ (R405). -/
def State.answerReq (s : State) (p j eui wanted : Nat) (n : Nbr) : State :=
  let base := s.fld (BELF.LEASECFG_LEASEBASE p)
  let count := s.fld (BELF.LEASECFG_LEASECNT p)
  if s.fld (BELF.NETCTL_ADMIT p) = 1 ∧ n.allow = false then s.answer p eui 2 none
  else if n.leased = true ∧ n.port = p then s.grantLease p j eui n.lidx
  else if n.pinned = false ∧ 128 ≤ s.pinnedCount then s.answer p eui 1 none
  else if base ≤ wanted ∧ wanted < base + count ∧ s.leaseOpen p (wanted - base) eui = true then
    s.grantLease p j eui (wanted - base)
  else match (List.range count).find? (fun i => s.leaseOpen p i eui) with
    | some i => s.grantLease p j eui i
    | none => s.answer p eui 1 none

/-- A coordinator takes a MAC command (R405 to R407). -/
def State.coordCommand (s : State) (p : Nat) (sender : Option Nat) (f : Parsed) : State :=
  let cmd := leAt f.payload 0 1
  match sender, sender.bind s.nbr with
  | some j, some n =>
    match n.eui with
    | none => s
    | some e =>
      match leaseOf f with
      | none => if cmd = 3 ∧ n.leased = true ∧ n.port = p then s.endLease p n.lidx else s
      | some l =>
        if cmd = 3 ∨ l.status = 5 then (if n.leased = true ∧ n.port = p then s.endLease p n.lidx else s)
        else if cmd = 1 then
          if l.status = 4 ∧ n.leased = true ∧ n.port = p ∧ s.fld (BELF.LEASECFG_LEASEBASE p) + n.lidx = l.short then
            s.grantLease p j e n.lidx
          else if l.status = 3 ∨ l.status = 4 then s.answerReq p j e l.short n
          else s
        else s
  | _, _ => s

/-- LEASE_EXPIRY (R406, R407): the countdown of a lease ends. A node returns to SCANNING (R403). -/
def State.leaseExpires (s : State) (p i : Nat) : State :=
  match s.leaseHolder p i with
  | some _ => (s.endLease p i).belfFault (BELF.NETFAULTS_LEASEEXP p)
  | none => s

/-- QUARANTINE_END (R407). -/
def execQuarantineEnd (p : Fin 2) (i : Fin 128) (s : State) : Out := .next (s.setQuarantine p.val i.val (0, 0))

/-! ### Beacons and start (R396, R400 to R402, R409) -/

/-- The NET IE of a coordinator's beacon (R396). OPEN is 1: the engine answers a request whatever its state (R405; log entry 76). -/
def State.netIe (s : State) (p : Nat) (last : Bool) : List Octet :=
  let st := s.netState p
  let flags := natOfBool (s.flag SYS.MODE_G) + 2 + 4 * natOfBool (s.freeLeases p == 0) +
    8 * natOfBool (st == 5) + 16 * natOfBool last
  let plan := s.plan p
  let n := maskOctets p plan
  leOctets 2 (s.fld (BELF.NETCTL_NETID p)) ++ leOctets 1 (s.fld (BELF.NETCTL_CRANK p)) ++ leOctets 1 flags ++
    leOctets 2 (s.fld (BELF.NETEPOCH_EPOCH p)) ++ leOctets 1 (s.activeLeases p) ++ leOctets 1 (s.freeLeases p) ++
    leOctets 2 (s.sflen p) ++ leOctets 2 (s.fld (BELF.TIMING_TSLEN p)) ++ leOctets 2 (s.fld (BELF.TIMING_TXOFF p)) ++
    leOctets 2 (s.fld (BELF.GAPS_ACKGAP p)) ++ leOctets 2 (s.fld (BELF.GAPS_GUARD p)) ++
    leOctets 2 (s.fld (BELF.CELLCFG_JOINSLOT p)) ++ leOctets 1 (s.fld (BELF.CHCFG_JOINCHOFF p)) ++
    leOctets 1 (s.fld (BELF.CHCFG_BCHOFF p)) ++ leOctets 1 plan ++ leOctets 2 (s.fld (BELF.HOP_SEED p)) ++
    ((List.range 4).flatMap (fun i => octetsOfWord (s.getReg (maskReg p i)))).take n

/-- A beacon of the engine: its octets and its ASNOFF (R400). The join metric is a free value. -/
def State.beacon (s : State) (p : Nat) (last : Bool) : List Octet × Nat :=
  let mhr := buildMhr macBeacon false true (some (s.port p).seq) (s.fld (BELF.ADDR_PANID p)) .none (s.ownAddr p) none
  (mhr ++ termHeader ++ syncIe (Config.value s.free).toNat ++ payloadIe 2 (vendorContent subNet (s.netIe p last)),
    mhr.length + 6)

/-- Header fields of a beacon: STAMP = 1 and ASNOFF (R367, R400). -/
def beaconFields (asnOff : Nat) : Nat := 8192 + 16384 * asnOff

/-- Build a beacon into BCNQ (R400, R409). -/
def State.queueBeacon (s : State) (p : Nat) (last : Bool) : State :=
  let b := s.beacon p last
  (s.spend).engineSend p (s.fld (BELF.NETQS_BCNQ p)) (beaconFields b.2) b.1

/-- Whether a beacon waits in BCNQ or is under way to it. -/
def State.beaconWaits (s : State) (p : Nat) : Bool :=
  let q := s.queue (s.fld (BELF.NETQS_BCNQ p))
  !q.packets.isEmpty || q.openPk.isSome ||
    s.wires.any (fun x => x.src == .belfry && x.tag == tagQsel && bitsOf x.word 7 0 == s.fld (BELF.NETQS_BCNQ p))

/-- Whether the engine keeps a beacon in BCNQ. -/
def State.beaconing (s : State) (p : Nat) : Bool := s.role p == 2 && (s.netState p == 5 || s.netState p == 6)

/-- Keep one beacon in BCNQ (R400). -/
def State.keepBeacon (s : State) (p : Nat) : State :=
  if s.beaconing p && s.fld (QUE.STAT_LIFE (s.fld (BELF.NETQS_BCNQ p))) == 2 && !s.beaconWaits p then s.queueBeacon p false else s

/-- Drop the packets of a queue. -/
def State.popAll (s : State) (q : Nat) : Nat → State
  | 0 => s
  | k + 1 => (s.popPacket q).popAll q k

/-- Drop the beacons of BCNQ, those under way to it when they are taken (R401, R409). -/
def State.dropQueued (s : State) (p : Nat) : State :=
  let q := s.fld (BELF.NETQS_BCNQ p)
  let flying := (s.wires.filter (fun x => x.src == .belfry && x.tag == tagQsel && bitsOf x.word 7 0 == q)).length +
    natOfBool (s.queue q).openPk.isSome
  (s.popAll q (s.queue q).packets.length).onPort p (fun x => { x with bcnStale := flying })

/-- Drop the beacons of BCNQ and the one in the retry buffer (R401). -/
def State.dropBeacons (s : State) (p : Nat) : State := (s.dropQueued p).setBuf p (s.fld (BELF.NETQS_BCNQ p)) none

/-- COORDINATOR_START (R400): cells 0 and 1, STARTING, and the first beacon. -/
def execCoordinatorStart (p : Fin 2) (s : State) : Out :=
  let p := p.val
  .next (if s.role p = 2 ∧ s.portOn p ∧ s.netState p = 0 then
    let s := s.engineCell p 0 0 0 (s.fld (BELF.CHCFG_BCHOFF p)) (s.fld (BELF.NETQS_BCNQ p))
    let s := s.engineCell p 1 4 (s.fld (BELF.CELLCFG_JOINSLOT p)) (s.fld (BELF.CHCFG_JOINCHOFF p)) (s.fld (BELF.NETQS_NETQ p))
    (s.setNetState p 5).queueBeacon p false
  else s)

/-- START_WINDOW_END (R400). -/
def execStartWindowEnd (p : Fin 2) (s : State) : Out :=
  .next (if s.netState p.val = 5 then s.setNetState p.val 6 else s)

/-- A port with the path not MAIN, or whose last beacon's slot has passed, falls (R388, R409). -/
def State.portFalls (s : State) (p : Nat) : State :=
  (s.onPort p (fun x => { x with lastBuilt := false, lastDone := false })).setLife (unitPort p) 3

/-- EN = 0 on a COORD port: the beacon in BCNQ is rebuilt with LAST = 1, and STATE reads CLOSING (R409). Where no beacon can be
built, since BCNQ is not ON, the port falls (log entry 76). -/
def State.closePort (s : State) (p : Nat) : State :=
  if s.pathMain && s.fld (QUE.STAT_LIFE (s.fld (BELF.NETQS_BCNQ p))) == 2 then
    let s := (s.dropQueued p).setNetState p 7
    (s.queueBeacon p true).onPort p (fun x => { x with lastBuilt := false, lastDone := false })
  else s.portFalls p

/-- LAST_BEACON (R409): a COORD port asked OFF closes. -/
def execLastBeacon (p : Fin 2) (s : State) : Out :=
  let p := p.val
  .next (if s.role p = 2 ∧ s.portOn p ∧ s.flag (BELF.PCTL_EN p) = false ∧ s.netState p ≠ 7 then s.closePort p else s)

/-- The guard sequencer closes the SUB port (R450). -/
def State.lastBeaconStart (s : State) : State :=
  if s.portOn 0 ∧ s.netState 0 ≠ 7 then s.closePort 0 else s

/-! ### The node engine (R403, R404, R408) -/

/-- The node's engine scans: SCAN, ANY = 1, no synchronisation, its cells disabled (R403). -/
def State.nodeScans (s : State) (p wanted : Nat) : State :=
  let s := ((s.setNetState p 1).setFlag (BELF.PCTL_SCAN p) true).setFlag (BELF.SYNC_ANY p) true
  let s := s.each (List.range 6) (fun s c => s.disableCell p c)
  (s.setFlag (BELF.PSTAT_SYNCED p) false).onPort p (fun x => { x with
    fails := 0, asking := 0, wanted := wanted, install := none, lease := none })

/-- The node becomes an orphan: SCANCH, the parent as its time source (R408). -/
def State.nodeOrphan (s : State) (p : Nat) : State :=
  let s := ((s.setNetState p 4).setFlag (BELF.PCTL_SCAN p) true).setFlag (BELF.PSTAT_SYNCED p) false
  ((s.setFlag (BELF.SYNC_ANY p) false).setFld (BELF.SYNC_NBR p) (s.fld (BELF.NETSTAT_PARENT p))).onPort p
    (fun x => { x with asking := 0, fails := 0 })

/-- The node sends an Association Request with a LEASE IE (R397, R404): 3 REQ or 4 RENEW. -/
def State.nodeRequest (s : State) (p status : Nat) : State :=
  match s.nbr (s.fld (BELF.NETSTAT_PARENT p)) with
  | some n =>
    let x := s.port p
    let free := (Config.value s.free).toNat
    let lease : LeaseIe := match status, x.lease with
      | 4, some (i, _) => ⟨s.fld (BELF.ADDR_SHORT p), (Config.value (s.free + 1)).toNat, i, 4⟩
      | st, _ => ⟨if st = 4 then s.fld (BELF.ADDR_SHORT p) else x.wanted, (Config.value (s.free + 1)).toNat, free / 256 % 256, st⟩
    let dst : MacAddr := if x.parentExt then .ext (n.eui.getD 0) else .short n.short
    let s := (s.spend.spend).engineCommand p dst (.ext s.eui) (leaseOctets lease) (leOctets 1 1 ++ leOctets 1 (free % 256))
    s.onPort p (fun x => { x with asking := 1 })
  | none => s

/-- A request of the node fails (R403). -/
def State.requestFails (s : State) (p : Nat) : State :=
  let n := (s.port p).fails + 1
  let s := s.onPort p (fun x => { x with asking := 0, fails := if n < 3 then n else 0 })
  if n < 3 then
    if s.netState p = 2 then s.nodeRequest p 3
    else if s.netState p = 3 ∨ s.netState p = 4 then s.nodeRequest p 4
    else s
  else
    let s := s.belfFault (BELF.NETFAULTS_JOINFAIL p)
    if s.netState p = 2 then s.nodeScans p (s.port p).wanted else s

/-- Start the hop generator (R371). -/
def State.startHopGen (s : State) (p : Nat) : State := s.setFlag (BELF.HOP_BUSY p) true

/-- What EPOCH follows: SFLEN, TSLEN, TXOFF, the hop parameters and the join cell (R396). -/
def State.epochKey (s : State) (p : Nat) : List Nat :=
  [s.fld (BELF.FRAME_SFLEN p), s.fld (BELF.TIMING_TSLEN p), s.fld (BELF.TIMING_TXOFF p), s.plan p, s.fld (BELF.HOP_SEED p),
    s.fld (BELF.CELLCFG_JOINSLOT p), s.fld (BELF.CHCFG_JOINCHOFF p)] ++
    (List.range 4).map (fun i => (s.getReg (maskReg p i)).toNat)

/-- EPOCH rises with a change of the schedule of a port (R396). -/
def State.epochStep (old new : State) : State :=
  new.each (List.range 2) (fun s p => if old.epochKey p ≠ new.epochKey p then s.epochUp p else s)

/-- The node installs the schedule of its parent's NET IE: timing, hop parameters, cells 0 and 1 (R403). -/
def State.nodeInstall (s : State) (p : Nat) (n : NetIe) : State :=
  let old := s
  let s := (s.setFld (BELF.FRAME_SFLEN p) n.sflen).setFld (BELF.TIMING_TSLEN p) n.tslen
  let s := (s.setFld (BELF.TIMING_TXOFF p) n.txoff).setFld (BELF.GAPS_ACKGAP p) n.ackgap
  let s := (s.setFld (BELF.GAPS_GUARD p) n.guard).setFld (BELF.PCTL_PLAN p) n.plan
  let s := s.setFld (BELF.HOP_SEED p) n.seed
  let s := s.each (List.range 4) (fun s i => s.putReg (maskReg p i) (BitVec.ofNat 32 (ofLe ((n.mask.drop (4 * i)).take 4))))
  let s := (s.engineCell p 0 1 0 n.bchoff 0).engineCell p 1 4 n.joinSlot n.joinChoff (s.fld (BELF.NETQS_NETQ p))
  old.epochStep ((s.onPort p (fun x => { x with epoch := n.epoch, install := none })).startHopGen p)

/-- Whether a beacon qualifies for a scanning node (R403). -/
def State.qualifies (s : State) (p pan : Nat) (n : NetIe) : Bool :=
  decide (n.netid = s.fld (BELF.NETCTL_NETID p)) && decide (pan = s.fld (BELF.ADDR_PANID p)) && n.openNet && !n.full

/-- A changed EPOCH in a beacon of the parent: the schedule is installed at the next slot start (R403). -/
def State.nodeFollows (s : State) (p : Nat) (n : NetIe) : State :=
  if n.epoch ≠ (s.port p).epoch then s.onPort p (fun x => { x with install := some n }) else s

/-- An orphan hears a beacon of its parent, whatever the beacon carries: it sends RENEW (R403, R408). -/
def State.orphanHears (s : State) (p : Nat) : State := if (s.port p).asking = 0 then s.nodeRequest p 4 else s

/-- A node hears a beacon with a NET IE (R403, R408). -/
def State.nodeBeacon (s : State) (p j pan : Nat) (ext : Bool) (n : NetIe) : State :=
  let parent := s.fld (BELF.NETSTAT_PARENT p)
  match s.netState p with
  | 1 =>
    if s.qualifies p pan n && (s.flag (BELF.SYNC_ANY p) || s.fld (BELF.SYNC_NBR p) == j) then
      let s := ((s.setNetState p 2).setFld (BELF.NETSTAT_PARENT p) j).setFld (BELF.SYNC_NBR p) j
      let s := (s.setFlag (BELF.SYNC_ANY p) false).onPort p (fun x => { x with parentExt := ext })
      (s.nodeInstall p n).nodeRequest p 3
    else s
  | 2 => if j = parent then s.nodeFollows p n else s
  | 3 =>
    if j ≠ parent then s
    else if n.last then s.nodeOrphan p
    else s.nodeFollows p n
  | 4 => if j = parent then (s.nodeFollows p n).orphanHears p else s
  | _ => s

/-- The cells of an ASSIGN IE become cells 2 to 5, TX cells on UPQ (R398, R403). -/
def State.assignCells (s : State) (p : Nat) (c : List Octet) : State :=
  s.each (List.range 4) (fun s k =>
    let type := leAt c (4 * k + 3) 1
    if 4 * (k + 1) ≤ c.length ∧ type < 5 then
      s.engineCell p (2 + k) type (leAt c (4 * k) 2 % 1024) (leAt c (4 * k + 2) 1 % 128)
        (if type = 2 then s.fld (BELF.NETQS_UPQ p) else 0)
    else s.disableCell p (2 + k))

/-- A response that refuses the lease has arrived: the request has not failed (R403). DESIGN CHOICE: a node that is ASSOCIATING
asks again, any other keeps what it has (log entry 76). -/
def State.requestRefused (s : State) (p : Nat) : State :=
  let s := s.onPort p (fun x => { x with asking := 0 })
  if s.netState p = 2 then s.nodeRequest p 3 else s

/-- A node takes a MAC command of its parent (R403, R404, R407, R408). -/
def State.nodeCommand (s : State) (p : Nat) (sender : Option Nat) (f : Parsed) : State :=
  let cmd := leAt f.payload 0 1
  let joined := s.netState p == 3 || s.netState p == 4
  if sender ≠ some (s.fld (BELF.NETSTAT_PARENT p)) then s
  else match leaseOf f with
    | none => if cmd = 3 ∧ joined = true then s.nodeScans p 0xFFFF else s
    | some l =>
      if cmd = 3 ∨ l.status = 5 then (if joined then s.nodeScans p 0xFFFF else s)
      else if cmd = 2 ∧ (s.port p).asking ≠ 0 then
        if l.status = 0 then
          let s := (s.setNetState p 3).setFld (BELF.ADDR_SHORT p) l.short
          let s := s.onPort p (fun x => { x with asking := 0, fails := 0, lease := some (l.index, l.secs), leaseLen := l.secs })
          match findVendor f.payloads 2 subAssign with
          | some c => s.assignCells p c
          | none => s
        else if l.status = 1 ∨ l.status = 2 then s.requestRefused p
        else s
      else s

/-- The outcome of a frame of NETQ reaches the node's engine (R403). -/
def State.requestOutcome (s : State) (p q code : Nat) : State :=
  if s.role p = 1 ∧ q = s.fld (BELF.NETQS_NETQ p) ∧ (s.port p).asking = 1 then
    if code = 0 then s.onPort p (fun x => { x with asking := 2 })
    else if code = 5 then s
    else s.requestFails p
  else s

/-- ASSOC_RESPONSE_TIMEOUT (R403): no response within 4 slotframes of the acknowledgement. -/
def execAssocResponseTimeout (p : Fin 2) (s : State) : Out :=
  .next (if s.role p.val = 1 ∧ (s.port p.val).asking = 2 then s.requestFails p.val else s)

/-- LEASE_RENEW_DUE (R403). -/
def execLeaseRenewDue (p : Fin 2) (s : State) : Out :=
  .next (if s.role p.val = 1 ∧ s.netState p.val = 3 ∧ (s.port p.val).asking = 0 then s.nodeRequest p.val 4 else s)

/-- LEASE_EXPIRY (R403, R406, R407). -/
def execLeaseExpiry (p : Fin 2) (i : Fin 128) (s : State) : Out :=
  let p := p.val
  .next (if s.role p = 1 ∧ ((s.port p).lease.map (fun l => l.1)) = some i.val then s.nodeScans p 0xFFFF
  else s.leaseExpires p i.val)

/-- ORPHAN_TIMEOUT (R408): the node scans, and will request its old SHORT. -/
def execOrphanTimeout (p : Fin 2) (s : State) : Out :=
  .next (if s.role p.val = 1 ∧ s.netState p.val = 4 then s.nodeScans p.val (s.fld (BELF.ADDR_SHORT p.val)) else s)

/-- SYNCLOST (R377, R408). -/
def execSynclost (p : Fin 2) (s : State) : Out :=
  let p := p.val
  .next (if s.flag (BELF.PSTAT_SYNCED p) ∧ s.flag (BELF.PCTL_TIMESRC p) then
    let s := (s.setFlag (BELF.PSTAT_SYNCED p) false).belfFault (BELF.FAULTS_SYNCLOST p)
    if s.role p = 1 ∧ s.netState p = 3 then s.nodeOrphan p else s
  else s)

/-! ### Conflicts (R401, R402) -/

/-- A coordinator demotes: it stops beaconing and becomes a node of the winner (R401). -/
def State.demote (s : State) (p j : Nat) : State :=
  let s := s.dropBeacons p
  let s := (s.setFld (BELF.NETCTL_ROLE p) 1).setFlag (BELF.PCTL_TIMESRC p) true
  let s := if p = 0 then s.cFollows else s
  ((s.nodeScans p 0xFFFF).setFlag (BELF.SYNC_ANY p) false).setFld (BELF.SYNC_NBR p) j

/-- A coordinator hears a beacon of its own PAN ID and NETID from another EUI-64 (R401, R402). A sender whose EUI-64 is not known
is another device; where the ranks are then equal, which EUI-64 is lower is a free value. -/
def State.coordBeacon (s : State) (p j pan : Nat) (n : NetIe) : State :=
  if (s.nbr j).bind (fun x => x.eui) ≠ some s.eui ∧ pan = s.fld (BELF.ADDR_PANID p) ∧ n.netid = s.fld (BELF.NETCTL_NETID p) ∧ (s.netState p = 5 ∨ s.netState p = 6) then
    let s := (s.bump (BELF.NETSTAT_CONFLICTS p) 1).belfFault (BELF.NETFAULTS_CONFLICT p)
    if s.netState p = 6 then s
    else
      let mine := s.fld (BELF.NETCTL_CRANK p)
      let lower := match (s.nbr j).bind (fun n => n.eui) with
        | some e => decide (e < s.eui)
        | none => bitAt (Config.value s.free).toNat 0
      if !n.starting || decide (mine < n.crank) || (decide (n.crank = mine) && lower) then (s.spend).demote p j
      else s.spend
  else s

/-! ### Managed flooding (R410 to R413) -/

/-- Offset of the content of the FLOOD IE in a list of header IEs from an offset. -/
def floodAt (l : List Octet) (i : Nat) : Nat → Option Nat
  | 0 => none
  | fuel + 1 =>
    if l.length < i + 2 then none
    else
      let d := leAt l i 2
      let n := d % 128
      if d / 128 % 256 = 0 ∧ (l.drop (i + 2)).take 3 = vendorId ∧ leAt l (i + 5) 1 = subFlood then some (i + 6)
      else if d / 128 % 256 = 0x7E ∨ d / 128 % 256 = 0x7F then none
      else floodAt l (i + 2 + n) fuel

/-- The delay of a relay in ticks: a uniform draw from 0 to JITTER × 10 ms (R411). -/
def State.relayDelay (s : State) (q : Nat) : Nat :=
  Config.draw s.free % (s.fld (BELF.FLOODCFG_JITTER q) * 32768 / 100 + 1)

/-- A flood that passed R365 and the security checks (R410): the second result says whether it is delivered. -/
def State.floodIn (s : State) (p : Nat) (h : Mhr) (l : List Octet) (origin fseq ttl : Nat) : State × Bool :=
  if origin = s.eui ∨ s.hasSeen origin fseq = true then
    let s := s.bump (BELF.FLOODCNT_DUP p) 1
    (s.onRadio (fun r => { r with relays := r.relays.map (fun x =>
      if x.origin = origin ∧ x.fseq = fseq then { x with copies := x.copies + 1 } else x) }), false)
  else
    let s := s.enterSeen p origin fseq
    if ttl < 2 then (s, true)
    else
      (s.each (List.range 2) (fun s q =>
        if bitAt (s.fld (BELF.FLOODCFG_RELAY p)) q then
          let r : Relay := ⟨origin, fseq, p, q, s.crypt.ticks.toNat + s.relayDelay q, l,
            if h.secured then some h.level else none, 0⟩
          (s.onRadio (fun x => { x with relays := x.relays ++ [r] })).spend
        else s), true)

/-- The relay frame of R411: its octets. -/
def State.relayFrame (s : State) (q : Nat) (r : Relay) : List Octet :=
  match parseMhr r.octets with
  | some h =>
    let key := s.fld (BELF.SECCFG_FKEY q)
    let mhr := buildMhr macData false true (some (s.port q).seq) (h.dstPan.getD 0xFFFF) h.dst (s.ownAddr q)
      (r.level.map (fun lv => (lv, key + 1)))
    let body := match floodAt r.octets h.bodyOff r.octets.length with
      | some o => (putOctets r.octets (o + 10) [BitVec.ofNat 8 (leAt r.octets (o + 10) 1 - 1), BitVec.ofNat 8 (leAt r.octets (o + 11) 1 + 1)]).drop h.bodyOff
      | none => r.octets.drop h.bodyOff
    mhr ++ body ++ (match r.level with | some lv => List.replicate (micLen lv) 0 | none => [])
  | none => []

/-- The relay of a port that is due first. -/
def State.dueRelay (s : State) (q : Nat) : Option Relay :=
  (s.radio.relays.filter (fun r => decide (r.outPort = q))).foldl (fun best r =>
    match best with
    | some b => if r.due < b.due then some r else best
    | none => some r) none

/-- FLOOD_RELAY (R411): the delay of the port's earliest relay ends. -/
def execFloodRelay (p : Fin 2) (s : State) : Out :=
  let q := p.val
  .next (match s.dueRelay q with
    | none => s
    | some r =>
      let s := s.onRadio (fun x => { x with relays := x.relays.erase r })
      let k := s.fld (BELF.FLOODCFG_SUPK q)
      if k ≠ 0 ∧ k ≤ r.copies then s.bump (BELF.FLOODCNT_SUPPRESSED q) 1
      else
        (s.engineSend q (s.fld (BELF.NETQS_FLOODQ q)) (if r.level.isSome then secureFields (s.fld (BELF.SECCFG_FKEY q)) else 0)
          (s.relayFrame q r)).bump (BELF.FLOODCNT_RELAYED q) 1)

/-- SEEN_CACHE_EXPIRY (R413): CACHETTL s have passed since a key entered; the key that is due first leaves the cache. -/
def execSeenCacheExpiry (s : State) : Out :=
  .next (match s.dueKey with
    | some x => s.onRadio (fun r => { r with seen := r.seen.erase x })
    | none => s)

/-- A second edge passes for the belfry: SYNCSTAT.AGE, neighbours, leases and quarantines (R377, R406, R407, R424). -/
def State.netSecond (s : State) : State :=
  let s := s.each (List.range 2) (fun s p =>
    let s := if s.portLive p && s.flag (BELF.PCTL_TIMESRC p) then s.bump (BELF.SYNCSTAT_AGE p) 1 else s
    s.onPort p (fun x => { x with
      lease := x.lease.map (fun l => (l.1, l.2 - 1))
      quarantine := x.quarantine.foldl (fun m e => tput (fun _ => (0, 0)) m e.1 (if e.2.2 ≤ 1 then (0, 0) else (e.2.1, e.2.2 - 1))) [] }))
  (s.nbrSecond).onRadio (fun r => { r with seen := r.seen.map (fun x => { x with entered := x.entered.tick }) })

end Sys2Proof.Machine
end

