-- ==== Sys2Proof/Machine/Radio.lean ====
section
/-! DEFINITION. Slots, transmission, reception, acknowledgements and the belfry's register stores (R361 to R427). -/
namespace Sys2Proof.Machine

/-! ### Slots (R370, R372, R440) -/

/-- A test carrier runs: TEST takes effect only while V is set (R389). -/
def State.testing (s : State) (p : Nat) : Bool :=
  s.fld (BELF.PCTL_TEST p) != 0 && s.flag SYS.MODE_V && !s.flag SYS.MODE_VSUSP

/-- Listening on SCANCH: unsynchronised with SCAN = 1 (R377), or a scanning node (R403). -/
def State.scanning (s : State) (p : Nat) : Bool :=
  s.flag (BELF.PCTL_SCAN p) && (!s.flag (BELF.PSTAT_SYNCED p) || (s.role p == 1 && s.netState p == 1))

/-- The channel of a test carrier is one on which the port may transmit (R362, R382, R389). -/
def State.carrierOn (s : State) (p : Nat) : Bool :=
  s.testing p && s.portOn p && s.pathMain && s.flag CRYPT.CLKSTAT_XHFOK && !s.barred p (s.fld (BELF.PCTL_SCANCH p))

/-- A cell's retry buffer holds a frame. -/
def State.cellFull (s : State) (p : Nat) (c : Cell) : Bool := ((s.port p).buf c.queue).isSome

/-- The cell that runs in the slot under way, and what the port does in it (R372, R374). -/
def State.pickCell (s : State) (p : Nat) : SlotAct × Nat :=
  let slot := s.asn p % s.sflen p
  let orphan := s.role p == 1 && s.netState p == 4
  let cs := (s.slotCells p).filter (fun c => c.slot == slot && (!orphan || decide (c.num < 2)))
  match cs.find? (fun c => c.type == 0 && s.cellFull p c) with
  | some c => (.send 0 c.queue, c.choff)
  | none =>
  match cs.find? (fun c => c.type == 2 && s.cellFull p c) with
  | some c => (.send 2 c.queue, c.choff)
  | none =>
  match cs.find? (fun c => c.type == 1) with
  | some c => (.listen true false, c.choff)
  | none =>
  match cs.find? (fun c => c.type == 4) with
  | some c => (if s.cellFull p c && (s.port p).skip == 0 then .send 4 c.queue else .listen false false, c.choff)
  | none =>
  match cs.find? (fun c => c.type == 3) with
  | some c => (.listen false false, c.choff)
  | none => (.idle, 0)

/-- Cells run: no test, no scan, and the port is synchronised with a hop sequence (R370, R377, R389). -/
def State.cellsRun (s : State) (p : Nat) : Bool :=
  !s.testing p && !s.scanning p && s.flag (BELF.PSTAT_SYNCED p) && s.fld (BELF.HOP_HOPLEN p) != 0

/-- Whether the slot under way skips a SHARED cell in which a frame waits (R374). -/
def State.skipsShared (s : State) (p : Nat) : Bool :=
  s.cellsRun p && decide (0 < (s.port p).skip) && (s.pickCell p).1 == .listen false false &&
    (s.slotCells p).any (fun c => c.type == 4 && c.slot == s.asn p % s.sflen p && s.cellFull p c)

/-- What the port does in the slot under way, and on which channel (R370, R372, R377, R389, R400). -/
def State.slotAction (s : State) (p : Nat) : SlotAct × Nat :=
  if s.testing p then (.idle, 0)
  else if s.scanning p then (.listen true true, s.fld (BELF.PCTL_SCANCH p))
  else if !s.cellsRun p then (.idle, 0)
  else
    let r := s.pickCell p
    if s.role p == 2 && s.netState p == 5 then
      match r.1 with
      | .send 0 _ => (r.1, s.fld (BELF.CHCFG_STARTCH p))
      | .send _ _ => (r.1, s.hopChannel p r.2)
      | _ => (.listen false true, s.fld (BELF.CHCFG_STARTCH p))
    else (r.1, s.hopChannel p r.2)

/-- Whether a slot listens. -/
def SlotAct.listens : SlotAct → Bool
  | .listen _ _ => true
  | _ => false

/-- The correction moves the boundary of this slot: stepped at once, slewed by at most TSLEN × 10 µs / 2,000 (R440). -/
def State.applyCorr (s : State) (p : Nat) : State :=
  let step : Rat := (s.fld (BELF.TIMING_TSLEN p) : Rat) / 200
  s.onPort p (fun x => { x with corr :=
    match x.corr with
    | some (false, c) => if step < c then some (false, c - step) else if c < -step then some (false, c + step) else none
    | _ => none })

/-- SLOT_START (R370, R372): the ASN advances or takes the value loaded, and the port chooses what it does. -/
def execSlotStart (p : Fin 2) (s : State) : Out :=
  let p := p.val
  let x := s.port p
  .next (if s.portOn p ∧ s.flag CRYPT.CLKSTAT_XHFOK ∧ x.air = none ∧ x.awaits = none ∧ x.ack = none then
    if x.lastDone then s.portFalls p
    else
      let s := match x.asnLoad with
        | some a => ((s.setAsn p a).setFlag (BELF.PSTAT_SYNCED p) true).onPort p (fun x => { x with asnLoad := none })
        | none => s.setAsn p ((s.asn p + 1) % 2 ^ 40)
      let s := s.applyCorr p
      let s := match x.install with | some n => s.nodeInstall p n | none => s
      let s := s.keepBeacon p
      let r := s.slotAction p
      let skip := natOfBool (s.skipsShared p)
      (s.setFlag (BELF.PSTAT_RXON p) r.1.listens).onPort p (fun x => { x with act := r.1, channel := r.2, skip := x.skip - skip })
  else s)

/-! ### Transmission (R369, R373, R374, R384 to R387) -/

/-- A busy channel, or a SHARED attempt without an ack: BE rises to at most 4, and SHARED cells are skipped (R374). -/
def State.backoff (s : State) (p : Nat) : State :=
  let b := min 3 ((s.port p).backoff + 1)
  (s.onPort p (fun x => { x with backoff := b, skip := Config.draw s.free % 2 ^ (b + 1) })).spend

/-- The frame of a retry buffer reaches its outcome (R369, R374, R384, R386). -/
def State.finishFrame (s : State) (p q : Nat) (b : RetryBuf) (code rssi : Nat) : State :=
  let s := (s.outcome p (hdrHandle b.header) code (min 8 b.attempts) rssi).setBuf p q none
  let s := if code < 2 then s.onPort p (fun x => { x with backoff := 0 }) else s
  let s :=
    if code = 0 then
      let s := s.onPort p (fun x => { x with marked := 0, run := if b.attempts = 1 then x.run + 1 else 0 })
      if 16 ≤ (s.port p).run then (s.onPort p (fun x => { x with run := 0 })).adaptPower p (-1) else s
    else if code = 2 ∧ b.upper = true then
      if 8 ≤ (s.port p).marked + 1 then (s.onPort p (fun x => { x with marked := 0 })).belfFault (BELF.FAULTS_LEASH p)
      else s.onPort p (fun x => { x with marked := x.marked + 1 })
    else s
  s.requestOutcome p q code

/-- Put a frame on air: its airtime is charged in full (R378). -/
def State.goOnAir (s : State) (p : Nat) (a : Air) (size : Nat) : State :=
  let s := s.charge p (s.port p).channel (s.airtime p size)
  (s.setFlag (BELF.PSTAT_TXON p) true).onPort p (fun x => { x with air := some a })

/-- The power of a frame before any cap: a unicast frame goes at the working power, a beacon or an AR = 0 frame at the upper limit
(R384). -/
def State.framePower (s : State) (p : Nat) (ar : Bool) : Int := if ar then s.sfld (BELF.PSTAT_WPWR p) else s.powerHi p

/-- Send the frame of a retry buffer: stamp, counter, CCM*, limiter (R367, R373, R382, R417, R422). In a slot that it does not fit,
a frame is not sent; one that fits no enabled cell is returned (R373). -/
def State.sendBuf (s : State) (p kind q : Nat) (b : RetryBuf) : State :=
  let ar := asksAck kind b.octets
  let code := s.badFrame p b.header (some b.octets) (s.fitsCell p q b.octets)
  let size := b.octets.length + 2
  let slot := 8 + hdrKey b.header
  if code ≠ 0 then s.finishFrame p q b code 0
  else if !s.fits p b.octets.length ar then s
  else if !s.limitAllows p (s.port p).channel (s.airtime p size) then s.bump (BELF.LIMCNT_DEFER p) 1
  else if hdrSecure b.header && !s.counterReady slot then
    (s.bump (BELF.SECCNT2_FCWAIT p) 1).belfFault (BELF.NETFAULTS_FCWAIT p)
  else
    let l := if hdrStamp b.header then putOctets b.octets (hdrAsnOff b.header) (leOctets 5 (s.asn p)) else b.octets
    let r : State × List Octet :=
      if hdrSecure b.header then
        match parseMhr l, s.aesKey slot with
        | some h, some k =>
          let c := s.takeCounter slot
          (c.1, secureFrame k s.eui c.2 h (l.take (l.length - micLen h.level)))
        | _, _ => (s, l)
      else (s, l)
    let s := r.1.setBuf p q (some { b with attempts := b.attempts + 1, upper := s.atUpper p })
    s.goOnAir p ⟨some q, kind == 4, ar, r.2, s.framePower p ar⟩ size

/-- A SHARED cell that does not send listens as RX (R372). -/
def State.sharedListens (s : State) (p kind : Nat) : State :=
  if kind = 4 ∧ (s.port p).air = none then
    (s.setFlag (BELF.PSTAT_RXON p) true).onPort p (fun x => { x with act := .listen false false })
  else s

/-- FRAME_TRANSMIT (R373, R374): the port sends at TXOFF what its slot chose; energy is what a SHARED cell measures. -/
def execFrameTransmit (p : Fin 2) (energy : BitVec 8) (s : State) : Out :=
  let p := p.val
  .next (match (s.port p).act with
    | .send kind q =>
      match (s.port p).buf q with
      | some b =>
        if s.portLive p ∧ s.flag CRYPT.CLKSTAT_XHFOK ∧ (s.port p).air = none ∧ s.testing p = false then
          let last := (s.port p).lastBuilt && q == s.fld (BELF.NETQS_BCNQ p)
          let s := s.onPort p (fun x => { x with act := .idle, lastDone := x.lastDone || last })
          let s :=
            if !s.pathMain then s
            else if kind = 4 ∧ s.sfld (BELF.CCA_THR p) ≤ energy.toInt then s.backoff p
            else s.sendBuf p kind q b
          s.sharedListens p kind
        else s
      | none => s
    | _ => s)

/-- FRAME_TRANSMIT_END (R369, R376): the last symbol is out. -/
def execFrameTransmitEnd (p : Fin 2) (s : State) : Out :=
  let p := p.val
  .next (match (s.port p).air with
    | some a =>
      let s := (s.setFlag (BELF.PSTAT_TXON p) false).onPort p (fun x => { x with air := none })
      match a.queue with
      | none => s
      | some q =>
        if a.ar then (s.setFlag (BELF.PSTAT_RXON p) true).onPort p (fun x => { x with awaits := some (q, a.shared) })
        else match (s.port p).buf q with
          | some b => s.finishFrame p q b 1 0
          | none => s
    | none => s)

/-- ACK_TIMEOUT (R374, R376, R384): the ack window closes. -/
def execAckTimeout (p : Fin 2) (s : State) : Out :=
  let p := p.val
  .next (match (s.port p).awaits with
    | some (q, shared) =>
      let s := (s.setFlag (BELF.PSTAT_RXON p) false).onPort p (fun x => { x with awaits := none, run := 0 })
      let s := s.adaptPower p 3
      let s := if shared then s.backoff p else s
      match (s.port p).buf q with
      | some b => if 1 + s.fld (BELF.PCTL_MAXRETRY p) ≤ b.attempts then s.finishFrame p q b 2 0 else s
      | none => s
    | none => s)

/-- A transmission is cut (R387): the frame stays in its retry buffer. A cut attempt with AR = 1 has ended without an accepted ack:
the power rises, and the run restarts (R384). -/
def State.cutPort (s : State) (p : Nat) : State :=
  match (s.port p).air with
  | some a =>
    let s := (s.setFlag (BELF.PSTAT_TXON p) false).onPort p (fun x => { x with air := none })
    let s := if a.ar then (s.onPort p (fun x => { x with run := 0 })).adaptPower p 3 else s
    (s.bump (BELF.MISCCNT_CUTS p) 1).belfFault (BELF.FAULTS_CUT p)
  | none => s

/-- The path leaves MAIN (R387, R409). -/
def State.radioPathLost (s : State) : State :=
  s.each (List.range 2) (fun s p =>
    let s := s.cutPort p
    if s.portOn p ∧ s.netState p = 7 then s.portFalls p else s)

/-- XHF stops (R477): transmissions are cut, reception ends. -/
def State.radioXhfLost (s : State) : State :=
  s.each (List.range 2) (fun s p =>
    ((s.cutPort p).setFlag (BELF.PSTAT_RXON p) false).onPort p (fun x => { x with act := .idle, ack := none }))

/-! ### Reception (R364, R365, R368, R418) -/

/-- Whether a destination is the port itself (R375, R392). -/
def State.toPort (s : State) (p : Nat) : MacAddr → Bool
  | .none => false
  | .short a => a != 0xFFFF && a == s.fld (BELF.ADDR_SHORT p)
  | .ext e => e == s.eui

/-- The address filter of R365. -/
def State.passesFilter (s : State) (p : Nat) (h : Mhr) : Bool :=
  let pan := s.fld (BELF.ADDR_PANID p)
  let panOk := match h.dstPan with | some x => x == pan || x == 0xFFFF | none => true
  let dstOk := s.toPort p h.dst || h.dst == .short 0xFFFF
  (panOk && dstOk) || (h.type == macBeacon && h.dst == .none && h.srcPan == some pan) ||
    (h.type == macBeacon && !s.flag (BELF.PSTAT_SYNCED p) && s.flag (BELF.PCTL_SCAN p))

/-- The checks of R418 on a secured frame whose sender's EUI-64 and entry are given: the plain octets, or none with the
counter of the first check that fails. -/
def State.checkSecured (s : State) (p : Nat) (h : Mhr) (l : List Octet) (entry : Option Nat) (eui : Option Nat) : State × Option (List Octet) :=
  let slot := 7 + h.keyIndex
  if h.version ≠ 2 ∨ h.keyMode ≠ 1 ∨ h.level < max 5 (s.fld (BELF.SECCFG_MINLEVEL p)) ∨ h.ctrSupp = true then (s.bump (BELF.SECCNT_LEVEL p) 1, none)
  else match (if 1 ≤ h.keyIndex ∧ h.keyIndex ≤ 8 then s.aesKey slot else none) with
    | none => (s.bump (BELF.SECCNT_NOKEY p) 1, none)
    | some k =>
      match entry, entry.bind s.nbr, eui with
      | some i, some n, some e =>
        if h.counter = 0xFFFFFFFF ∨ n.counterPasses h.keyIndex h.counter = false then (s.bump (BELF.SECCNT_REPLAY p) 1, none)
        else match openFrame k e h l with
          | none => (s.bump (BELF.SECCNT_MIC p) 1, none)
          | some m => (s.onNbr i (fun n => n.take h.keyIndex h.counter), some m)
      | _, _, _ => (s.bump (BELF.SECCNT2_NOEUI p) 1, none)

/-- The sender's EUI-64 as R418 finds it: from the source address, or from the entry of the short address. -/
def State.senderEui (s : State) (src : MacAddr) (entry : Option Nat) : Option Nat :=
  match src with
  | .ext e => some e
  | _ => (entry.bind s.nbr).bind (fun n => n.eui)

/-- A correction from the time source (R377, R440): recorded, slewed up to GUARD, stepped beyond. -/
def State.correct (s : State) (p : Nat) (c : Int) : State :=
  (s.setFld (BELF.SYNCSTAT_CORR p) (codeOf 16 c)).onPort p (fun x =>
    { x with corr := some (decide ((s.guardMicros p : Int) < c.natAbs), (c : Rat)) })

/-- Whether a frame comes from the time source (R377). -/
def State.fromSource (s : State) (p : Nat) (h : Mhr) (entry : Option Nat) : Bool :=
  s.flag (BELF.PCTL_TIMESRC p) &&
    (if s.flag (BELF.SYNC_ANY p) then h.type == macBeacon && (h.srcPan.orElse (fun _ => h.dstPan)) == some (s.fld (BELF.ADDR_PANID p))
     else entry == some (s.fld (BELF.SYNC_NBR p)))

/-- A frame of the time source: AGE restarts; a beacon synchronises the port or corrects it (R377). -/
def State.syncFrom (s : State) (p : Nat) (f : Parsed) (entry : Option Nat) (start : Nat) : State :=
  if !s.fromSource p f.mhr entry then s
  else
    let s := s.setFld (BELF.SYNCSTAT_AGE p) 0
    if f.mhr.type ≠ macBeacon then s
    else if s.flag (BELF.PSTAT_SYNCED p) then s.correct p ((start : Int) - s.txMicros p)
    else match findSync f.payloads with
      | some a => ((s.setAsn p a).setFlag (BELF.PSTAT_SYNCED p) true).onPort p (fun x => { x with corr := none })
      | none => s

/-- The words of a received packet (R368). -/
def State.rxWords (s : State) (p : Nat) (f : RxFrame) (sec ack : Bool) (l : List Octet) : List Word :=
  let w0 := f.rssi.toNat + 256 * f.lqi.toNat + 65536 * f.channel.toNat + 2 ^ 23 * natOfBool sec + 2 ^ 24 * natOfBool ack
  let w1 := if s.flag (BELF.PSTAT_SYNCED p) then s.asn p else 0
  packetWord w0 false :: packetWord w1 false :: packetWord s.stamp false :: frameWords l

/-- The acknowledgement a frame is owed (R375, R420); the second result says whether one goes. DESIGN CHOICE: one that would exceed
32 octets even so is not sent, and counts as suppressed (log entry 76). -/
def State.oweAck (s : State) (p : Nat) (h : Mhr) (start : Nat) : State × Bool :=
  if (h.type = macData ∨ h.type = macCommand) ∧ h.ar = true ∧ s.toPort p h.dst = true then
    let l := if h.version = 2 then enhAck h ((s.txMicros p : Int) - start) else immAck (h.seq.getD 0)
    let key := if h.secured then some (7 + h.keyIndex, h.level) else none
    let mic := match key with | some (_, lv) => micLen lv | none => 0
    let ready := match key with | some (k, _) => s.counterReady k | none => true
    let size := l.length + mic + 2
    if s.pathMain && s.limitAllows p (s.port p).channel (s.airtime p size) && ready && decide (size ≤ ackLimit) then
      (s.onPort p (fun x => { x with ack := some ⟨l, key⟩ }), true)
    else (s.bump (BELF.LIMCNT_ACKSUPP p) 1, false)
  else (s, false)

/-- A MAC command of the kinds that the engine takes (R392, R404). -/
def State.forEngine (s : State) (p : Nat) (f : Parsed) : Bool :=
  let cmd := leAt f.payload 0 1
  s.role p != 0 && f.mhr.type == macCommand && s.toPort p f.mhr.dst && decide (1 ≤ cmd ∧ cmd ≤ 3)

/-- The engine takes a MAC command: one that is not secured at NETLEVEL is dropped and counted (R404). -/
def State.engineTakes (s : State) (p : Nat) (entry : Option Nat) (f : Parsed) : State :=
  if f.mhr.secured = false ∨ f.mhr.level < s.fld (BELF.SECCFG_NETLEVEL p) then s.bump (BELF.SECCNT_LEVEL p) 1
  else if s.role p = 2 then s.coordCommand p entry f
  else s.nodeCommand p entry f

/-- The engine hears a beacon (R401 to R403, R408): only an orphan heeds a beacon of its parent without a NET IE. -/
def State.engineHears (s : State) (p : Nat) (entry : Option Nat) (f : Parsed) : State :=
  match entry, (findVendor f.payloads 2 subNet).bind (parseNet p) with
  | some j, none => if s.role p = 1 ∧ s.netState p = 4 ∧ j = s.fld (BELF.NETSTAT_PARENT p) then s.orphanHears p else s
  | some j, some n =>
    let pan := (f.mhr.srcPan.orElse (fun _ => f.mhr.dstPan)).getD 0xFFFF
    let ext := match f.mhr.src with | .ext _ => true | _ => false
    if s.role p = 2 then s.coordBeacon p j pan n
    else if s.role p = 1 then s.nodeBeacon p j pan ext n
    else s
  | _, _ => s

/-- Deliver a frame to RXQ (R365). -/
def State.deliver (s : State) (p : Nat) (ws : List Word) : State :=
  (s.sendQueue .belfry (s.fld (BELF.QUEUES_RXQ p)) ws).bump (BELF.RXCNT_OK p) 1

/-- A frame that passed every check, in plain octets (R365, R375, R377, R392, R410). -/
def State.accept (s : State) (p : Nat) (f : RxFrame) (h : Mhr) (entry : Option Nat) (l : List Octet) : State :=
  let g := parseFrame h l
  let a := s.oweAck p h f.start
  let ws := a.1.rxWords p f h.secured a.2 l
  let s := a.1.syncFrom p g entry f.start
  if h.type = macBeacon then (s.deliver p ws).engineHears p entry g
  else if s.forEngine p g then s.engineTakes p entry g
  else match (if h.type = macData ∧ h.dst = .short 0xFFFF then floodOf h l else none) with
    | some (o, q, ttl) =>
      let r := s.floodIn p h l o q ttl
      if r.2 then r.1.deliver p ws else r.1
    | none => s.deliver p ws

/-- A frame in a listening slot, its FCS good (R364, R365, R372, R418, R424). A secured frame of another version than 2 is dropped
by R364, and fails the first check of R418: it counts in both. -/
def State.receive (s : State) (p : Nat) (f : RxFrame) (beaconsOnly : Bool) : State :=
  let filtered := s.bump (BELF.MISCCNT_FILTERED p) 1
  match parseMhr f.octets with
  | none => filtered
  | some h =>
    if h.secured = true ∧ h.version ≠ 2 then filtered.bump (BELF.SECCNT_LEVEL p) 1
    else if 4 ≤ h.type ∨ h.version = 3 then filtered
    else if h.type = macAck then s
    else if s.passesFilter p h = false then filtered
    else
      let r := s.heardFrom p h.src f.rssi.toNat
      if beaconsOnly = true ∧ h.type ≠ macBeacon then r.1
      else if h.secured then
        let c := r.1.checkSecured p h f.octets r.2 (r.1.senderEui h.src r.2)
        match c.2 with
        | some l => c.1.accept p f h r.2 l
        | none => c.1
      else r.1.accept p f h r.2 f.octets

/-- A frame in the ack window (R376, R377, R418): the first that matches settles the transmission. -/
def State.receiveAck (s : State) (p q : Nat) (f : RxFrame) : State :=
  match (s.port p).buf q with
  | none => s
  | some b =>
    match parseMhr b.octets, parseMhr f.octets with
    | some sent, some h =>
      if h.type ≠ macAck ∨ 3 ≤ h.version ∨ h.seq ≠ sent.seq ∨ (h.version = 2 ∧ h.dst ≠ sent.src) ∨ (h.secured = true ∧ h.version ≠ 2) then s
      else
        -- the sender of a secured ack without an entry receives one (R419)
        let e : State × Option Nat :=
          match s.nbrOf p sent.dst with
          | some i => (s, some i)
          | none => if h.secured then s.heardFrom p sent.dst f.rssi.toNat else (s, none)
        let entry := e.2
        let c : State × Option (List Octet) :=
          if h.secured then e.1.checkSecured p h f.octets entry (e.1.senderEui sent.dst entry) else (e.1, some f.octets)
        match c.2 with
        | none => c.1
        | some l =>
          let s := (c.1.setFlag (BELF.PSTAT_RXON p) false).onPort p (fun x => { x with awaits := none })
          let s :=
            if s.flag (BELF.PCTL_TIMESRC p) ∧ s.flag (BELF.SYNC_ANY p) = false ∧ entry = some (s.fld (BELF.SYNC_NBR p)) then
              let s := s.setFld (BELF.SYNCSTAT_AGE p) 0
              match findCorrection (parseFrame h l).headers with
              | some v => if s.flag (BELF.PSTAT_SYNCED p) then s.correct p v else s
              | none => s
            else s
          s.finishFrame p q b 0 f.rssi.toNat
    | _, _ => s

/-- FRAME_RECEIVE (R364, R365, R370, R372, R376, R477). -/
def execFrameReceive (p : Fin 2) (f : RxFrame) (s : State) : Out :=
  let p := p.val
  let x := s.port p
  .next (if s.portLive p = false ∨ s.flag CRYPT.CLKSTAT_XHFOK = false ∨ f.channel.toNat ≠ x.channel ∨ x.air ≠ none ∨ s.testing p = true then s
  else match x.awaits with
    | some (q, _) => if f.fcsGood then s.receiveAck p q f else s
    | none =>
      match x.act with
      | .listen only continuous =>
        let late := ((f.start : Int) - s.txMicros p).natAbs
        if continuous = false ∧ s.guardMicros p < late then s
        else if f.fcsGood = false then s.bump (BELF.RXCNT_FCSERR p) 1
        else s.receive p f only
      | _ => s)

/-- An owed acknowledgement as it goes out: a secured one takes its slot's next counter; none where the slot is no longer loaded,
or its next counter is not below the mark (R420, R422). -/
def State.sealAck (s : State) (j : AckJob) : Option (State × List Octet) :=
  match j.key with
  | none => some (s, j.octets)
  | some (slot, _) =>
    match parseMhr j.octets, s.aesKey slot with
    | some h, some k =>
      if s.counterReady slot then
        let c := s.takeCounter slot
        some (c.1, secureFrame k s.eui c.2 h j.octets)
      else none
    | _, _ => none

/-- ACK_TRANSMIT (R375, R378, R384, R420, R422): the owed acknowledgement goes at the working power, unless the path or XHF is gone,
or a test carrier runs. -/
def execAckTransmit (p : Fin 2) (s : State) : Out :=
  let p := p.val
  .next (match (s.port p).ack with
    | some j =>
      let s := s.onPort p (fun x => { x with ack := none })
      if s.portLive p = false ∨ s.flag CRYPT.CLKSTAT_XHFOK = false ∨ s.testing p = true then s
      else if !s.pathMain then s.bump (BELF.LIMCNT_ACKSUPP p) 1
      else match s.sealAck j with
        | none => s.bump (BELF.LIMCNT_ACKSUPP p) 1
        | some (t, l) =>
          (t.setFlag (BELF.PSTAT_RXON p) false).goOnAir p ⟨none, false, false, l, t.framePower p true⟩ (l.length + 2)
    | none => s)

/-! ### Frames from the queues (R88, R373, R392, R400, R401) -/

/-- The belfry takes a whole packet of a queue for a port whose retry buffer is empty. A gap marker is discarded. -/
def State.belfTake (s : State) (p q : Nat) (words : List Word) (marker : Bool) : State :=
  if marker then s
  else
    let engine := s.role p == 2 && q == s.fld (BELF.NETQS_BCNQ p)
    if engine && decide (0 < (s.port p).bcnStale) then s.onPort p (fun x => { x with bcnStale := x.bcnStale - 1 })
    else
      let s := if engine && s.netState p == 7 then s.onPort p (fun x => { x with lastBuilt := true }) else s
      match words with
      | w :: rest => (s.loadBuf p q w (if rest.isEmpty then none else unpackFrame rest)).keepBeacon p
      | [] => s

/-! ### Lifecycle (R363, R388, R400, R403, R440) -/

/-- A port has risen: its limiter record is charged; a node's engine scans (R383, R403). -/
def State.portRisen (s : State) (p : Nat) : State :=
  let s := (s.limitRestore p).setFlag (BELF.PSTAT_SYNCED p) false
  let s := (s.setNetState p 0).setLife (unitPort p) 2
  if s.role p = 1 then s.nodeScans p 0xFFFF else s

/-- A falling port has completed its slot: its retry buffers are flushed and it reads OFF (R388). -/
def State.portOff (s : State) (p : Nat) : State :=
  let s := s.each (s.port p).bufs (fun s e =>
    match e.2 with
    | some b => (s.outcome p (hdrHandle b.header) 5 (min 8 b.attempts) 0).setBuf p e.1 none
    | none => s)
  let s := ((s.setFlag (BELF.PSTAT_SYNCED p) false).setFlag (BELF.PSTAT_TXON p) false).setFlag (BELF.PSTAT_RXON p) false
  let s := (s.setNetState p 0).onPort p (fun x => { x with
    act := .idle, air := none, awaits := none, ack := none, asking := 0, fails := 0, lease := none, install := none
    corr := none, lastBuilt := false, lastDone := false, backoff := 0, skip := 0 })
  (s.unitOff (unitPort p)).xhfSync

/-- The belfry's records at the fall of the nave domain (R383, R426): a record not yet charged stays as it is. -/
def State.belfryRecords (s : State) : State :=
  let s := s.each (List.range 2) (fun s p =>
    if (s.port p).charged then s.onRadio (fun r => { r with limits := tput (fun _ => none) r.limits p (some (s.limitRecord p)) }) else s)
  s.onRadio (fun r => { r with saved := some (s.crypt.ticks.toNat,
    r.nbrs.filterMap (fun e => match e.2 with | some n => if n.pinned then some (e.1, n) else none | none => none)) })

/-- The belfry loses its power: its records stay in crypt retention (R383, R413, R426). -/
def State.belfryLost (s : State) : State :=
  s.onRadio (fun r => { Radio.reset with limits := r.limits, saved := r.saved })

/-- One saved record becomes an entry: previous pair lost, RSSI a free value, the time off deducted from its lease. -/
def restoredNbr (n : Nbr) (now : Stamp) (rssi secs : Nat) : Nbr :=
  { n with prev := none, rssi := rssi, heard := now, lrem := n.lrem - secs }

/-- The nave domain has risen (R421, R426): counters take their marks; the neighbour records are restored, or NBRFRESH is set. -/
def State.belfryRisen (s : State) : State :=
  let s := s.counterRise
  match s.radio.saved with
  | some (t, l) =>
    let secs := s.ticksSince t / 32768
    let rssi := (Config.value s.free).toNat % 256
    let ns := l.map (fun e => restoredNbr e.2 s.now rssi secs)
    ((List.range ns.length).foldl (fun s i => s.setNbr i ns[i]?) s).spend
  | none => s.each (List.range 2) (fun s p => s.belfFault (BELF.NETFAULTS_NBRFRESH p))

/-! ### Register stores (R363, R371, R372, R377, R381, R384, R391, R393, R396) -/

/-- A store to PCTL (R362, R363, R369, R389, R391). EN = 0 on a COORD port leaves it ON for its last beacon (R409). -/
def State.storePctl (s : State) (p : Nat) (val : Word) : State :=
  let old := s.getReg (BELF.PCTL p)
  let off := s.fld (BELF.PSTAT_LIFE p) == 0
  let v := if off then val
    else bitsPut (bitsPut (bitsPut old 31 31 (bitsOf val 31 31)) 29 29 (bitsOf val 29 29)) 28 27 (bitsOf val 28 27)
  let v := if planChannels p (bitsOf v 14 12) = 0 then bitsPut v 14 12 (bitsOf old 14 12) else v
  let src := bitsOf v 30 30
  let ok := decide (128 ≤ s.fld (BELF.QUEUES_RXQ p) ∧ 128 ≤ s.fld (BELF.QUEUES_TXSTATQ p)) &&
    !(s.role p == 2 && src == 1) && !(s.role p == 1 && src == 0)
  let en := bitsOf v 31 31 == 1 && ok
  let s := (s.storeReg .nave (BELF.PCTL p) v).setFlag (BELF.PCTL_EN p) en
  if s.portOn p ∧ s.role p = 2 then
    if s.netState p = 7 then s.setFlag (SYS.UNITSTATE_DEFER (unitPort p)) en else s
  else (s.enableActs (unitPort p) en).xhfSync

/-- A store to ASNHI or ASNLO (R377): under NEIGHBOUR it is discarded. DESIGN CHOICE: until the slot start that loads it, both
registers go on reading the running ASN (R5; log entry 71). -/
def State.storeAsnHi (s : State) (p : Nat) (val : Word) : State :=
  if s.flag (BELF.PCTL_TIMESRC p) then s else s.onPort p (fun x => { x with asnHi := some (bitsOf val 7 0) })
def State.storeAsnLo (s : State) (p : Nat) (val : Word) : State :=
  if s.flag (BELF.PCTL_TIMESRC p) then s
  else s.onPort p (fun x => { x with
    asnLoad := some (x.asnHi.getD (s.fld (BELF.ASNHI_ASN p)) * 2 ^ 32 + val.toNat), asnHi := none })

/-- A store to HOP: SEED and HOPLEN, and GEN starts the generator (R371). -/
def State.storeHop (s : State) (p : Nat) (val : Word) : State :=
  let s := (s.setFld (BELF.HOP_HOPLEN p) (min 128 (bitsOf val 23 16))).setFld (BELF.HOP_SEED p) (bitsOf val 15 0)
  if bitsOf val 31 31 = 1 then s.startHopGen p else s

/-- HOP_GEN_DONE (R371): the hop table and HOPLEN. -/
def execHopGenDone (p : Fin 2) (s : State) : Out :=
  let p := p.val
  .next (if s.flag (BELF.HOP_BUSY p) then
    let l := s.hopList p
    let s := (List.range l.length).foldl (fun s j => s.putReg (hopSeq p j) (BitVec.ofNat 32 (l.getD j 0))) s
    (s.setFld (BELF.HOP_HOPLEN p) l.length).setFlag (BELF.HOP_BUSY p) false
  else s)

/-- A cell that the engine owns (R393). -/
def State.ownedCell (s : State) (p c : Nat) : Bool :=
  match s.role p with
  | 2 => decide (c < 2) ||
      decide (s.fld (BELF.CELLCFG_CELLBASE p) ≤ c ∧ c < s.fld (BELF.CELLCFG_CELLBASE p) + s.fld (BELF.LEASECFG_LEASECNT p))
  | 1 => decide (c < 6)
  | _ => false

/-- A store to a cell word (R372, R393). -/
def State.storeCell (s : State) (p c addr : Nat) (val : Word) : State :=
  if s.ownedCell p c then s
  else
    let t := s.storeReg .nave addr val
    if 16 < (t.cellQueues p).length then t.putReg (cellA p c) (bitsPut (t.getReg (cellA p c)) 31 31 0) else t

/-- A store to PWR: SET also loads WPWR, within the limits (R384). -/
def State.storePwr (s : State) (p : Nat) (val : Word) : State :=
  let s := s.storeReg .nave (BELF.PWR p) val
  s.setPower p (s.sfld (BELF.PWR_SET p))

/-- The sub-bands of EU868 (R381): DUTY, LO, HI. -/
def eu868Bands : List (Nat × Nat × Nat) :=
  [(10, 863000, 868000), (100, 868000, 868600), (10, 868700, 869200), (1000, 869400, 869650), (100, 869700, 870000)]

/-- Load a sub-band table. -/
def State.loadBands (s : State) (p : Nat) (l : List (Nat × Nat × Nat)) : State :=
  s.each (List.range 8) (fun s i =>
    let e := l.getD i (0, 0, 0)
    (s.putReg (sbLo p i) (BitVec.ofNat 32 (e.1 * 2 ^ 20 + e.2.1))).putReg (sbHi p i) (BitVec.ofNat 32 e.2.2))

/-- A store to LIMCFG (R381): a reserved PRESET, and 1 or 2 on ISM24, leave PRESET as it is. -/
def State.storeLimcfg (s : State) (p : Nat) (val : Word) : State :=
  let s := s.setFld (BELF.LIMCFG_COLD p) (bitsOf val 28 28)
  let w := bitsOf val 31 29
  let s := if 4 ≤ w ∨ (p = 1 ∧ (w = 1 ∨ w = 2)) then s
    else
      let s := s.setFld (BELF.LIMCFG_PRESET p) w
      match w with
      | 0 => (s.setFld (BELF.LIMCFG_DLIM p) 0).loadBands p []
      | 1 => (s.setFld (BELF.LIMCFG_DLIM p) 0).loadBands p eu868Bands
      | 2 => ((s.setFld (BELF.LIMCFG_DWIN p) 20).setFld (BELF.LIMCFG_DLIM p) 400).loadBands p []
      | _ => s
  if s.preset p = 3 then (s.setFld (BELF.LIMCFG_DWIN p) (max 1 (bitsOf val 23 16))).setFld (BELF.LIMCFG_DLIM p) (bitsOf val 15 0) else s

/-- A store to NETCTL (R391, R443): ROLE only while the port is OFF. -/
def State.storeNetctl (s : State) (p : Nat) (val : Word) : State :=
  let role := s.role p
  let t := s.storeReg .nave (BELF.NETCTL p) val
  let t := if s.fld (BELF.PSTAT_LIFE p) = 0 then t else t.setFld (BELF.NETCTL_ROLE p) role
  if p = 0 then t.cFollows else t

/-- NBRCMD READ (R425): the entry at NBRIDX in NBRD0 to NBRD6. An EUI-64 that is not known reads as a free value. -/
def State.nbrRead (s : State) : State :=
  let s := s.setFld BELF.NBRCMD_ERR 0
  match s.nbr (s.fld BELF.NBRIDX_INDEX) with
  | some n =>
    let lo := match n.eui with | some e => BitVec.ofNat 32 e | none => Config.value s.free
    let hi := match n.eui with | some e => BitVec.ofNat 32 (e / 2 ^ 32) | none => Config.value (s.free + 1)
    let s := ((s.spend.spend).putReg BELF.NBRD0 lo).putReg BELF.NBRD1 hi
    let d2 := n.rssi + 2048 * natOfBool n.leased + 4096 * natOfBool n.allow + 8192 * natOfBool n.pinned + 16384 * n.port + 32768 + 65536 * n.short
    let s := s.putReg BELF.NBRD2 (BitVec.ofNat 32 d2)
    let key (x : Option (Nat × Nat)) : Nat × Nat := x.getD (0, 0)
    let s := s.putReg BELF.NBRD3 (BitVec.ofNat 32 (s.ageSeconds n.heard + 65536 * (key n.prev).1 + 2 ^ 24 * (key n.cur).1))
    let s := (s.putReg BELF.NBRD4 (BitVec.ofNat 32 (key n.cur).2)).putReg BELF.NBRD5 (BitVec.ofNat 32 (key n.prev).2)
    s.putReg BELF.NBRD6 (BitVec.ofNat 32 (n.lrem % 2 ^ 24 + 2 ^ 24 * n.lidx))
  | none => [BELF.NBRD0, BELF.NBRD1, BELF.NBRD2, BELF.NBRD3, BELF.NBRD4, BELF.NBRD5, BELF.NBRD6].foldl
      (fun s a => s.putReg a (regReset a)) s

/-- NBRCMD WRITE (R425): the entry of the EUI-64, else a free entry. -/
def State.nbrWrite (s : State) : State :=
  let eui := (s.getReg BELF.NBRD1).toNat * 2 ^ 32 + (s.getReg BELF.NBRD0).toNat
  let short := s.fld BELF.NBRD2_SHORT
  let port := s.fld BELF.NBRD2_PORT
  let pin := s.flag BELF.NBRD2_PINNED
  let allow := s.flag BELF.NBRD2_ALLOW
  let other := (s.findNbr (fun n => n.port == port && n.short == short && short != 0xFFFF && n.eui.isSome && n.eui != some eui)).isSome
  let err (e : Nat) : State := s.setFld BELF.NBRCMD_ERR e
  if other then err 3
  else match (s.nbrOfEui eui).orElse (fun _ => s.freeNbr) with
    | none => err 1
    | some i =>
      let n := (s.nbr i).getD (Nbr.new (some eui) short port s.now)
      if pin && !n.pinned && decide (128 ≤ s.pinnedCount) then err 2
      else
        (err 0).setNbr i (some { n with eui := some eui, short := short, port := port, pinned := pin || n.leased, allow := allow })

/-- NBRCMD DELETE (R407, R425). -/
def State.nbrDelete (s : State) : State :=
  let i := s.fld BELF.NBRIDX_INDEX
  let s := s.setFld BELF.NBRCMD_ERR 0
  match s.nbr i with
  | some n => (if n.leased then s.endLease n.port n.lidx else s).setNbr i none
  | none => s

/-- A store to NBRCMD (R425). -/
def State.storeNbrcmd (s : State) (val : Word) : State :=
  match bitsOf val 2 0 with
  | 1 => s.nbrRead
  | 2 => s.nbrWrite
  | 3 => s.nbrDelete
  | _ => s

/-! ### Live fields (R379, R380, R385, R413, R427) -/

/-- The power that a cap could lower: of the frame on air, else the working power (R385). -/
def State.powerNow (s : State) (p : Nat) : Int :=
  match (s.port p).air with
  | some a => a.power
  | none => s.sfld (BELF.PSTAT_WPWR p)

/-- PSTAT with CAPPED and the test carrier (R385, R389). -/
def State.pstat (s : State) (p : Nat) : Word :=
  let w := bitsPut (s.getReg (BELF.PSTAT p)) 26 26 (natOfBool (decide (s.powerCap p < s.powerNow p)))
  if s.carrierOn p then bitsPut w 28 28 1 else w

/-- A dwell sum and a duty sum in ms. -/
def State.dwellMs (s : State) (p n : Nat) : Word := BitVec.ofNat 32 (s.dwellSum p n / 1000)
def State.dutyMs (s : State) (p i : Nat) : Word := BitVec.ofNat 32 (s.dutySum p i / 1000)

/-- A load of NETSTAT: with CHILDREN; CONFLICTS restarts (R7, R427). -/
def State.loadNetstat (s : State) (p : Nat) : State × Word :=
  let r := s.loadReg (BELF.NETSTAT p)
  (r.1, bitsPut r.2 27 20 (s.activeLeases p))

end Sys2Proof.Machine
end

