-- ==== Sys2Proof/Machine/Words.lean ====
section
/-! DEFINITION. What a receiver does with a word of a strait that it trusts, but for the register requests of the cores
(R27, R79, R80, R217, R250, R251, R308, R459), and the words of a domain that falls (R19). -/
namespace Sys2Proof.Machine

/-- The write address that a strait has brought and whose WDATA has not come. -/
def State.heldAddr (s : State) (src dst : Island) : Option WriteAddr := tget (fun _ => none) s.waddr (straitKey src dst)

/-- Set or clear it. -/
def State.holdAddr (s : State) (src dst : Island) (a : Option WriteAddr) : State :=
  { s with waddr := tput (fun _ => none) s.waddr (straitKey src dst) a }

/-- The core of a core island. -/
def coreOfIsland : Island → Option CoreId
  | .choirCore => some .choir
  | .naveCore => some .nave
  | _ => none

/-- A LIFE notice reaches the mirror, which takes it by the epoch rule (R459). -/
def State.recvLife (s : State) (w : Word) : State :=
  let u := bitsOf w 7 0
  let e := bitsOf w 17 10
  let d := (e + 256 - s.fld (SYS.UNITSTATE_EPOCH u)) % 256
  if u < 67 ∧ 1 ≤ d ∧ d ≤ 127 then (s.setFld (SYS.UNITSTATE_STATE u) (bitsOf w 9 8)).setFld (SYS.UNITSTATE_EPOCH u) e else s

/-- A header leaves its strait: the isle has the shot it belongs to in its stream order (R217). -/
def State.headerLeaves (s : State) (src dst : Island) (a : Word) : State :=
  match src, dst with
  | .isle n, .bank _ => if a = 0 then s.headerTaken n.val else s
  | _, _ => s

/-- A WADDR word: held for its WDATA (R27). -/
def State.recvWaddr (s : State) (src dst : Island) (w : Word) : State :=
  (s.headerLeaves src dst w).holdAddr src dst (some (.good w))

/-- A WDATA word that is no register write of a core (R151, R217, R250, R308): after its WADDR; alone on a command strait it
is a shot command. After a damaged WADDR it is discarded with the pair (R29, R309). -/
def State.recvWdata (s : State) (src dst : Island) (held : Option WriteAddr) (w : Word) : State :=
  match src, dst, held with
  | .choirCore, .isle n, none => s.recvShot n.val (cmdOfWord w)
  | .isle n, .bank b, some (.good a) =>
    match a.toNat with
    | 0 => s.recvHeader b.val n.val w
    | 1 => s.recvGate b.val n.val w
    | 2 => s.recvSummary b.val n.val w false
    | _ => s
  | .quantity, .outputs, some (.good a) => s.feedTake (bitsOf a 9 0) w
  | _, _, _ => s

/-- A trusted word, by its tag (R27); requests of cores for registers stand with the register space. -/
def State.recvWord (s : State) (src dst : Island) (tag : BitVec 4) (w : Word) : State :=
  match tag.toNat with
  | 0x0 => if dst = .queue then (s.recvQword src w).verdictTaken src else s
  | 0x1 => if dst = .queue then s.recvQsel src w else s
  | 0x4 => s.recvWaddr src dst w
  | 0x5 => (s.holdAddr src dst none).recvWdata src dst (s.heldAddr src dst) w
  | 0x6 => match src, dst with | .bank _, .isle n => s.recvReply n.val w | _, _ => s
  | 0x7 => match src, dst with | .bank _, .isle n => s.recvReply n.val w | _, _ => s
  | 0x8 => match src, dst with | .isle n, .bank b => s.recvSample b.val n.val w true | _, _ => s
  | 0x9 => match src, dst with | .bank _, .isle n => s.recvLag n.val w true | _, _ => s
  | 0xA => match coreOfIsland dst with | some c => s.recvEvent c (bitsOf w 4 0) | none => s
  | 0xB => if dst = .crypt then s.recvLife w else s
  | _ => s

/-- A port whose receive or status queue is n. -/
def State.portOfQueue (s : State) (n : Nat) : Option Nat :=
  (List.range 2).find? (fun p => s.fld (BELF.QUEUES_RXQ p) == n || s.fld (BELF.QUEUES_TXSTATQ p) == n)

/-- The queue island has accepted a word of a port (R460). -/
def State.portActive (s : State) (src : Island) (tag : BitVec 4) : State :=
  if src = .belfry ∧ tag = tagQword ∧ s.fld (QUE.STAT_LIFE (s.selected src)) = 2 then
    match s.portOfQueue (s.selected src) with
    | some p => s.activity (unitPort p)
    | none => s
  else s

/-- A stream header waits on its strait for a free input register, and every word behind it waits too (R232). -/
def State.blocks (s : State) (src dst : Island) (tag : BitVec 4) (w : Word) : Bool :=
  match src, dst with
  | .isle n, .bank b => decide (tag = tagWaddr) && s.headerWaits b.val n.val w.toNat
  | _, _ => false

/-- The oldest listed word of a strait completes its handshake. -/
def State.takeFront (s : State) (src dst : Island) : State :=
  match s.frontWire src dst with
  | none => s
  | some x =>
    if !s.carries src dst || s.blocks src dst x.tag x.word then s
    else
      let s := { s with wires := dropFirstWire src dst s.wires }
      ((s.portActive src x.tag).recvWord src dst x.tag x.word).handshakeDone src dst

/-- The handshakes in progress on a falling domain's inbound straits complete, and their words are delivered (R19). -/
def State.drainInbound (s : State) (d : Domain) : State :=
  s.each (s.wires.filter (fun x => decide (islandDomain x.dst = d))) (fun s x =>
    match s.strait x.src x.dst with
    | .closing _ => s.takeFront x.src x.dst
    | _ => s)

/-- The words that a falling domain's islands have listed on their straits are words they have started to send: they cross
before the power leaves (R19; log entry 65). -/
def State.drainOutbound (s : State) (d : Domain) : State :=
  s.each (s.wires.filter (fun x => decide (islandDomain x.src = d))) (fun s x => s.takeFront x.src x.dst)

end Sys2Proof.Machine
end

