-- ==== Sys2Proof/Machine/Domains.lean ====
section
/-! DEFINITION. The fall and rise of domains (R18 to R21, R447, R448, R459, R466). -/
namespace Sys2Proof.Machine

/-- Run an action for every strait into a domain's islands. -/
def State.eachInbound (s : State) (d : Domain) (f : State → Island → Island → State) : State :=
  s.each (domainIslands d) (fun s dst => s.each (allIslands.filter (fun i => decide (i ≠ dst))) (fun s src => f s src dst))

/-- Every strait into a domain's islands takes a state; the receiver sets it (R19, R30). -/
def State.setInbound (s : State) (d : Domain) (x : StraitState) : State :=
  s.eachInbound d (fun s src dst => s.setStrait src dst x)

/-- Every OPEN strait into a domain's islands enters CLOSING (R19). -/
def State.closeInbound (s : State) (d : Domain) : State := s.eachInbound d State.closeStrait

/-- The units of a domain. -/
def domainUnits (d : Domain) : List Nat := (List.range 67).filter (fun u => decide (unitDomain u = d))

/-- The nave domain's islands write their retention records, last of all before the power leaves (R323, R383, R426). -/
def State.naveRecords (s : State) : State := (s.outRecords).belfryRecords

/-- The deliveries to hardware consumers of a domain are broken off; their packets stay whole (R88). -/
def State.deliveriesStop (s : State) (d : Domain) : State :=
  s.each (s.queues.map (fun e => e.1)) (fun s n =>
    if (consumerIsland (s.fld (QUE.DESC_CONSUMER n))).map islandDomain = some d then s.breakOff n else s)

/-- The units of a domain that are ON fall as for EN = 0 (R457). The cores have no enable; the tiles of a bank that still works
fall with it (R242). -/
def State.unitsFall (s : State) (d : Domain) : State :=
  s.each (domainUnits d) (fun s u =>
    let waits := decide (22 ≤ u ∧ u < 54) && !s.bankIdle ((u - 22) / 8)
    if 2 ≤ u ∧ s.life u = 2 ∧ waits = false then s.setLife u 3 else s)

/-- A domain enters FALLING (R19): its inbound straits enter CLOSING and its units fall. -/
def State.domainFalls (s : State) (d : Domain) : State := ((s.setDom d 3).closeInbound d).unitsFall d

/-- The shared islands are ON while the choir or the nave domain is (R18): once neither is, they fall too. The queue island
counts its packets first (R108). -/
def State.sharedFollows (s : State) : State :=
  if s.dom .shared = 2 ∧ s.dom .choir ≠ 1 ∧ s.dom .choir ≠ 2 ∧ s.dom .nave ≠ 1 ∧ s.dom .nave ≠ 2 then
    (s.queuesFall).domainFalls .shared
  else s

/-- A core loses its power: it executes nothing, its watchdog stops, and a flash operation is abandoned (R176, R467). -/
def State.coreLost (s : State) (c : CoreId) : State :=
  let s := s.setCore c ((s.core c).afterReset c)
  ((s.setFlag (SYS.WDOG_EN (coreNum c)) false).clearWdog c).setFlag (SYS.IMGCTL_BUSY (coreNum c)) false

/-- What the choir domain's islands hold beside registers is lost. -/
def State.choirLost (s : State) : State := (((s.islesLost).streamsLost).qtyLost).coreLost .choir

/-- What the nave domain's islands hold beside registers is lost. -/
def State.naveLost (s : State) : State :=
  let s := ((s.outLost).belfryLost).coreLost .nave
  { s with sacr := { s.sacr with mailReply := none } }

/-- What the shared islands hold beside registers is lost, but for the queues. -/
def State.banksLost (s : State) : State :=
  let s := s.cimLost
  { s with sacr := { s.sacr with mailCmd := none, mailReply := none } }

/-- The domain of a core starts to fall: inbound straits CLOSING, its units fall, deliveries to it stop, and the output feed
takes back what it has not sent (R19, R88, R310, R457). A power-down while RISING is latched (R20). -/
def State.fallStart (s : State) (c : CoreId) : State :=
  let d := coreDomain c
  if s.dom d = 2 then
    let s := ((s.domainFalls d).deliveriesStop d).sharedFollows
    match c with
    | .nave => s.feedRecall
    | .choir => s
  else if s.dom d = 1 then
    s.onCrypt (fun k => match c with | .choir => { k with choirDown := true } | .nave => { k with naveDown := true })
  else s

/-- Words toward a domain that is OFF find no receiver, and its own outbound straits are isolated (R19). -/
def keepWire (d : Domain) (x : Wire) : Bool := decide (islandDomain x.src ≠ d) && decide (islandDomain x.dst ≠ d)

/-- Registers that lose their contents with a domain. -/
def lostWith (d : Domain) (a : Nat) : Bool :=
  match regFind a with
  | some (r, _) =>
    match d, r.group with
    | .choir, .choir => true
    | .nave, .nave => true
    | .shared, .shared => true
    | _, _ => false
  | none => false

/-- The mirror entries of a domain's units read OFF, their epochs unchanged (R459). -/
def State.mirrorOff (s : State) (d : Domain) : State :=
  s.each (domainUnits d) (fun s u => s.setFld (SYS.UNITSTATE_STATE u) 0)

/-- A falling domain drains (R19): the handshakes in progress toward it complete, its inbound straits are CLOSED, and what it
has started to send crosses; the nave domain's islands then write their records. -/
def State.drain (s : State) (d : Domain) : State :=
  let s := ((s.drainInbound d).setInbound d .closed).drainOutbound d
  match d with
  | .nave => s.naveRecords
  | _ => s

/-- Power leaves a domain that has drained: its registers and hidden state are gone, and it reads OFF (R19); its units hold XHF
no longer (R429). -/
def State.powerOff (s : State) (d : Domain) : State :=
  let s := (s.drain d).setDom d 0
  let s := { s with
    wires := s.wires.filter (keepWire d)
    waddr := s.waddr.filter (fun e => !((domainIslands d).any (fun i => islandNo i == e.1 % 32 || islandNo i == e.1 / 32)))
    regs := tdrop (lostWith d) s.regs }
  let s := s.mirrorOff d
  match d with
  | .choir => ((s.choirLost).queuesLose .choir).xhfSync
  | .nave => ((s.naveLost).queuesLose .nave).xhfSync
  | .shared => (s.banksLost).queuesOff
  | .crypt => s

/-- The domain of a core has drained: it reads OFF; the shared islands follow the last of the two; a latched power-up
then applies (R18, R19, R20). -/
def State.fallFinish (s : State) (c : CoreId) : State :=
  let d := coreDomain c
  if s.dom d = 3 then
    let s := s.powerOff d
    let s := if s.dom .shared ≠ 0 ∧ s.dom .choir < 2 ∧ s.dom .nave < 2 then s.powerOff .shared else s
    match c with
    | .choir => if s.crypt.choirUp then (s.setDom .choir 1).onCrypt (fun k => { k with choirUp := false }) else s
    | .nave => if s.crypt.naveUp then (s.setDom .nave 1).onCrypt (fun k => { k with naveUp := false }) else s
  else s

/-- Take a domain down at once, whatever its state (R57, R466). -/
def State.takeDown (s : State) (c : CoreId) : State :=
  let s := s.onCrypt (fun k => match c with
    | .choir => { k with choirUp := false, choirDown := false }
    | .nave => { k with naveUp := false, naveDown := false })
  let s := if s.dom (coreDomain c) = 1 then s.setDom (coreDomain c) 3 else s.fallStart c
  s.fallFinish c

/-- Take choir, nave and shared islands down. -/
def State.takeAllDown (s : State) : State := (s.takeDown .nave).takeDown .choir

/-- A domain is asked to rise; while it is FALLING the request is latched (R20). -/
def State.askRise (s : State) (c : CoreId) : State :=
  let d := coreDomain c
  if s.dom d = 0 then s.setDom d 1
  else if s.dom d = 3 then
    s.onCrypt (fun k => match c with | .choir => { k with choirUp := true } | .nave => { k with naveUp := true })
  else s

/-- A domain start: choir, shared, and nave unless G is set (R446, R461, R480); the cause goes to RESETCAUSE.DOMAIN. -/
def State.startDomains (s : State) (cause wake : Nat) : State :=
  let s := (s.setFld SYS.RESETCAUSE_DOMAIN cause).setFld SYS.RESETCAUSE_WAKESRC wake
  let s := s.onCrypt (fun k => { k with standby := false })
  let s := s.askRise .choir
  if s.flag SYS.MODE_G then s else s.askRise .nave

/-- A wake from standby (R448): [0] ALARM, [1] CASE or MAGNET, [2] V. -/
def State.wakeUp (s : State) (src : Nat) : State := if s.crypt.standby then s.startDomains 2 src else s

end Sys2Proof.Machine
end

