-- ==== Sys2Proof/Machine/Guard.lean ====
section
/-! DEFINITION. The mode flags and the guard sequencer (R443 to R455, R480). -/
namespace Sys2Proof.Machine

/-- VSUSP and CSUSP show a flag that G suspends; C stays suspended until NETCTL0 is rewritten (R444). -/
def State.suspend (s : State) : State :=
  let g := s.flag SYS.MODE_G
  (s.setFlag SYS.MODE_VSUSP (g && s.flag SYS.MODE_V)).setFlag SYS.MODE_CSUSP (s.flag SYS.MODE_C && (g || s.flag SYS.MODE_CSUSP))

/-- A COORD port is not OFF (R450). -/
def State.coordOn (s : State) : Bool := (List.range 2).any (fun p => s.role p == 2 && s.fld (BELF.PSTAT_LIFE p) != 0)

/-- The nave domain rises when M or V becomes set with G clear and the choir domain ON (R480). -/
def State.naveFollows (s : State) : State :=
  if !s.flag SYS.MODE_G && s.domOn .choir && (s.flag SYS.MODE_M || s.flag SYS.MODE_V) then
    if s.dom .nave = 0 then s.setDom .nave 1
    else if s.dom .nave = 3 then s.onCrypt (fun k => { k with naveUp := true })
    else s
  else s

/-- Set or clear V with the seal (R341); the test tallies are cleared at each entry into V (R297). -/
def State.setV (s : State) (v : Bool) : State :=
  let s := if v && !s.flag SYS.MODE_V then s.clearTests else s
  ((s.setFlag SYS.MODE_V v).suspend).naveFollows

/-- Guard entry, in the order of R450. With the path MAIN and a COORD port the SUB port sends its last beacon first;
else the nave domain falls at once. -/
def State.guardEnter (s : State) : State :=
  let s := (s.setFlag SYS.MODE_G true).suspend
  let s := (s.logEvent logGuardEnter 0 0).writeGuardWord
  let s := s.raiseBoth .crypt 1
  let s := s.qtyGuardEnter.startCommit 2
  if s.pathMain ∧ s.role 0 = 2 ∧ s.coordOn then s.lastBeaconStart
  else s.fallStart .nave

/-- Guard exit, in the order of R455. -/
def State.guardExit (s : State) : State :=
  let s := (s.setFlag SYS.MODE_G false).suspend
  let s := (s.logEvent logGuardExit 0 0).raiseBoth .crypt 1
  let s := s.startCommit 3
  if s.flag SYS.MODE_M || s.flag SYS.MODE_V || s.flag SYS.MODE_C then
    if s.dom .nave = 0 then s.setDom .nave 1
    else if s.dom .nave = 3 then s.onCrypt (fun k => { k with naveUp := true })
    else s
  else s

/-- G follows GAUTO and GFORCE (R443, R449, R455). -/
def State.guardSync (s : State) : State :=
  let want := s.flag SYS.MODE_GAUTO || s.flag SYS.MODE_GFORCE
  if want && !s.flag SYS.MODE_G then s.guardEnter
  else if !want && s.flag SYS.MODE_G then s.guardExit
  else s

/-- A falling port reads OFF; under G the nave domain falls once every COORD port does (R388, R450). -/
def State.portFallen (s : State) (p : Nat) : State :=
  let s := s.portOff p
  if s.flag SYS.MODE_G && !s.coordOn && s.dom .nave == 2 then s.fallStart .nave else s

/-- PORT_FALL_DONE (R388). -/
def execPortFallDone (p : Fin 2) (s : State) : Out :=
  .next (if s.fld (BELF.PSTAT_LIFE p.val) = 3 then s.portFallen p.val else s)

/-- GUARD_NAVE_FALL_TIMEOUT (R450): 120 s after Guard entry the nave domain falls. -/
def execGuardNaveFallTimeout (s : State) : Out :=
  .next (if s.flag SYS.MODE_G ∧ s.dom .nave = 2 then s.fallStart .nave else s)

end Sys2Proof.Machine
end

