-- ==== Sys2Proof/Machine/Flash.lean ====
section
/-! DEFINITION. Program images, the flash controllers and the configuration flash (R170 to R177, R350, R356, R462, R465). -/
namespace Sys2Proof.Machine

/-- Rewrite the sacristy's fields. -/
def State.onSacr (s : State) (f : Sacr → Sacr) : State := { s with sacr := f s.sacr }

/-! ### The seal as the other rules read it -/

/-- The seal state rebuilt from the fuse (R338). -/
def State.sealMirror (s : State) : State := s.setFld SACR.SEAL_STATE (if s.sacr.sealed then 1 else 0)

/-! ### Image slots (R170 to R172) -/

/-- Size of an image slot (R170). -/
def slotSize (c : CoreId) : Nat := flashSize c / 2

/-- Base of slot A (false) or B (true). -/
def slotBase (c : CoreId) (b : Bool) : Nat := if b then slotSize c else 0

/-- MAGIC of a core's images (R171). -/
def imageMagic : CoreId → Nat
  | .choir => 0x53484B01
  | .nave => 0x53484B02

/-- A 32-bit header field of a slot. -/
def State.header (s : State) (c : CoreId) (b : Bool) (off : Nat) : Nat := (s.core c).leValue (slotBase c b + off) 4

/-- LENGTH of the image in a slot, held to what the slot can hold. -/
def State.codeLength (s : State) (c : CoreId) (b : Bool) : Nat := min (s.header c b 0x0C) (slotSize c - 0x100)

/-- A verify key that names a key for this core and is neither absent nor revoked (R344, R345). -/
def State.verifyKey (s : State) (c : CoreId) (n : Nat) : Option (BitVec 256 × BitVec 256) :=
  let mine := match c with | .choir => decide (n < 2) | .nave => decide (n = 2 ∨ n = 3)
  if mine && !bitAt (s.fld SACR.KEYMAP_VKREV) n then tget (fun _ => none) s.sacr.vks n else none

/-- Whether a slot is valid (R172). -/
def State.slotValid (s : State) (c : CoreId) (b : Bool) : Bool :=
  let k := s.core c
  let base := slotBase c b
  let len := s.header c b 0x0C
  let entry := s.header c b 0x10
  let faultv := s.header c b 0x14
  let info := s.header c b 0x18
  let inCode (x : Nat) : Bool := decide (x % 4 = 0 ∧ 0x100 ≤ x ∧ x < 0x100 + len)
  let digest := k.bytes (base + 0x20) 32
  decide (s.header c b 0 = imageMagic c) && decide (s.header c b 4 = 1) &&
    decide (bitAt info 8 = b) && decide (len % 8 = 0 ∧ len + 0x100 ≤ slotSize c) &&
    inCode entry && inCode faultv &&
    (k.bytes (base + 0x80) 128).all (fun o => decide (o = 0)) &&
    decide (sha256 (k.bytes base 0x20 ++ k.bytes (base + 0x100) (s.codeLength c b)) = digest) &&
    (match s.verifyKey c (info % 256) with
      | some (x, y) => ecdsaVerify x.toNat y.toNat (ofBe digest) (ofBe (k.bytes (base + 0x40) 32)) (ofBe (k.bytes (base + 0x60) 32))
      | none => false)

/-! ### Flash controllers (R176, R465) -/

/-- The control field of a flash unit: its BUSY, and its ERR. -/
def flashBusy : FlashUnit → Fld
  | .core c => SYS.IMGCTL_BUSY (coreNum c)
  | .config => SYS.CFGCTL_BUSY
def flashErr : FlashUnit → Fld
  | .core c => SYS.IMGCTL_ERR (coreNum c)
  | .config => SYS.CFGCTL_ERR

/-- Address and data registers of a flash unit. -/
def flashAddr : FlashUnit → Nat
  | .core c => SYS.IMGADDR (coreNum c)
  | .config => SYS.CFGADDR
def flashLo : FlashUnit → Nat
  | .core c => SYS.IMGDLO (coreNum c)
  | .config => SYS.CFGDLO
def flashHi : FlashUnit → Nat
  | .core c => SYS.IMGDHI (coreNum c)
  | .config => SYS.CFGDHI

/-- Size of the flash of a unit. -/
def flashBytes : FlashUnit → Nat
  | .core c => flashSize c
  | .config => 0x4000

/-- A byte of a unit's flash. -/
def State.flashByte (s : State) (u : FlashUnit) (a : Nat) : Octet :=
  match u with
  | .core c => (s.core c).byte a
  | .config => tget (fun _ => 0xFF) s.sacr.config a

/-- Write bytes of the configuration flash. -/
def configPut (m : List Host.Cell) (a : Nat) : List Octet → List Host.Cell
  | [] => m
  | v :: rest => configPut (tput (fun _ => 0xFF) m a v) (a + 1) rest

/-- Write bytes of a unit's flash. -/
def State.flashPut (s : State) (u : FlashUnit) (a : Nat) (l : List Octet) : State :=
  match u with
  | .core c => s.onCore c (fun k => k.setBytes a l)
  | .config => s.onSacr (fun x => { x with config := configPut x.config a l })

/-- Whether an address lies in what a unit may not write: the active slot (R176), or the configuration copy selected at
the last start (R465). -/
def State.flashActive (s : State) (u : FlashUnit) (a : Nat) : Bool :=
  match u with
  | .core c =>
    let slot := s.flag (SYS.IMGCTL_SLOT (coreNum c))
    decide ((s.core c).run ≠ .loader) && decide (slotBase c slot ≤ a ∧ a < slotBase c slot + slotSize c)
  | .config => !s.flag SYS.STATUS_CFG_DEFAULT && decide (a / 0x2000 = s.fld SYS.STATUS_CFGCOPY)

/-- The operation a unit runs. -/
def State.flashOp (s : State) : FlashUnit → Option FlashOp
  | .core .choir => s.sacr.opChoir
  | .core .nave => s.sacr.opNave
  | .config => s.sacr.opConfig

/-- Set the operation a unit runs. -/
def State.setFlashOp (s : State) (u : FlashUnit) (o : Option FlashOp) : State :=
  s.onSacr (fun x => match u with
    | .core .choir => { x with opChoir := o }
    | .core .nave => { x with opNave := o }
    | .config => { x with opConfig := o })

/-- The error of a flash command, 0 for none (R177): RANGE, then ACTIVE, then ALIGN, then NOTERASED. -/
def State.flashCheck (s : State) (u : FlashUnit) (erase : Bool) : Nat :=
  let a := (s.getReg (flashAddr u)).toNat
  if flashBytes u ≤ a then 3
  else if s.flashActive u a then 1
  else if a % (if erase then 4096 else 8) ≠ 0 then 2
  else if !erase && !((natsFrom a 8).all (fun x => decide (s.flashByte u x = 0xFF))) then 4
  else 0

/-- A flash command (R176): refused with ERR, or started. -/
def State.flashCommand (s : State) (u : FlashUnit) (erase : Bool) : State :=
  if s.flag (flashBusy u) then s.setFld (flashErr u) 5
  else
    let e := s.flashCheck u erase
    if e ≠ 0 then s.setFld (flashErr u) e
    else
      let a := (s.getReg (flashAddr u)).toNat
      let s := (s.setFld (flashErr u) 0).setFlag (flashBusy u) true
      let s := s.setFlashOp u (some (if erase then .erase a else .program a (s.getReg (flashLo u)) (s.getReg (flashHi u))))
      if u = .core .choir then
        let s := s.onSacr (fun x => { x with slotWritten := true })
        if erase && !s.sacr.eraseLogged then
          (s.logEvent logImageErase (BitVec.ofNat 32 a) 0).onSacr (fun x => { x with eraseLogged := true })
        else s
      else s

/-- FLASH_OP_DONE (R176): the operation ends; a double word that read back wrong holds a free value and sets WRITEFAIL. -/
def State.flashDone (s : State) (u : FlashUnit) (good : Bool) : State :=
  if s.flag (flashBusy u) then
    let t := (s.setFlag (flashBusy u) false).setFlashOp u none
    match s.flashOp u with
    | some (.erase a) => t.flashPut u a (List.replicate 4096 0xFF)
    | some (.program a lo hi) =>
      if good then t.flashPut u a (octetsOfWord lo ++ octetsOfWord hi)
      else
        let t := t.flashPut u a (octetsOfWord (Config.value t.free) ++ octetsOfWord (Config.value (t.free + 1)))
        (t.spend.spend).setFld (flashErr u) 6
    | none => t
  else s

/-- A store to IMGCTL: only a core's own set; CMD 0 and reserved codes do nothing (R10, R177). -/
def State.storeImgctl (s : State) (c : CoreId) (val : Word) : State :=
  match bitsOf val 2 0 with
  | 1 => s.flashCommand (.core c) true
  | 2 => s.flashCommand (.core c) false
  | _ => s

/-- A store to CFGCTL: while the seal is closed it is discarded with ERR SEALED and logged (R465). -/
def State.storeCfgctl (s : State) (val : Word) : State :=
  let cmd := bitsOf val 2 0
  if cmd = 1 ∨ cmd = 2 then
    if s.sealOpen then s.flashCommand .config (decide (cmd = 1))
    else (s.setFld SYS.CFGCTL_ERR 7).logEvent logSlDeny (BitVec.ofNat 32 SYS.CFGCTL) 0
  else s

/-! ### Configuration copies (R462, R463) -/

/-- A word of the configuration flash. -/
def State.configWord (s : State) (a : Nat) : Word :=
  BitVec.ofNat 32 (ofLe ((natsFrom a 4).map (fun x => tget (fun _ => (0xFF : Octet)) s.sacr.config x)))

/-- Whether a copy is valid (R462). -/
def State.copyValid (s : State) (b : Bool) : Bool :=
  let base := if b then 0x2000 else 0
  let count := (s.configWord (base + 8)).toNat
  decide (s.configWord base = 0x53484B43) && decide (count ≤ 1021) && decide (s.configWord (base + 12) = 0) &&
    decide (crc32 ((natsFrom base (16 + 8 * min count 1021)).map (fun x => tget (fun _ => (0xFF : Octet)) s.sacr.config x)) =
      (s.configWord (base + 16 + 8 * count)).toNat)

/-- A read of CFGDATA: word INDEX of the selected copy, of copy A where none was valid; INDEX rises by 1 (R463, R472). -/
def State.readCfgdata (s : State) : State × Word :=
  let i := s.fld SYS.CFGIDX_INDEX
  let base := if !s.flag SYS.STATUS_CFG_DEFAULT && s.flag SYS.STATUS_CFGCOPY then 0x2000 else 0
  (s.setFld SYS.CFGIDX_INDEX (i + 1), s.configWord (base + 4 * i))

end Sys2Proof.Machine
end

