-- ==== Sys2Proof/Machine/Power.lean ====
section
/-! DEFINITION. Supplies and the power path: the arbiter, the crypt hold, the supply measurement and the VPUL boost
(R51 to R63, R77), and the fall and rise of domains (R18 to R21, R447, R448, R466). -/
namespace Sys2Proof.Machine

/-- Falling and rising thresholds in mV (R52, R77). -/
def State.mainLo (s : State) : Nat := 2400 + 20 * s.fld CRYPT.PWRCFG_MAINLO
def State.mainOkLevel (s : State) : Nat := s.mainLo + 100
def State.bakLo (s : State) : Nat := 1800 + 50 * s.fld CRYPT.PWRCFG_BAKLO
def State.bakOkLevel (s : State) : Nat := s.bakLo + 100

/-- A supply is OK from its rising threshold on, until it falls below its falling threshold (R52). -/
def supplyOk (was : Bool) (v lo ok : Nat) : Bool := if was then decide (lo ≤ v) else decide (ok ≤ v)

/-- The supply monitor sees the supplies. -/
def State.supplies (s : State) (vmain vbak : Nat) : State :=
  let s := s.onCrypt (fun c => { c with vmain := vmain, vbak := vbak })
  let s := s.setFlag CRYPT.PWRSTAT_MAINOK (supplyOk (s.flag CRYPT.PWRSTAT_MAINOK) vmain s.mainLo s.mainOkLevel)
  let s := s.setFlag CRYPT.PWRSTAT_BAKOK (supplyOk (s.flag CRYPT.PWRSTAT_BAKOK) vbak s.bakLo s.bakOkLevel)
  s.setFlag CRYPT.PWRSTAT_BAKPRES (decide (1000 ≤ vbak))

/-- The supply monitor compares the sensed supplies again: a threshold has changed (R52, R77). -/
def State.compareAgain (s : State) : State := s.supplies s.crypt.vmain s.crypt.vbak

/-- The crypt's operating level in mV: 1.70 V ± 0.1 V (R461). -/
def cryptLevel : Nat := 1600 + Config.cryptLevel % 201

/-- The power path: 0 MAIN, 1 BACKUP, 2 HOLD (R52). -/
def State.path (s : State) : Nat := s.fld CRYPT.PWRSTAT_PATH

/-! ### The VPUL boost (R61 to R63) -/

/-- Target of the boost in mV (R61). -/
def State.vpulTarget (s : State) : Nat := 5000 + 125 * s.fld CRYPT.VPULCFG_LEVEL

/-- Whether a VPUL voltage lies in the ±5 % band of the target (R62). -/
def State.inBand (s : State) (v : Nat) : Bool := decide (20 * v ≤ 21 * s.vpulTarget ∧ 19 * s.vpulTarget ≤ 20 * v)

/-- The boost runs only while EN = 1, FAULT = 0 and the path is MAIN (R61). -/
def State.boostSync (s : State) : State :=
  let on := s.flag CRYPT.VPULCFG_EN && !s.flag CRYPT.VPULSTAT_FAULT && s.path == 0
  let s := (s.setFlag CRYPT.VPULSTAT_ON on).setFlag CRYPT.VPULSTAT_INHIBIT (s.path != 0)
  if on then s else s.setFlag CRYPT.VPULSTAT_OK false

/-- OK of a boost that runs follows the band of the target in force (R62). -/
def State.bandSync (s : State) : State :=
  if s.flag CRYPT.VPULSTAT_ON then s.setFlag CRYPT.VPULSTAT_OK (s.inBand s.crypt.vpul) else s

/-- A store to VPULCFG: EN and LEVEL, the target at once, OK re-evaluated (R62). A boost that starts has its OK from its
first VPUL_IN_BAND on. -/
def State.storeVpulcfg (s : State) (val : Word) : State :=
  let s := (s.setFld CRYPT.VPULCFG_LEVEL (min 56 (bitsOf val 5 0))).setFld CRYPT.VPULCFG_EN (bitsOf val 8 8)
  s.bandSync.boostSync

/-- A store to VPULSTAT: 1 clears FAULT and lets the boost restart (R63); a FAULT set in the present period of the crypt's
clock stays (R6). -/
def State.storeVpulstat (s : State) (val : Word) : State :=
  if bitsOf val 2 2 = 1 ∧ bitsOf (s.setNow CRYPT.VPULSTAT) 2 2 = 0 then (s.setFlag CRYPT.VPULSTAT_FAULT false).boostSync else s

/-- The boost faults: FAULT, stop, choir event 2 (R63). -/
def State.boostFault (s : State) (vpul : Nat) : State :=
  let s := s.onCrypt (fun c => { c with vpul := vpul })
  ((s.raiseBit CRYPT.VPULSTAT_FAULT).boostSync).raiseEvent .crypt .choir 2

/-- VMEAS takes both supplies in mV, within ±20 mV (R77): the error is a free value held to that bound. -/
def State.measure (s : State) : State :=
  let e1 := clampInt (-20) 20 (Config.measError s.free)
  let e2 := clampInt (-20) 20 (Config.measError (s.free + 1))
  let v (x : Nat) (e : Int) : Nat := (clampInt 0 4095 ((x : Int) + e)).toNat
  (((s.setFld CRYPT.VMEAS_MAIN (v s.crypt.vmain e1)).setFld CRYPT.VMEAS_BAK (v s.crypt.vbak e2)).spend).spend

/-- A store to PWRCFG (R77): thresholds and charger, which the next comparison uses (R52); MEASNOW measures; a BAKLO above
VBAK acts by R56 through VBAK_LOW. -/
def State.storePwrcfg (s : State) (val : Word) : State :=
  let ch := bitsOf val 15 14
  let s := if ch = 3 then s else s.setFld CRYPT.PWRCFG_CHARGE ch
  let s := (s.setFld CRYPT.PWRCFG_BAKLO (min 12 (bitsOf val 11 8))).setFld CRYPT.PWRCFG_MAINLO (min 30 (bitsOf val 5 0))
  let s := s.compareAgain
  if bitsOf val 16 16 = 1 then s.measure else s

/-- Enter HOLD (R56, R57): the islands lose their power, XHF stops, only the crypt runs. A hold that begins in standby, or in
the crypt-only standby after a crypt reset (R59), is told apart (R58). -/
def State.enterHold (s : State) : State :=
  let before := s.crypt.standby || (s.crypt.afterCryptReset && s.dom .choir == 0)
  let s := s.onCrypt (fun k => { k with holdInStandby := before })
  let s := ((s.setFld CRYPT.PWRSTAT_PATH 2).boostSync).takeAllDown
  ((s.setFlag CRYPT.CLKSTAT_XHFON false).setFlag CRYPT.CLKSTAT_XHFOK false).onCrypt (fun k => { k with xhfLinger := false })

/-- Both cores see a change of the path (R132). -/
def State.pathEvents (s : State) : State := s.raiseBoth .crypt 2

/-- Switch to BACKUP (R54): the boost and the belfry transmitter stop, SWITCHES counts, Guard begins if the choir
domain is ON (R449). -/
def State.toBackup (s : State) : State :=
  let s := ((s.setFld CRYPT.PWRSTAT_PATH 1).bump CRYPT.PWRSTAT_SWITCHES 1).boostSync
  let s := s.pathEvents.radioPathLost
  if s.domOn .choir then (s.setFlag SYS.MODE_GAUTO true).guardSync else s

/-- The path is MAIN again (R55, R58). -/
def State.toMain (s : State) : State := ((s.setFld CRYPT.PWRSTAT_PATH 0).boostSync).pathEvents

/-- VMAIN_LOSS (R53, R54, R56): the monitor confirms that VMAIN stayed below MAINLO. -/
def execVmainLoss (vmain vbak : Nat) (s : State) : Out :=
  .next (if s.domOn .crypt then
    let s := s.supplies vmain vbak
    if s.path = 0 ∧ vmain < s.mainLo then
      if s.flag CRYPT.PWRSTAT_BAKOK then s.toBackup else s.enterHold
    else s
  else s)

/-- RETURN_TO_MAIN (R55, R455): 10 ms at or above MAINOK end BACKUP; GAUTO clears with it. -/
def execReturnToMain (vmain : Nat) (s : State) : Out :=
  .next (if s.domOn .crypt then
    let s := s.supplies vmain s.crypt.vbak
    if s.path = 1 ∧ s.mainOkLevel ≤ vmain then ((s.toMain).setFlag SYS.MODE_GAUTO false).guardSync else s
  else s)

/-- VBAK_LOW (R56). -/
def execVbakLow (vbak : Nat) (s : State) : Out :=
  .next (if s.domOn .crypt then
    let s := s.supplies s.crypt.vmain vbak
    if s.path = 1 ∧ vbak < s.bakLo then s.enterHold else s
  else s)

/-- HOLD_SURVIVAL (R58): the path becomes MAIN, HOLDS counts; the domains restart unless the hold began in standby. -/
def execHoldSurvival (vmain vbak : Nat) (s : State) : Out :=
  .next (if s.domOn .crypt then
    let s := s.supplies vmain vbak
    if s.path = 2 ∧ s.mainOkLevel ≤ vmain then
      let s := (s.toMain).bump CRYPT.PWRSTAT_HOLDS 1
      if s.crypt.holdInStandby then s else s.startDomains 3 0
    else s
  else s)

/-- The crypt resets (R58, R439, R443, R466): RTC, CRYPT and SYS registers, retention and mode flags at their reset
state, the domains unpowered. The seal state is rebuilt from the fuse and V waits for VERIFY to qualify again (R338, R341); the levels of
CASE and MAGNET stay. -/
def State.cryptReset (s : State) : State :=
  let levels := (s.flag SACR.SEAL_CASE, s.flag SACR.SEAL_MAGNET)
  let s := s.takeAllDown
  let s := { s with
    regs := tdrop (fun a => match regFind a with | some (r, _) => decide (r.group ≠ ResetGroup.array) | none => true) s.regs
    crypt := { Crypt.reset with vmain := s.crypt.vmain, vbak := s.crypt.vbak, vpul := s.crypt.vpul, nrst := s.crypt.nrst }
    qty := { s.qty with guard := [] }
    outp := { s.outp with records := [] }
    radio := { s.radio with limits := [], saved := none } }
  let s := ((s.setDom .choir 0).setDom .nave 0).setDom .shared 0
  ((s.sealMirror).setFlag SACR.SEAL_CASE levels.1).setFlag SACR.SEAL_MAGNET levels.2

/-- The crypt after its reset: the arbiter's first comparison, from supplies that are not OK, sets PATH (R52). DESIGN
CHOICE: a PATH that the first comparison sets to BACKUP is no switch from MAIN, and SWITCHES stays 0 (log entry 68). -/
def State.cryptStarts (s : State) (vmain vbak : Nat) : State :=
  let s := (s.cryptReset).supplies vmain vbak
  (s.setFld CRYPT.PWRSTAT_PATH (if s.flag CRYPT.PWRSTAT_MAINOK then 0 else 1)).boostSync

/-- The crypt is without power: nothing of the device runs, and DOMPWR.CRYPT is not ON (R43, R58). -/
def State.cryptUnpowered (s : State) (vmain vbak : Nat) : State :=
  (s.cryptReset.onCrypt (fun c => { c with vmain := vmain, vbak := vbak })).setDom .crypt 0

/-- HOLD_EXPIRY_CRYPT_RESET (R58): the crypt resets; below its operating level it stays unpowered until CRYPT_POWER_ON. -/
def execHoldExpiryCryptReset (vmain vbak : Nat) (s : State) : Out :=
  .next (if s.path = 2 then
    if cryptLevel ≤ max vmain vbak then s.cryptStarts vmain vbak else s.cryptUnpowered vmain vbak
  else s)

/-- CRYPT_POWER_ON (R461): a supply reaches the crypt's operating level. -/
def execCryptPowerOn (vmain vbak : Nat) (s : State) : Out :=
  .next (if cryptLevel ≤ max vmain vbak then s.cryptStarts vmain vbak else s)

/-- DOMAIN_FALL (R19). -/
def execDomainFall (d : CoreId) (s : State) : Out := .next (s.fallStart d)

/-- DOMAIN_OFF (R19, R20). -/
def execDomainOff (d : CoreId) (s : State) : Out := .next (s.fallFinish d)

/-- VMEAS_PERIODIC (R77). -/
def execVmeasPeriodic (s : State) : Out := .next (if s.domOn .crypt then s.measure else s)

/-- VPUL_IN_BAND (R62): the boost sees VPUL at a voltage, and its OK follows the band. -/
def execVpulInBand (vpul : Nat) (s : State) : Out := .next (s.onCrypt (fun c => { c with vpul := vpul })).bandSync

/-- VPUL_UNDERVOLT_FAULT (R63). -/
def execVpulUndervoltFault (vpul : Nat) (s : State) : Out :=
  .next (if s.flag CRYPT.VPULSTAT_ON ∧ 10 * vpul < 9 * s.vpulTarget then s.boostFault vpul else s)

/-- VPUL_CURRENT_LIMIT_FAULT (R63). -/
def execVpulCurrentLimitFault (vpul : Nat) (s : State) : Out :=
  .next (if s.flag CRYPT.VPULSTAT_ON then s.boostFault vpul else s)

end Sys2Proof.Machine
end

