-- ==== Sys2Proof/Machine/Time.lean ====
section
/-! DEFINITION. The RTC, the time of day, XHF and what passes with the ticks (R428 to R442, R447, R451, R467, R477). -/
namespace Sys2Proof.Machine

/-- The crypt commits the staged time of day to the coming second edge, two periods before it (R436). -/
def State.commitStaged (s : State) : State :=
  match s.crypt.staged with
  | some v => s.onCrypt (fun c => { c with staged := none, committed := some v })
  | none => s

/-- Whether the alarm of R448 is due at this second. -/
def State.alarmDue (s : State) : Bool := s.flag CRYPT.WAKECFG_ALARM && decide (s.getReg CRYPT.WAKEAT = s.timeSec)

/-- A second edge (R435, R436, R448, R451): TIME_SEC rises by 1 or takes the committed value, which is logged; seconds-based
countdowns and ages advance, and an alarm that is due ends standby. -/
def State.secondEdge (s : State) : State :=
  let old := s.timeSec + 1
  let s := match s.crypt.committed with
    | some v =>
      let s := (s.putReg CRYPT.TIME_SEC v).onCrypt (fun c => { c with committed := none })
      let s := (s.setFlag CRYPT.TIMESTAT_PEND s.crypt.staged.isSome).setFlag CRYPT.TIMESTAT_SET true
      s.logEvent logTimeSet old v
    | none => s.putReg CRYPT.TIME_SEC old
  let s := s.qtySecond.netSecond
  if s.alarmDue then s.wakeUp 1 else s

/-- Count the watchdog of a core over some ticks; at its limit it resets the core (R467). A debug halt stops the count. -/
def State.wdogTicks (s : State) (c : CoreId) (n : Nat) : State :=
  let i := coreNum c
  if s.flag (SYS.WDOG_EN i) && !(s.core c).halted then
    let count := (match c with | .choir => s.crypt.wdogChoir | .nave => s.crypt.wdogNave) + n
    if s.fld (SYS.WDOG_PERIOD i) * 1024 ≤ count then s.coreReset c 2
    else s.onCrypt (fun k => match c with | .choir => { k with wdogChoir := count } | .nave => { k with wdogNave := count })
  else s

/-- Move the tick count by n: the period that stands ends (R6, R7). -/
def State.moveTicks (s : State) (n : Nat) : State :=
  s.endPeriod.onCrypt (fun c => { c with ticks := c.ticks + BitVec.ofNat 40 n })

/-- Ticks until an armed timer is due (R137): a value in the past, or the present one, at the next tick. A value 2^27 ahead is
no longer in the past at the next tick, and is reached. -/
def timerAhead (timer : Word) (stamp : Nat) : Nat :=
  let d := (bitsOf timer 27 0 + (2 ^ 28 - stamp)) % 2 ^ 28
  if d = 0 ∨ 2 ^ 27 < d then 1 else d

/-- Ticks until a core's timer, its evwait deadline or its watchdog acts (R136, R137, R467). -/
def State.coreAhead (s : State) (c : CoreId) : List Nat :=
  let k := s.core c
  let count := match c with | .choir => s.crypt.wdogChoir | .nave => s.crypt.wdogNave
  let i := coreNum c
  (if k.run ≠ .off ∧ bitsOf k.timer 31 31 = 1 then [timerAhead k.timer s.stamp] else []) ++
    (match k.run with
    | .asleep _ _ (some d) => if k.halted then [] else [d.toNat - s.crypt.ticks.toNat]
    | _ => []) ++
    (if s.flag (SYS.WDOG_EN i) && !k.halted then [s.fld (SYS.WDOG_PERIOD i) * 1024 - count] else [])

/-- Ticks until the commit point of R436 or the second edge after it. -/
def State.edgeAhead (s : State) : Nat := if s.timeSub < 32766 then 32766 - s.timeSub else 32768 - s.timeSub

/-- Ticks, n at the most, until the next tick at which something happens. -/
def State.nextStop (s : State) (n : Nat) : Nat :=
  (([s.edgeAhead] ++ s.coreAhead .choir ++ s.coreAhead .nave).map (fun k => max 1 k)).foldl min n

/-- k ticks pass, of which only the last does anything: the commit point or the second edge, the timers, the deadlines (an event
of that tick wins over one), the watchdogs (R136, R137, R435, R436, R467). -/
def State.passTo (s : State) (k : Nat) : State :=
  let s := s.moveTicks k
  let s := if s.timeSub = 32766 then s.commitStaged else if s.timeSub = 0 then s.secondEdge else s
  let s := s.each [CoreId.choir, CoreId.nave] State.fireTimer
  let s := s.each [CoreId.choir, CoreId.nave] State.wakeDeadline
  s.each [CoreId.choir, CoreId.nave] (fun s c => s.wdogTicks c k)

/-- n ticks pass, from one stop to the next. -/
def State.passTicks (s : State) (n : Nat) : Nat → State
  | 0 => if n = 0 then s else s.passTo n
  | fuel + 1 =>
    if n = 0 then s
    else
      let k := s.nextStop n
      (s.passTo k).passTicks (n - k) fuel

/-- n ticks pass. Each second has two stops, and each core three at most. A crypt without power has no clock (R58). -/
def State.advance (s : State) (n : Nat) : State :=
  if s.domOn .crypt then s.passTicks n (2 * (n / 32768) + 10) else s

/-- TIMER_EXPIRY (R137): the RTC reaches TIMER.AT; a value in the past fires at the next tick. -/
def execTimerExpiry (c : CoreId) (s : State) : Out :=
  let k := s.core c
  .next (if bitsOf k.timer 31 31 = 1 ∧ k.run ≠ .off then s.advance (timerAhead k.timer s.stamp) else s)

/-- EVWAIT_TIMEOUT (R136): the deadline passes. -/
def execEvwaitTimeout (c : CoreId) (s : State) : Out :=
  .next (match (s.core c).run with
    | .asleep _ _ (some d) => if s.crypt.ticks < d then s.advance (d.toNat - s.crypt.ticks.toNat) else s.wakeDeadline c
    | _ => s)

/-- SECOND_EDGE (R435): the RTC runs to its next second edge. -/
def execSecondEdge (s : State) : Out := .next (s.advance (32768 - s.timeSub))

/-- TIME_SET (R436): the second edge at which a staged value takes effect. -/
def execTimeSet (s : State) : Out :=
  .next (if s.crypt.committed.isSome || (s.crypt.staged.isSome && decide (s.timeSub < 32766)) then
    s.advance (32768 - s.timeSub)
  else s)

/-- WAKE_ALARM (R448): the RTC runs to the second edge at which TIME_SEC equals WAKEAT, which ends standby. -/
def execWakeAlarm (s : State) : Out :=
  .next (if s.crypt.standby ∧ s.flag CRYPT.WAKECFG_ALARM then
    let n := (s.getReg CRYPT.WAKEAT - s.timeSec).toNat
    if n = 0 then s.wakeUp 1 else s.advance (32768 * n - s.timeSub)
  else s)

/-- RTC_TRIM (R433): over |TRIM| periods the count advances by 2 each, or holds. TRIM applies only on XT32K (R434). -/
def execRtcTrim (s : State) : Out :=
  let t := s.sfld CRYPT.RTCTRIM_TRIM
  .next (if s.flag CRYPT.CLKSTAT_XT32K ∧ 0 < t then s.advance (2 * t.toNat) else s)

/-- XT32K_SWITCH (R434). -/
def execXt32kSwitch (s : State) : Out := .next (if s.domOn .crypt then s.setFlag CRYPT.CLKSTAT_XT32K true else s)

/-- XTFAIL (R434): back to the RC oscillator; the RC periods of the gap are made up; choir event 2. -/
def execXtfail (gap : Nat) (s : State) : Out :=
  .next (if s.flag CRYPT.CLKSTAT_XT32K then
    let s := (s.setFlag CRYPT.CLKSTAT_XT32K false).raiseBit CRYPT.CLKSTAT_XTFAIL
    (s.raiseEvent .crypt .choir 2).advance gap
  else s)

/-- A store to TIME_NEW stages a time of day (R436). -/
def State.storeTimeNew (s : State) (v : Word) : State :=
  (s.onCrypt (fun c => { c with staged := some v })).setFlag CRYPT.TIMESTAT_PEND true

/-- The TIME_SEC latch of a core (R435). -/
def State.latch (s : State) : CoreId → Option Word
  | .choir => s.crypt.latchChoir
  | .nave => s.crypt.latchNave

/-- Set the TIME_SEC latch of a core. -/
def State.setLatch (s : State) (c : CoreId) (v : Option Word) : State :=
  s.onCrypt (fun k => match c with | .choir => { k with latchChoir := v } | .nave => { k with latchNave := v })

/-- A read of TIME_SUB latches TIME_SEC for the core (R435). -/
def State.readTimeSub (s : State) (c : CoreId) : State × Word :=
  (s.setLatch c (some s.timeSec), BitVec.ofNat 32 s.timeSub)

/-- A read of TIME_SEC returns and releases the latched value, or returns the live one (R435). -/
def State.readTimeSec (s : State) (c : CoreId) : State × Word :=
  match s.latch c with
  | some v => (s.setLatch c none, v)
  | none => (s, s.timeSec)

/-! ### XHF (R429 to R431, R477) -/

/-- XHF_START (R429): 32 stable cycles; the isles may start their latched commands (R430). No start follows once the crypt
has given up, or in a hold (R57, R431). -/
def execXhfStart (s : State) : Out :=
  .next (if s.xhfHeld ∧ s.crypt.xhfTries ≠ 4 ∧ s.path ≠ 2 then
    ((s.setFlag CRYPT.CLKSTAT_XHFON true).setFlag CRYPT.CLKSTAT_XHFOK true).onCrypt
      (fun c => { c with xhfTries := 0, xhfLinger := false })
  else s)

/-- XHF_LINGER_END (R429). -/
def execXhfLingerEnd (s : State) : Out :=
  .next (if s.crypt.xhfLinger ∧ !s.xhfHeld then
    ((s.setFlag CRYPT.CLKSTAT_XHFON false).setFlag CRYPT.CLKSTAT_XHFOK false).onCrypt (fun c => { c with xhfLinger := false })
  else s)

/-- XHF_START_TIMEOUT (R431): a restart, and after three of them XHFFAIL and choir event 2. -/
def execXhfStartTimeout (s : State) : Out :=
  .next (if s.xhfHeld ∧ !s.flag CRYPT.CLKSTAT_XHFOK ∧ s.path ≠ 2 then
    if s.crypt.xhfTries < 3 then s.onCrypt (fun c => { c with xhfTries := c.xhfTries + 1 })
    else if s.crypt.xhfTries = 3 then
      (((s.raiseBit CRYPT.CLKSTAT_XHFFAIL).setFlag CRYPT.CLKSTAT_XHFON false).onCrypt
        (fun c => { c with xhfTries := 4 })).raiseEvent .crypt .choir 2
    else s
  else s)

/-- XHFLOST (R204, R477): choir event 2, shots in progress fail, the belfry stops, and XHF starts again. -/
def execXhflost (s : State) : Out :=
  .next (if s.xhfHeld ∧ s.flag CRYPT.CLKSTAT_XHFON then
    let s := ((s.setFlag CRYPT.CLKSTAT_XHFON false).setFlag CRYPT.CLKSTAT_XHFOK false).onCrypt (fun c => { c with xhfTries := 0 })
    ((s.raiseEvent .crypt .choir 2).islesXhfLost).radioXhfLost
  else s)

end Sys2Proof.Machine
end

