-- ==== Sys2Proof/Machine/Seal.lean ====
section
/-! DEFINITION. The seal, the tamper inputs, debug sessions, keys, CMAC runs, the slot check, and the rood mailbox
(R168, R333 to R358). -/
namespace Sys2Proof.Machine

/-! ### Seal and tamper inputs (R338 to R343) -/

/-- A store to SEALCTL (R339): the fuse starts to blow when every condition holds, else PRECOND. -/
def State.storeSealctl (s : State) (val : Word) : State :=
  if bitsOf val 0 0 = 1 ∧ bitsOf val 31 16 = 0x5EA1 then
    if s.fld SACR.SEAL_STATE = 0 ∧ s.flag SACR.SEAL_VERIFY = false ∧ bitAt (s.fld SACR.KEYMAP_VKSET) 0 = true ∧
        bitAt (s.fld SACR.KEYMAP_AES) 0 = true then
      (s.setFlag SACR.KEYSTAT_BUSY true).onSacr (fun x => { x with sealing := true })
    else s.setFld SACR.KEYSTAT_ERR 4
  else s

/-- A debug session ends: the core resumes (R343). -/
def State.endDebug (s : State) : State :=
  if s.flag SACR.SEAL_DBG then
    ((s.setFlag SACR.SEAL_DBG false).onCore .choir (fun k => { k with halted := false })).wakeDeadline .choir
  else s

/-- SEALING_DONE (R339): the seal is CLOSED, in which V is clear and no debug session stands (R341, R343). -/
def execSealingDone (s : State) : Out :=
  .next (if s.sacr.sealing then
    let s := s.onSacr (fun x => { x with sealing := false, sealed := true })
    let s := ((s.setFld SACR.SEAL_STATE 1).setFlag SACR.KEYSTAT_BUSY s.sacr.keyRuns).logEvent logSealed 0 0
    (((s.raiseBoth .crypt 3).setV false).endDebug).startCommit 4
  else s)

/-- VERIFY_OPEN (R341): a qualified assertion of VERIFY. -/
def execVerifyOpen (s : State) : Out :=
  .next (if s.domOn .crypt then
    let s := s.setFlag SACR.SEAL_VERIFY true
    if s.fld SACR.SEAL_STATE = 1 ∧ s.logFull = false then
      let s := (s.setFld SACR.SEAL_STATE 2).logEvent logVerifyOpen 0 0
      ((s.raiseBoth .crypt 3).setV true).wakeUp 4
    else if s.fld SACR.SEAL_STATE = 0 then (s.setV true).wakeUp 4
    else s
  else s)

/-- VERIFY_CLOSE (R341, R343): a qualified release of VERIFY. -/
def execVerifyClose (s : State) : Out :=
  .next (if s.domOn .crypt then
    let s := s.setFlag SACR.SEAL_VERIFY false
    if s.fld SACR.SEAL_STATE = 2 then
      let s := (s.setFld SACR.SEAL_STATE 1).logEvent logVerifyClose 0 0
      (((s.raiseBoth .crypt 3).setV false).endDebug).startCommit 4
    else s.setV false
  else s)

/-- A qualified change of a tamper input (R342, R448). -/
def State.tamper (s : State) (level : Fld) (count : Fld) (kind : Nat) (wake : Fld) (v : Bool) : State :=
  if s.flag level = v ∨ s.domOn .crypt = false then s
  else
    let s := s.setFlag level v
    let s :=
      if s.dom .choir = 0 then s.bump count 1
      else (s.logEvent kind (BitVec.ofNat 32 (natOfBool v)) 0).raiseEvent .crypt .choir 3
    if s.flag wake then s.wakeUp 2 else s

/-- CASE (R342). -/
def execCase (closed : Bool) (s : State) : Out :=
  .next (s.tamper SACR.SEAL_CASE SACR.SEAL_CASECNT logCase CRYPT.WAKECFG_CASE closed)

/-- MAGNET (R342). -/
def execMagnet (present : Bool) (s : State) : Out :=
  .next (s.tamper SACR.SEAL_MAGNET SACR.SEAL_MAGCNT logMagnet CRYPT.WAKECFG_MAGNET present)

/-- The choir domain reaches ON: one entry per input that changed, with its count (R342). -/
def State.tamperReport (s : State) : State :=
  let one (s : State) (level count : Fld) (kind : Nat) : State :=
    if s.fld count = 0 then s
    else (s.logEvent kind (BitVec.ofNat 32 (s.fld level)) (BitVec.ofNat 32 (s.fld count))).setFld count 0
  one (one s SACR.SEAL_CASE SACR.SEAL_CASECNT logCase) SACR.SEAL_MAGNET SACR.SEAL_MAGCNT logMagnet

/-- A debug-port access outside its reach is logged with bit 2 (R41, R352). -/
def State.logDebugRefusal (s : State) (addr : Word) (write : Bool) : State :=
  s.logEvent logScreenViol addr (BitVec.ofNat 32 (natOfBool write + 4))

/-- DEBUG_ATTACH (R75, R343): on powered pads, attached while the seal is open, else refused and logged. -/
def execDebugAttach (s : State) : Out :=
  .next (if !s.pathMain || !s.domOn .crypt then s
  else if s.sealOpen then
    if s.domOn .choir then (s.setFlag SACR.SEAL_DBG true).logEvent logDebugAttach 0 0 else s
  else s.logDebugRefusal 0 false)

/-- DEBUG_HALT (R343, R467): an attached session halts the choir core. -/
def execDebugHalt (s : State) : Out :=
  .next (if s.pathMain ∧ s.sealOpen ∧ s.flag SACR.SEAL_DBG then s.onCore .choir (fun k => { k with halted := true }) else s)

/-! ### Keys (R344 to R346) -/

/-- The key octets of KBUF words from an address on. -/
def State.kbuf (s : State) (base n : Nat) : List Octet := octetsOfWords ((List.range n).map (fun i => s.getReg (base + 4 * i)))

/-- Clear KBUF words. -/
def State.clearKbuf (s : State) (base n : Nat) : State := s.each (List.range n) (fun s i => s.putReg (base + 4 * i) 0)

/-- The key in KBUF words from an address on. -/
def State.kbufKey (s : State) (base : Nat) : BitVec 128 := BitVec.ofNat 128 (ofLe (s.kbuf base 4))

/-- KEYCMD finds its error: BUSY discards the command, then RANGE, then the seal. -/
def State.keyError (s : State) (e : Nat) : State := (s.setFld SACR.KEYSTAT_ERR e).clearKbuf (SACR.KBUF 0) 16

/-- KEYCMD starts a command and reports the KCV of its slot. -/
def State.keyStart (s : State) (kcv : Nat) : State :=
  (((s.setFld SACR.KEYSTAT_ERR 0).setFld SACR.KEYSTAT_KCV kcv).setFlag SACR.KEYSTAT_BUSY true).onSacr (fun x => { x with keyRuns := true })

/-- LOADAES (R345). -/
def State.loadAes (s : State) (slot : Nat) : State :=
  if s.flag SACR.KEYSTAT_BUSY then s
  else if 8 ≤ slot then s.keyError 3
  else if !s.sealOpen then s.keyError 1
  else
    let k := s.kbufKey (SACR.KBUF 0)
    ((s.setAesKey slot (some k)).keyStart (keyCheck k)).logEvent logKeyLoad (BitVec.ofNat 32 slot) (BitVec.ofNat 32 (keyCheck k))

/-- CLEAR (R345). -/
def State.clearAes (s : State) (slot : Nat) : State :=
  if s.flag SACR.KEYSTAT_BUSY then s
  else if 8 ≤ slot then s.keyError 3
  else if !s.sealOpen then s.keyError 1
  else ((s.setAesKey slot none).keyStart 0).logEvent logKeyLoad (BitVec.ofNat 32 (slot + 2 ^ 31)) 0

/-- Program a verify key: once per key, while UNSEALED (R344). -/
def State.programVk (s : State) (slot : Nat) (x y : BitVec 256) : State :=
  let s := s.onSacr (fun k => { k with vks := tput (fun _ => none) k.vks slot (some (x, y)) })
  let s := s.setFld SACR.KEYMAP_VKSET (bitsPut (BitVec.ofNat 32 (s.fld SACR.KEYMAP_VKSET)) slot slot 1).toNat
  s.logEvent logVkey (BitVec.ofNat 32 slot) 0

/-- LOADVK (R345). -/
def State.loadVk (s : State) (slot : Nat) : State :=
  if s.flag SACR.KEYSTAT_BUSY then s
  else if 4 ≤ slot then s.keyError 3
  else if s.fld SACR.SEAL_STATE ≠ 0 then s.keyError 1
  else if bitAt (s.fld SACR.KEYMAP_VKSET) slot then s.keyError 2
  else
    let l := s.kbuf (SACR.KBUF 0) 16
    (s.programVk slot (BitVec.ofNat 256 (ofBe (l.take 32))) (BitVec.ofNat 256 (ofBe (l.drop 32)))).keyStart 0

/-- REVOKEVK (R345). -/
def State.revokeVk (s : State) (slot : Nat) : State :=
  if s.flag SACR.KEYSTAT_BUSY then s
  else if 4 ≤ slot then s.keyError 3
  else if !s.sealOpen then s.keyError 1
  else
    let s := s.setFld SACR.KEYMAP_VKREV (bitsPut (BitVec.ofNat 32 (s.fld SACR.KEYMAP_VKREV)) slot slot 1).toNat
    (s.keyStart 0).logEvent logVkey (BitVec.ofNat 32 (slot + 2 ^ 31)) 0

/-- A store to KEYCMD. -/
def State.storeKeycmd (s : State) (val : Word) : State :=
  let slot := bitsOf val 11 8
  match bitsOf val 2 0 with
  | 1 => s.loadAes slot
  | 2 => s.clearAes slot
  | 3 => s.loadVk slot
  | 4 => s.revokeVk slot
  | _ => s

/-- NKEYCMD LOAD (R346): a nave cell slot 8 to 15. -/
def State.loadNave (s : State) (slot : Nat) : State :=
  if s.flag SACR.NKEYSTAT_BUSY ∨ slot < 8 then s
  else
    let k := s.kbufKey (SACR.NKBUF 0)
    (((s.setAesKey slot (some k)).setFld SACR.NKEYSTAT_ERR 0).setFld SACR.NKEYSTAT_KCV (keyCheck k)).setFlag SACR.NKEYSTAT_BUSY true

/-- NKEYCMD CLEAR (R346). -/
def State.clearNave (s : State) (slot : Nat) : State :=
  if s.flag SACR.NKEYSTAT_BUSY ∨ slot < 8 then s
  else (((s.setAesKey slot none).setFld SACR.NKEYSTAT_ERR 0).setFld SACR.NKEYSTAT_KCV 0).setFlag SACR.NKEYSTAT_BUSY true

/-- A store to NKEYCMD; any other value is discarded (R358). -/
def State.storeNkeycmd (s : State) (val : Word) : State :=
  let slot := bitsOf val 11 8
  match bitsOf val 2 0 with
  | 1 => s.loadNave slot
  | 2 => s.clearNave slot
  | _ => s

/-- KEY_COMMAND_DONE (R345): BUSY and KBUF clear, event 6. -/
def execKeyCommandDone (h : SacrHalf) (s : State) : Out :=
  .next (match h with
    | .choir =>
      if s.sacr.keyRuns then
        let s := s.onSacr (fun x => { x with keyRuns := false })
        (((s.setFlag SACR.KEYSTAT_BUSY s.sacr.sealing).clearKbuf (SACR.KBUF 0) 16).raiseEvent .sacristy .choir 6)
      else s
    | .nave =>
      if s.flag SACR.NKEYSTAT_BUSY then
        (((s.setFlag SACR.NKEYSTAT_BUSY false).clearKbuf (SACR.NKBUF 0) 4).raiseEvent .sacristy .nave 6)
      else s)

/-! ### CMAC runs (R347) -/

/-- MACCTL FINISH: the checks of R347, of which a stream too short to hold octets 12 to 15 fails the first; the tag follows. -/
def State.macFinish (s : State) : State :=
  let ctr := s.getReg SACR.RPTCTR
  let msg := s.sacr.macStream.take (s.fld SACR.MACCTL_LEN)
  match s.aesKey (s.fld SACR.MACCTL_SLOT) with
  | some k =>
    if 16 ≤ msg.length ∧ ofLe ((msg.drop 12).take 4) = ctr.toNat ∧ ctr ≠ 0xFFFFFFFF then
      s.onSacr (fun x => { x with macTag := some (BitVec.ofNat 128 (ofLe (octetsOf (cmac (keyOctets k) (natsOf msg))))) })
    else (s.setFlag SACR.MACCTL_ERR true).setFlag SACR.MACCTL_BUSY false
  | none => (s.setFlag SACR.MACCTL_ERR true).setFlag SACR.MACCTL_BUSY false

/-- A store to MACCTL: SLOT and LEN, a START while no run is in progress, and FINISH, which uses SLOT and LEN as they stand then:
DESIGN CHOICE, log entry 71. -/
def State.storeMacctl (s : State) (val : Word) : State :=
  let busy := s.flag SACR.MACCTL_BUSY
  let s := (s.setFld SACR.MACCTL_SLOT (bitsOf val 26 24)).setFld SACR.MACCTL_LEN (max 16 (bitsOf val 11 0))
  let s := if bitsOf val 30 30 = 1 ∧ busy = false then
      (s.setFlag SACR.MACCTL_BUSY true).onSacr (fun x => { x with macStream := [], macTag := none })
    else s
  if bitsOf val 29 29 = 1 ∧ s.flag SACR.MACCTL_BUSY ∧ s.sacr.macTag = none then s.macFinish else s

/-- A store to DIN streams four octets into the run. -/
def State.storeDin (s : State) (val : Word) : State :=
  if s.flag SACR.MACCTL_BUSY ∧ s.sacr.macTag = none then
    s.onSacr (fun x => { x with macStream := x.macStream ++ octetsOfWord val })
  else s

/-- MAC_TAG_READY (R347). -/
def execMacTagReady (s : State) : Out :=
  .next (match s.sacr.macTag with
    | some t =>
      let s := s.each (List.range 4) (fun s j => s.putReg (SACR.TAG j) (t.extractLsb' (32 * j) 32))
      let s := (s.putReg SACR.RPTCTR (s.getReg SACR.RPTCTR + 1)).setFlag SACR.MACCTL_BUSY false
      ((s.setFlag SACR.MACCTL_ERR false).onSacr (fun x => { x with macTag := none, macStream := [] })).raiseEvent .sacristy .choir 6
    | none => s)

/-! ### Slot check and activation (R356) -/

/-- The choir core's inactive slot. -/
def State.inactiveSlot (s : State) : Bool := !s.flag (SYS.IMGCTL_SLOT 0)

/-- IMGCHK.CHECK (R356). -/
def State.imgCheck (s : State) : State :=
  if s.flag SACR.IMGCHK_BUSY then s
  else (s.setFlag SACR.IMGCHK_BUSY true).onSacr (fun x => { x with slotWritten := false })

/-- IMGCHK_DONE (R356): DONE and VALID. -/
def execImgchkDone (s : State) : Out :=
  .next (if s.flag SACR.IMGCHK_BUSY then
    let b := s.inactiveSlot
    let s := ((s.setFlag SACR.IMGCHK_BUSY false).setFlag SACR.IMGCHK_DONE true).setFlag SACR.IMGCHK_VALID (s.slotValid .choir b)
    (s.onSacr (fun x => { x with checkedSeq := s.header .choir b 8 })).raiseEvent .sacristy .choir 6
  else s)

/-- IMGCHK.ACTIVATE (R356). -/
def State.imgActivate (s : State) : State :=
  let active := s.header .choir (s.flag (SYS.IMGCTL_SLOT 0)) 8
  if s.flag SACR.IMGCHK_VALID ∧ s.sacr.slotWritten = false ∧ s.flag SACR.IMGCHK_BUSY = false ∧ active < s.sacr.checkedSeq then
    let s := (s.setFlag SACR.IMGCHK_REFUSED false).logEvent logImageActivate (BitVec.ofNat 32 s.sacr.checkedSeq) 0
    s.askCommit 1 true
  else s.setFlag SACR.IMGCHK_REFUSED true

/-- A store to IMGCHK. -/
def State.storeImgchk (s : State) (val : Word) : State :=
  let s := if bitsOf val 0 0 = 1 then s.imgCheck else s
  if bitsOf val 1 1 = 1 then s.imgActivate else s

/-! ### The rood mailbox (R168, R333 to R337) -/

/-- The rejection cause of a nave command, 0 for none (R333, R334). -/
def State.roodCause (s : State) (cmd arg : Word) : Nat :=
  let op := bitsOf cmd 31 24
  let par := bitsOf cmd 23 0
  let a := arg.toNat
  let allowed := bitAt (s.fld ROOD.MBCFG_ALLOW) (op - 1)
  if op = 0 ∨ 9 ≤ op then 1
  else if !allowed then 4
  else
    match op with
    | 1 => if par = 0 then 0 else 2
    | 2 =>
      if 32 ≤ par ∨ 65536 ≤ a then 2
      else if s.fld (ROOD.CADLIM_MIN par) ≤ a ∧ a ≤ s.fld (ROOD.CADLIM_MAX par) then 0 else 3
    | 3 => if 2 ≤ par then 2 else if par = 0 then (if a = 0 then 2 else 0) else (if 1792 ≤ a then 2 else 0)
    | 4 => if par = 0 then 0 else 2
    | 5 =>
      if par ≠ 0 then 2
      else if s.fld ROOD.MBCFG_TSTEP = 0 then 4
      else
        let t := s.timeSec.toNat
        if (if t ≤ a then a - t else t - a) ≤ s.fld ROOD.MBCFG_TSTEP then 0 else 3
    | 6 => if par = 0 ∧ a % 8 = 0 ∧ 0x108 ≤ a ∧ a ≤ 0x40000 then 0 else 2
    | 7 => if par < 65536 then 0 else 2
    | _ => if par = 0 then 0 else 2

/-- A nave POST (R168, R333, R334, R336): the status. -/
def State.navePost (s : State) (cmd arg : Word) : State × Nat :=
  if s.sacr.mailCmd.isSome then (s, 6)
  else
    let cause := s.roodCause cmd arg
    if cause = 0 then ((s.onSacr (fun x => { x with mailCmd := some (cmd, arg) })).raiseEvent .queue .choir 4, 0)
    else
      let s := ((s.bump ROOD.MBSTAT_REJECTS 1).setFld ROOD.MBSTAT_CAUSE cause).setFld ROOD.MBSTAT_LASTOP (bitsOf cmd 31 24)
      (s.logEvent logRoodReject cmd (BitVec.ofNat 32 cause), 0)

/-- A choir POST (R168, R150): NOTON while the nave domain is not ON. -/
def State.choirPost (s : State) (cmd arg : Word) : State × Nat :=
  if !s.domOn .nave then (s, 1)
  else if s.sacr.mailReply.isSome then (s, 6)
  else ((s.onSacr (fun x => { x with mailReply := some (cmd, arg) })).raiseEvent .queue .nave 4, 0)

/-- A TAKE: the waiting message, or zeros (R168). -/
def State.mailTake (s : State) (c : CoreId) : State × Word × Word :=
  match c with
  | .choir =>
    match s.sacr.mailCmd with
    | some (a, b) => (s.onSacr (fun x => { x with mailCmd := none }), a, b)
    | none => (s, 0, 0)
  | .nave =>
    match s.sacr.mailReply with
    | some (a, b) => (s.onSacr (fun x => { x with mailReply := none }), a, b)
    | none => (s, 0, 0)

/-- MBSTAT with its live bits (R359). -/
def State.mbstat (s : State) : Word :=
  bitsPut (bitsPut (s.getReg ROOD.MBSTAT) 31 31 (natOfBool s.sacr.mailCmd.isSome)) 30 30 (natOfBool s.sacr.mailReply.isSome)

end Sys2Proof.Machine
end

