-- ==== Sys2Proof/Machine/Bus.lean ====
section
/-! DEFINITION. The register space as the bus masters see it: reach and refusals (R33 to R42), and what a load or a store
of each register does beyond its access code (R5 to R11). -/
namespace Sys2Proof.Machine

/-! ### Reach (R33, R34, R37, R39, R40) -/

/-- The core that writes a SYS register; none for a common or read-only one (R177, R472). -/
def sysOwner (off : Nat) : Option CoreId :=
  if off = 0 ∨ off = 0x10 ∨ (0x20 ≤ off ∧ off < 0x38) ∨ (0x60 ≤ off ∧ off < 0x70) then some .choir
  else if off = 0x14 ∨ (0x70 ≤ off ∧ off < 0x80) then some .nave
  else none

/-- Whether a core reads the register set of a queue (R109). -/
def queueRegsRead (c : CoreId) (n : Nat) : Bool :=
  match c with
  | .choir => decide (n < 128)
  | .nave => decide (112 ≤ n)

/-- Whether R34 keeps a core from an access. -/
def screened (c : CoreId) (a : Nat) (write : Bool) : Region → Bool
  | .sys => write && (match sysOwner (a - 0x40000000) with | some o => decide (o ≠ c) | none => false)
  | .que =>
    if a < 0x40012000 then
      let n := (a - 0x40010000) / 0x20
      !(if write then queueWriter c n else queueRegsRead c n)
    else write && decide (c = .nave) && decide (a = QUE.POOL)
  | .isle _ => decide (c = .nave)
  | .qty => decide (c = .nave)
  | .ledg => decide (c = .nave)
  | .out => write && decide (c = .nave) && decide (a = OUT.LOCK)
  | .rood => decide ((c = .nave) ≠ (0x40068000 ≤ a))
  | .sacr => decide ((c = .nave) ≠ (0x40078000 ≤ a))
  | .crypt => decide (c = .nave) && (if a < 0x40092000 then write else decide (a < 0x40093000))
  | .belf => decide (c = .choir)
  | .svc => decide (c = .choir)
  | .tile _ => false
  | .bank _ => false
  | .window _ => false

/-- The CIM bank of a region. -/
def regionBank : Region → Option Nat
  | .tile t => some (t / 8)
  | .bank b => some b
  | .window b => some b
  | _ => none

/-- The accesses to bank and tile registers that R34 exempts from the lease. -/
def leaseExempt (c : CoreId) (a : Nat) (write : Bool) : Region → Bool
  | .bank b =>
    if write then decide (c = .choir) && decide (a = CIM.LEASE b ∨ a = CIM.SHARE b ∨ a = CIM.CTL b)
    else decide (a = CIM.LEASE b) || (decide (c = .choir) && decide (a = CIM.SHARE b))
  | .tile t => write && decide (c = .choir) && decide (a = CIM.TCTL t)
  | _ => false

/-- The island that serves a region; the SYS, CRYPT and common shot registers are always within reach. -/
def regionIsland (a : Nat) : Region → Option Island
  | .que => some .queue
  | .rood => some .queue
  | .isle n => if (a - 0x40020000) % 0x1000 < 0x700 then some (isleIsland n) else none
  | .tile t => some (bankIsland (t / 8))
  | .bank b => some (bankIsland b)
  | .window b => some (bankIsland b)
  | .qty => some .quantity
  | .out => some .outputs
  | .sacr => some .sacristy
  | .ledg => some .ledger
  | .belf => some .belfry
  | .svc => some .service
  | .sys => none
  | .crypt => none

/-- An island that a core's strait does not reach now (R32, R39). -/
def State.dark (s : State) (c : CoreId) (i : Island) : Bool :=
  !s.domOn (islandDomain i) || decide (s.strait (coreIsland c) i ≠ .isOpen)

/-- Whether the island behind an address leaves a request without a reply (R39); the crypt's shell serves SYS and CRYPT. -/
def State.silentAt (s : State) (a : Nat) : Bool :=
  match regionOf a with
  | some .sys => s.silent .crypt
  | some .crypt => s.silent .crypt
  | some r => (match regionIsland a r with | some i => s.silent i | none => false)
  | none => false

/-- The cause that refuses an access, the first of R40 that applies; ECC and TIMEOUT come with the access itself. -/
def State.reach (s : State) (c : CoreId) (a : Nat) (write : Bool) : Option Nat :=
  if inFlash c a then (if write then some causeRdonly else none)
  else if inSram c a then none
  else match regionOf a with
    | none => some causeUnmapped
    | some r =>
      if screened c a write r then some causeScreen
      else
        let leased := match regionBank r with
          | some b => decide (s.bankCore b = some c) || leaseExempt c a write r
          | none => true
        if !leased then some causeLease
        else match regionIsland a r with
          | some i => if s.dark c i then some causeDark else none
          | none => none

/-! ### Loads beyond the access code -/

/-- A register with live bits put over its stored ones. -/
def State.loadLive (s : State) (a hi lo v : Nat) : State × Word :=
  let r := s.loadReg a
  (r.1, bitsPut r.2 hi lo v)

/-- A load of a queue's registers (R85, R109). STAT.OPEN stays 1 while an open packet stands whose words have all been taken:
DESIGN CHOICE, log entry 70. -/
def State.loadQueueReg (s : State) (a : Nat) : State × Word :=
  let n := (a - 0x40010000) / 0x20
  let q := s.queue n
  match a % 0x20 with
  | 0x04 =>
    let r := s.loadReg a
    let w := bitsPut (bitsPut r.2 29 29 (natOfBool q.openPk.isSome)) 28 28 (natOfBool (decide (0 < q.given)))
    (r.1, bitsPut w 18 0 q.count)
  | 0x08 => (s, BitVec.ofNat 32 q.whole)
  | 0x10 => (s.setFld (QUE.BLK_PEAK n) q.held, BitVec.ofNat 32 (q.held + 2 ^ 16 * max q.held (s.fld (QUE.BLK_PEAK n))))
  | _ => s.loadReg a

/-- A load of the QUE block (R109). -/
def State.loadQue (s : State) (a : Nat) : State × Word :=
  if a < 0x40012000 then s.loadQueueReg a
  else if a = QUE.POOL then s.loadLive a 12 0 s.shortSum
  else if a = QUE.POOLSTAT then (s, BitVec.ofNat 32 (s.reserved + 2 ^ 16 * s.freeBlocks))
  else if a = QUE.POOLUSE then
    (s, BitVec.ofNat 32 (s.heldSum (fun n => !isNaveQueue n) + 2 ^ 16 * s.heldSum isNaveQueue))
  else s.loadReg a

/-- A load of the ISLE block: the common registers stand in every window; a read of OVLD clears SOURCE with COUNT (R206). -/
def State.loadIsle (s : State) (a : Nat) : State × Word :=
  let n := (a - 0x40020000) / 0x1000
  let off := a % 0x1000
  if 0x700 ≤ off then s.loadReg (0x40020000 + off)
  else if a = ISLE.OVLD n then
    let r := s.loadReg a
    (r.1.setFld (ISLE.OVLD_SOURCE n) 0, r.2)
  else s.loadReg a

/-- A load of the QTY block (R271, R303, R304, R306). -/
def State.loadQty (s : State) (a : Nat) : State × Word :=
  let m := (a - 0x40041000) / 0x20
  let k := (a - 0x40042000) / 0x40
  let v := (a - 0x40043400) / 0x10
  if a = QTY.STAT then s.loadLive a 29 29 (natOfBool s.guardLive)
  else if 0x40041000 ≤ a ∧ a < 0x40042000 ∧ a = QTY.PSTAT m then
    match tget (fun _ => none) s.qty.velocity m with
    | some (_, t) => s.loadLive a 15 0 (s.ageSeconds t)
    | none => s.loadReg a
  else if 0x40042000 ≤ a ∧ a < 0x40042800 ∧ a = QTY.CDSTAT k then
    let r := s.loadReg a
    (r.1, bitsPut (bitsPut r.2 30 30 (natOfBool (s.flag SYS.MODE_G && s.metered k))) 3 0 (min 8 (s.memberPaths k).length))
  else if 0x40042000 ≤ a ∧ a < 0x40042800 ∧ a = QTY.LEVEL k then
    match (s.conduit k).level with
    | some t => s.loadLive a 31 16 (s.ageSeconds t)
    | none => s.loadReg a
  else if 0x40043400 ≤ a ∧ a < 0x40043600 ∧ a = QTY.CLVOTE v then s.loadLive a 31 31 (natOfBool (s.voteValid v))
  else s.loadReg a

/-- CRC-8 of a log entry, over octets 0 to 6 and 8 to 15 (R351). -/
def entryCheck (e : LogEntry) : Nat :=
  crc8 (octetsOfWord e.sec ++ leOctets 2 e.kind ++ leOctets 1 e.repeats ++ octetsOfWord e.a ++ octetsOfWord e.b)

/-- A word of a log entry: the second; kind, repeats and CRC-8; A; B (R351). -/
def entryWord (e : LogEntry) : Nat → Word
  | 0 => e.sec
  | 1 => BitVec.ofNat 32 (e.kind + 2 ^ 16 * e.repeats + 2 ^ 24 * entryCheck e)
  | 2 => e.a
  | _ => e.b

/-- An octet of a list, from an offset. -/
def octetAt (l : List Octet) (i : Nat) : Option Octet := l[i]?

/-- The octets of the 64 KiB ledger array that R298 places: the read marks with their CRC-16, the SHA-256 of the last choir boot,
the guard word (its marker, then the SEQ), and the entries of the log (R351). The two banks hold the items of Image.items and their
CRC-32 between the begin word and the commit word (LedgerBank); R298 gives their order, and no offsets. No core reads the array. -/
def State.arrayOctet (s : State) (a : Nat) : Option Octet :=
  if 0x8000 ≤ a ∧ a < 0x8F50 then
    let m := s.mark ((a - 0x8000) / 10)
    octetAt (leOctets 8 m.value ++ leOctets 2 m.crc) ((a - 0x8000) % 10)
  else if 0x8FC0 ≤ a ∧ a < 0x8FE0 then s.sacr.lastHash.bind (fun h => octetAt h.1 (a - 0x8FC0))
  else if 0x8FE0 ≤ a ∧ a < 0x8FE8 then
    s.qty.guardWord.bind (fun w => octetAt (octetsOfWord Config.guardMarker ++ octetsOfWord w) (a - 0x8FE0))
  else if 0x9000 ≤ a ∧ a < 0x10000 then
    s.log[(a - 0x9000) / 16]?.bind (fun e => octetAt ((List.range 4).flatMap (fun j => octetsOfWord (entryWord e j))) (a % 16))
  else none

/-- LOGDATA j: a word of entry INDEX; a read of LOGDATA3 adds 1 to INDEX (R360). -/
def State.loadLogdata (s : State) (j : Nat) : State × Word :=
  let i := s.fld LEDG.LOGIDX_INDEX
  let w := match s.log[i]? with | some e => entryWord e j | none => 0
  (if j = 3 then s.setFld LEDG.LOGIDX_INDEX (min 1791 (i + 1)) else s, w)

/-- A load of the LEDG block (R307, R355, R360). -/
def State.loadLedg (s : State) (a : Nat) : State × Word :=
  if a = LEDG.STAT then
    let r := s.loadReg a
    (r.1, bitsPut (bitsPut r.2 31 31 (natOfBool s.qty.commit.isSome)) 30 30 (natOfBool s.qty.follow.isSome))
  else if a = LEDG.LOGSTAT then
    let n := s.log.length
    let r := s.loadReg a
    (r.1, bitsPut (bitsPut (bitsPut r.2 10 0 n) 30 30 (natOfBool (decide (logNear ≤ n)))) 31 31 (natOfBool s.logFull))
  else if 0x40080110 ≤ a ∧ a < 0x40080120 then s.loadLogdata ((a - 0x40080110) / 4)
  else s.loadReg a

/-- A load of the ROOD block (R359): a nave read of NMBSTAT restarts REJECTS. -/
def State.loadRood (s : State) (a : Nat) : State × Word :=
  if a = ROOD.MBSTAT then (s, s.mbstat)
  else if a = ROOD.NMBSTAT then (s.setFld ROOD.MBSTAT_REJECTS 0, s.mbstat)
  else s.loadReg a

/-- A load of the SACR block: the nave's views of SEAL, SWCRC, EUI and SWHASH (R358). -/
def State.loadSacr (s : State) (a : Nat) : State × Word :=
  if a = SACR.NSEAL then s.loadReg SACR.SEAL
  else if 0x40078010 ≤ a ∧ a < 0x40078040 then s.loadReg (a - 0x8000)
  else s.loadReg a

/-- What the words of a guard record are laid out from (R304). -/
def guardFields (r : GuardRec) : List Nat :=
  [r.forward, r.reverse, r.hold, r.errors, r.guardVol, r.sets, r.cls, r.seq.toNat]

/-- What the record of a PINNED neighbour is laid out from (R426): EUI-64, short address, flags, current key index and counter, lease
index and remaining lease. -/
def nbrFields (n : Nbr) : List Nat :=
  [n.eui.getD 0, n.short, n.port + 2 * natOfBool n.pinned + 4 * natOfBool n.allow + 8 * natOfBool n.leased,
    (n.cur.getD (0, 0)).1, (n.cur.getD (0, 0)).2, n.lidx, n.lrem]

/-- A load of the CRYPT block (R304, R323, R383, R426, R432, R435). The retention records have no stated layout. -/
def State.loadCrypt (s : State) (c : CoreId) (a : Nat) : State × Word :=
  if a = CRYPT.TIME_SUB then s.readTimeSub c
  else if a = CRYPT.TIME_SEC then s.readTimeSec c
  else if a = CRYPT.TICKS then (s, BitVec.ofNat 32 s.crypt.ticks.toNat)
  else if 0x40092800 ≤ a ∧ a < 0x40093000 then
    let k := (a - 0x40092800) / 0x40
    (s, match tget (fun _ => none) s.qty.guard k with
      | some r => Config.guardLayout (guardFields r) (a % 0x40 / 4)
      | none => Config.guardLayout [] (a - 0x40092800))
  else if 0x40093000 ≤ a ∧ a < 0x40093A80 then
    (s, match s.radio.saved with
      | some (t, l) => Config.guardLayout (t :: l.flatMap (fun e => nbrFields e.2)) (a - 0x40093000)
      | none => Config.guardLayout [] (a - 0x40092800))
  else if 0x40093C00 ≤ a ∧ a < 0x40093F00 then
    (s, Config.guardLayout (s.radio.limits.flatMap (fun e => match e.2 with
      | some r => e.1 :: r.ticks :: (r.dwell ++ r.duty).flatMap (fun x => [x.1, x.2])
      | none => [])) (a - 0x40093C00))
  else if 0x40093F00 ≤ a ∧ a < 0x40093F80 then (s, s.outRetentionLoad a)
  else if 0x40092000 ≤ a then (s, s.getReg a)
  else s.loadReg a

/-- A load of the OUT block: the level of a line that no pulse drives is a free value (R331); LPMEAS shows what flows (R329). -/
def State.loadOut (s : State) (a : Nat) : State × Word :=
  let n := (a - 0x40050100) / 0x20
  let j := (a - 0x40050300) / 0x20
  if 0x40050300 ≤ a ∧ a < 0x40050340 ∧ a = OUT.LPMEAS j then s.loadLpmeas j
  else if 0x40050100 ≤ a ∧ a < 0x40050200 ∧ a = OUT.PINSTAT n then
    if s.flag (OUT.PINSTAT_ACTIVE n) then s.loadLive a 29 29 0
    else
      let r := s.loadReg a
      (r.1.spend, bitsPut r.2 29 29 ((Config.value s.free).toNat % 2))
  else s.loadReg a

/-- A load of the BELF block (R379, R380, R385, R390, R413, R427). -/
def State.loadBelf (s : State) (a : Nat) : State × Word :=
  let off := a - 0x400A0000
  let p := (off - 0x100) / 0x100
  let q := (off - 0x3400) / 0x100
  if 0x100 ≤ off ∧ off < 0x300 then
    if off % 0x100 = 0x04 then (s, s.pstat p)
    else if 0xA0 ≤ off % 0x100 ∧ off % 0x100 < 0xC0 then (s, s.dutyMs p ((off % 0x100 - 0xA0) / 4))
    else s.loadReg a
  else if 0x3000 ≤ off ∧ off < 0x3400 then (s, s.dwellMs ((off - 0x3000) / 0x200) (off % 0x200 / 4))
  else if 0x3400 ≤ off ∧ off < 0x3600 ∧ off % 0x100 = 0x24 then s.loadNetstat q
  else if a = BELF.FLOODSTAT then (s, BitVec.ofNat 32 s.radio.seen.length)
  else s.loadReg a

/-- A load of a CIM bank's registers (R224). -/
def State.loadBank (s : State) (b a : Nat) : State × Word :=
  if a = CIM.THRDATA b then s.readThr b else if a = CIM.STAT b then s.bankStat b else s.loadReg a

/-- The golden row and the word of a weight-window address of a bank (R33, R210). -/
def windowAt (b a : Nat) : Nat × Nat :=
  let off := (a - 0x60000000) % 0x10000
  (rowKey (8 * b + off / 0x2000) (off % 0x2000 / 32), off % 32 / 4)

/-- A load that succeeds. -/
def loaded (r : State × Word) : State × Except Nat Word := (r.1, .ok r.2)

/-- A load of a weight-window word: ECC for an uncorrectable golden word (R210). -/
def State.loadWindow (s : State) (b a : Nat) : State × Except Nat Word :=
  let r := s.loadGolden (windowAt b a).1 (windowAt b a).2
  match r.2 with
  | some v => (r.1, .ok v)
  | none => (r.1, .error causeEcc)

/-- A load of a register that the core reaches. -/
def State.loadAt (s : State) (c : CoreId) (a : Nat) : Region → State × Except Nat Word
  | .window b => s.loadWindow b a
  | .sys => loaded (if a = SYS.CFGDATA then s.readCfgdata else s.loadReg a)
  | .que => loaded (s.loadQue a)
  | .isle _ => loaded (s.loadIsle a)
  | .tile _ => loaded (s.loadReg a)
  | .bank b => loaded (s.loadBank b a)
  | .qty => loaded (s.loadQty a)
  | .out => loaded (s.loadOut a)
  | .rood => loaded (s.loadRood a)
  | .sacr => loaded (s.loadSacr a)
  | .ledg => loaded (s.loadLedg a)
  | .crypt => loaded (s.loadCrypt c a)
  | .belf => loaded (s.loadBelf a)
  | .svc => (s, .ok 0)

/-! ### Stores beyond the access code -/

/-- A store to WDOG (R467): EN is only set; KICK, and EN that becomes set, restart the count. -/
def State.storeWdog (s : State) (c : CoreId) (val : Word) : State :=
  let i := coreNum c
  let was := s.flag (SYS.WDOG_EN i)
  let s := s.setFld (SYS.WDOG_PERIOD i) (max 1 (bitsOf val 15 0))
  let s := if bitsOf val 31 31 = 1 then s.setFlag (SYS.WDOG_EN i) true else s
  if bitsOf val 16 16 = 1 ∨ (was = false ∧ bitsOf val 31 31 = 1) then s.clearWdog c else s

/-- A domain reset: choir, nave and shared domains unpowered and started again (R466). -/
def State.domainReset (s : State) (cause : Nat) : State := (s.takeAllDown).startDomains cause 0

/-- A store to RSTREQ (R468): the nave core may request NAVECORE alone; another KEY is discarded. -/
def State.storeRstreq (s : State) (c : CoreId) (val : Word) : State :=
  if bitsOf val 31 16 = 0xA5C3 then
    match bitsOf val 1 0 with
    | 1 => if c = .choir then s.coreReset .choir 3 else s
    | 2 => if s.domOn .nave then s.coreReset .nave 3 else s
    | 3 => if c = .choir then s.domainReset 4 else s
    | _ => s
  else s

/-- A store to MODE (R443, R445, R449, R455, R480): the choir writes M and GFORCE. -/
def State.storeMode (s : State) (val : Word) : State :=
  (((s.storeReg .choir SYS.MODE val).guardSync).islesFollow).naveFollows

/-- A store to the SYS block (R177, R472). -/
def State.storeSys (s : State) (c : CoreId) (a : Nat) (val : Word) : State :=
  if a = SYS.MODE then s.storeMode val
  else if a = SYS.RSTREQ then s.storeRstreq c val
  else if a = SYS.WDOG (coreNum c) then s.storeWdog c val
  else if a = SYS.CFGCTL then s.storeCfgctl val
  else if a = SYS.IMGCTL (coreNum c) then s.storeImgctl c val
  else s.storeReg c a val

/-- A store to the QUE block (R101, R109). -/
def State.storeQue (s : State) (c : CoreId) (a : Nat) (val : Word) : State :=
  if a < 0x40012000 then
    if a % 0x20 = 0 then s.storeDesc ((a - 0x40010000) / 0x20) val else s.storeReg c a val
  else s.storeReg c a val

/-- A store to the ISLE block (R206). -/
def State.storeIsle (s : State) (c : CoreId) (a : Nat) (val : Word) : State :=
  let n := (a - 0x40020000) / 0x1000
  let off := a % 0x1000
  if 0x800 ≤ off then s.storeDescriptor c ((off - 0x800) / 16) (off % 16 / 4) val
  else if 0x700 ≤ off then s.storeReg c (0x40020000 + off) val
  else if a = ISLE.CTL n then s.storeIsleCtl c n val
  else if a = ISLE.PORTMODE n then s.storePortmode n val
  else s.storeReg c a val

/-- A store to a CIM bank's registers (R224, R231, R242, R243). drifted names the rows that a scan asked for by REFNOW finds. -/
def State.storeBank (s : State) (c : CoreId) (b a : Nat) (val : Word) (drifted : List RowAt) : State :=
  if a = CIM.THRDATA b then s.writeThr b val
  else if a = CIM.REFNOW b then s.storeRefnow b val drifted
  else if a = CIM.CTL b then s.storeBankCtl c b val
  else s.storeReg c a val

/-- A store to the QTY block (R269, R271, R296, R306). -/
def State.storeQty (s : State) (c : CoreId) (a : Nat) (val : Word) : State :=
  let k := (a - 0x40042000) / 0x40
  let v := (a - 0x40043400) / 0x10
  if a = QTY.CTL then s.storeQtyCtl c val
  else if 0x40040040 ≤ a ∧ a < 0x40040060 then s.storeAuxadd ((a - 0x40040040) / 4) val
  else if a = QTY.CALCTL then s.storeCalctl c val
  else if 0x40042000 ≤ a ∧ a < 0x40042800 ∧ a = QTY.CDCFG k then s.storeCdcfg c k val
  else if 0x40043400 ≤ a ∧ a < 0x40043600 ∧ a = QTY.CLVOTE v then s.storeClvote c v val
  else s.storeReg c a val

/-- A store to the OUT block (R313, R331). -/
def State.storeOut (s : State) (c : CoreId) (a : Nat) (val : Word) : State :=
  let off := a - 0x40050000
  let n := (off - 0x100) / 0x20
  let j := (off - 0x300) / 0x20
  if s.outLocked c a then s
  else if 0x100 ≤ off ∧ off < 0x200 then
    if a = OUT.PINCTL n then s.storePinctl c n val
    else if a = OUT.PINADD n then s.storePinadd n val
    else s.storeReg c a val
  else if 0x300 ≤ off ∧ off < 0x340 then
    if a = OUT.LPCTL j then s.storeLpctl c j val
    else if a = OUT.LPSTAT j then s.storeLpstat c j val
    else s.storeLoopReg c a j val
  else s.storeReg c a val

/-- A store to the SACR block (R339, R345, R346, R347, R356). -/
def State.storeSacr (s : State) (c : CoreId) (a : Nat) (val : Word) : State :=
  if a = SACR.SEALCTL then s.storeSealctl val
  else if a = SACR.KEYCMD then s.storeKeycmd val
  else if a = SACR.NKEYCMD then s.storeNkeycmd val
  else if a = SACR.MACCTL then s.storeMacctl val
  else if a = SACR.DIN then s.storeDin val
  else if a = SACR.IMGCHK then s.storeImgchk val
  else s.storeReg c a val

/-- A store to crypt retention: the guard records are not written; a store into a record of the belfry or the outputs
breaks its check (R304, R323, R383, R426). -/
def State.storeRetention (s : State) (a : Nat) (val : Word) : State :=
  if a < 0x40092800 then s.putReg a val
  else if a < 0x40093000 then s
  else if a < 0x40093A80 then s.onRadio (fun r => { r with saved := none })
  else if a < 0x40093C00 then s.putReg a val
  else if a < 0x40093F00 then s.onRadio (fun r => { r with limits := [] })
  else if a < 0x40093F80 then s.outRetentionStore a val
  else s.putReg a val

/-- A store to the CRYPT block (R61 to R63, R77, R429, R436). -/
def State.storeCrypt (s : State) (c : CoreId) (a : Nat) (val : Word) : State :=
  if a = CRYPT.TIME_NEW then s.storeTimeNew val
  else if a = CRYPT.XHFREQ then (s.storeReg c a val).xhfSync
  else if a = CRYPT.PWRCFG then s.storePwrcfg val
  else if a = CRYPT.VPULCFG then s.storeVpulcfg val
  else if a = CRYPT.VPULSTAT then s.storeVpulstat val
  else if 0x40092000 ≤ a then s.storeRetention a val
  else s.storeReg c a val

/-- A store to a port's registers (R390): the sub-bands are writable only under the preset CUSTOM (R381). -/
def State.storePort (s : State) (p a : Nat) (val : Word) : State :=
  match a % 0x100 with
  | 0x00 => s.storePctl p val
  | 0x10 => s.storeAsnLo p val
  | 0x14 => s.storeAsnHi p val
  | 0x1C => s.storeHop p val
  | 0x40 => s.storePwr p val
  | 0x44 => s.storeLimcfg p val
  | r => if 0x60 ≤ r ∧ r < 0xA0 ∧ s.preset p ≠ 3 then s else s.storeReg .nave a val

/-- A store to the BELF block (R390, R396, R427). -/
def State.storeBelf (s : State) (a : Nat) (val : Word) : State :=
  let off := a - 0x400A0000
  s.epochStep (
    if 0x100 ≤ off ∧ off < 0x300 then s.storePort ((off - 0x100) / 0x100) a val
    else if 0x2000 ≤ off ∧ off < 0x3000 then s.storeCell ((off - 0x2000) / 0x800) (off % 0x800 / 8) a val
    else if a = BELF.NETCTL 0 then s.storeNetctl 0 val
    else if a = BELF.NETCTL 1 then s.storeNetctl 1 val
    else if a = BELF.NBRCMD then s.storeNbrcmd val
    else s.storeReg .nave a val)

/-- A store to a register that the core reaches. -/
def State.storeAt (s : State) (c : CoreId) (a : Nat) (val : Word) (drifted : List RowAt) : Region → State
  | .sys => s.storeSys c a val
  | .que => s.storeQue c a val
  | .isle _ => s.storeIsle c a val
  | .tile t => if a = CIM.TCTL t then s.storeTileCtl c t val else s.storeReg c a val
  | .bank b => s.storeBank c b a val drifted
  | .qty => s.storeQty c a val
  | .out => s.storeOut c a val
  | .rood => s.storeReg c a val
  | .sacr => s.storeSacr c a val
  | .ledg => s.storeReg c a val
  | .crypt => s.storeCrypt c a val
  | .belf => s.storeBelf a val
  | .svc => s
  | .window b => let w := windowAt b a
    s.storeGolden w.1 w.2 val

/-! ### Accesses -/

/-- The result of a word load: the cause that refused it, or the word. -/
abbrev LoadResult := State × Except Nat Word

/-- The result of a word store: the cause that refused it, if any. -/
abbrev StoreResult := State × Option Nat

/-- A word load above own memory (R38 to R40). -/
def State.busLoad (s : State) (c : CoreId) (a : Nat) : LoadResult :=
  match s.reach c a false, regionOf a with
  | some cause, _ => (s, .error cause)
  | none, some r =>
    match s.loadAt c a r with
    | (t, .error cause) => (t, .error cause)
    | (t, .ok v) => if s.silentAt a then (s, .error causeTimeout) else (t, .ok v)
  | none, none => (s, .error causeUnmapped)

/-- A word store above own memory, with the rows that a scan asked for finds drifted. -/
def State.busStoreWith (s : State) (c : CoreId) (a : Nat) (val : Word) (drifted : List RowAt) : StoreResult :=
  match s.reach c a true, regionOf a with
  | some cause, _ => (s, some cause)
  | none, some r => if s.silentAt a then (s, some causeTimeout) else (s.storeAt c a val drifted r, none)
  | none, none => (s, some causeUnmapped)

/-- A word store above own memory. -/
def State.busStore (s : State) (c : CoreId) (a : Nat) (val : Word) : StoreResult := s.busStoreWith c a val []

/-- A refused access that a command names: recorded, and a precise fault of the core while it executes (R38). -/
def State.refuseAccess (s : State) (c : CoreId) (addr : Word) (cause kind : Nat) : State :=
  let t := s.recordRefusal c addr cause kind
  if s.executes c then t.fault c faultRefused addr else t

end Sys2Proof.Machine
end

