-- ==== Sys2Proof/Machine/CoreMem.lean ====
section
/-! DEFINITION. Loads, stores, push and pop of the Prolu core (R125 to R131, R143, R145, R478). -/
namespace Sys2Proof.Machine

/-- Retire an instruction, unless its own access has reset or stopped the core. -/
def State.retireLive (s : State) (c : CoreId) (n : Nat) : State :=
  if decide ((s.core c).run = .running) then s.retire c n else s

/-- The effective address of a load or store. -/
def State.effective (s : State) (c : CoreId) (ra : Reg) (off : BitVec 18) : Word := s.reg c ra + sext18 off

/-- An access through w15 below SPLIM (R130). -/
def State.belowLimit (s : State) (c : CoreId) (ra : Reg) (a : Word) : Bool :=
  decide (ra = 15) && decide (a < (s.core c).splim)

/-- Whether an address lies in a region that takes word accesses alone (R126). -/
def wordOnly (a : Nat) : Bool :=
  decide (0x40000000 ≤ a ∧ a < 0x400C0000) || decide (0x60000000 ≤ a ∧ a < 0x60040000)

/-- The ALIGN rules of an access of n bytes (R125, R126). -/
def misaligned (a : Word) (n : Nat) : Bool := decide (a.toNat % n ≠ 0) || (wordOnly a.toNat && decide (n ≠ 4))

/-- Cycles of a load from own memory (R143). -/
def loadCycles (c : CoreId) (a : Nat) : Nat :=
  if a < sramBase then (match c with | .choir => 2 | .nave => 3) else 1

/-- A checked read of n bytes of own memory, and the value widened by f; none where the word is uncorrectable (R131). -/
def State.readOwn (s : State) (c : CoreId) (a n : Nat) : Option (State × Nat) :=
  let k := s.core c
  if k.isDouble a then none
  else some (if k.isSingle a then s.onCore c (fun k => k.countCorr a) else s, k.leValue a n)

/-- A load that raises no fault waits for the flash operation that keeps its slot busy (R170, R176; log entry 72). -/
def State.loadWaits (s : State) (i : Issue) (ra : Reg) (off : BitVec 18) (n : Nat) : Bool :=
  let c := i.core
  let pc := (s.core c).pc.toNat
  let a := s.effective c ra off
  i.zero && (fetchCause c pc).isNone && !(s.core c).isDouble pc && !misaligned a n && !s.belowLimit c ra a &&
    s.flashStall c a.toNat

/-- A load of n bytes (R125 to R131, R478); wide extends the value to a word. -/
def State.load (s : State) (i : Issue) (rd ra : Reg) (off : BitVec 18) (n : Nat) (wide : Nat → Word) : State :=
  if s.loadWaits i ra off n then s
  else s.issue i [ra] (fun s =>
    let c := i.core
    let a := s.effective c ra off
    if misaligned a n then s.fault c faultAlign a
    else if s.belowLimit c ra a then s.fault c faultStack a
    else if inFlash c a.toNat || inSram c a.toNat then
      match s.readOwn c a.toNat n with
      | none => s.memEcc c a
      | some (t, v) =>
        let t := (t.setReg c rd (wide v)).retire c (loadCycles c a.toNat)
        if sramBase ≤ a.toNat then t.onCore c (fun k => { k with lastLoad := some rd }) else t
    else
      match s.busLoad c a.toNat with
      | (t, .ok v) => ((t.waitReply c).setReg c rd v).retireLive c 0
      | (t, .error cause) => (t.waitRefuse c cause).refuse c a cause 0)

/-- Store n bytes into own SRAM: a word takes fresh check bits; less is merged into the word that stands (R131). -/
def State.writeOwn (s : State) (c : CoreId) (a n : Nat) (v : Word) : State :=
  let bytes := (octetsOfWord v).take n
  s.onCore c (fun k => (k.setBytes a bytes).freshEcc a)

/-- A store of n bytes (R125 to R131, R478). -/
def State.store (s : State) (i : Issue) (rs ra : Reg) (off : BitVec 18) (n : Nat) : State :=
  s.issue i [rs, ra] (fun s =>
    let c := i.core
    let a := s.effective c ra off
    let v := s.reg c rs
    if misaligned a n then s.fault c faultAlign a
    else if s.belowLimit c ra a then s.fault c faultStack a
    else if inSram c a.toNat then
      if n = 4 then (s.writeOwn c a.toNat n v).retire c 1
      else match s.readOwn c a.toNat n with
        | none => s.memEcc c a
        | some (t, _) => (t.writeOwn c a.toNat n v).retire c 1
    else if inFlash c a.toNat then s.refuse c a causeRdonly 1
    else
      match s.busStore c a.toNat v with
      | (t, none) => if decide ((t.core c).run = .running) then (t.waitReply c).retire c 0 else t
      | (t, some cause) => (t.waitRefuse c cause).refuse c a cause 1)

/-- `ldw` (R117). -/
def execLdw (i : Issue) (rd ra : Reg) (off : BitVec 18) (s : State) : Out :=
  .next (s.load i rd ra off 4 (fun v => BitVec.ofNat 32 v))

/-- `ldh` (R117). -/
def execLdh (i : Issue) (rd ra : Reg) (off : BitVec 18) (s : State) : Out :=
  .next (s.load i rd ra off 2 (fun v => BitVec.ofNat 32 v))

/-- `ldhs` (R117). -/
def execLdhs (i : Issue) (rd ra : Reg) (off : BitVec 18) (s : State) : Out :=
  .next (s.load i rd ra off 2 (fun v => (BitVec.ofNat 16 v).signExtend 32))

/-- `ldb` (R117). -/
def execLdb (i : Issue) (rd ra : Reg) (off : BitVec 18) (s : State) : Out :=
  .next (s.load i rd ra off 1 (fun v => BitVec.ofNat 32 v))

/-- `ldbs` (R117). -/
def execLdbs (i : Issue) (rd ra : Reg) (off : BitVec 18) (s : State) : Out :=
  .next (s.load i rd ra off 1 (fun v => (BitVec.ofNat 8 v).signExtend 32))

/-- `stw` (R117). -/
def execStw (i : Issue) (rs ra : Reg) (off : BitVec 18) (s : State) : Out := .next (s.store i rs ra off 4)

/-- `sth` (R117). -/
def execSth (i : Issue) (rs ra : Reg) (off : BitVec 18) (s : State) : Out := .next (s.store i rs ra off 2)

/-- `stb` (R117). -/
def execStb (i : Issue) (rs ra : Reg) (off : BitVec 18) (s : State) : Out := .next (s.store i rs ra off 1)

/-! ### push and pop (R129) -/

/-- The registers that a mask names, lowest first. -/
def maskRegs (mask : BitVec 16) : List Reg := ((List.range 16).filter (fun k => mask.getLsbD k)).map (BitVec.ofNat 4)

/-- The addresses of a stack range of n words. -/
def rangeWords (a n : Nat) : List Nat := (List.range n).map (fun j => (a + 4 * j) % 2 ^ 32)

/-- The first word of a stack range that leaves own SRAM. -/
def rangeOutside (c : CoreId) (a n : Nat) : Option Nat := (rangeWords a n).find? (fun x => !inSram c x)

/-- The checks of push and pop over a range of n words, first to last: ALIGN, STACK, then REFUSED as UNMAPPED, which is
not logged (R129, R478). -/
def State.stackFault (s : State) (c : CoreId) (a : Word) (n : Nat) (kind : Nat) : Option State :=
  if a.toNat % 4 ≠ 0 then some (s.fault c faultAlign a)
  else match (rangeWords a.toNat n).find? (fun x => decide (x < (s.core c).splim.toNat)), rangeOutside c a.toNat n with
    | some x, _ => some (s.fault c faultStack (BitVec.ofNat 32 x))
    | none, some x => some (s.refuse c (BitVec.ofNat 32 x) causeUnmapped kind)
    | none, none => none

/-- Store registers at rising addresses. -/
def State.pushRegs (s : State) (c : CoreId) (a : Nat) : List Reg → State
  | [] => s
  | r :: rest => (s.writeOwn c a 4 (s.reg c r)).pushRegs c (a + 4) rest

/-- `push` (R129). The mask's bits 0 and 15 must be 0. -/
def execPush (i : Issue) (mask : BitVec 16) (s : State) : Out :=
  .next (s.issue i (15 :: maskRegs mask) (fun s =>
    let c := i.core
    if mask.getLsbD 0 || mask.getLsbD 15 then s.fault c faultIllegal 0
    else
      let l := maskRegs mask
      let a := s.reg c 15 - BitVec.ofNat 32 (4 * l.length)
      match s.stackFault c a l.length 1 with
      | some t => t
      | none => ((s.pushRegs c a.toNat l).setReg c 15 a).retire c (1 + l.length)))

/-- The first damaged word of a stack range (R131). -/
def State.damaged (s : State) (c : CoreId) (a n : Nat) : Option Nat :=
  ((List.range n).map (fun j => a + 4 * j)).find? (fun x => (s.core c).isDouble x)

/-- Load registers from rising addresses, corrected words counted. -/
def State.popRegs (s : State) (c : CoreId) (a : Nat) : List Reg → State
  | [] => s
  | r :: rest =>
    let k := s.core c
    let s := if k.isSingle a then s.onCore c (fun k => k.countCorr a) else s
    (s.setReg c r (k.word a)).popRegs c (a + 4) rest

/-- `pop` (R129). A damaged word of the range raises MEMECC before any register is written (R138). -/
def execPop (i : Issue) (mask : BitVec 16) (s : State) : Out :=
  .next (s.issue i [15] (fun s =>
    let c := i.core
    if mask.getLsbD 0 || mask.getLsbD 15 then s.fault c faultIllegal 0
    else
      let l := maskRegs mask
      let a := s.reg c 15
      match s.stackFault c a l.length 0 with
      | some t => t
      | none =>
        match s.damaged c a.toNat l.length with
        | some x => s.memEcc c (BitVec.ofNat 32 x)
        | none => ((s.popRegs c a.toNat l).setReg c 15 (a + BitVec.ofNat 32 (4 * l.length))).retire c (1 + l.length)))

end Sys2Proof.Machine
end

