-- ==== Sys2Proof/Machine/DeviceInstr.lean ====
section
/-! DEFINITION. The device instructions of the Prolu core (R147 to R169, R479, R481). -/
namespace Sys2Proof.Machine

/-! ### What they share -/

/-- A request of a core that is refused, after the wait that it makes (R38, R39, R127). -/
def State.refuseRequest (s : State) (c : CoreId) (addr cause kind : Nat) : State :=
  (s.waitRefuse c cause).refuse c (BitVec.ofNat 32 addr) cause kind

/-- A request toward an island; DARK while its strait does not take it (R32, R39). -/
def State.toIsland (s : State) (c : CoreId) (island : Island) (addr : Nat) (kind : Nat) (body : State → State) : State :=
  if s.dark c island then s.refuseRequest c addr causeDark kind else body s

/-- A request that ends with TIMEOUT where the island leaves it without a reply (R39, R169). -/
def State.toReplying (s : State) (c : CoreId) (island : Island) (addr : Nat) (kind : Nat) (body : State → State) : State :=
  s.toIsland c island addr kind (fun s =>
    if s.silent island then s.refuseRequest c addr causeTimeout kind else body s)

/-- A device instruction that the choir core alone may issue (R147, R148). -/
def State.choirOnly (s : State) (c : CoreId) (opcode : Nat) (body : State → State) : State :=
  if c = .nave then s.forbid c opcode else body s

/-- Write a result and retire after the wait of a device instruction: at least a register access's, at most some ns (R169). Where
the most is a time with the target's clock running, the caller adds the wake time of R14. -/
def State.deviceDone (s : State) (c : CoreId) (rd : Reg) (v : Word) (most : Nat) : State :=
  ((s.waitFor c (match c with | .choir => 2 | .nave => 3) (cyclesOf c most)).setReg c rd v).retire c 0

/-- An SRAM operand of n bytes lies word-aligned and wholly in own SRAM (R149). -/
def sramOperand (c : CoreId) (a : Word) (n : Nat) : Bool :=
  decide (a.toNat % 4 = 0) && decide (sramBase ≤ a.toNat ∧ a.toNat + n ≤ sramBase + sramSize c)

/-! ### Shots (R151, R152) -/

/-- The lead isle of a descriptor: the one that holds port A (R181). -/
def State.leadIsle (s : State) (m : Nat) : Nat := s.fld (ISLE0.PDCTL_PORTA m) / 8

/-- Put a command word on the strait to the lead isle. -/
def State.fire (s : State) (x : ShotCmd) : State :=
  s.send .choirCore (isleIsland (s.leadIsle x.pd)) tagWdata (cmdWord x)

/-- The body of shot and shot2. -/
def State.shot (s : State) (i : Issue) (ra : Reg) (seq : BitVec 8) (dir pair : Bool) (opcode : Nat) : State :=
  s.issue i [ra] (fun s => s.choirOnly i.core opcode (fun s =>
    (s.fire ⟨bitsOf (s.reg i.core ra) 6 0, seq.toNat, dir, pair⟩).retire i.core 1))

/-- `shot` (R151, R152). -/
def execShot (i : Issue) (ra : Reg) (seq : BitVec 8) (dir : Bool) (s : State) : Out := .next (s.shot i ra seq dir false 0x20)

/-- `shot2` (R151, R152). -/
def execShot2 (i : Issue) (ra : Reg) (seq : BitVec 8) (dir : Bool) (s : State) : Out := .next (s.shot i ra seq dir true 0x21)

/-! ### Queues (R155 to R157, R479) -/

/-- A QSEL of a core that the queue manager refuses: the strait selects no queue afterwards, and the QWORD of a qput that
follows on it is discarded and counted (R79, R80). -/
def State.coreDeselects (s : State) (c : CoreId) (put : Bool) : State :=
  let s := s.select (coreIsland c) 256
  if put then s.bump QUE.ORPHAN_BADSEL 1 else s

/-- A queue instruction (R79, R80, R155 to R157): a QSEL, then a QWORD or an RADDR, on the core's strait into the queue island.
The screen ranks before the strait (R40). kind is 1 for qput. -/
def State.queueRequest (s : State) (c : CoreId) (n : Nat) (allowed : Bool) (kind : Nat) (body : State → State) : State :=
  if allowed then s.toReplying c .queue (QUE.DESC n) kind (fun s => body (s.select (coreIsland c) n))
  else if s.dark c .queue then s.refuse c (BitVec.ofNat 32 (QUE.DESC n)) causeScreen kind
  else (s.coreDeselects c (kind == 1)).refuseRequest c (QUE.DESC n) causeScreen kind

/-- Write a queue word and its tag (R114, R155). -/
def State.queueReply (s : State) (c : CoreId) (rd : Reg) (w : Word) : State :=
  (s.onCore c (fun k => { k with psr := putQt k.psr (bitsOf w 31 28) })).deviceDone c rd w 4000

/-- `qget` (R87, R90, R155). -/
def execQget (i : Issue) (rd ra : Reg) (s : State) : Out :=
  .next (s.issue i [ra] (fun s =>
    let c := i.core
    let n := bitsOf (s.reg c ra) 7 0
    s.queueRequest c n (queueReader c n) 0 (fun s =>
      let r := s.takeWord n
      r.1.queueReply c rd r.2)))

/-- The word that qput offers: the payload, with E and P of PSR.QT (R157). -/
def putWord (payload : Word) (qt : Nat) : Word :=
  (payload &&& 0x0FFFFFFF) ||| (if bitAt qt 2 then bitE else 0) ||| (if bitAt qt 0 then bitP else 0)

/-- `qput` (R92, R98, R105, R157). -/
def execQput (i : Issue) (rd ra rb : Reg) (s : State) : Out :=
  .next (s.issue i [ra, rb] (fun s =>
    let c := i.core
    let n := bitsOf (s.reg c ra) 7 0
    s.queueRequest c n (queueWriter c n) 1 (fun s =>
      let r := s.offer n (some (coreIsland c)) (putWord (s.reg c rb) (qtOf (s.core c).psr))
      r.1.deviceDone c rd (BitVec.ofNat 32 r.2) 4000)))

/-- `qpeek` (R156). -/
def execQpeek (i : Issue) (rd ra rb : Reg) (s : State) : Out :=
  .next (s.issue i [ra, rb] (fun s =>
    let c := i.core
    let n := bitsOf (s.reg c ra) 7 0
    s.queueRequest c n (queueReader c n) 0 (fun s =>
      let r := s.peekWord n (bitsOf (s.reg c rb) 19 0)
      r.1.queueReply c rd r.2)))

/-! ### Weights and evaluations (R158 to R161, R481) -/

/-- Whether a bank's holder is this core itself (R158). -/
def State.holdsBank (s : State) (c : CoreId) (b : Nat) : Bool :=
  s.fld (CIM.LEASE_HOLDER b) == (match c with | .choir => 1 | .nave => 3)

/-- What a bank answers a core that does not hold it: HOLDER where isles hold it, else the refusal LEASE (R37, R158). -/
def State.bankDenies (s : State) (c : CoreId) (b opcode addr kind : Nat) : State :=
  if s.fld (CIM.LEASE_HOLDER b) = 2 then s.devFault c opcode 0x03
  else s.refuseRequest c addr causeLease kind

/-- Count the corrected words among n words from an address on (R131). -/
def State.countCorrected (s : State) (c : CoreId) (a n : Nat) : State :=
  s.each (rangeWords a n) (fun s x => if (s.core c).isSingle x then s.onCore c (fun k => k.countCorr x) else s)

/-- Copy rows from own SRAM into a tile; a damaged word ends the copy at its row with MEMECC (R160, R481). -/
def State.copyRows (s : State) (c : CoreId) (a key : Nat) : Nat → State × Option Nat
  | 0 => (s, none)
  | n + 1 =>
    let s := s.countCorrected c a 8
    match s.damaged c a 8 with
    | some x => (s, some x)
    | none =>
      (s.loadRow key (BitVec.ofNat 256 ((s.core c).leValue a 32))).copyRows c (a + 32) (key + 1) n

/-- The address of a weight row in the window (R33). -/
def windowAddr (tile row : Nat) : Nat := 0x60000000 + 0x10000 * (tile / 8) + 0x2000 * (tile % 8) + 32 * row

/-- `cimld` (R147, R149, R158, R160, R481). -/
def execCimld (i : Issue) (rd ra rb : Reg) (s : State) : Out :=
  .next (s.issue i [ra, rb] (fun s =>
    let c := i.core
    let d := s.reg c rb
    let tile := bitsOf d 4 0
    let row := bitsOf d 12 5
    let count := bitsOf d 21 13
    let b := tile / 8
    let src := s.reg c ra
    if c = .nave ∧ s.bankCore b = some .choir then s.forbid c 0x25
    else if count = 0 ∨ 256 < count ∨ 256 < row + count then s.devFault c 0x25 0x02
    else if !sramOperand c src (32 * count) then s.devFault c 0x25 0x05
    else s.toIsland c (bankIsland b) (windowAddr tile row) 1 (fun s =>
      if s.holdsBank c b then
        let r := s.copyRows c src.toNat (rowKey tile row) count
        match r.2 with
        | some x => r.1.memEcc c (BitVec.ofNat 32 x)
        | none => r.1.deviceDone c rd statusDone (2700 + 160 * count)
      else s.bankDenies c b 0x25 (windowAddr tile row) 1)))

/-- `cimev` (R149, R158, R161, R481). -/
def execCimev (i : Issue) (rd ra rb : Reg) (s : State) : Out :=
  .next (s.issue i [ra, rb] (fun s =>
    let c := i.core
    let d := s.reg c rb
    let b := bitsOf d 1 0
    let mask := bitsOf d 9 2
    let td := bitsOf d 10 10 == 1
    let src := s.reg c ra
    if mask = 0 then s.devFault c 0x26 0x04
    else if !sramOperand c src 32 then s.devFault c 0x26 0x05
    else
      let s := s.countCorrected c src.toNat 8
      match s.damaged c src.toNat 8 with
      | some x => s.memEcc c (BitVec.ofNat 32 x)
      | none => s.toIsland c (bankIsland b) (CIM.LEASE b) 0 (fun s =>
        if s.holdsBank c b then
          let inputs := (List.range 8).map (fun j => (s.core c).word (src.toNat + 4 * j))
          let r := s.cimev b mask td inputs
          r.1.deviceDone c rd r.2 (if td then 2500 else 7000)
        else s.bankDenies c b 0x26 (CIM.LEASE b) 0)))

/-- The body of lease. -/
def State.lease (s : State) (i : Issue) (rd ra rb : Reg) (f : State → CoreId → Nat → Nat → State × Word) : State :=
  s.issue i [ra, rb] (fun s =>
    let c := i.core
    let b := bitsOf (s.reg c ra) 1 0
    s.toReplying c (bankIsland b) (CIM.LEASE b) 1 (fun s =>
      let r := f s c b (bitsOf (s.reg c rb) 3 0)
      r.1.deviceDone c rd r.2 4000))

/-- `lease` TAKE (R159, R238). -/
def execLeaseTake (i : Issue) (rd ra rb : Reg) (s : State) : Out := .next (s.lease i rd ra rb (fun s c b _ => s.leaseTake c b))

/-- `lease` GIVE (R159, R238). -/
def execLeaseGive (i : Issue) (rd ra rb : Reg) (s : State) : Out := .next (s.lease i rd ra rb (fun s c b n => s.leaseGive c b n))

/-- `lease` RELEASE (R159, R238). -/
def execLeaseRelease (i : Issue) (rd ra rb : Reg) (s : State) : Out :=
  .next (s.lease i rd ra rb (fun s c b _ => s.leaseRelease c b))

/-! ### Tallies and the ledger (R162 to R165, R293) -/

/-- Write 64-bit values into own SRAM, little-endian (R163). -/
def State.writeValues (s : State) (c : CoreId) (a : Nat) : List Nat → State
  | [] => s
  | v :: rest =>
    let s := (s.writeOwn c a 4 (BitVec.ofNat 32 v)).writeOwn c (a + 4) 4 (BitVec.ofNat 32 (v / 2 ^ 32))
    s.writeValues c (a + 8) rest

/-- The body of tally: the numbers it names (none for BADNUM), and what it reads of them. -/
def State.tallyRequest (s : State) (i : Issue) (rd ra rb : Reg) (names : Nat → Option (List Nat))
    (f : State → List Nat → State × List Nat) (most : Nat) : State :=
  s.issue i [ra, rb] (fun s => s.choirOnly i.core 0x28 (fun s =>
    let c := i.core
    let a := s.reg c rb
    match names (s.reg c ra).toNat with
    | none => s.devFault c 0x28 0x01
    | some l =>
      if !sramOperand c a (8 * l.length) then s.devFault c 0x28 0x05
      else s.toReplying c .quantity QTY.CTL 0 (fun s =>
        let r := f s l
        (r.1.writeValues c a.toNat r.2).deviceDone c rd statusDone most)))

/-- A tally by number (R293). -/
def tallyNumber (n : Nat) : Option (List Nat) := if n < 412 then some [n] else none

/-- A tally with a legal index (R293). -/
def indexNumber (n : Nat) : Option (List Nat) := if n < 392 then some [n] else none

/-- The twelve tallies of conduit ra[4:0] (R162, R163). -/
def conduitNumbers (n : Nat) : Option (List Nat) := some (natsFrom (12 * (n % 32)) 12)

/-- Legal indices; nothing is reset. -/
def State.readIndices (s : State) (l : List Nat) : State × List Nat := (s, l.map s.index)

/-- `tally` READ (R162). -/
def execTallyRead (i : Issue) (rd ra rb : Reg) (s : State) : Out :=
  .next (s.tallyRequest i rd ra rb tallyNumber State.readTallies 4000)

/-- `tally` INDEX (R162). -/
def execTallyIndex (i : Issue) (rd ra rb : Reg) (s : State) : Out :=
  .next (s.tallyRequest i rd ra rb indexNumber State.readIndices 4000)

/-- `tally` CONDUIT (R162 to R164). -/
def execTallyConduit (i : Issue) (rd ra rb : Reg) (s : State) : Out :=
  .next (s.tallyRequest i rd ra rb conduitNumbers State.readTallies 1700)

/-- `tally` CONDIX (R162, R163). -/
def execTallyCondix (i : Issue) (rd ra rb : Reg) (s : State) : Out :=
  .next (s.tallyRequest i rd ra rb conduitNumbers State.readIndices 1700)

/-- `ledg` COMMIT (R165, R300). -/
def execLedgCommit (i : Issue) (rd : Reg) (s : State) : Out :=
  .next (s.issue i [] (fun s => s.choirOnly i.core 0x29 (fun s => s.toReplying i.core .ledger LEDG.CFG 1 (fun s =>
    let st := if s.qty.commit.isSome then statusDeferred else statusDone
    (s.startCommit 1).deviceDone i.core rd st 4000))))

/-- `ledg` LOG (R165, R352). -/
def execLedgLog (i : Issue) (rd ra rb : Reg) (s : State) : Out :=
  .next (s.issue i [ra, rb] (fun s => s.choirOnly i.core 0x29 (fun s => s.toReplying i.core .ledger LEDG.CFG 1 (fun s =>
    (s.logEvent logProgram (s.reg i.core ra &&& 0xFFFF) (s.reg i.core rb)).deviceDone i.core rd statusDone 4000))))

/-! ### Time, mirrors and the mailbox (R166 to R168) -/

/-- Whether two destinations name one register other than w0 (R149). -/
def sameReg (rd ra : Reg) : Bool := decide (rd = ra) && decide (rd ≠ 0)

/-- `ldtm` SPLIT (R166): TIME_SEC and TIME_SUB of one moment. -/
def execLdtmSplit (i : Issue) (rd ra : Reg) (s : State) : Out :=
  .next (s.issue i [] (fun s =>
    let c := i.core
    if sameReg rd ra then s.devFault c 0x2A 0x06
    else s.toReplying c .crypt CRYPT.TIME_SUB 0 (fun s =>
      (s.setReg c ra (BitVec.ofNat 32 s.timeSub)).deviceDone c rd s.timeSec 4000)))

/-- `ldtm` TICKS (R166). -/
def execLdtmTicks (i : Issue) (rd : Reg) (s : State) : Out :=
  .next (s.issue i [] (fun s => s.toReplying i.core .crypt CRYPT.TICKS 0 (fun s =>
    s.deviceDone i.core rd (BitVec.ofNat 32 s.crypt.ticks.toNat) 4000)))

/-- The mirror takes a fresh notice of a unit; a unit of an OFF domain is answered for by the crypt (R167, R459). -/
def State.usync (s : State) (u : Nat) : State × Word :=
  let dark := s.dom (unitDomain u) == 0
  let stale := s.flag (SYS.UNITSTATE_STALE u)
  let st := if dark then 0 else s.life u
  let ep := if dark then s.fld (SYS.UNITSTATE_EPOCH u) else s.epoch u
  let t := ((s.setFld (SYS.UNITSTATE_STATE u) st).setFld (SYS.UNITSTATE_EPOCH u) ep).setFlag (SYS.UNITSTATE_STALE u) false
  (t, BitVec.ofNat 32 (u + 2 ^ 8 * st + 2 ^ 10 * ep + 2 ^ 18 * natOfBool stale + 2 ^ 19 * natOfBool dark))

/-- `usync` (R167). -/
def execUsync (i : Issue) (rd ra : Reg) (s : State) : Out :=
  .next (s.issue i [ra] (fun s =>
    let c := i.core
    let u := bitsOf (s.reg c ra) 7 0
    if 67 ≤ u then s.devFault c 0x2B 0x01
    else s.toReplying c .crypt (SYS.UNITSTATE u) 1 (fun s =>
      let r := s.usync u
      r.1.deviceDone c rd r.2 4000)))

/-- Base of a core's side of ROOD. -/
def roodBase : CoreId → Nat
  | .choir => 0x40060000
  | .nave => 0x40068000

/-- `rood` POST (R168, R333). -/
def execRoodPost (i : Issue) (rd ra rb : Reg) (s : State) : Out :=
  .next (s.issue i [ra, rb] (fun s =>
    let c := i.core
    s.toReplying c .queue (roodBase c) 1 (fun s =>
      let cmd := s.reg c ra
      let arg := s.reg c rb
      let r := match c with | .nave => s.navePost cmd arg | .choir => s.choirPost cmd arg
      r.1.deviceDone c rd (BitVec.ofNat 32 r.2) 4000)))

/-- `rood` TAKE (R168). -/
def execRoodTake (i : Issue) (rd ra : Reg) (s : State) : Out :=
  .next (s.issue i [] (fun s =>
    let c := i.core
    if sameReg rd ra then s.devFault c 0x2C 0x06
    else s.toReplying c .queue (roodBase c) 0 (fun s =>
      let r := s.mailTake c
      (r.1.setReg c ra r.2.2).deviceDone c rd r.2.1 4000)))

end Sys2Proof.Machine
end

