-- ==== Sys2Proof/Machine/Startup.lean ====
section
/-! DEFINITION. Power-up and configuration, core boot and the service loader, the lifecycle of units, resets, standby, and
the debug and SPI masters (R36, R173, R174, R336, R343, R350, R357, R447, R455 to R468). -/
namespace Sys2Proof.Machine

/-! ### Configuration (R463, R464) -/

/-- The address under which Regs.lean holds a register: the common shot registers stand in every ISLE window. -/
def canonAddr (a : Nat) : Nat :=
  if 0x40020000 ≤ a ∧ a < 0x40030000 ∧ 0x700 ≤ a % 0x1000 then 0x40020000 + a % 0x1000 else a

/-- A value with only the bits of RW and SL fields. -/
def settable (r : RegSpec) (val : Word) : Word :=
  r.fields.foldl (fun (acc : Word) f =>
    if f.acc = .rw ∨ f.acc = .sl then bitsPut acc f.hi f.lo (bitsOf val f.hi f.lo) else acc) 0

/-- A store of a register with SL fields, as if the seal were open and without an entry (R463). -/
def State.storeUnsealed (s : State) (a : Nat) (val : Word) (r : Region) : State :=
  let t := { s.setFld SACR.SEAL_STATE 0 with log := [] }
  let t := t.storeAt .choir a val [] r
  { t.setFld SACR.SEAL_STATE (s.fld SACR.SEAL_STATE) with log := s.log }

/-- One entry: stored, or skipped and counted; an address below the register regions is the program's own data. -/
def State.configEntry (s : State) (a : Nat) (val : Word) : State :=
  if a < 0x40000000 then s
  else
    let skip := s.bump SYS.STATUS_CFGSKIP 1
    match regFind (canonAddr a), s.reach .choir a true, regionOf a with
    | some (r, _), none, some g =>
      if r.fields.any (fun f => decide (f.acc = .rw ∨ f.acc = .sl)) then
        if hasSl r then s.storeUnsealed a (settable r val) g else s.storeAt .choir a (settable r val) [] g
      else skip
    | _, _, _ => skip

/-- Apply a copy (R462, R463). -/
def State.applyCopy (s : State) (b : Bool) : State :=
  let base := if b then 0x2000 else 0
  s.each (List.range (min (s.configWord (base + 8)).toNat 1021)) (fun s i =>
    s.configEntry (s.configWord (base + 16 + 8 * i)).toNat (s.configWord (base + 20 + 8 * i)))

/-- The configuration at a choir domain power-up. -/
def State.configure (s : State) : State :=
  let a := s.copyValid false
  let b := s.copyValid true
  if !a && !b then (s.setFlag SYS.STATUS_CFG_DEFAULT true).logEvent logCfgDefault 0 0
  else
    let useB := b && (!a || decide (s.configWord 4 < s.configWord 0x2004))
    ((s.setFlag SYS.STATUS_CFGCOPY useB).setFlag SYS.STATUS_CFGONE (a != b)).applyCopy useB

/-! ### The rise of domains (R18, R20, R461) -/

/-- A domain reaches ON: inbound straits OPEN, mirror entries and epochs of its units at reset (R20, R459, R472). -/
def State.domainOn (s : State) (d : Domain) : State :=
  let s := (s.setDom d 2).setInbound d .isOpen
  s.each (domainUnits d) (fun s u => (s.putReg (SYS.UNITSTATE u) (regReset (SYS.UNITSTATE u))).setEpoch u 0)

/-- The core of a domain that has risen: its boot checks start (R456, R461). -/
def State.coreRises (s : State) (c : CoreId) : State :=
  (((s.coreLost c).setFld (causeField c) 0)).setRun c .booting

/-- The choir domain has risen (R108, R302, R336, R342, R354, R463). XHFREQ.CHOIR, if it is still set, starts XHF (R429). -/
def State.choirRisen (s : State) : State :=
  let after := s.crypt.afterCryptReset
  let s := (s.flushHeldLog).configure
  let s := (s.ledgerRestore after).onCrypt (fun k => { k with afterCryptReset := false })
  let s := s.tamperReport
  let s := if s.sacr.mailCmd.isSome then s.raiseEvent .queue .choir 4 else s
  ((s.coreRises .choir).setFlag CRYPT.CLKSTAT_HCHOIR false).xhfSync

/-- The nave domain has risen (R323, R421, R426). -/
def State.naveRisen (s : State) : State := ((s.outRestore).belfryRisen).coreRises .nave

/-- A power-down latched while RISING applies now (R20). -/
def State.latchedDown (s : State) (c : CoreId) : State :=
  match c with
  | .choir => if s.crypt.choirDown then (s.onCrypt (fun k => { k with choirDown := false })).fallStart .choir else s
  | .nave => if s.crypt.naveDown then (s.onCrypt (fun k => { k with naveDown := false })).fallStart .nave else s

/-- Every domain that is RISING reaches ON, the shared islands with the first of them. -/
def State.domainsRise (s : State) : State :=
  let choir := s.dom .choir == 1
  let nave := s.dom .nave == 1
  if !choir && !nave then s
  else
    let s := if s.dom .shared = 3 then s.powerOff .shared else s
    let s := if s.dom .shared = 2 then s else (s.domainOn .shared).queuesOn
    let s := if choir then s.domainOn .choir else s
    let s := if nave then s.domainOn .nave else s
    let s := if choir then s.choirRisen else s
    let s := if nave then s.naveRisen else s
    let s := if s.domOn .choir && s.domOn .nave then s.feedReopen else s
    (s.latchedDown .choir).latchedDown .nave

/-- DOMAIN_POWER_UP (R59, R461): after a crypt reset the domains wait for VMAIN at or above MAINOK; where they are ON
already and the start is not complete (State.reset), its later steps follow. -/
def execDomainPowerUp (vmain : Nat) (s : State) : Out :=
  .next (if s.domOn .crypt then
    let s := s.supplies vmain s.crypt.vbak
    if s.crypt.nrst ∨ s.path = 2 then s
    else if s.crypt.afterCryptReset ∧ s.dom .choir = 0 then
      if s.mainOkLevel ≤ vmain then
        ((if s.path = 0 then s else s.toMain).startDomains 0 0).domainsRise
      else s
    else if s.crypt.afterCryptReset ∧ s.domOn .choir then
      let s := s.choirRisen
      if s.domOn .nave then s.naveRisen else s
    else s.domainsRise
  else s)

/-! ### Boot (R173, R174, R350) -/

/-- The software identification at a choir boot (R350). -/
def State.identify (s : State) (b : Bool) : State :=
  let code := (s.core .choir).bytes (slotBase .choir b + 0x100) (s.codeLength .choir b)
  let hash := sha256 code
  let crc := crc16 code
  let s := (s.setFld SACR.SWCRC_CRC crc).setFld SACR.SWCRC_DECL (s.header .choir b 0x1C)
  let s := (List.range 8).foldl (fun s j => s.putReg (SACR.SWHASH j) ((wordsOfOctets hash).getD j 0)) s
  let s := match s.sacr.lastHash with
    | some (h, old) => if h = hash then s else s.logEvent logSwidChange (BitVec.ofNat 32 crc) (BitVec.ofNat 32 old)
    | none => s
  s.onSacr (fun x => { x with lastHash := some (hash, crc), eraseLogged := false })

/-- The boot of a valid slot (R173). -/
def State.bootSlot (s : State) (c : CoreId) (b : Bool) : State :=
  let i := BitVec.ofNat 32 (coreNum c)
  let base := slotBase c b
  let pc := base + s.header c b 0x10
  let fv := base + s.header c b 0x14
  let seq := s.header c b 8
  let other := s.header c (!b) 8
  let s := (s.setFlag (SYS.IMGCTL_SLOT (coreNum c)) b).onCore c (fun k =>
    { k with pc := BitVec.ofNat 32 pc, fvec := BitVec.ofNat 32 fv })
  let s := match c with | .choir => s.identify b | .nave => s
  let s := if s.header c (!b) 0 = imageMagic c ∧ seq < other then s.logEvent logBootFallback i (BitVec.ofNat 32 other) else s
  (s.logEvent logBoot (i + BitVec.ofNat 32 (256 * natOfBool b)) (BitVec.ofNat 32 seq)).setRun c .running

/-- CORE_BOOT (R173, R174): the boot ROM of a core that has been reset. -/
def execCoreBoot (c : CoreId) (s : State) : Out :=
  .next (if s.domOn (coreDomain c) ∧ ((s.core c).run = .off ∨ (s.core c).run = .booting) then
    let s := s.setRun c .booting
    let a := s.slotValid c false
    let b := s.slotValid c true
    let s := (s.setFlag (SYS.IMGCTL_VALIDA (coreNum c)) a).setFlag (SYS.IMGCTL_VALIDB (coreNum c)) b
    if !a && !b then (s.logEvent logBootNoimage (BitVec.ofNat 32 (coreNum c)) 0).setRun c .loader
    else s.bootSlot c (b && (!a || decide (s.header c false 8 < s.header c true 8)))
  else s)

/-- SERVICE_LOADER_FRAME (R75, R357): while the service pads are powered, a double word of the core's inactive slot, or a verify key while UNSEALED. -/
def execServiceLoaderFrame (c : CoreId) (f : LoaderFrame) (s : State) : Out :=
  .next (if s.pathMain ∧ s.domOn (coreDomain c) ∧ (s.core c).run = .loader then
    match f with
    | .image addr lo hi =>
      let base := slotBase c (!s.flag (SYS.IMGCTL_SLOT (coreNum c)))
      if addr.toNat % 8 = 0 ∧ base ≤ addr.toNat ∧ addr.toNat < base + slotSize c then
        let s := s.flashPut (.core c) addr.toNat (octetsOfWord lo ++ octetsOfWord hi)
        if c = .choir then s.onSacr (fun x => { x with slotWritten := true }) else s
      else s
    | .verifyKey key x y =>
      if s.fld SACR.SEAL_STATE = 0 ∧ bitAt (s.fld SACR.KEYMAP_VKSET) key.val = false then s.programVk key.val x y else s
  else s)

/-! ### Units (R456, R457) -/

/-- A unit that has reached ON follows its enable: EN = 0 makes it fall at once. -/
def State.risenFollows (s : State) (u : Nat) : State :=
  match unitEnFld u with
  | some f => s.enableActs u (s.flag f)
  | none => s

/-- UNIT_RISE_DONE (R456): the unit reads ON; what its own chapter says happens then. A tile waits for its bank (R242). -/
def execUnitRiseDone (u : Fin 67) (s : State) : Out :=
  let n := u.val
  .next (
    if s.life n ≠ 1 ∨ n < 2 ∨ !s.domOn (unitDomain n) then s
    else if n < 18 then ((s.setLife n 2).isleRisen (n - 2)).isleFollow (n - 2)
    else if n < 22 then (((s.setLife n 2).bankRisen (n - 18)).risenFollows n).bankFalls (n - 18)
    else if n < 54 then
      if s.life (unitBank ((n - 22) / 8)) = 2 then ((s.setLife n 2).tileRisen (n - 22)).risenFollows n else s
    else if n = 54 then (s.setLife n 2).risenFollows n
    else if n < 57 then ((s.portRisen (n - 55)).risenFollows n).xhfSync
    else if n < 65 then (s.setLife n 2).risenFollows n
    else ((s.setLife n 2).loopRisen (n - 65)).risenFollows n)

/-- UNIT_FALL_DONE (R456): a unit that has done its part reads OFF; a latched enable starts its rise. -/
def execUnitFallDone (u : Fin 67) (s : State) : Out :=
  let n := u.val
  .next (
    if s.life n ≠ 3 ∨ n < 2 then s
    else if n < 18 then (if s.isleIdle (n - 2) then (s.unitOff n).isleRun (n - 2) else s)
    else if n < 22 then (if s.bankIdle (n - 18) then s.unitOff n else s)
    else if n < 54 then (if s.tileBusy (n - 22) then s else (s.tileLost (n - 22)).unitOff n)
    else if n = 54 then s.unitOff n
    else if n < 57 then s.portFallen (n - 55)
    else s.unitOff n)

/-! ### Resets and standby (R447, R455, R466, R467) -/

/-- NRST_RESET (R448, R466): a wake from standby, or the domains unpowered until NRST is high again. -/
def execNrstReset (s : State) : Out :=
  let s := s.onCrypt (fun k => { k with nrst := true })
  .next (if !s.domOn .crypt then s else if s.crypt.standby then s.wakeUp 0 else if s.path = 2 ∨ (s.crypt.afterCryptReset ∧ s.dom .choir = 0) then s else s.takeAllDown)

/-- NRST_RELEASE (R466). -/
def execNrstRelease (s : State) : Out :=
  let low := s.crypt.nrst
  let s := s.onCrypt (fun k => { k with nrst := false })
  .next (if s.domOn .crypt ∧ low ∧ s.dom .choir = 0 ∧ s.path ≠ 2 ∧ s.crypt.standby = false ∧ s.crypt.afterCryptReset = false then
    s.startDomains 1 0
  else s)

/-- WDOG_EXPIRY (R467): the RTC runs until the watchdog of a core reaches its limit; a limit that a write has lowered below the
count is reached at the next tick. -/
def execWdogExpiry (c : CoreId) (s : State) : Out :=
  let i := coreNum c
  let count := match c with | .choir => s.crypt.wdogChoir | .nave => s.crypt.wdogNave
  .next (if s.flag (SYS.WDOG_EN i) ∧ (s.core c).halted = false then s.advance (max 1 (s.fld (SYS.WDOG_PERIOD i) * 1024 - count)) else s)

/-- STANDBY_ENTRY (R447): every mode flag clear, and no core in the service loader. -/
def execStandbyEntry (s : State) : Out :=
  .next (if s.domOn .choir ∧ runLife s.choir.run = 2 ∧ s.nave.run ≠ .loader ∧ s.flag SYS.MODE_M = false ∧
      s.flag SYS.MODE_V = false ∧ s.flag SYS.MODE_G = false ∧ s.flag SYS.MODE_C = false then
    (s.takeAllDown).onCrypt (fun k => { k with standby := true })
  else s)

/-- GAUTO_CLEAR (R455). -/
def execGautoClear (s : State) : Out :=
  .next (if s.domOn .crypt ∧ s.path = 0 ∧ s.mainOkLevel ≤ s.crypt.vmain then (s.setFlag SYS.MODE_GAUTO false).guardSync else s)

/-! ### Debug and SPI masters (R36, R41, R343, R467) -/

/-- DEBUG_RESUME (R343, R467): the core runs on, or runs one instruction. -/
def execDebugResume (singleStep : Bool) (s : State) : Out :=
  .next (if s.pathMain ∧ s.flag SACR.SEAL_DBG ∧ s.choir.halted then
    (s.onCore .choir (fun k => { k with halted := false, stepping := singleStep })).wakeDeadline .choir
  else s)

/-- A load by a master with a core's reach, own memory of the core included. -/
def State.masterLoad (s : State) (c : CoreId) (a : Nat) : LoadResult :=
  if inFlash c a || inSram c a then
    match s.readOwn c a 4 with
    | some (t, v) => (t, .ok (BitVec.ofNat 32 v))
    | none => (s, .error causeEcc)
  else s.busLoad c a

/-- A store by a master with the nave core's reach. -/
def State.masterStore (s : State) (a : Nat) (v : Word) : StoreResult :=
  if inSram .nave a then (s.writeOwn .nave a 4 v, none) else s.busStore .nave a v

/-- A refusal of a nave-class master: SCREEN is logged, [2] for the debug port; no core faults. -/
def State.masterRefusal (s : State) (addr : Word) (cause : Nat) (write debug : Bool) : State :=
  if cause = causeScreen then
    (if debug then s.logDebugRefusal addr write else s.logEvent logScreenViol addr (BitVec.ofNat 32 (natOfBool write)))
  else s

/-- An access of a nave-class master, whose pads are powered while the path is MAIN (R75), while the nave domain is ON; an attached debug session reads what the choir core
reads (R343). A misaligned address makes no access, and
a read of a slot that a flash operation keeps busy waits for its end (R176; log entry 72). -/
def State.masterAccess (s : State) (addr : Word) (write : Option Word) (debug : Bool) : State :=
  let a := addr.toNat
  if !s.pathMain || !s.domOn .nave || decide (a % 4 ≠ 0) then s
  else match write with
    | some v =>
      match s.masterStore a v with
      | (t, none) => t
      | (t, some cause) => t.masterRefusal addr cause true debug
    | none =>
      let c : CoreId := if debug && s.flag SACR.SEAL_DBG && (s.reach .choir a false).isNone then .choir else .nave
      if s.flashStall c a then s
      else match s.masterLoad c a with
      | (t, .ok v) => { t with reply := v }
      | (t, .error cause) => t.masterRefusal addr cause false debug

/-- DEBUG_PORT_ACCESS (R36, R41, R343). -/
def execDebugPortAccess (addr : Word) (write : Option Word) (s : State) : Out := .next (s.masterAccess addr write true)

/-- SPI_TARGET_ACCESS (R36). -/
def execSpiTargetAccess (addr : Word) (write : Option Word) (s : State) : Out := .next (s.masterAccess addr write false)

end Sys2Proof.Machine
end

