-- ==== Sys2Proof/Machine/Straits.lean ====
section
/-! DEFINITION. What a receiver does with a strait word by its tag (R27 to R31, R79, R80), deliveries of queued packets, the
scrubber, the rise and fall of queues, and repeated event notices (R88, R97, R104, R135, R272). -/
namespace Sys2Proof.Machine

/-! ### Register requests of the cores -/

/-- Whether a strait joins two islands (R22): none leads from the nave domain into the choir domain. -/
def straitExists (src dst : Island) : Bool :=
  decide (src ≠ dst) && !(decide (islandDomain src = .nave) && decide (islandDomain dst = .choir))

/-- A target refuses a core's access over a strait: REFUSE with the cause, which is recorded, and the core faults (R27, R38, R41). -/
def State.recvRefused (s : State) (c : CoreId) (src dst : Island) (a : Word) (cause kind : Nat) : State :=
  (s.refuseAccess c a cause kind).send dst src tagRefuse (BitVec.ofNat 32 cause)

/-- A register write over a strait: the address, then the data, then the reply (R27). -/
def State.recvWrite (s : State) (c : CoreId) (src dst : Island) (a v : Word) : State :=
  match s.busStore c a.toNat v with
  | (t, none) => t.send dst src tagWack 0
  | (t, some cause) => t.recvRefused c src dst a cause 1

/-- A register read over a strait. -/
def State.recvRead (s : State) (c : CoreId) (src dst : Island) (a : Word) : State :=
  match s.busLoad c a.toNat with
  | (t, .ok v) => t.send dst src tagRdata v
  | (t, .error cause) => t.recvRefused c src dst a cause 0

/-! ### Deliveries to hardware consumers (R86 to R88, R94, R272) -/

/-- The queues of the quantity island in the order of its rotation (R272). -/
def State.rotation (s : State) : List Nat := (natsFrom (s.qty.served + 1) 112).map (fun n => n % 112)

/-- CONSUMER of the queues that an island takes. -/
def consumerCode : Island → Nat
  | .quantity => 1
  | .belfry => 2
  | .service => 3
  | _ => 0

/-- A queue with a whole packet for a consumer. -/
def State.offers (s : State) (code n : Nat) : Bool := s.fld (QUE.DESC_CONSUMER n) == code && !(s.queue n).packets.isEmpty

/-- The queue of whose head packet a consumer has taken a part (R88). -/
def State.delivering (s : State) (code : Nat) : Option Nat :=
  (s.queues.find? (fun e => decide (0 < e.2.given) && s.offers code e.1)).map (fun e => e.1)

/-- Whether the consumer would take the head packet of a queue from its first word (R88, R272, R373). -/
def State.consumerReady (s : State) (n : Nat) : Bool :=
  match s.fld (QUE.DESC_CONSUMER n) with
  | 1 => s.qtyOn && s.qty.taken.isNone && s.rotation.find? (s.offers 1) == some n
  | 2 => (s.bufTaker n).isSome
  | 3 => true
  | _ => false

/-- Whether the consumer takes the head packet of a queue now: a packet under way goes on before another begins. -/
def State.deliverable (s : State) (n : Nat) : Bool :=
  match s.delivering (s.fld (QUE.DESC_CONSUMER n)) with
  | some m => decide (m = n)
  | none => s.consumerReady n && !(s.queue n).packets.isEmpty

/-- The queue whose next word crosses to a consumer: by rotation for the quantity island, the lowest that is ready for the others
(log entry 29). -/
def State.nextDelivery (s : State) (dst : Island) : Option Nat :=
  let code := consumerCode dst
  if code = 0 then none
  else (s.delivering code).or ((List.range 256).find? (fun n => s.offers code n && s.consumerReady n))

/-- Hand a packet over whole. The service island's use of it is outside the spec. -/
def State.handOver (s : State) (n : Nat) (words : List Word) (marker : Bool) : State :=
  match s.fld (QUE.DESC_CONSUMER n) with
  | 1 => (s.popPacket n).onQty (fun q => { q with taken := some (n, words), served := n })
  | 2 =>
    match s.bufTaker n with
    | some p => (s.popPacket n).belfTake p n words marker
    | none => s.breakOff n
  | 3 => s.popPacket n
  | _ => s

/-- The next word of a queue's head packet crosses to its consumer, checked as it moves (R88, R94): an uncorrectable one ends the
delivery, and a marker takes the packet's place; the last one hands the packet over. The second result says that the delivery is
over. -/
def State.deliverWord (s : State) (n : Nat) : State × Bool :=
  let r := s.checkWord n (s.queue n).given
  if r.2 then (r.1.settled n, true)
  else
    let q := r.1.queue n
    match q.packets with
    | p :: _ =>
      if q.given + 1 < p.words.length then (r.1.setQueue n { q with given := q.given + 1 }, false)
      else (r.1.handOver n (p.words.map (fun w => w.word)) p.marker, true)
    | [] => (r.1, true)

/-- Deliver the words that remain, up to the end of the delivery. -/
def State.deliverAll (s : State) (n : Nat) : Nat → State
  | 0 => s
  | fuel + 1 =>
    let r := s.deliverWord n
    if r.2 then r.1 else r.1.deliverAll n fuel

/-! ### Words by their tags -/

/-- A word that its receiver trusts, by its tag (R27): the register requests of a core, or any other word. -/
def State.recvGood (s : State) (src dst : Island) (tag : BitVec 4) (w : Word) : State :=
  match coreOfIsland src, tag.toNat, s.heldAddr src dst with
  | some c, 0x2, _ => s.recvRead c src dst w
  | some c, 0x5, some (.good a) => (s.holdAddr src dst none).recvWrite c src dst a w
  | _, _, _ => s.recvWord src dst tag w

/-- The cause of a damaged request: the first that applies, PARITY at the latest (R29, R40). -/
def State.damagedCause (s : State) (c : CoreId) (a : Word) (write : Bool) : Nat := (s.reach c a.toNat write).getD causeParity

/-- A damaged write pair, once for both of its words (R29): the feed discards it (R309); a bank answers REFUSE, and a damaged
summary settles its shot (R250, R251); any other target refuses it. a is the address that the pair was sent with. A REFUSE to a
header or a gate update names that pair above its cause: DESIGN CHOICE, log entry 73. -/
def State.damagedPair (s : State) (src dst : Island) (a : Option Word) : State :=
  match src, dst with
  | .quantity, .outputs => s.feedBad
  | .isle n, .bank b =>
    match a.map (fun a => a.toNat) with
    | some 0 => s.send dst src tagRefuse 0x16
    | some 1 => s.send dst src tagRefuse 0x26
    | some 2 => s.recvSummary b.val n.val 0 true
    | _ => s.send dst src tagRefuse 6
  | _, _ =>
    match coreOfIsland src, a with
    | some c, some a => s.recvRefused c src dst a (s.damagedCause c a true) 1
    | some _, none => s.send dst src tagRefuse 6
    | none, _ => s

/-- A damaged reply on a core's strait: a precise fault with cause PARITY while the core executes (R29). No request of the
model waits, so the address is a free value. -/
def State.badReply (s : State) (dst : Island) : State :=
  match coreOfIsland dst with
  | some c => (s.spend).refuseAccess c (Config.value s.free) causeParity 0
  | none => s

/-- A damaged word 5 or 0 to 4 on its way into the queue island still ends its handshake; on the strait to a consumer it breaks the
delivery off: DESIGN CHOICE, log entry 70. -/
def State.badQword (s : State) (src dst : Island) (w : Word) : State :=
  if dst = .queue then (s.recvQwordBad src w).verdictTaken src
  else match s.nextDelivery dst with
    | some n => if src = .queue then s.breakOff n else s
    | none => s

/-- A word with a parity error, by its received tag (R29). sent is the word that its sender put on the strait. -/
def State.recvBad (s : State) (src dst : Island) (tag : BitVec 4) (w sent : Word) : State :=
  match tag.toNat with
  | 0x0 => s.badQword src dst w
  | 0x1 => if dst = .queue then s.recvQselBad src else s
  | 0x2 => match coreOfIsland src with | some c => s.recvRefused c src dst sent (s.damagedCause c sent false) 0 | none => s
  | 0x3 => s.badReply dst
  | 0x4 => ((s.headerLeaves src dst sent).holdAddr src dst (some (.damaged sent))).damagedPair src dst (some sent)
  | 0x5 =>
    match s.heldAddr src dst with
    | some (.damaged _) => s.holdAddr src dst none
    | some (.good a) => (s.holdAddr src dst none).damagedPair src dst (some a)
    | none => s.damagedPair src dst none
  | 0x6 => match src, dst with | .bank _, .isle n => s.recvReply n.val sent | _, _ => s.badReply dst
  | 0x7 => match src, dst with | .bank _, .isle n => s.recvReply n.val sent | _, _ => s.badReply dst
  | 0x8 => match src, dst with | .isle n, .bank b => s.recvSample b.val n.val w false | _, _ => s
  | 0x9 => match src, dst with | .bank _, .isle n => s.recvLag n.val w false | _, _ => s
  | _ => s

/-- A word of a queue toward its consumer, else a word by its tag. -/
def State.recvAny (s : State) (src dst : Island) (tag : BitVec 4) (w : Word) : State :=
  match src, tag.toNat, s.nextDelivery dst with
  | .queue, 0x0, some n => (s.deliverWord n).1
  | _, _, _ => (s.portActive src tag).recvGood src dst tag w

/-- STRAIT_WORD_RECEIVE (R22, R23, R27 to R30): a word with its tag and its parity line, on a strait that carries words now. A
listed word of that strait is the word as it was sent. A stream header that waits holds every word behind it (R232). -/
def execStraitWordReceive (src dst : Island) (tag : BitVec 4) (word : Word) (parity : Bool) (s : State) : Out :=
  let wire := s.frontWire src dst
  let sent := match wire with | some x => x.word | none => word
  let waits := match wire with | some x => s.blocks src dst x.tag x.word | none => s.blocks src dst tag word
  .next (
    if straitExists src dst = false ∨ s.carries src dst = false ∨ waits = true then s
    else
      let good := parity == parityLine tag word
      let s := { s with wires := dropFirstWire src dst s.wires }
      let s := if good then s else s.tally32 SYS.STRAITERR_PARITY 1
      let s := if 0xC ≤ tag.toNat then s.tally32 SYS.STRAITERR_PROTO 1
        else if good then s.recvAny src dst tag word
        else s.recvBad src dst tag word sent
      s.handshakeDone src dst)

/-- STRAIT_REOPEN (R30, R31, R310): the receiver's domain is ON; the feed catches up. -/
def execStraitReopen (src dst : Island) (s : State) : Out :=
  .next (if straitExists src dst ∧ s.domOn (islandDomain dst) ∧ s.strait src dst ≠ .isOpen then
    let s := s.setStrait src dst .isOpen
    if src = .quantity ∧ dst = .outputs then s.feedReopen else s
  else s)

/-! ### Queues -/

/-- QUEUE_DELIVER (R88, R94): the head packet of a queue crosses to its consumer, from the word where its delivery stands. -/
def execQueueDeliver (q : Fin 256) (s : State) : Out :=
  let n := q.val
  .next (match consumerIsland (s.fld (QUE.DESC_CONSUMER n)), (s.queue n).packets with
    | some i, p :: _ =>
      if s.domOn (islandDomain i) ∧ s.strait .queue i = .isOpen ∧ s.deliverable n then s.deliverAll n p.words.length else s
    | _, _ => s)

/-- The first marked word in the Cloister part of a queue. -/
def Queue.firstUpset (q : Queue) : Option (Nat × Ecc) :=
  (List.range q.count).findSome? (fun i =>
    match q.words[i]? with
    | some w => if q.inCloister i && decide (w.ecc ≠ .good) then some (i, w.ecc) else none
    | none => none)

/-- Correct or report the marked Cloister words of a queue (R97). -/
def State.scrub (s : State) (n : Nat) : Nat → State
  | 0 => s
  | fuel + 1 =>
    match (s.queue n).firstUpset with
    | some (i, .double) => (s.queueUe n i).scrub n fuel
    | some (i, _) => (s.queueCorr n i).scrub n fuel
    | none => s

/-- CLOISTER_SCRUB (R97): errors names the upset words by position, and whether they are uncorrectable. -/
def execCloisterScrub (q : Fin 256) (errors : List (Nat × Bool)) (s : State) : Out :=
  let n := q.val
  .next (if s.domOn .shared then
    let s := s.each errors (fun s e =>
      if (s.queue n).inCloister e.1 ∧ e.1 < (s.queue n).count then
        s.setQueue n ((s.queue n).setEcc e.1 (if e.2 then .double else .single))
      else s)
    (s.scrub n ((s.queue n).count + 1)).settled n
  else s)

/-- QUEUE_RISE_DONE (R104): EN = 0 written during RISING makes it fall at once. -/
def execQueueRiseDone (q : Fin 256) (s : State) : Out :=
  let n := q.val
  .next (if s.fld (QUE.STAT_LIFE n) = 1 then
    let s := s.queueRises n
    if s.flag (QUE.DESC_EN n) then s else s.queueFalls n
  else s)

/-- QUEUE_FALL_DONE (R104): blocks returned, OFF; a latched enable then applies. -/
def execQueueFallDone (q : Fin 256) (s : State) : Out :=
  let n := q.val
  .next (if s.fld (QUE.STAT_LIFE n) = 3 then
    let s := (s.setBlocks n []).setQueueLife n 0
    if s.flag (QUE.STAT_DEFER n) then (s.setFlag (QUE.STAT_DEFER n) false).setQueueLife n 1 else s
  else s)

/-! ### Repeated notices (R135) -/

/-- Whether any of some fields is set. -/
def State.anyFlag (s : State) (l : List Fld) : Bool := l.any (fun f => s.fld f != 0)

/-- Send an event where its condition stands. -/
def State.eventIf (s : State) (b : Bool) (f : State → State) : State := if b then f s else s

/-- Repeats of a bank (R243). -/
def State.repeatBank (s : State) (b : Nat) : State :=
  let s := s.eventIf (s.anyFlag [CIM.FAULTS_RESIDUE b, CIM.FAULTS_GOLDUE b, CIM.FAULTS_LEASH b]) (fun s => s.cimEvent b)
  s.eventIf (s.flag (CIM.FAULTS_LOST b)) (fun s => s.raiseEvent (bankIsland b) .nave 7)

/-- Repeats of the choir domain's sources (R206, R271, R306). -/
def State.repeatChoir (s : State) : State :=
  let s := s.each (List.range 16) (fun s n => s.eventIf
    (s.anyFlag [ISLE.FAULTS_LEASH n, ISLE.FAULTS_EXWAIT n, ISLE.FAULTS_NOVPUL n, ISLE.FAULTS_SHORT n, ISLE.FAULTS_OPEN n])
    (fun s => s.raiseEvent (isleIsland n) .choir 9))
  s.eventIf (s.anyFlag [QTY.FAULTS_NOTEMP, QTY.FAULTS_NOLEVEL, QTY.FAULTS_SUBST, QTY.FAULTS_REJECT, QTY.CALCTL_DONE]) State.qtyEvent

/-- Repeats of the nave domain's sources (R331, R390, R427). -/
def State.repeatNave (s : State) : State :=
  let ports := (List.range 2).flatMap (fun p => [BELF.FAULTS_LIMFRESH p, BELF.FAULTS_SYNCLOST p, BELF.FAULTS_CUT p,
    BELF.FAULTS_LEASH p, BELF.NETFAULTS_NBRFRESH p, BELF.NETFAULTS_FCWAIT p, BELF.NETFAULTS_NBRFULL p,
    BELF.NETFAULTS_LEASEEXP p, BELF.NETFAULTS_JOINFAIL p, BELF.NETFAULTS_CONFLICT p])
  let pins := (List.range 8).flatMap (fun n => [OUT.PINSTAT_INGAP n, OUT.PINSTAT_DEBTOVF n])
  let loops := (List.range 2).map (fun j => OUT.LPSTAT_LOOP_LOW j)
  let s := s.eventIf (s.anyFlag ports) State.belfEvent
  s.eventIf (s.anyFlag (OUT.FEEDSTAT_FEEDERR :: pins ++ loops)) State.outEvent

/-- Repeats of the crypt and of the mailbox (R63, R168, R434, R442, R460). -/
def State.repeatCrypt (s : State) : State :=
  let s := s.eventIf (s.anyFlag [CRYPT.CLKSTAT_XTFAIL, CRYPT.CLKSTAT_XHFFAIL, CRYPT.VPULSTAT_FAULT])
    (fun s => s.raiseEvent .crypt .choir 2)
  let s := s.eventIf s.sacr.mailCmd.isSome (fun s => s.raiseEvent .queue .choir 4)
  let s := s.eventIf s.sacr.mailReply.isSome (fun s => s.raiseEvent .queue .nave 4)
  s.eventIf ((List.range 67).any (fun u => s.flag (SYS.UNITSTATE_STALE u))) (fun s => s.raiseBoth .crypt 11)

/-- EVENT_REPEAT (R135): every source whose condition stands and whose island is powered. -/
def execEventRepeat (s : State) : Out :=
  let s := s.repeatCrypt
  let s := if s.domOn .shared then s.each (List.range 4) State.repeatBank else s
  let s := if s.domOn .choir then s.repeatChoir else s
  .next (if s.domOn .nave then s.repeatNave else s)

end Sys2Proof.Machine
end

