-- ==== Sys2Proof/Machine/Commands.lean ====
section
/-! DEFINITION. The rows of the opcode table that are a store to, or a load of, one register. Each is the access of the
named core at the register's address (R5 to R11); what the register does beyond its access code stands with its unit. -/
namespace Sys2Proof.Machine

/-- A fault of the core while it executes. -/
def State.accessFault (s : State) (c : CoreId) (cause : Nat) (addr : Word) : State :=
  if s.executes c then s.fault c cause addr else s

/-- A word store that a command names, by a core whose domain is ON: a misaligned address raises ALIGN and makes no access
(R125), a refusal is recorded, else the store takes effect. drifted names the rows that a scan it asks for finds. -/
def State.commandStoreWith (s : State) (c : CoreId) (addr val : Word) (drifted : List RowAt) : State :=
  if !s.domOn (coreDomain c) then s
  else if addr.toNat % 4 ≠ 0 then s.accessFault c faultAlign addr
  else if inSram c addr.toNat then s.writeOwn c addr.toNat 4 val
  else match s.busStoreWith c addr.toNat val drifted with
    | (t, none) => t
    | (t, some cause) => t.refuseAccess c addr cause 1

/-- A word store that a command names. -/
def State.commandStore (s : State) (c : CoreId) (addr val : Word) : State := s.commandStoreWith c addr val []

/-- A word load that a command names; its word is the block's reply. An uncorrectable word of own memory raises MEMECC
while the core executes (R131), and a read of a slot that a flash operation keeps busy waits for its end (R176; log entry 72). -/
def State.commandLoad (s : State) (c : CoreId) (addr : Word) : State :=
  if !s.domOn (coreDomain c) then s
  else if addr.toNat % 4 ≠ 0 then s.accessFault c faultAlign addr
  else if s.flashStall c addr.toNat then s
  else if inFlash c addr.toNat || inSram c addr.toNat then
    match s.readOwn c addr.toNat 4 with
    | none => if s.executes c then s.memEcc c addr else s
    | some (t, v) => { t with reply := BitVec.ofNat 32 v }
  else match s.busLoad c addr.toNat with
    | (t, .ok v) => { t with reply := v }
    | (t, .error cause) => t.refuseAccess c addr cause 0

/-- A store to the register at an address. -/
def State.poke (s : State) (c : CoreId) (a : Nat) (val : Word) : State := s.commandStore c (BitVec.ofNat 32 a) val

/-- A load of the register at an address. -/
def State.peek (s : State) (c : CoreId) (a : Nat) : State := s.commandLoad c (BitVec.ofNat 32 a)

/-- The word of a key command: SLOT in bits 11 to 8, CMD in bits 2 to 0 (R358). -/
def keyWord (slot : BitVec 4) (cmd : Nat) : Word := BitVec.ofNat 32 (slot.toNat * 256 + cmd)

/-- The word of RSTREQ: KEY 0xA5C3 and WHAT (R468). -/
def rstreqWord (what : Nat) : Word := BitVec.ofNat 32 (0xA5C30000 + what)

/-- REGISTER_WRITE (R5). -/
def execRegisterWrite (c : CoreId) (addr val : Word) (s : State) : Out := .next (s.commandStore c addr val)

/-- RZ_READ (R7). -/
def execRzRead (c : CoreId) (addr : Word) (s : State) : Out := .next (s.commandLoad c addr)

/-- MEASNOW (R77). -/
def execMeasnow (c : CoreId) (val : Word) (s : State) : Out := .next (s.poke c CRYPT.PWRCFG val)

/-- VPUL_LEVEL_WRITE (R62). -/
def execVpulLevelWrite (c : CoreId) (val : Word) (s : State) : Out := .next (s.poke c CRYPT.VPULCFG val)

/-- VPUL_FAULT_CLEAR (R63). -/
def execVpulFaultClear (c : CoreId) (val : Word) (s : State) : Out := .next (s.poke c CRYPT.VPULSTAT val)

/-- QUEUE_DESC_WRITE (R101). -/
def execQueueDescWrite (c : CoreId) (q : Fin 256) (val : Word) (s : State) : Out := .next (s.poke c (QUE.DESC q.val) val)

/-- NAVECAP_WRITE (R101). -/
def execNavecapWrite (c : CoreId) (val : Word) (s : State) : Out := .next (s.poke c QUE.POOL val)

/-- IMG_ERASE: IMGCTL takes CMD 1 (R176). -/
def execImgErase (c : CoreId) (s : State) : Out := .next (s.poke c (SYS.IMGCTL (coreNum c)) 1)

/-- IMG_PROGRAM: IMGCTL takes CMD 2 (R176). -/
def execImgProgram (c : CoreId) (s : State) : Out := .next (s.poke c (SYS.IMGCTL (coreNum c)) 2)

/-- FLASH_OP_DONE (R176). -/
def execFlashOpDone (u : FlashUnit) (readsBack : Bool) (s : State) : Out := .next (s.flashDone u readsBack)

/-- PORTMODE_WRITE (R179). -/
def execPortmodeWrite (c : CoreId) (n : Fin 16) (val : Word) (s : State) : Out := .next (s.poke c (ISLE.PORTMODE n.val) val)

/-- DESCRIPTOR_WRITE: PDCTL, PDBURST, PDWIN or PDGAIN (R181). -/
def execDescriptorWrite (c : CoreId) (m : Fin 128) (field : Fin 4) (val : Word) (s : State) : Out := .next (s.poke c (ISLE0.PDCTL m.val + 4 * field.val) val)

/-- ISLE_ENABLE_WRITE (R205). -/
def execIsleEnableWrite (c : CoreId) (n : Fin 16) (val : Word) (s : State) : Out := .next (s.poke c (ISLE.CTL n.val) val)

/-- REFNOW (R231). -/
def execRefnow (c : CoreId) (bk : Fin 4) (val : Word) (drifted : List RowAt) (s : State) : Out := .next (s.commandStoreWith c (BitVec.ofNat 32 (CIM.REFNOW bk.val)) val drifted)

/-- WEIGHT_WINDOW_LOAD (R210). -/
def execWeightWindowLoad (c : CoreId) (addr : Word) (s : State) : Out := .next (s.commandLoad c addr)

/-- WEIGHT_WINDOW_STORE (R210). -/
def execWeightWindowStore (c : CoreId) (addr val : Word) (s : State) : Out := .next (s.commandStore c addr val)

/-- THRDATA_ACCESS: a write where a word is given, else a read (R224). -/
def execThrdataAccess (c : CoreId) (bk : Fin 4) (write : Option Word) (s : State) : Out :=
  match write with
  | some val => .next (s.poke c (CIM.THRDATA bk.val) val)
  | none => .next (s.peek c (CIM.THRDATA bk.val))

/-- BANK_ENABLE_WRITE (R242). -/
def execBankEnableWrite (c : CoreId) (bk : Fin 4) (val : Word) (s : State) : Out := .next (s.poke c (CIM.CTL bk.val) val)

/-- TILE_ENABLE_WRITE (R242). -/
def execTileEnableWrite (c : CoreId) (tile : Fin 32) (val : Word) (s : State) : Out := .next (s.poke c (CIM.TCTL tile.val) val)

/-- CAL_START (R269). -/
def execCalStart (c : CoreId) (val : Word) (s : State) : Out := .next (s.poke c QTY.CALCTL val)

/-- CLVOTE_WRITE (R264). -/
def execClvoteWrite (c : CoreId) (k : Fin 32) (val : Word) (s : State) : Out := .next (s.poke c (QTY.CLVOTE k.val) val)

/-- AUXADD_WRITE (R296). -/
def execAuxaddWrite (c : CoreId) (a : Fin 8) (val : Word) (s : State) : Out := .next (s.poke c (QTY.AUXADD a.val) val)

/-- DEBTADD_WRITE (R319). -/
def execDebtaddWrite (c : CoreId) (n : Fin 8) (val : Word) (s : State) : Out := .next (s.poke c (OUT.PINADD n.val) val)

/-- PIN_ENABLE_WRITE (R314). -/
def execPinEnableWrite (c : CoreId) (n : Fin 8) (val : Word) (s : State) : Out := .next (s.poke c (OUT.PINCTL n.val) val)

/-- LOOP_ENABLE_WRITE (R327). -/
def execLoopEnableWrite (c : CoreId) (j : Fin 2) (val : Word) (s : State) : Out := .next (s.poke c (OUT.LPCTL j.val) val)

/-- OUT_LOCK_WRITE (R313). -/
def execOutLockWrite (c : CoreId) (val : Word) (s : State) : Out := .next (s.poke c OUT.LOCK val)

/-- SEAL (R339). -/
def execSeal (c : CoreId) (val : Word) (s : State) : Out := .next (s.poke c SACR.SEALCTL val)

/-- LOADAES (R345). -/
def execLoadaes (c : CoreId) (slot : BitVec 4) (s : State) : Out := .next (s.poke c SACR.KEYCMD (keyWord slot 1))

/-- CLEAR (R345). -/
def execClear (c : CoreId) (slot : BitVec 4) (s : State) : Out := .next (s.poke c SACR.KEYCMD (keyWord slot 2))

/-- LOADVK (R345). -/
def execLoadvk (c : CoreId) (slot : BitVec 4) (s : State) : Out := .next (s.poke c SACR.KEYCMD (keyWord slot 3))

/-- REVOKEVK (R345). -/
def execRevokevk (c : CoreId) (slot : BitVec 4) (s : State) : Out := .next (s.poke c SACR.KEYCMD (keyWord slot 4))

/-- NKEY_LOAD (R346). -/
def execNkeyLoad (c : CoreId) (slot : BitVec 4) (s : State) : Out := .next (s.poke c SACR.NKEYCMD (keyWord slot 1))

/-- NKEY_CLEAR (R346). -/
def execNkeyClear (c : CoreId) (slot : BitVec 4) (s : State) : Out := .next (s.poke c SACR.NKEYCMD (keyWord slot 2))

/-- MAC_START (R347). -/
def execMacStart (c : CoreId) (val : Word) (s : State) : Out := .next (s.poke c SACR.MACCTL val)

/-- MAC_DIN (R347). -/
def execMacDin (c : CoreId) (val : Word) (s : State) : Out := .next (s.poke c SACR.DIN val)

/-- MAC_FINISH (R347). -/
def execMacFinish (c : CoreId) (val : Word) (s : State) : Out := .next (s.poke c SACR.MACCTL val)

/-- IMGCHK_CHECK: CHECK is bit 0 (R356). -/
def execImgchkCheck (c : CoreId) (s : State) : Out := .next (s.poke c SACR.IMGCHK 1)

/-- IMGCHK_ACTIVATE: ACTIVATE is bit 1 (R356). -/
def execImgchkActivate (c : CoreId) (s : State) : Out := .next (s.poke c SACR.IMGCHK 2)

/-- LOGDATA_READ (R360). -/
def execLogdataRead (c : CoreId) (j : Fin 4) (s : State) : Out := .next (s.peek c (LEDG.LOGDATA j.val))

/-- ASN_LOAD: ASNHI and then ASNLO (R377). -/
def execAsnLoad (c : CoreId) (p : Fin 2) (hi lo : Word) (s : State) : Out := .next ((s.poke c (BELF.ASNHI p.val) hi).poke c (BELF.ASNLO p.val) lo)

/-- HOP_GEN (R371). -/
def execHopGen (c : CoreId) (p : Fin 2) (val : Word) (s : State) : Out := .next (s.poke c (BELF.HOP p.val) val)

/-- LIMCFG_PRESET_WRITE (R381). -/
def execLimcfgPresetWrite (c : CoreId) (p : Fin 2) (val : Word) (s : State) : Out := .next (s.poke c (BELF.LIMCFG p.val) val)

/-- PORT_ENABLE_WRITE (R363). -/
def execPortEnableWrite (c : CoreId) (p : Fin 2) (val : Word) (s : State) : Out := .next (s.poke c (BELF.PCTL p.val) val)

/-- RADIO_TEST (R389). -/
def execRadioTest (c : CoreId) (p : Fin 2) (val : Word) (s : State) : Out := .next (s.poke c (BELF.PCTL p.val) val)

/-- NBR_READ: NBRCMD takes CMD 1 (R425). -/
def execNbrRead (c : CoreId) (s : State) : Out := .next (s.poke c BELF.NBRCMD 1)

/-- NBR_WRITE: NBRCMD takes CMD 2 (R425). -/
def execNbrWrite (c : CoreId) (s : State) : Out := .next (s.poke c BELF.NBRCMD 2)

/-- NBR_DELETE: NBRCMD takes CMD 3 (R425). -/
def execNbrDelete (c : CoreId) (s : State) : Out := .next (s.poke c BELF.NBRCMD 3)

/-- XHFREQ_WRITE (R429). -/
def execXhfreqWrite (c : CoreId) (val : Word) (s : State) : Out := .next (s.poke c CRYPT.XHFREQ val)

/-- TIME_SUB_READ (R435). -/
def execTimeSubRead (c : CoreId) (s : State) : Out := .next (s.peek c CRYPT.TIME_SUB)

/-- TIME_SEC_READ (R435). -/
def execTimeSecRead (c : CoreId) (s : State) : Out := .next (s.peek c CRYPT.TIME_SEC)

/-- TIME_NEW_WRITE (R436). -/
def execTimeNewWrite (c : CoreId) (val : Word) (s : State) : Out := .next (s.poke c CRYPT.TIME_NEW val)

/-- MODE_WRITE (R443). -/
def execModeWrite (c : CoreId) (val : Word) (s : State) : Out := .next (s.poke c SYS.MODE val)

/-- CFG_ERASE: CFGCTL takes CMD 1 (R465). -/
def execCfgErase (c : CoreId) (s : State) : Out := .next (s.poke c SYS.CFGCTL 1)

/-- CFG_PROGRAM: CFGCTL takes CMD 2 (R465). -/
def execCfgProgram (c : CoreId) (s : State) : Out := .next (s.poke c SYS.CFGCTL 2)

/-- CFGDATA_READ (R463). -/
def execCfgdataRead (c : CoreId) (s : State) : Out := .next (s.peek c SYS.CFGDATA)

/-- RSTREQ_CHOIRCORE (R468). -/
def execRstreqChoircore (c : CoreId) (s : State) : Out := .next (s.poke c SYS.RSTREQ (rstreqWord 1))

/-- RSTREQ_NAVECORE (R468). -/
def execRstreqNavecore (c : CoreId) (s : State) : Out := .next (s.poke c SYS.RSTREQ (rstreqWord 2))

/-- RSTREQ_DOMAINS (R468). -/
def execRstreqDomains (c : CoreId) (s : State) : Out := .next (s.poke c SYS.RSTREQ (rstreqWord 3))

/-- WDOG_KICK (R467). -/
def execWdogKick (c : CoreId) (val : Word) (s : State) : Out := .next (s.poke c (SYS.WDOG (coreNum c)) val)

end Sys2Proof.Machine
end

