-- ==== Sys2Proof/Machine/Dispatch.lean ====
section
/-! DEFINITION. The effect of every command: one arm for each row of the opcode table. -/
namespace Sys2Proof.Machine

/-- The effect of a command on everything but the queue. -/
def exec (i : Instr) (s : State) : Host.Outcome State Fault Refusal :=
  match i with
  | .registerWrite c addr val => Sys2Proof.Machine.execRegisterWrite c addr val s
  | .rzRead c addr => Sys2Proof.Machine.execRzRead c addr s
  | .straitWordReceive src dst tag word parityGood => Sys2Proof.Machine.execStraitWordReceive src dst tag word parityGood s
  | .straitReopen src dst => Sys2Proof.Machine.execStraitReopen src dst s
  | .domainFall d => Sys2Proof.Machine.execDomainFall d s
  | .domainOff d => Sys2Proof.Machine.execDomainOff d s
  | .vmainLoss vmain vbak => Sys2Proof.Machine.execVmainLoss vmain vbak s
  | .returnToMain vmain => Sys2Proof.Machine.execReturnToMain vmain s
  | .vbakLow vbak => Sys2Proof.Machine.execVbakLow vbak s
  | .holdSurvival vmain vbak => Sys2Proof.Machine.execHoldSurvival vmain vbak s
  | .holdExpiryCryptReset vmain vbak => Sys2Proof.Machine.execHoldExpiryCryptReset vmain vbak s
  | .cryptPowerOn vmain vbak => Sys2Proof.Machine.execCryptPowerOn vmain vbak s
  | .measnow c val => Sys2Proof.Machine.execMeasnow c val s
  | .vmeasPeriodic => Sys2Proof.Machine.execVmeasPeriodic s
  | .vpulLevelWrite c val => Sys2Proof.Machine.execVpulLevelWrite c val s
  | .vpulInBand vpul => Sys2Proof.Machine.execVpulInBand vpul s
  | .vpulUndervoltFault vpul => Sys2Proof.Machine.execVpulUndervoltFault vpul s
  | .vpulCurrentLimitFault vpul => Sys2Proof.Machine.execVpulCurrentLimitFault vpul s
  | .vpulFaultClear c val => Sys2Proof.Machine.execVpulFaultClear c val s
  | .queueDeliver q => Sys2Proof.Machine.execQueueDeliver q s
  | .cloisterScrub q errors => Sys2Proof.Machine.execCloisterScrub q errors s
  | .queueDescWrite c q val => Sys2Proof.Machine.execQueueDescWrite c q val s
  | .navecapWrite c val => Sys2Proof.Machine.execNavecapWrite c val s
  | .queueRiseDone q => Sys2Proof.Machine.execQueueRiseDone q s
  | .queueFallDone q => Sys2Proof.Machine.execQueueFallDone q s
  | .add x rd ra rb => Sys2Proof.Machine.execAdd x rd ra rb s
  | .sub x rd ra rb => Sys2Proof.Machine.execSub x rd ra rb s
  | .adc x rd ra rb => Sys2Proof.Machine.execAdc x rd ra rb s
  | .sbc x rd ra rb => Sys2Proof.Machine.execSbc x rd ra rb s
  | .and x rd ra rb => Sys2Proof.Machine.execAnd x rd ra rb s
  | .or x rd ra rb => Sys2Proof.Machine.execOr x rd ra rb s
  | .xor x rd ra rb => Sys2Proof.Machine.execXor x rd ra rb s
  | .andn x rd ra rb => Sys2Proof.Machine.execAndn x rd ra rb s
  | .shl x rd ra rb => Sys2Proof.Machine.execShl x rd ra rb s
  | .shr x rd ra rb => Sys2Proof.Machine.execShr x rd ra rb s
  | .sar x rd ra rb => Sys2Proof.Machine.execSar x rd ra rb s
  | .ror x rd ra rb => Sys2Proof.Machine.execRor x rd ra rb s
  | .mul x rd ra rb => Sys2Proof.Machine.execMul x rd ra rb s
  | .mulh x rd ra rb => Sys2Proof.Machine.execMulh x rd ra rb s
  | .mulhu x rd ra rb => Sys2Proof.Machine.execMulhu x rd ra rb s
  | .div x rd ra rb => Sys2Proof.Machine.execDiv x rd ra rb s
  | .divu x rd ra rb => Sys2Proof.Machine.execDivu x rd ra rb s
  | .rem x rd ra rb => Sys2Proof.Machine.execRem x rd ra rb s
  | .remu x rd ra rb => Sys2Proof.Machine.execRemu x rd ra rb s
  | .clz x rd ra => Sys2Proof.Machine.execClz x rd ra s
  | .rev x rd ra => Sys2Proof.Machine.execRev x rd ra s
  | .sxb x rd ra => Sys2Proof.Machine.execSxb x rd ra s
  | .sxh x rd ra => Sys2Proof.Machine.execSxh x rd ra s
  | .addi x rd ra imm => Sys2Proof.Machine.execAddi x rd ra imm s
  | .andi x rd ra imm => Sys2Proof.Machine.execAndi x rd ra imm s
  | .ori x rd ra imm => Sys2Proof.Machine.execOri x rd ra imm s
  | .xori x rd ra imm => Sys2Proof.Machine.execXori x rd ra imm s
  | .shli x rd ra n => Sys2Proof.Machine.execShli x rd ra n s
  | .shri x rd ra n => Sys2Proof.Machine.execShri x rd ra n s
  | .sari x rd ra n => Sys2Proof.Machine.execSari x rd ra n s
  | .rori x rd ra n => Sys2Proof.Machine.execRori x rd ra n s
  | .cmpi x ra imm => Sys2Proof.Machine.execCmpi x ra imm s
  | .ldi x rd imm => Sys2Proof.Machine.execLdi x rd imm s
  | .lui x rd imm => Sys2Proof.Machine.execLui x rd imm s
  | .ldw x rd ra off => Sys2Proof.Machine.execLdw x rd ra off s
  | .ldh x rd ra off => Sys2Proof.Machine.execLdh x rd ra off s
  | .ldhs x rd ra off => Sys2Proof.Machine.execLdhs x rd ra off s
  | .ldb x rd ra off => Sys2Proof.Machine.execLdb x rd ra off s
  | .ldbs x rd ra off => Sys2Proof.Machine.execLdbs x rd ra off s
  | .stw x rs ra off => Sys2Proof.Machine.execStw x rs ra off s
  | .sth x rs ra off => Sys2Proof.Machine.execSth x rs ra off s
  | .stb x rs ra off => Sys2Proof.Machine.execStb x rs ra off s
  | .push x mask => Sys2Proof.Machine.execPush x mask s
  | .pop x mask => Sys2Proof.Machine.execPop x mask s
  | .adr x rd off => Sys2Proof.Machine.execAdr x rd off s
  | .bcc x cond off => Sys2Proof.Machine.execBcc x cond off s
  | .b x off => Sys2Proof.Machine.execB x off s
  | .jal x off => Sys2Proof.Machine.execJal x off s
  | .jalr x rd ra => Sys2Proof.Machine.execJalr x rd ra s
  | .cbz x ra off => Sys2Proof.Machine.execCbz x ra off s
  | .cbnz x ra off => Sys2Proof.Machine.execCbnz x ra off s
  | .nop x => Sys2Proof.Machine.execNop x s
  | .brk x code => Sys2Proof.Machine.execBrk x code s
  | .rfe x => Sys2Proof.Machine.execRfe x s
  | .evset x ra => Sys2Proof.Machine.execEvset x ra s
  | .evclr x ra => Sys2Proof.Machine.execEvclr x ra s
  | .evpoll x rd ra => Sys2Proof.Machine.execEvpoll x rd ra s
  | .mfs x rd sreg => Sys2Proof.Machine.execMfs x rd sreg s
  | .mts x sreg ra => Sys2Proof.Machine.execMts x sreg ra s
  | .evwait x rd ra rb => Sys2Proof.Machine.execEvwait x rd ra rb s
  | .evwaitTimeout c => Sys2Proof.Machine.execEvwaitTimeout c s
  | .eventRepeat => Sys2Proof.Machine.execEventRepeat s
  | .timerExpiry c => Sys2Proof.Machine.execTimerExpiry c s
  | .shot x ra seq dir => Sys2Proof.Machine.execShot x ra seq dir s
  | .shot2 x ra seq dir => Sys2Proof.Machine.execShot2 x ra seq dir s
  | .qget x rd ra => Sys2Proof.Machine.execQget x rd ra s
  | .qput x rd ra rb => Sys2Proof.Machine.execQput x rd ra rb s
  | .qpeek x rd ra rb => Sys2Proof.Machine.execQpeek x rd ra rb s
  | .cimld x rd ra rb => Sys2Proof.Machine.execCimld x rd ra rb s
  | .cimev x rd ra rb => Sys2Proof.Machine.execCimev x rd ra rb s
  | .leaseTake x rd ra rb => Sys2Proof.Machine.execLeaseTake x rd ra rb s
  | .leaseGive x rd ra rb => Sys2Proof.Machine.execLeaseGive x rd ra rb s
  | .leaseRelease x rd ra rb => Sys2Proof.Machine.execLeaseRelease x rd ra rb s
  | .tallyRead x rd ra rb => Sys2Proof.Machine.execTallyRead x rd ra rb s
  | .tallyIndex x rd ra rb => Sys2Proof.Machine.execTallyIndex x rd ra rb s
  | .tallyConduit x rd ra rb => Sys2Proof.Machine.execTallyConduit x rd ra rb s
  | .tallyCondix x rd ra rb => Sys2Proof.Machine.execTallyCondix x rd ra rb s
  | .ledgCommit x rd => Sys2Proof.Machine.execLedgCommit x rd s
  | .ledgLog x rd ra rb => Sys2Proof.Machine.execLedgLog x rd ra rb s
  | .ldtmSplit x rd ra => Sys2Proof.Machine.execLdtmSplit x rd ra s
  | .ldtmTicks x rd => Sys2Proof.Machine.execLdtmTicks x rd s
  | .usync x rd ra => Sys2Proof.Machine.execUsync x rd ra s
  | .roodPost x rd ra rb => Sys2Proof.Machine.execRoodPost x rd ra rb s
  | .roodTake x rd ra => Sys2Proof.Machine.execRoodTake x rd ra s
  | .coreBoot c => Sys2Proof.Machine.execCoreBoot c s
  | .imgErase c => Sys2Proof.Machine.execImgErase c s
  | .imgProgram c => Sys2Proof.Machine.execImgProgram c s
  | .flashOpDone u readsBack => Sys2Proof.Machine.execFlashOpDone u readsBack s
  | .serviceLoaderFrame c f => Sys2Proof.Machine.execServiceLoaderFrame c f s
  | .isleCommandStart n => Sys2Proof.Machine.execIsleCommandStart n s
  | .twinClaimGrant n late => Sys2Proof.Machine.execTwinClaimGrant n late s
  | .exclusionGrant g late => Sys2Proof.Machine.execExclusionGrant g late s
  | .exclusionRelease g => Sys2Proof.Machine.execExclusionRelease g s
  | .exwait n => Sys2Proof.Machine.execExwait n s
  | .burstStart n clast => Sys2Proof.Machine.execBurstStart n clast s
  | .short n => Sys2Proof.Machine.execShort n s
  | .burstEnd n => Sys2Proof.Machine.execBurstEnd n s
  | .clampEnd n => Sys2Proof.Machine.execClampEnd n s
  | .windowOpen n first overload => Sys2Proof.Machine.execWindowOpen n first overload s
  | .windowClose n rest crossings overload => Sys2Proof.Machine.execWindowClose n rest crossings overload s
  | .recoveryEnd n => Sys2Proof.Machine.execRecoveryEnd n s
  | .portmodeWrite c n val => Sys2Proof.Machine.execPortmodeWrite c n val s
  | .descriptorWrite c m field val => Sys2Proof.Machine.execDescriptorWrite c m field val s
  | .isleEnableWrite c n val => Sys2Proof.Machine.execIsleEnableWrite c n val s
  | .timeDomainEval bk => Sys2Proof.Machine.execTimeDomainEval bk s
  | .digitalEval bk bad1 drifted bad2 => Sys2Proof.Machine.execDigitalEval bk bad1 drifted bad2 s
  | .replicaScanDue bk drifted => Sys2Proof.Machine.execReplicaScanDue bk drifted s
  | .refnow c bk val drifted => Sys2Proof.Machine.execRefnow c bk val drifted s
  | .weightWindowLoad c addr => Sys2Proof.Machine.execWeightWindowLoad c addr s
  | .weightWindowStore c addr val => Sys2Proof.Machine.execWeightWindowStore c addr val s
  | .thrdataAccess c bk write => Sys2Proof.Machine.execThrdataAccess c bk write s
  | .bankWipeDone bk => Sys2Proof.Machine.execBankWipeDone bk s
  | .bankEnableWrite c bk val => Sys2Proof.Machine.execBankEnableWrite c bk val s
  | .tileEnableWrite c tile val => Sys2Proof.Machine.execTileEnableWrite c tile val s
  | .lagTimeout n => Sys2Proof.Machine.execLagTimeout n s
  | .noverdict n => Sys2Proof.Machine.execNoverdict n s
  | .xhflost => Sys2Proof.Machine.execXhflost s
  | .rtdChargeDone n chargeNs => Sys2Proof.Machine.execRtdChargeDone n chargeNs s
  | .rtdCrossing n taps => Sys2Proof.Machine.execRtdCrossing n taps s
  | .rtdopen n => Sys2Proof.Machine.execRtdopen n s
  | .capshort n => Sys2Proof.Machine.execCapshort n s
  | .qtyTakePacket => Sys2Proof.Machine.execQtyTakePacket s
  | .calStart c val => Sys2Proof.Machine.execCalStart c val s
  | .setWindowExpiry k => Sys2Proof.Machine.execSetWindowExpiry k s
  | .clvoteWrite c k val => Sys2Proof.Machine.execClvoteWrite c k val s
  | .voteAgeExpiry k => Sys2Proof.Machine.execVoteAgeExpiry k s
  | .auxaddWrite c a val => Sys2Proof.Machine.execAuxaddWrite c a val s
  | .commitPeriodicDue => Sys2Proof.Machine.execCommitPeriodicDue s
  | .commitComplete readsBack => Sys2Proof.Machine.execCommitComplete readsBack s
  | .heartbeatSend => Sys2Proof.Machine.execHeartbeatSend s
  | .pulseStart n => Sys2Proof.Machine.execPulseStart n s
  | .pulseEnd n => Sys2Proof.Machine.execPulseEnd n s
  | .debtaddWrite c n val => Sys2Proof.Machine.execDebtaddWrite c n val s
  | .inputPulseCount n => Sys2Proof.Machine.execInputPulseCount n s
  | .pinEnableWrite c n val => Sys2Proof.Machine.execPinEnableWrite c n val s
  | .loopStale j => Sys2Proof.Machine.execLoopStale j s
  | .loopLow j vdev meas => Sys2Proof.Machine.execLoopLow j vdev meas s
  | .lownowClear j vdev meas => Sys2Proof.Machine.execLownowClear j vdev meas s
  | .loopEnableWrite c j val => Sys2Proof.Machine.execLoopEnableWrite c j val s
  | .outLockWrite c val => Sys2Proof.Machine.execOutLockWrite c val s
  | .seal c val => Sys2Proof.Machine.execSeal c val s
  | .verifyOpen => Sys2Proof.Machine.execVerifyOpen s
  | .verifyClose => Sys2Proof.Machine.execVerifyClose s
  | .case closed => Sys2Proof.Machine.execCase closed s
  | .magnet present => Sys2Proof.Machine.execMagnet present s
  | .debugAttach => Sys2Proof.Machine.execDebugAttach s
  | .loadaes c slot => Sys2Proof.Machine.execLoadaes c slot s
  | .clear c slot => Sys2Proof.Machine.execClear c slot s
  | .loadvk c slot => Sys2Proof.Machine.execLoadvk c slot s
  | .revokevk c slot => Sys2Proof.Machine.execRevokevk c slot s
  | .nkeyLoad c slot => Sys2Proof.Machine.execNkeyLoad c slot s
  | .nkeyClear c slot => Sys2Proof.Machine.execNkeyClear c slot s
  | .keyCommandDone h => Sys2Proof.Machine.execKeyCommandDone h s
  | .macStart c val => Sys2Proof.Machine.execMacStart c val s
  | .macDin c val => Sys2Proof.Machine.execMacDin c val s
  | .macFinish c val => Sys2Proof.Machine.execMacFinish c val s
  | .imgchkCheck c => Sys2Proof.Machine.execImgchkCheck c s
  | .imgchkDone => Sys2Proof.Machine.execImgchkDone s
  | .imgchkActivate c => Sys2Proof.Machine.execImgchkActivate c s
  | .logdataRead c j => Sys2Proof.Machine.execLogdataRead c j s
  | .slotStart p => Sys2Proof.Machine.execSlotStart p s
  | .frameTransmit p energy => Sys2Proof.Machine.execFrameTransmit p energy s
  | .frameReceive p f => Sys2Proof.Machine.execFrameReceive p f s
  | .ackTransmit p => Sys2Proof.Machine.execAckTransmit p s
  | .ackTimeout p => Sys2Proof.Machine.execAckTimeout p s
  | .synclost p => Sys2Proof.Machine.execSynclost p s
  | .asnLoad c p hi lo => Sys2Proof.Machine.execAsnLoad c p hi lo s
  | .hopGen c p val => Sys2Proof.Machine.execHopGen c p val s
  | .limcfgPresetWrite c p val => Sys2Proof.Machine.execLimcfgPresetWrite c p val s
  | .limitBucketAdvance p dwell => Sys2Proof.Machine.execLimitBucketAdvance p dwell s
  | .portEnableWrite c p val => Sys2Proof.Machine.execPortEnableWrite c p val s
  | .portFallDone p => Sys2Proof.Machine.execPortFallDone p s
  | .radioTest c p val => Sys2Proof.Machine.execRadioTest c p val s
  | .coordinatorStart p => Sys2Proof.Machine.execCoordinatorStart p s
  | .startWindowEnd p => Sys2Proof.Machine.execStartWindowEnd p s
  | .assocResponseTimeout p => Sys2Proof.Machine.execAssocResponseTimeout p s
  | .leaseRenewDue p => Sys2Proof.Machine.execLeaseRenewDue p s
  | .leaseExpiry p x => Sys2Proof.Machine.execLeaseExpiry p x s
  | .quarantineEnd p x => Sys2Proof.Machine.execQuarantineEnd p x s
  | .orphanTimeout p => Sys2Proof.Machine.execOrphanTimeout p s
  | .lastBeacon p => Sys2Proof.Machine.execLastBeacon p s
  | .floodRelay p => Sys2Proof.Machine.execFloodRelay p s
  | .seenCacheExpiry => Sys2Proof.Machine.execSeenCacheExpiry s
  | .nbrRead c => Sys2Proof.Machine.execNbrRead c s
  | .nbrWrite c => Sys2Proof.Machine.execNbrWrite c s
  | .nbrDelete c => Sys2Proof.Machine.execNbrDelete c s
  | .xhfStart => Sys2Proof.Machine.execXhfStart s
  | .xhfLingerEnd => Sys2Proof.Machine.execXhfLingerEnd s
  | .xhfStartTimeout => Sys2Proof.Machine.execXhfStartTimeout s
  | .xhfreqWrite c val => Sys2Proof.Machine.execXhfreqWrite c val s
  | .rtcTrim => Sys2Proof.Machine.execRtcTrim s
  | .xt32kSwitch => Sys2Proof.Machine.execXt32kSwitch s
  | .xtfail gap => Sys2Proof.Machine.execXtfail gap s
  | .timeSubRead c => Sys2Proof.Machine.execTimeSubRead c s
  | .timeSecRead c => Sys2Proof.Machine.execTimeSecRead c s
  | .timeNewWrite c val => Sys2Proof.Machine.execTimeNewWrite c val s
  | .timeSet => Sys2Proof.Machine.execTimeSet s
  | .modeWrite c val => Sys2Proof.Machine.execModeWrite c val s
  | .guardNaveFallTimeout => Sys2Proof.Machine.execGuardNaveFallTimeout s
  | .standbyEntry => Sys2Proof.Machine.execStandbyEntry s
  | .wakeAlarm => Sys2Proof.Machine.execWakeAlarm s
  | .domainPowerUp vmain => Sys2Proof.Machine.execDomainPowerUp vmain s
  | .unitRiseDone u => Sys2Proof.Machine.execUnitRiseDone u s
  | .unitFallDone u => Sys2Proof.Machine.execUnitFallDone u s
  | .cfgErase c => Sys2Proof.Machine.execCfgErase c s
  | .cfgProgram c => Sys2Proof.Machine.execCfgProgram c s
  | .cfgdataRead c => Sys2Proof.Machine.execCfgdataRead c s
  | .nrstReset => Sys2Proof.Machine.execNrstReset s
  | .rstreqChoircore c => Sys2Proof.Machine.execRstreqChoircore c s
  | .rstreqNavecore c => Sys2Proof.Machine.execRstreqNavecore c s
  | .rstreqDomains c => Sys2Proof.Machine.execRstreqDomains c s
  | .wdogKick c val => Sys2Proof.Machine.execWdogKick c val s
  | .wdogExpiry c => Sys2Proof.Machine.execWdogExpiry c s
  | .gautoClear => Sys2Proof.Machine.execGautoClear s
  | .nrstRelease => Sys2Proof.Machine.execNrstRelease s
  | .secondEdge => Sys2Proof.Machine.execSecondEdge s
  | .debugPortAccess addr write => Sys2Proof.Machine.execDebugPortAccess addr write s
  | .spiTargetAccess addr write => Sys2Proof.Machine.execSpiTargetAccess addr write s
  | .debugHalt => Sys2Proof.Machine.execDebugHalt s
  | .debugResume singleStep => Sys2Proof.Machine.execDebugResume singleStep s
  | .sealingDone => Sys2Proof.Machine.execSealingDone s
  | .macTagReady => Sys2Proof.Machine.execMacTagReady s
  | .frameTransmitEnd p => Sys2Proof.Machine.execFrameTransmitEnd p s
  | .hopGenDone p => Sys2Proof.Machine.execHopGenDone p s
  | .counterMarkDone slot => Sys2Proof.Machine.execCounterMarkDone slot s

end Sys2Proof.Machine
end

