-- ==== Sys2Proof/Machine/Step.lean ====
section
/-! DEFINITION. One step of the block: the command at the front of the queue; with none waiting, one tick of the RTC. -/
namespace Sys2Proof.Machine

/-- One step. The command at the front leaves the queue and has its effect; on an empty queue time passes: one tick of
TICK32, with what the rules time by it (R432). -/
def step (s : State) : Out :=
  match s.pending with
  | c :: rest => exec c { s with pending := rest }
  | [] => .next (s.advance 1)

/-- The state with the command that a word spells at the front of its queue; unchanged where the word spells none. -/
def State.withFetchWord (s : State) (nbits w : Nat) : State :=
  match decodeTableWord nbits w with
  | some i => { s with pending := i :: s.pending }
  | none => s

end Sys2Proof.Machine
end

