-- ==== Sys2Proof/Safety.lean ====
section
/-! DEFINITION. What the claims call sound: the canonical form of the tables that stand for the registers, the own
memories and the configuration flash, the hard-wired w0, the word-aligned program registers, and the reserved bits of the
status registers; and which outcomes answer a next state. -/
namespace Sys2Proof

/-- The issue of a core instruction; none for the other commands. -/
def Instr.issue? : Instr → Option Issue
  | .add i _ _ _ | .sub i _ _ _ | .adc i _ _ _ | .sbc i _ _ _ | .and i _ _ _ | .or i _ _ _ | .xor i _ _ _
  | .andn i _ _ _ | .shl i _ _ _ | .shr i _ _ _ | .sar i _ _ _ | .ror i _ _ _ | .mul i _ _ _ | .mulh i _ _ _
  | .mulhu i _ _ _ | .div i _ _ _ | .divu i _ _ _ | .rem i _ _ _ | .remu i _ _ _ | .clz i _ _ | .rev i _ _
  | .sxb i _ _ | .sxh i _ _ | .addi i _ _ _ | .andi i _ _ _ | .ori i _ _ _ | .xori i _ _ _ | .shli i _ _ _
  | .shri i _ _ _ | .sari i _ _ _ | .rori i _ _ _ | .cmpi i _ _ | .ldi i _ _ | .lui i _ _ | .ldw i _ _ _
  | .ldh i _ _ _ | .ldhs i _ _ _ | .ldb i _ _ _ | .ldbs i _ _ _ | .stw i _ _ _ | .sth i _ _ _ | .stb i _ _ _
  | .push i _ | .pop i _ | .adr i _ _ | .bcc i _ _ | .b i _ | .jal i _ | .jalr i _ _ | .cbz i _ _ | .cbnz i _ _
  | .nop i | .brk i _ | .rfe i | .evset i _ | .evclr i _ | .evpoll i _ _ | .mfs i _ _ | .mts i _ _ | .evwait i _ _ _
  | .shot i _ _ _ | .shot2 i _ _ _ | .qget i _ _ | .qput i _ _ _ | .qpeek i _ _ _ | .cimld i _ _ _ | .cimev i _ _ _
  | .leaseTake i _ _ _ | .leaseGive i _ _ _ | .leaseRelease i _ _ _ | .tallyRead i _ _ _ | .tallyIndex i _ _ _
  | .tallyConduit i _ _ _ | .tallyCondix i _ _ _ | .ledgCommit i _ | .ledgLog i _ _ _ | .ldtmSplit i _ _
  | .ldtmTicks i _ | .usync i _ _ | .roodPost i _ _ _ | .roodTake i _ _ => some i
  | _ => none

end Sys2Proof

namespace Sys2Proof.Machine

/-- A word address: a multiple of 4. -/
abbrev alignedWord (w : Word) : Prop := w.toNat % 4 = 0

/-- The reserved bits 23 to 1 of PSR and EPSR are 0 (R146). -/
abbrev statusReserved (w : Word) : Prop := w &&& 0x00FFFFFE = 0

/-- A core's data is sound: own memory in canonical form (keys rise strictly, no entry equals what an unlisted key reads
as), nothing stored in w0 (R111), PC, EPC, FVEC and SPLIM multiples of 4 (R113, R146), reserved status bits 0 (R146). -/
structure Core.Sound (k : Core) : Prop where
  mem : k.memWf = true
  w0 : k.w[0] = 0
  pc : alignedWord k.pc
  epc : alignedWord k.epc
  fvec : alignedWord k.fvec
  splim : alignedWord k.splim
  psr : statusReserved k.psr
  epsr : statusReserved k.epsr

/-- The state is sound: the register table and the configuration flash in canonical form, and both cores sound. -/
structure State.Sound (s : State) : Prop where
  regs : twf regReset s.regs = true
  config : twf (fun _ => (0xFF : Octet)) s.sacr.config = true
  choir : s.choir.Sound
  nave : s.nave.Sound

/-- A sound state whose queue is p. -/
structure State.Kept (p : List Instr) (s : State) : Prop where
  queue : s.pending = p
  sound : s.Sound

/-- An outcome that is a next state. -/
def answers (o : Out) : Bool :=
  match o with
  | .next _ => true
  | .fault _ => false
  | .refused _ => false

/-! ### What the claims about core instructions say -/

/-- The core executes instructions, and its fetch at the PC succeeds: the PC lies in populated own memory, no flash
operation keeps its slot busy, and the word there is not uncorrectable (R131, R144, R176). -/
def State.fetches (s : State) (c : CoreId) : Bool :=
  s.executes c && (inFlash c (s.core c).pc.toNat || inSram c (s.core c).pc.toNat) &&
    !s.flashStall c (s.core c).pc.toNat && !(s.core c).isDouble (s.core c).pc.toNat

/-- An instruction reaches its own effect: its fetch succeeds, and every must-be-zero field is 0 (R116). -/
def State.ready (s : State) (i : Issue) : Bool := s.fetches i.core && i.zero

/-- PSR keeps its bits below the flags, and the flags are n, z, c and v (R120, R146). -/
def FlagsBecome (old new : Word) (n z c v : Bool) : Prop :=
  new.getLsbD 31 = n ∧ new.getLsbD 30 = z ∧ new.getLsbD 29 = c ∧ new.getLsbD 28 = v ∧
    ∀ j < 28, new.getLsbD j = old.getLsbD j

/-- The flags of a core's PSR. -/
def Core.flagN (k : Core) : Bool := k.psr.getLsbD 31
/-- Z. -/
def Core.flagZ (k : Core) : Bool := k.psr.getLsbD 30
/-- C. -/
def Core.flagC (k : Core) : Bool := k.psr.getLsbD 29
/-- V. -/
def Core.flagV (k : Core) : Bool := k.psr.getLsbD 28

/-- Only register rd of a core has changed, to r; a write to w0 is discarded (R111). -/
def Writes (s t : State) (c : CoreId) (rd : Reg) (r : Word) : Prop :=
  ∀ q : Reg, t.reg c q = if q = rd ∧ rd ≠ 0 then r else s.reg c q

/-- No general register of a core has changed. -/
def KeepsRegs (s t : State) (c : CoreId) : Prop := ∀ q : Reg, t.reg c q = s.reg c q

/-- No byte of a core's own memory has changed, and no error mark. -/
def KeepsMemory (s t : State) (c : CoreId) : Prop :=
  (∀ a, (t.core c).byte a = (s.core c).byte a) ∧ (t.core c).single = (s.core c).single ∧
    (t.core c).double = (s.core c).double

/-- The exception registers of a core stand. -/
def KeepsSaved (s t : State) (c : CoreId) : Prop :=
  (t.core c).epsr = (s.core c).epsr ∧ (t.core c).epc = (s.core c).epc ∧ (t.core c).fcause = (s.core c).fcause ∧
    (t.core c).faddr = (s.core c).faddr

/-- FVEC, SPLIM, TIMER and the queue watches of a core stand. -/
def KeepsControl (s t : State) (c : CoreId) : Prop :=
  (t.core c).fvec = (s.core c).fvec ∧ (t.core c).splim = (s.core c).splim ∧ (t.core c).timer = (s.core c).timer ∧
    (t.core c).qw = (s.core c).qw

/-- MEMERR has counted a correction for each listed address whose word holds a single-bit error (R131). -/
def Corrects (s t : State) (c : CoreId) (l : List Nat) : Prop :=
  (t.core c).memerr = (l.foldl (fun k a => if k.isSingle a then k.countCorr a else k) (s.core c)).memerr

/-- The special registers of a core beside the cycle count stand; MEMERR counts a correction of the fetched word. -/
def KeepsSpecial (s t : State) (c : CoreId) : Prop :=
  KeepsControl s t c ∧ (t.core c).evpend = (s.core c).evpend ∧ Corrects s t c [(s.core c).pc.toNat]

/-- The rest of the device stands, but for the activity mark of the core's unit (R460). -/
def KeepsDevice (s t : State) (c : CoreId) : Prop := t = (s.activity (coreNum c)).setCore c (t.core c)

/-- The core runs on; a debugger's single step halts it again (R343). -/
def RunsOn (s t : State) (c : CoreId) : Prop :=
  (t.core c).run = .running ∧ (t.core c).halted = (s.core c).stepping ∧ (t.core c).stepping = false

/-- The cycle count grew by n and by the load-use stall of the registers read (R143). -/
def Takes (s t : State) (c : CoreId) (srcs : List Reg) (n : Nat) : Prop :=
  (t.core c).cycle = (s.core c).cycle + loadStall (s.core c) srcs + BitVec.ofNat 32 n

/-- What every instruction without memory or device effect leaves unchanged. -/
def Frame (s t : State) (c : CoreId) : Prop :=
  KeepsMemory s t c ∧ KeepsSaved s t c ∧ KeepsSpecial s t c ∧ KeepsDevice s t c ∧ RunsOn s t c

/-- An instruction that goes on to the next word after n cycles, with its frame. -/
def Retires (s t : State) (c : CoreId) (srcs : List Reg) (n : Nat) : Prop :=
  (t.core c).pc = (s.core c).pc + 4 ∧ Takes s t c srcs n ∧ Frame s t c

/-- A fault outside a handler (R139): EPSR and EPC take PSR and the PC, FCAUSE and FADDR the cause and the address, FH is
set, the PC takes FVEC, the entry takes 3 cycles after the issue cycle; no general register, no memory and no flag has
changed. -/
def FaultEntered (s t : State) (c : CoreId) (srcs : List Reg) (cause : Nat) (addr : Word) : Prop :=
  (t.core c).epsr = (s.core c).psr ∧ (t.core c).epc = (s.core c).pc ∧ (t.core c).fcause = BitVec.ofNat 32 cause ∧
    (t.core c).faddr = addr ∧ (t.core c).psr = (s.core c).psr ||| 1 ∧ (t.core c).pc = (s.core c).fvec ∧
    Takes s t c srcs 4 ∧ KeepsRegs s t c ∧ KeepsMemory s t c ∧ KeepsSpecial s t c ∧ KeepsDevice s t c ∧ RunsOn s t c

/-- The core is in no fault handler (R142). -/
def State.outsideHandler (s : State) (c : CoreId) : Bool := !(s.core c).psr.getLsbD 0

/-- The condition codes of bcc (R123), over N, Z, C, V and QT.V of PSR. -/
def condition (psr : Word) (cond : BitVec 4) : Bool :=
  let n := psr.getLsbD 31
  let z := psr.getLsbD 30
  let c := psr.getLsbD 29
  let v := psr.getLsbD 28
  let q := psr.getLsbD 27
  [z, !z, c, !c, n, !n, v, !v, c && !z, !c || z, n == v, n != v, !z && n == v, z || n != v, q, !q].getD cond.toNat false

/-- The crypt is powered, the present period has seen nothing, no watchdog runs, and no core but c has an armed timer or
sleeps. -/
def calmBut (s : State) (c : CoreId) : Prop :=
  s.domOn .crypt ∧ s.period = Period.empty ∧ ∀ d : CoreId, s.flag (SYS.WDOG_EN (coreNum d)) = false ∧
    (d ≠ c → (s.core d).timer.getLsbD 31 = false ∧ ∀ r m e, (s.core d).run ≠ .asleep r m e)

/-- The special registers that an mts may change, in the order of their numbers: PSR, EPSR, EPC, FCAUSE, FADDR, FVEC,
SPLIM, EVPEND (its edge bits), TIMER, then QW0 to QW7 (R146). -/
def specials (k : Core) : List Word :=
  [k.psr, k.epsr, k.epc, k.fcause, k.faddr, k.fvec, k.splim, k.evpend, k.timer] ++ k.qw.toList

/-- Where a mask's register stands in the stack range: the number of lower registers in the mask (R129). -/
def maskRank (mask : BitVec 16) (r : Nat) : Nat := ((List.range r).filter (fun k => mask.getLsbD k)).length

/-- The number of registers in a mask. -/
def maskCount (mask : BitVec 16) : Nat := maskRank mask 16

/-- A stack range of n words from an address on lies in populated own SRAM, at or above SPLIM, word-aligned (R129). -/
def stackRange (s : State) (c : CoreId) (a n : Nat) : Prop :=
  a % 4 = 0 ∧ ∀ j < n, (s.core c).splim.toNat ≤ a + 4 * j ∧ inSram c (a + 4 * j) = true

/-! ### What the claims about device instructions and register commands say -/

/-- The core as the body of an instruction finds it: a correction of the fetched word counted, the load-use stall of the
registers read added (R131, R143). -/
def Core.fetched (k : Core) (srcs : List Reg) : Core :=
  let k := if k.isSingle k.pc.toNat then k.countCorr k.pc.toNat else k
  { k with cycle := k.cycle + loadStall k srcs, lastLoad := none }

/-- The core after its instruction: a debugger's single step halts it again (R343). -/
def Core.stepped (k : Core) : Core := if k.stepping then { k with halted := true, stepping := false } else k

/-- The state in which the effect of an issued instruction begins: fetched, its core's unit active (R460). -/
def State.issued (s : State) (c : CoreId) (srcs : List Reg) : State :=
  (s.activity (coreNum c)).setCore c ((s.core c).fetched srcs)

/-- A core that goes on to the next word after n cycles. -/
def Core.goesOn (k : Core) (n : Nat) : Core := { k with pc := k.pc + 4, cycle := k.cycle + BitVec.ofNat 32 n }.stepped

/-- An instruction ends in t with the word v in rd, after a wait that the spec bounds: no shorter than 30 ns, no longer
than some ns (R145, R169). Between the bounds the count is a free value. m is the state after its device effect. -/
def Answers (m t : State) (c : CoreId) (rd : Reg) (v : Word) (ns : Nat) : Prop :=
  ∃ n, (match c with | .choir => 2 | .nave => 3) ≤ n ∧ n ≤ cyclesOf c ns ∧
    t = m.spend.setCore c (((m.core c).setReg rd v).goesOn n)

/-- An access reaches its register: the domain of its core is ON, R34, R37, R39 and R40 give no cause to refuse it, and the
island of the register answers (R39). -/
def State.allows (s : State) (c : CoreId) (a : Nat) (write : Bool) : Bool :=
  s.domOn (coreDomain c) && (s.reach c a write).isNone && !s.silentAt a

/-- A request of a core's device instruction reaches an island now, and the island answers it (R32, R39). -/
def State.serves (s : State) (c : CoreId) (i : Island) : Bool := !s.dark c i && !s.silent i

end Sys2Proof.Machine
end

