-- ==== Sys2Proof/Certificates/Slice0/Obligations.lean ====
section
/-! DEFINITION. The statements for the provers. -/
open Sys2Proof Sys2Proof.Machine

/-! ### The block -/

/-- A step takes the command at the front of the queue: it is exec of that command on the state with the queue's rest. -/
def Obligations.StepRunsTheFrontCommand : Prop :=
  ∀ (c : Instr) (s : State), step { s with pending := c :: s.pending } = exec c s

/-- Every command has a meaning, and every meaning answers a next state: no command faults or is refused. -/
def Obligations.EveryCommandAnswersANextState : Prop :=
  ∀ (c : Instr) (s : State), answers (exec c s) = true

/-- No command touches the queue of commands: only the step takes from it. -/
def Obligations.ExecKeepsTheQueue : Prop :=
  ∀ (c : Instr) (s t : State), exec c s = .next t → t.pending = s.pending

/-- The state right after reset is sound. -/
def Obligations.ResetStateIsSound : Prop := State.reset.Sound

/-- From every sound state, every step leads to a sound state: the register table, the own memories and the configuration
flash keep their canonical form, w0 stays 0, PC, EPC, FVEC and SPLIM stay multiples of 4, the reserved bits of PSR and
EPSR stay 0. -/
def Obligations.EveryStepKeepsTheStateSound : Prop :=
  ∀ s t : State, s.Sound → step s = .next t → t.Sound

/-! ### The core instructions -/

/-- The words of the core instructions (R115 to R119, R124, R147): the word of an instruction whose reserved fields are 0
decodes to it with every operand at every value; a word that decodes to such an instruction is that instruction's word; a
reserved opcode is an illegal word. -/
def Obligations.InstructionWordsDecodeToTheirInstructions : Prop :=
  ∀ (c : CoreId) (w : Word),
    (∀ i : Instr, i.issue? = some ⟨c, true⟩ → encodeProlu i = some w → decodeProlu c w = i) ∧
    ((decodeProlu c w).issue? = some ⟨c, true⟩ → encodeProlu (decodeProlu c w) = some w) ∧
    (∀ n : Fin 64, w.extractLsb' 26 6 = BitVec.ofNat 6 n.val → n.val = 0x1E ∨ n.val = 0x1F ∨ 0x2E ≤ n.val →
      decodeProlu c w = illegalWord c)

/-- Additions and subtractions (R117, R118, R120): result, all four flags, and everything else unchanged. -/
def Obligations.AddAndSubtractSetResultAndFlags : Prop :=
  ∀ (s : State) (i : Issue) (rd ra rb : Reg) (imm : BitVec 18), s.ready i →
    let c := i.core
    let a := s.reg c ra
    let b := s.reg c rb
    let x := sext18 imm
    let cin := (s.core c).flagC
    let psr := (s.core c).psr
    let addV := fun (a b r : Word) => a.msb == b.msb && r.msb != a.msb
    let subV := fun (a b r : Word) => a.msb != b.msb && r.msb != a.msb
    let ends := fun (o : Out) (srcs : List Reg) (r : Word) (cy v : Bool) =>
      ∃ t, o = .next t ∧ Writes s t c rd r ∧ FlagsBecome psr (t.core c).psr r.msb (r == 0) cy v ∧ Retires s t c srcs 1
    ends (exec (.add i rd ra rb) s) [ra, rb] (a + b) (decide (2 ^ 32 ≤ a.toNat + b.toNat)) (addV a b (a + b)) ∧
    ends (exec (.sub i rd ra rb) s) [ra, rb] (a - b) (decide (b ≤ a)) (subV a b (a - b)) ∧
    ends (exec (.adc i rd ra rb) s) [ra, rb] (a + b + (if cin then 1 else 0))
      (decide (2 ^ 32 ≤ a.toNat + b.toNat + cin.toNat)) (addV a b (a + b + (if cin then 1 else 0))) ∧
    ends (exec (.sbc i rd ra rb) s) [ra, rb] (a - b - (if cin then 0 else 1))
      (decide (b.toNat + (!cin).toNat ≤ a.toNat)) (subV a b (a - b - (if cin then 0 else 1))) ∧
    ends (exec (.addi i rd ra imm) s) [ra] (a + x) (decide (2 ^ 32 ≤ a.toNat + x.toNat)) (addV a x (a + x)) ∧
    (∃ t, exec (.cmpi i ra imm) s = .next t ∧ KeepsRegs s t c ∧
      FlagsBecome psr (t.core c).psr (a - x).msb (a == x) (decide (x ≤ a)) (subV a x (a - x)) ∧ Retires s t c [ra] 1)

/-- Logic operations and multiplies, and the unary functions of the EXT group (R117 to R120): the result, N and Z by it,
C and V unchanged, and everything else unchanged. -/
def Obligations.LogicMultiplyAndUnaryResults : Prop :=
  ∀ (s : State) (i : Issue) (rd ra rb : Reg) (imm : BitVec 18), s.ready i →
    let c := i.core
    let a := s.reg c ra
    let b := s.reg c rb
    let x := zext18 imm
    let ends := fun (o : Out) (srcs : List Reg) (r : Word) (n : Nat) =>
      ∃ t, o = .next t ∧ Writes s t c rd r ∧
        FlagsBecome (s.core c).psr (t.core c).psr r.msb (r == 0) (s.core c).flagC (s.core c).flagV ∧ Retires s t c srcs n
    ends (exec (.and i rd ra rb) s) [ra, rb] (a &&& b) 1 ∧ ends (exec (.or i rd ra rb) s) [ra, rb] (a ||| b) 1 ∧
    ends (exec (.xor i rd ra rb) s) [ra, rb] (a ^^^ b) 1 ∧ ends (exec (.andn i rd ra rb) s) [ra, rb] (a &&& ~~~b) 1 ∧
    ends (exec (.andi i rd ra imm) s) [ra] (a &&& x) 1 ∧ ends (exec (.ori i rd ra imm) s) [ra] (a ||| x) 1 ∧
    ends (exec (.xori i rd ra imm) s) [ra] (a ^^^ x) 1 ∧
    ends (exec (.mul i rd ra rb) s) [ra, rb] (BitVec.ofNat 32 (a.toNat * b.toNat)) 2 ∧
    ends (exec (.mulh i rd ra rb) s) [ra, rb] ((a.signExtend 64 * b.signExtend 64).extractLsb' 32 32) 3 ∧
    ends (exec (.mulhu i rd ra rb) s) [ra, rb] ((a.setWidth 64 * b.setWidth 64).extractLsb' 32 32) 3 ∧
    ends (exec (.rev i rd ra) s) [ra]
      (a.extractLsb' 0 8 ++ a.extractLsb' 8 8 ++ a.extractLsb' 16 8 ++ a.extractLsb' 24 8) 1 ∧
    ends (exec (.sxb i rd ra) s) [ra] ((a.extractLsb' 0 8).signExtend 32) 1 ∧
    ends (exec (.sxh i rd ra) s) [ra] ((a.extractLsb' 0 16).signExtend 32) 1 ∧
    ∃ n : Nat, n ≤ 32 ∧ (∀ j < 32, 31 - n < j → a.getLsbD j = false) ∧ (n = 32 → a.getLsbD 0 = false) ∧
      (n < 32 → a.getLsbD (31 - n) = true) ∧ ends (exec (.clz i rd ra) s) [ra] (BitVec.ofNat 32 n) 1

/-- Shifts (R117, R118, R120, R121): amounts of 0 to 255 from a register, 0 to 31 from the instruction; C is the last bit
shifted out, and stands for an amount of 0; V stands. -/
def Obligations.ShiftsAndTheirCarry : Prop :=
  ∀ (s : State) (i : Issue) (rd ra rb : Reg) (n : BitVec 5), s.ready i →
    let c := i.core
    let a := s.reg c ra
    let m := (s.reg c rb).toNat % 256
    let ror := (s.reg c rb).toNat % 32
    let cin := (s.core c).flagC
    let ends := fun (o : Out) (srcs : List Reg) (r : Word) (cy : Bool) =>
      ∃ t, o = .next t ∧ Writes s t c rd r ∧
        FlagsBecome (s.core c).psr (t.core c).psr r.msb (r == 0) cy (s.core c).flagV ∧ Retires s t c srcs 1
    let shlC := fun k => if k = 0 then cin else if 32 < k then false else a.getLsbD (32 - k)
    let shrC := fun k => if k = 0 then cin else if 32 < k then false else a.getLsbD (k - 1)
    let sarC := fun k => if k = 0 then cin else if 32 < k then a.msb else a.getLsbD (k - 1)
    let rorC := fun k => if k = 0 then cin else a.getLsbD (k - 1)
    ends (exec (.shl i rd ra rb) s) [ra, rb] (a <<< m) (shlC m) ∧
    ends (exec (.shr i rd ra rb) s) [ra, rb] (a >>> m) (shrC m) ∧
    ends (exec (.sar i rd ra rb) s) [ra, rb] (a.sshiftRight m) (sarC m) ∧
    ends (exec (.ror i rd ra rb) s) [ra, rb] (a.rotateRight ror) (rorC ror) ∧
    ends (exec (.shli i rd ra n) s) [ra] (a <<< n.toNat) (shlC n.toNat) ∧
    ends (exec (.shri i rd ra n) s) [ra] (a >>> n.toNat) (shrC n.toNat) ∧
    ends (exec (.sari i rd ra n) s) [ra] (a.sshiftRight n.toNat) (sarC n.toNat) ∧
    ends (exec (.rori i rd ra n) s) [ra] (a.rotateRight n.toNat) (rorC n.toNat)

/-- Divisions (R119, R122, R142): a zero divisor raises DIVZERO, which inside a handler resets the core; the overflowing div returns 0x8000_0000 and sets V, and every
other div clears V. -/
def Obligations.DivisionsAndDivideByZero : Prop :=
  ∀ (s : State) (i : Issue) (rd ra rb : Reg), s.ready i →
    let c := i.core
    let a := s.reg c ra
    let b := s.reg c rb
    let ends := fun (o : Out) (r : Word) (v : Bool) =>
      ∃ t, o = .next t ∧ Writes s t c rd r ∧
        FlagsBecome (s.core c).psr (t.core c).psr r.msb (r == 0) (s.core c).flagC v ∧ Retires s t c [ra, rb] 34
    let keep := (s.core c).flagV
    (b ≠ 0 →
      ends (exec (.div i rd ra rb) s) (if a = 0x80000000 ∧ b = 0xFFFFFFFF then 0x80000000 else BitVec.ofInt 32 (a.toInt.tdiv b.toInt))
        (a == 0x80000000 && b == 0xFFFFFFFF) ∧
      ends (exec (.divu i rd ra rb) s) (BitVec.ofNat 32 (a.toNat / b.toNat)) keep ∧
      ends (exec (.rem i rd ra rb) s) (if a = 0x80000000 ∧ b = 0xFFFFFFFF then 0 else BitVec.ofInt 32 (a.toInt.tmod b.toInt)) keep ∧
      ends (exec (.remu i rd ra rb) s) (BitVec.ofNat 32 (a.toNat % b.toNat)) keep) ∧
    (b = 0 → s.outsideHandler c →
      ∀ x ∈ [Instr.div i rd ra rb, .divu i rd ra rb, .rem i rd ra rb, .remu i rd ra rb],
        ∃ t, exec x s = .next t ∧ FaultEntered s t c [ra, rb] faultDivzero 0) ∧
    (b = 0 → s.outsideHandler c = false →
      ∀ x ∈ [Instr.div i rd ra rb, .divu i rd ra rb, .rem i rd ra rb, .remu i rd ra rb],
        ∃ t, exec x s = .next t ∧ t.core c = (s.core c).afterReset c)

/-- ldi, lui, adr and nop (R117, R124): the value written, no flag changed, one cycle. -/
def Obligations.ConstantsAndNopRetire : Prop :=
  ∀ (s : State) (i : Issue) (rd : Reg) (imm : BitVec 22) (hi : BitVec 16), s.ready i →
    let c := i.core
    let ends := fun (o : Out) (r : Word) =>
      ∃ t, o = .next t ∧ Writes s t c rd r ∧ (t.core c).psr = (s.core c).psr ∧ Retires s t c [] 1
    ends (exec (.ldi i rd imm) s) (imm.signExtend 32) ∧
    ends (exec (.lui i rd hi) s) (hi ++ 0#16) ∧
    ends (exec (.adr i rd imm) s) ((s.core c).pc + BitVec.ofInt 32 (4 * imm.toInt)) ∧
    (∃ t, exec (.nop i) s = .next t ∧ KeepsRegs s t c ∧ (t.core c).psr = (s.core c).psr ∧ Retires s t c [] 1)

/-- A reserved field that is not zero raises ILLEGAL, whatever the instruction (R116, R139, R140). -/
def Obligations.NonZeroReservedFieldIsIllegal : Prop :=
  ∀ (x : Instr) (i : Issue) (s : State), x.issue? = some i → s.fetches i.core → i.zero = false → s.outsideHandler i.core →
    ∃ t srcs, exec x s = .next t ∧ FaultEntered s t i.core srcs faultIllegal 0

/-- A core instruction changes nothing on a core that does not execute: OFF, booting, in the loader, asleep, halted, or in
a domain that is not ON (the model's choice, log entry 2). -/
def Obligations.CoreThatDoesNotExecuteIsUnchanged : Prop :=
  ∀ (x : Instr) (i : Issue) (s : State), x.issue? = some i → s.executes i.core = false → exec x s = .next s

/-- Branches and jumps (R117, R123, R143, R144): the target counts from the instruction itself; a taken branch or a jump
takes 2 cycles, one more into flash on the nave core, a branch not taken 1; no flag changes. -/
def Obligations.BranchesAndJumpsGoToTheirTargets : Prop :=
  ∀ (s : State) (i : Issue) (rd ra : Reg) (cond : BitVec 4) (off : BitVec 22) (far : BitVec 26), s.ready i →
    let c := i.core
    let pc := (s.core c).pc
    let a := s.reg c ra
    let near := pc + BitVec.ofInt 32 (4 * off.toInt)
    let long := pc + BitVec.ofInt 32 (4 * far.toInt)
    let extra := fun (w : Word) => if c = .nave ∧ w.toNat < 0x20000000 then 1 else 0
    let goes := fun (t : State) (srcs : List Reg) (w : Word) =>
      (t.core c).pc = w ∧ (t.core c).psr = (s.core c).psr ∧ Takes s t c srcs (2 + extra w) ∧ Frame s t c
    let branch := fun (o : Out) (srcs : List Reg) (taken : Bool) =>
      ∃ t, o = .next t ∧ KeepsRegs s t c ∧
        if taken then goes t srcs near else (t.core c).psr = (s.core c).psr ∧ Retires s t c srcs 1
    branch (exec (.bcc i cond off) s) [] (condition (s.core c).psr cond) ∧
    branch (exec (.cbz i ra off) s) [ra] (a == 0) ∧ branch (exec (.cbnz i ra off) s) [ra] (a != 0) ∧
    (∃ t, exec (.b i far) s = .next t ∧ KeepsRegs s t c ∧ goes t [] long) ∧
    (∃ t, exec (.jal i far) s = .next t ∧ Writes s t c 14 (pc + 4) ∧ goes t [] long) ∧
    (a.toNat % 4 = 0 → ∃ t, exec (.jalr i rd ra) s = .next t ∧ Writes s t c rd (pc + 4) ∧ goes t [ra] a) ∧
    (a.toNat % 4 ≠ 0 → s.outsideHandler c →
      ∃ t, exec (.jalr i rd ra) s = .next t ∧ FaultEntered s t c [ra] faultAlign a)

/-- brk and rfe (R124, R139 to R141): brk raises BREAK with its code in FADDR, or halts a core that a debug session holds
(the choir core alone, R343); rfe restores the flags and QT from EPSR, clears FH and continues at EPC after 3 cycles;
outside a handler it raises ILLEGAL. -/
def Obligations.BreakAndReturnFromFault : Prop :=
  ∀ (s : State) (i : Issue) (code : BitVec 14), s.ready i →
    let c := i.core
    let held := decide (c = .choir) && s.flag SACR.SEAL_DBG
    (s.outsideHandler c → held = false →
      ∃ t, exec (.brk i code) s = .next t ∧ FaultEntered s t c [] faultBreak (code.setWidth 32)) ∧
    (held = true → ∃ t, exec (.brk i code) s = .next t ∧ (t.core c).halted = true ∧ (t.core c).pc = (s.core c).pc + 4 ∧
      (t.core c).psr = (s.core c).psr ∧ KeepsRegs s t c ∧ KeepsMemory s t c ∧ KeepsSaved s t c ∧ KeepsSpecial s t c ∧
      KeepsDevice s t c) ∧
    (s.outsideHandler c = false →
      ∃ t, exec (.rfe i) s = .next t ∧ (t.core c).pc = (s.core c).epc ∧ (t.core c).psr = (s.core c).epsr &&& ~~~1#32 ∧
        Takes s t c [] (3 + if c = .nave ∧ (s.core c).epc.toNat < 0x20000000 then 1 else 0) ∧ KeepsRegs s t c ∧
        Frame s t c) ∧
    (s.outsideHandler c → ∃ t, exec (.rfe i) s = .next t ∧ FaultEntered s t c [] faultIllegal 0)

/-! ### Events and special registers of a core -/

/-- evset, evclr and evpoll (R124, R133, R134) on EVPEND as a core reads it: evset sets the soft events 24 to 31 named in
ra; evclr and evpoll clear the named edge events, and a queue watch (16 to 23) keeps its level; evpoll writes what it
found. evwait (R136): ILLEGAL with no mask and no timeout; an event of the mask already pending is cleared and written to rd
in 2 cycles; otherwise the core sleeps on the mask, with the deadline that rb mod 2^28 gives, and writes nothing. -/
def Obligations.EventInstructionsAndEvwait : Prop :=
  (∀ (s : State) (i : Issue) (rd ra : Reg), s.ready i →
     let c := i.core
     let a := s.reg c ra
     let watch := fun (j : Nat) => decide (16 ≤ j ∧ j < 24)
     let goes := fun (t : State) (srcs : List Reg) =>
       (t.core c).pc = (s.core c).pc + 4 ∧ (t.core c).psr = (s.core c).psr ∧ Takes s t c srcs 1 ∧ KeepsMemory s t c ∧
         KeepsSaved s t c ∧ KeepsControl s t c ∧ KeepsDevice s t c ∧ RunsOn s t c
     (∃ t, exec (.evset i ra) s = .next t ∧ KeepsRegs s t c ∧ goes t [ra] ∧
       ∀ j < 32, (t.evpend c).getLsbD j = ((s.evpend c).getLsbD j || (decide (24 ≤ j) && a.getLsbD j))) ∧
     (∃ t, exec (.evclr i ra) s = .next t ∧ KeepsRegs s t c ∧ goes t [ra] ∧
       ∀ j < 32, (t.evpend c).getLsbD j = ((s.evpend c).getLsbD j && (watch j || !a.getLsbD j))) ∧
     (∃ t, exec (.evpoll i rd ra) s = .next t ∧ Writes s t c rd (s.evpend c &&& a) ∧ goes t [ra] ∧
       ∀ j < 32, (t.evpend c).getLsbD j = ((s.evpend c).getLsbD j && (watch j || !a.getLsbD j)))) ∧
  (∀ (s : State) (i : Issue) (rd ra rb : Reg), s.ready i →
     let c := i.core
     let mask := s.reg c ra
     let wait := (s.reg c rb).toNat % 2 ^ 28
     let hit := s.evpend c &&& mask
     let o := exec (.evwait i rd ra rb) s
     (mask = 0 → wait = 0 → s.outsideHandler c → ∃ t, o = .next t ∧ FaultEntered s t c [ra, rb] faultIllegal 0) ∧
     (hit ≠ 0 → ∃ t, o = .next t ∧ Writes s t c rd hit ∧ (t.core c).psr = (s.core c).psr ∧
       (t.core c).pc = (s.core c).pc + 4 ∧ Takes s t c [ra, rb] 2 ∧ (t.core c).evpend = (s.core c).evpend &&& ~~~hit ∧
       KeepsMemory s t c ∧ KeepsSaved s t c ∧ KeepsControl s t c ∧ KeepsDevice s t c ∧ RunsOn s t c) ∧
     (hit = 0 → ¬(mask = 0 ∧ wait = 0) → ∃ t, o = .next t ∧
       (t.core c).run = .asleep rd mask (if wait = 0 then none else some (s.crypt.ticks + BitVec.ofNat 40 wait)) ∧
       KeepsRegs s t c ∧ (t.core c).psr = (s.core c).psr ∧ (t.core c).pc = (s.core c).pc ∧ KeepsMemory s t c ∧
       KeepsSaved s t c ∧ KeepsSpecial s t c ∧ KeepsDevice s t c))

/-- EVWAIT_TIMEOUT and TIMER_EXPIRY (R136, R137), where nothing else is timed before: the sleeping core reads 0 in rd and
retires its evwait in 3 cycles at the deadline; the armed timer clears its EN and raises event 0 at its tick. -/
def Obligations.DeadlineWakesAndTimerRaisesEvent : Prop :=
  ∀ (s : State) (c : CoreId), calmBut s c →
    (∀ rd m (d : BitVec 40), (s.core c).run = .asleep rd m (some d) → (s.core c).halted = false →
      (s.core c).timer.getLsbD 31 = false → s.evpend c &&& m = 0 → s.crypt.ticks ≤ d →
      s.crypt.ticks.toNat % 32768 + (d.toNat - s.crypt.ticks.toNat) < 32766 →
      ∃ t, exec (.evwaitTimeout c) s = .next t ∧ t.crypt = { s.crypt with ticks := d } ∧ Writes s t c rd 0 ∧
        (t.core c).run = .running ∧ (t.core c).pc = (s.core c).pc + 4 ∧ (t.core c).cycle = (s.core c).cycle + 3 ∧
        (t.core c).psr = (s.core c).psr ∧ KeepsMemory s t c ∧ KeepsSaved s t c ∧ KeepsControl s t c ∧
        t.regs = s.regs ∧ t.wires = s.wires) ∧
    ((s.core c).run = .running → (s.core c).timer.getLsbD 31 = true →
      let d := ((s.core c).timer.toNat % 2 ^ 28 + 2 ^ 28 - s.crypt.ticks.toNat % 2 ^ 28) % 2 ^ 28
      let n := if d = 0 ∨ 2 ^ 27 < d then 1 else d
      s.crypt.ticks.toNat % 32768 + n < 32766 →
      ∃ t, exec (.timerExpiry c) s = .next t ∧ t.crypt = { s.crypt with ticks := s.crypt.ticks + BitVec.ofNat 40 n } ∧
        (t.core c).timer = (s.core c).timer &&& 0x7FFFFFFF ∧ (t.core c).evpend = (s.core c).evpend ||| 1 ∧
        KeepsRegs s t c ∧ (t.core c).pc = (s.core c).pc ∧ (t.core c).psr = (s.core c).psr ∧ KeepsMemory s t c ∧
        KeepsSaved s t c ∧ t.regs = s.regs ∧ t.wires = s.wires)

/-- mfs (R146): what each special register reads as; a read of MEMERR clears it; a number not listed raises ILLEGAL. mts (R134,
R146): what each special register becomes. PSR keeps FH; reserved bits keep 0; EVPEND clears the named bits; a read-only
register ignores the write; a queue watch takes no queue that this core may not qget; a number not listed raises ILLEGAL. -/
def Obligations.MfsAndMtsAccessSpecialRegisters : Prop :=
  (∀ (s : State) (i : Issue) (rd : Reg) (n : BitVec 8), s.ready i →
     let c := i.core
     let k := s.core c
     let err := if k.isSingle k.pc.toNat then (k.countCorr k.pc.toNat).memerr else k.memerr
     let reads := fun (v : Word) => ∃ t, exec (.mfs i rd n) s = .next t ∧ Writes s t c rd v ∧ (t.core c).psr = k.psr ∧
       (t.core c).pc = k.pc + 4 ∧ Takes s t c [] 1 ∧ specials (t.core c) = specials k ∧
       (t.core c).memerr = (if n = 0x0B then 0 else err) ∧ KeepsMemory s t c ∧ KeepsDevice s t c ∧ RunsOn s t c
     (n = 0x00 → reads k.psr) ∧ (n = 0x01 → reads k.epsr) ∧ (n = 0x02 → reads k.epc) ∧ (n = 0x03 → reads k.fcause) ∧
     (n = 0x04 → reads k.faddr) ∧ (n = 0x05 → reads k.fvec) ∧ (n = 0x06 → reads k.splim) ∧ (n = 0x07 → reads (s.evpend c)) ∧
     (n = 0x08 → reads k.timer) ∧ (n = 0x09 → reads k.cycle) ∧
     (n = 0x0A → reads (match c with | .choir => 0x00003000 | .nave => 0x00006001)) ∧ (n = 0x0B → reads err) ∧
     (∀ j : Fin 8, n.toNat = 0x10 + j.val → reads k.qw[j]) ∧
     (0x0C ≤ n.toNat → n.toNat < 0x10 ∨ 0x18 ≤ n.toNat → s.outsideHandler c →
       ∃ t, exec (.mfs i rd n) s = .next t ∧ FaultEntered s t c [] faultIllegal 0)) ∧
  (∀ (s : State) (i : Issue) (ra : Reg) (n : BitVec 8), s.ready i →
     let c := i.core
     let k := s.core c
     let v := s.reg c ra
     let becomes := fun (l : List Word) => ∃ t, exec (.mts i n ra) s = .next t ∧ specials (t.core c) = l ∧ KeepsRegs s t c ∧
       (t.core c).pc = k.pc + 4 ∧ Takes s t c [ra] 1 ∧ Corrects s t c [k.pc.toNat] ∧ KeepsMemory s t c ∧ KeepsDevice s t c ∧
       RunsOn s t c
     let sp := specials k
     (n = 0x00 → becomes (sp.set 0 ((v &&& 0xFF000000) ||| (k.psr &&& 1)))) ∧
     (n = 0x01 → becomes (sp.set 1 (v &&& 0xFF000001))) ∧ (n = 0x02 → becomes (sp.set 2 (v &&& 0xFFFFFFFC))) ∧
     (n = 0x05 → becomes (sp.set 5 (v &&& 0xFFFFFFFC))) ∧ (n = 0x06 → becomes (sp.set 6 (v &&& 0xFFFFFFFC))) ∧
     (n = 0x07 → becomes (sp.set 7 (k.evpend &&& ~~~v))) ∧ (n = 0x08 → becomes (sp.set 8 (v &&& 0x8FFFFFFF))) ∧
     (n = 0x03 ∨ n = 0x04 ∨ n = 0x09 ∨ n = 0x0A ∨ n = 0x0B → becomes sp) ∧
     (∀ j : Fin 8, n.toNat = 0x10 + j.val →
       becomes (if queueReader c (v.toNat % 256) then sp.set (9 + j.val) (v &&& 0x800000FF) else sp)) ∧
     (0x0C ≤ n.toNat → n.toNat < 0x10 ∨ 0x18 ≤ n.toNat → s.outsideHandler c →
       ∃ t, exec (.mts i n ra) s = .next t ∧ FaultEntered s t c [ra] faultIllegal 0))

/-! ### Loads and stores of own memory -/

/-- Loads from own flash and own SRAM (R117, R131, R143): an aligned address within populated own memory whose word is not
uncorrectable, in no slot that a flash operation keeps busy (R176), not below SPLIM through w15. The value is little-endian, extended by zeros or by the sign. -/
def Obligations.LoadsReadOwnMemory : Prop :=
  ∀ (s : State) (i : Issue) (rd ra : Reg) (off : BitVec 18), s.ready i →
    let c := i.core
    let k := s.core c
    let w := s.reg c ra + off.signExtend 32
    let a := w.toNat
    (inFlash c a ∨ inSram c a) → s.flashStall c a = false → k.isDouble a = false → ¬(ra = 15 ∧ w < k.splim) →
    let loads := fun (o : Out) (v : Word) => ∃ t, o = .next t ∧ Writes s t c rd v ∧ (t.core c).psr = k.psr ∧
      (t.core c).pc = k.pc + 4 ∧
      Takes s t c [ra] (if 0x20000000 ≤ a then 1 else match c with | .choir => 2 | .nave => 3) ∧
      (t.core c).lastLoad = (if 0x20000000 ≤ a then some rd else none) ∧ KeepsMemory s t c ∧ KeepsSaved s t c ∧
      KeepsControl s t c ∧ (t.core c).evpend = k.evpend ∧ Corrects s t c [k.pc.toNat, a] ∧ KeepsDevice s t c ∧ RunsOn s t c
    (a % 4 = 0 → loads (exec (.ldw i rd ra off) s) (k.byte (a + 3) ++ k.byte (a + 2) ++ k.byte (a + 1) ++ k.byte a)) ∧
    (a % 2 = 0 → loads (exec (.ldh i rd ra off) s) ((k.byte (a + 1) ++ k.byte a).setWidth 32) ∧
      loads (exec (.ldhs i rd ra off) s) ((k.byte (a + 1) ++ k.byte a).signExtend 32)) ∧
    loads (exec (.ldb i rd ra off) s) ((k.byte a).setWidth 32) ∧
    loads (exec (.ldbs i rd ra off) s) ((k.byte a).signExtend 32)

/-- Stores to own SRAM (R117, R131): the stored bytes take the low octets of rs, least significant first; every byte
outside them, every register and every flag stand; the stored word has fresh check bits. -/
def Obligations.StoresWriteOwnSram : Prop :=
  ∀ (s : State) (i : Issue) (rs ra : Reg) (off : BitVec 18), s.ready i →
    let c := i.core
    let k := s.core c
    let w := s.reg c ra + off.signExtend 32
    let a := w.toNat
    inSram c a → k.isDouble a = false → ¬(ra = 15 ∧ w < k.splim) →
    let stores := fun (o : Out) (n : Nat) => ∃ t, o = .next t ∧
      (∀ j < n, (t.core c).byte (a + j) = (s.reg c rs).extractLsb' (8 * j) 8) ∧
      (∀ x, ¬(a ≤ x ∧ x < a + n) → (t.core c).byte x = k.byte x) ∧ KeepsRegs s t c ∧ (t.core c).psr = k.psr ∧
      (t.core c).pc = k.pc + 4 ∧ Takes s t c [rs, ra] 1 ∧ KeepsSaved s t c ∧ KeepsControl s t c ∧
      (t.core c).evpend = k.evpend ∧ Corrects s t c (if n = 4 then [k.pc.toNat] else [k.pc.toNat, a]) ∧
      (∀ x, x ≠ a / 4 * 4 → (x ∈ (t.core c).single ↔ x ∈ k.single) ∧ (x ∈ (t.core c).double ↔ x ∈ k.double)) ∧
      KeepsDevice s t c ∧ RunsOn s t c
    (a % 4 = 0 → stores (exec (.stw i rs ra off) s) 4) ∧ (a % 2 = 0 → stores (exec (.sth i rs ra off) s) 2) ∧
    stores (exec (.stb i rs ra off) s) 1

/-- push (R129): w15 falls by 4 × the number of registers, the highest register of the mask lands at the highest address,
and every byte outside the range stands. pop (R129, R131): the registers of the mask load from the same layout, and w15
rises by 4 × their number. -/
def Obligations.PushAndPopMoveTheMaskedRegisters : Prop :=
  (∀ (s : State) (i : Issue) (mask : BitVec 16), s.ready i → mask.getLsbD 0 = false → mask.getLsbD 15 = false →
     let c := i.core
     let k := s.core c
     let n := maskCount mask
     let top := s.reg c 15 - BitVec.ofNat 32 (4 * n)
     let a := top.toNat
     stackRange s c a n →
     ∃ t, exec (.push i mask) s = .next t ∧
       (∀ r < 16, mask.getLsbD r = true →
         (t.core c).byte (a + 4 * maskRank mask r + 3) ++ (t.core c).byte (a + 4 * maskRank mask r + 2) ++
           (t.core c).byte (a + 4 * maskRank mask r + 1) ++ (t.core c).byte (a + 4 * maskRank mask r) =
         s.reg c (BitVec.ofNat 4 r)) ∧
       (∀ x, ¬(a ≤ x ∧ x < a + 4 * n) → (t.core c).byte x = k.byte x) ∧ Writes s t c 15 top ∧ (t.core c).psr = k.psr ∧
       (t.core c).pc = k.pc + 4 ∧ (∃ srcs, Takes s t c srcs (1 + n)) ∧ KeepsSaved s t c ∧ KeepsSpecial s t c ∧
       KeepsDevice s t c ∧ RunsOn s t c) ∧
  (∀ (s : State) (i : Issue) (mask : BitVec 16), s.ready i → mask.getLsbD 0 = false → mask.getLsbD 15 = false →
     let c := i.core
     let k := s.core c
     let n := maskCount mask
     let a := (s.reg c 15).toNat
     stackRange s c a n → (∀ j < n, k.isDouble (a + 4 * j) = false) →
     ∃ t, exec (.pop i mask) s = .next t ∧
       (∀ r < 16, t.reg c (BitVec.ofNat 4 r) =
         if mask.getLsbD r then
           k.byte (a + 4 * maskRank mask r + 3) ++ k.byte (a + 4 * maskRank mask r + 2) ++
             k.byte (a + 4 * maskRank mask r + 1) ++ k.byte (a + 4 * maskRank mask r)
         else if r = 15 then s.reg c 15 + BitVec.ofNat 32 (4 * n)
         else s.reg c (BitVec.ofNat 4 r)) ∧
       (t.core c).psr = k.psr ∧ (t.core c).pc = k.pc + 4 ∧ Takes s t c [15] (1 + n) ∧ KeepsMemory s t c ∧ KeepsSaved s t c ∧
       KeepsControl s t c ∧ (t.core c).evpend = k.evpend ∧
       Corrects s t c (k.pc.toNat :: (List.range n).map (fun j => a + 4 * j)) ∧ KeepsDevice s t c ∧ RunsOn s t c)

/-- The faults of a load or store before any access (R125, R126, R130, R478): ALIGN for an address that is not a multiple
of the access's bytes or for a short access to a register region or weight window; else STACK through w15 below SPLIM. -/
def Obligations.MisalignedAndStackAccessesFault : Prop :=
  ∀ (s : State) (i : Issue) (r ra : Reg) (off : BitVec 18), s.ready i → s.outsideHandler i.core →
    let c := i.core
    let w := s.reg c ra + off.signExtend 32
    let a := w.toNat
    let device := (0x40000000 ≤ a ∧ a < 0x400C0000) ∨ (0x60000000 ≤ a ∧ a < 0x60040000)
    let faults := fun (x : Instr) (srcs : List Reg) (cause : Nat) => ∃ t, exec x s = .next t ∧ FaultEntered s t c srcs cause w
    ∀ y ∈ [(Instr.ldw i r ra off, 4, [ra]), (.ldh i r ra off, 2, [ra]), (.ldhs i r ra off, 2, [ra]), (.ldb i r ra off, 1, [ra]),
        (.ldbs i r ra off, 1, [ra]), (.stw i r ra off, 4, [r, ra]), (.sth i r ra off, 2, [r, ra]), (.stb i r ra off, 1, [r, ra])],
      (a % y.2.1 ≠ 0 ∨ (device ∧ y.2.1 ≠ 4) → faults y.1 y.2.2 faultAlign) ∧
      (a % y.2.1 = 0 → ¬(device ∧ y.2.1 ≠ 4) → ra = 15 → w < (s.core c).splim → faults y.1 y.2.2 faultStack)

/-! ### Device instructions -/

/-- shot and shot2 (R147, R148, R151): the choir core puts the command on the strait to the lead isle, the isle of port A of
the descriptor named by ra[6:0], and goes on after one cycle; the nave core takes FORBIDDEN, and the choir's log names it. -/
def Obligations.ShotsGoToTheLeadIsle : Prop :=
  ∀ (s : State) (i : Issue) (ra : Reg) (seq : BitVec 8) (dir : Bool), s.ready i →
    let c := i.core
    let m := s.issued c [ra]
    let pd := (m.reg c ra).toNat % 128
    let isle := m.fld (ISLE0.PDCTL_PORTA pd) / 8
    let shoots := fun (x : Instr) (pair : Bool) =>
      let u := m.send .choirCore (isleIsland isle) tagWdata (cmdWord ⟨pd, seq.toNat, dir, pair⟩)
      exec x s = .next (u.setCore c ((u.core c).goesOn 1))
    let forbids := fun (x : Instr) (op : Nat) =>
      exec x s = .next (((m.logEvent logForbiddenOp (BitVec.ofNat 32 op) (m.core c).pc).fault c faultForbidden 0).endStep c)
    (c = .choir → shoots (.shot i ra seq dir) false ∧ shoots (.shot2 i ra seq dir) true) ∧
    (c = .nave → forbids (.shot i ra seq dir) 0x20 ∧ forbids (.shot2 i ra seq dir) 0x21)

/-- qget, qpeek and qput of a queue the core may use, over an open strait to a queue island that answers (R79, R87, R90, R92,
R94, R96, R155 to R157): the core's strait selects the queue; qget takes the next word and qpeek reads a stored one, each with
its tag in PSR.QT, a corrected word corrected and a damaged packet replaced by its marker; without a word the status tells why;
qput offers its word and answers the status. The bounds of the wait are the model's choice (log entry 22). -/
def Obligations.QueueInstructionsMoveWords : Prop :=
  ∀ (s : State) (i : Issue) (rd ra rb : Reg), s.ready i →
    let c := i.core
    let tagged := fun (m t : State) (v : Word) =>
      Answers (m.onCore c (fun k => { k with psr := (k.psr &&& 0xF0FFFFFF) ||| ((v >>> 28) <<< 24) })) t c rd v 4000
    (let r := s.issued c [ra]
     let n := (r.reg c ra).toNat % 256
     let m := r.select (coreIsland c) n
     let o := exec (.qget i rd ra) s
     queueReader c n → r.serves c .queue →
      (m.fld (QUE.DESC_CONSUMER n) ≠ 0 → ∃ t, o = .next t ∧ tagged m t 3) ∧
      (m.fld (QUE.DESC_CONSUMER n) = 0 → m.hasWord n = false → ∃ t, o = .next t ∧
        tagged m t (match m.fld (QUE.STAT_LIFE n) with | 2 => 0 | 3 => 2 | _ => 1)) ∧
      (m.hasWord n → ∀ w rest, (m.queue n).words = w :: rest →
        let taken := fun (u : State) (v : Word) => ∃ t, o = .next t ∧ tagged ((u.setQueue n (u.queue n).popFirst).settled n) t v
        (w.ecc = .good → taken m w.word) ∧ (w.ecc = .single → taken (m.queueCorr n 0) w.word) ∧
        (w.ecc = .double → let u := (m.queueUe n 0).settled n
          ∀ v more, (u.queue n).words = v :: more → v.ecc = .good → taken u v.word))) ∧
    (let r := s.issued c [ra, rb]
     let n := (r.reg c ra).toNat % 256
     let m := r.select (coreIsland c) n
     r.serves c .queue →
      (queueReader c n → ∀ pos, pos = (m.reg c rb).toNat % 2 ^ 20 → ((m.queue n).words[pos]?).map (fun w => w.ecc) ≠ some .double →
        ∃ t, exec (.qpeek i rd ra rb) s = .next t ∧
          match (m.queue n).words[pos]? with
          | some w => tagged (if w.ecc = .single then m.queueCorr n pos else m) t w.word
          | none => tagged m t (match m.fld (QUE.STAT_LIFE n) with | 2 => 0 | 3 => 2 | _ => 1)) ∧
      (queueWriter c n →
        let word := (m.reg c rb &&& 0x0FFFFFFF) ||| (if (m.core c).psr.getLsbD 26 then bitE else 0) |||
          (if (m.core c).psr.getLsbD 24 then bitP else 0)
        let r := m.offer n (some (coreIsland c)) word
        ∃ t, exec (.qput i rd ra rb) s = .next t ∧ Answers r.1 t c rd (BitVec.ofNat 32 r.2) 4000))

/-- lease (R159, R237, R238): TAKE, GIVE and RELEASE of bank ra[1:0] in every state of its lease, with the status they
answer (0 DONE, 3 DEFERRED, 4 DENIED, 5 NOTHELD); a TAKE that needs a wipe leaves the bank to the wipe. The bounds of the wait
are the model's choice (log entry 22). -/
def Obligations.LeaseInstructionsChangeTheHolder : Prop :=
  ∀ (s : State) (i : Issue) (rd ra rb : Reg), s.ready i →
    let c := i.core
    let m := s.issued c [ra, rb]
    let b := (m.reg c ra).toNat % 4
    let isle := (m.reg c rb).toNat % 16
    let h := m.fld (CIM.LEASE_HOLDER b)
    let last := m.fld (CIM.LEASE_LASTDOM b)
    let answers := fun (x : Instr) (m' : State) (v : Word) => ∃ t, exec x s = .next t ∧ Answers m' t c rd v 4000
    let take := answers (.leaseTake i rd ra rb)
    let give := answers (.leaseGive i rd ra rb)
    let release := answers (.leaseRelease i rd ra rb)
    let wipe := fun (m : State) (h : Nat) => (m.setPend b true h).setHolder b 4
    m.serves c (bankIsland b) →
    (c = .choir →
      (h = 0 → last ≠ 2 → take (m.setHolder b 1) 0) ∧ (h = 0 → last = 2 → take (wipe m 1) 3) ∧ (h = 1 → take m 0) ∧
      (h = 2 → m.flag (CIM.LEASE_PEND b) = false → m.bankIdle b → take (m.setHolder b 1) 0) ∧
      (h = 2 → m.flag (CIM.LEASE_PEND b) = false → m.bankIdle b = false → take (m.setPend b true 1) 3) ∧
      (h = 2 → m.flag (CIM.LEASE_PEND b) → take m 3) ∧
      (h = 3 → take (wipe ((m.setFlag (CIM.FAULTS_LOST b) true).raiseEvent (bankIsland b) .nave 7) 1) 3) ∧
      (h = 4 → take (m.setPend b true 1) 3) ∧
      (h = 1 → give ((m.setHolder b 2).setFld (CIM.LEASE_ISLES b) ((2 ^ isle) ||| m.fld (CIM.SHARE_ISLES b))) 0) ∧
      (h ≠ 1 → give m 5) ∧ (h = 1 → release (m.setHolder b 0) 0) ∧ (h ≠ 1 → release m 5)) ∧
    (c = .nave →
      (h = 0 → m.flag (CIM.LEASE_NAVEOK b) = false → take m 4) ∧
      (h = 0 → m.flag (CIM.LEASE_NAVEOK b) → last = 1 → take (wipe m 3) 3) ∧
      (h = 0 → m.flag (CIM.LEASE_NAVEOK b) → last ≠ 1 → take (m.setHolder b 3) 0) ∧ (h = 3 → take m 0) ∧
      (h = 1 ∨ h = 2 ∨ h = 4 → take m 4) ∧ give m 4 ∧ (h = 3 → release (m.setHolder b 0) 0) ∧ (h ≠ 3 → release m 5))

/-- cimld and cimev on a bank that the core holds, with an operand wholly in own SRAM whose words are not damaged (R149,
R158, R160, R161, R481): cimld loads its rows one after another from SRAM; cimev evaluates its tiles over the eight input
words, with what its readings and its checks find wrong. Each answers within its time and the wake time of R14. The bounds of
the wait are the model's choice (log entry 22). -/
def Obligations.CimInstructionsLoadAndEvaluate : Prop :=
  ∀ (s : State) (i : Issue) (rd ra rb : Reg), s.ready i →
    let c := i.core
    let m := s.issued c [ra, rb]
    let d := m.reg c rb
    let src := m.reg c ra
    let a := src.toNat
    let mine := fun (b : Nat) => m.fld (CIM.LEASE_HOLDER b) = (match c with | .choir => 1 | .nave => 3)
    let row := fun (m : State) (j : Nat) => BitVec.ofNat 256 ((m.core c).leValue (a + 32 * j) 32)
    (let tile := bitsOf d 4 0
     let first := bitsOf d 12 5
     let count := bitsOf d 21 13
     0 < count → count ≤ 256 → first + count ≤ 256 → sramOperand c src (32 * count) →
     (∀ j < 8 * count, (m.core c).isDouble (a + 4 * j) = false) →
     m.dark c (bankIsland (tile / 8)) = false → mine (tile / 8) →
     ∃ t, exec (.cimld i rd ra rb) s = .next t ∧
       Answers ((List.range count).foldl (fun u j =>
         let u := u.countCorrected c (a + 32 * j) 8
         u.loadRow (rowKey tile (first + j)) (row u j)) m) t c rd 0 (2700 + 160 * count)) ∧
    (let b := bitsOf d 1 0
     let td := bitsOf d 10 10 == 1
     bitsOf d 9 2 ≠ 0 → sramOperand c src 32 → (∀ j < 8, (m.core c).isDouble (a + 4 * j) = false) →
     m.dark c (bankIsland b) = false → mine b →
     let u := m.countCorrected c a 8
     let r := u.cimev b (bitsOf d 9 2) td ((List.range 8).map (fun j => (u.core c).word (a + 4 * j)))
     ∃ t, exec (.cimev i rd ra rb) s = .next t ∧ Answers r.1 t c rd r.2 (if td then 2500 else 7000))

/-- tally and ledg of the choir core (R162 to R165, R293, R295, R352): READ and CONDUIT read tallies and restart them (a
billing tally by its read mark), INDEX and CONDIX read legal indices and change none; the 64-bit values land in own SRAM,
low word first. COMMIT asks for a commit, DEFERRED behind a running one; LOG writes an entry of kind 0x0070. The bounds of the wait
are the model's choice (log entry 22). -/
def Obligations.TallyAndLedgerInstructions : Prop :=
  ∀ (s : State) (i : Issue) (rd ra rb : Reg), s.ready i → i.core = .choir →
    let m := s.issued .choir [ra, rb]
    let a := m.reg .choir rb
    let n := (m.reg .choir ra).toNat
    let reads := fun (x : Instr) (l : List Nat) (restart : Bool) (ns : Nat) =>
      sramOperand .choir a (8 * l.length) → m.serves .choir .quantity →
      let r := if restart then m.readTallies l else (m, l.map (fun k => tget (fun _ => 0) m.qty.indices k))
      ∃ t, exec x s = .next t ∧ Answers (r.1.writeValues .choir a.toNat r.2) t .choir rd 0 ns
    let twelve := (List.range 12).map (fun j => 12 * (n % 32) + j)
    (n < 412 → reads (.tallyRead i rd ra rb) [n] true 4000) ∧ (n < 392 → reads (.tallyIndex i rd ra rb) [n] false 4000) ∧
    reads (.tallyConduit i rd ra rb) twelve true 1700 ∧ reads (.tallyCondix i rd ra rb) twelve false 1700 ∧
    (m.serves .choir .ledger → ∃ t, exec (.ledgLog i rd ra rb) s = .next t ∧
      Answers (m.logEvent logProgram (m.reg .choir ra &&& 0xFFFF) a) t .choir rd 0 4000) ∧
    (let u := s.issued .choir []
     u.serves .choir .ledger → ∃ t, exec (.ledgCommit i rd) s = .next t ∧
       Answers (u.startCommit 1) t .choir rd (if u.qty.commit.isSome then 3 else 0) 4000)

/-- ldtm, usync and rood (R166 to R168, R333, R432, R459): ldtm reads one moment of the clock; usync takes a fresh notice
of a unit into its mirror entry and clears STALE; rood POST places a message where the mailbox is free and the screen
passes it; rood TAKE takes the waiting message, or zeros. The bounds of the wait
are the model's choice (log entry 22). -/
def Obligations.ClockMirrorAndMailboxInstructions : Prop :=
  ∀ (s : State) (i : Issue) (rd ra rb : Reg), s.ready i →
    let c := i.core
    let ends := fun (x : Instr) (m : State) (v : Word) => ∃ t, exec x s = .next t ∧ Answers m t c rd v 4000
    (let m := s.issued c []
     let ticks := s.crypt.ticks.toNat
     (¬(rd = ra ∧ rd ≠ 0) → m.serves c .crypt → ends (.ldtmSplit i rd ra) (m.setReg c ra (BitVec.ofNat 32 (ticks % 32768))) (s.getReg CRYPT.TIME_SEC)) ∧
     (m.serves c .crypt → ends (.ldtmTicks i rd) m (BitVec.ofNat 32 ticks)) ∧
     (¬(rd = ra ∧ rd ≠ 0) → m.serves c .queue →
      match c, s.sacr.mailCmd, s.sacr.mailReply with
      | .choir, some p, _ =>
        ends (.roodTake i rd ra) ({ m with sacr := { m.sacr with mailCmd := none } }.setReg c ra p.2) p.1
      | .nave, _, some p =>
        ends (.roodTake i rd ra) ({ m with sacr := { m.sacr with mailReply := none } }.setReg c ra p.2) p.1
      | _, _, _ => ends (.roodTake i rd ra) (m.setReg c ra 0) 0)) ∧
    (let m := s.issued c [ra]
     let u := (m.reg c ra).toNat % 256
     let dark := m.dom (unitDomain u) == 0
     let st := if dark then 0 else m.life u
     let ep := if dark then m.fld (SYS.UNITSTATE_EPOCH u) else m.epoch u
     let stale := m.flag (SYS.UNITSTATE_STALE u)
     u < 67 → m.serves c .crypt → ends (.usync i rd ra)
       (((m.setFld (SYS.UNITSTATE_STATE u) st).setFld (SYS.UNITSTATE_EPOCH u) ep).setFlag (SYS.UNITSTATE_STALE u) false)
       (BitVec.ofNat 32 (u + 2 ^ 8 * st + 2 ^ 10 * ep + 2 ^ 18 * stale.toNat + 2 ^ 19 * dark.toNat))) ∧
    (let m := s.issued c [ra, rb]
     let p := (m.reg c ra, m.reg c rb)
     m.serves c .queue →
     match c with
     | .nave =>
       (m.sacr.mailCmd ≠ none → ends (.roodPost i rd ra rb) m 6) ∧
       (m.sacr.mailCmd = none → m.roodCause p.1 p.2 = 0 →
        ends (.roodPost i rd ra rb) ({ m with sacr := { m.sacr with mailCmd := some p } }.raiseEvent .queue .choir 4) 0) ∧
       (m.sacr.mailCmd = none → ∀ cause, m.roodCause p.1 p.2 = cause → cause ≠ 0 → ends (.roodPost i rd ra rb)
         ((((m.bump ROOD.MBSTAT_REJECTS 1).setFld ROOD.MBSTAT_CAUSE cause).setFld ROOD.MBSTAT_LASTOP (bitsOf p.1 31 24)).logEvent
           logRoodReject p.1 (BitVec.ofNat 32 cause)) 0)
     | .choir =>
       (m.domOn .nave = false → ends (.roodPost i rd ra rb) m 1) ∧
       (m.domOn .nave → m.sacr.mailReply ≠ none → ends (.roodPost i rd ra rb) m 6) ∧
       (m.domOn .nave → m.sacr.mailReply = none →
        ends (.roodPost i rd ra rb) ({ m with sacr := { m.sacr with mailReply := some p } }.raiseEvent .queue .nave 4) 0))

/-- Where device instructions fault (R32, R39, R40, R79, R80, R148, R149, R155 to R157): the choir's own instructions on the
nave core raise FORBIDDEN; a queue outside the core's reach is refused SCREEN, after which the core's strait selects none, and
the QWORD of a qput is counted; an island out of reach is refused DARK, at once; bad numbers and operands raise DEVICE with
their code. -/
def Obligations.DeviceInstructionsFaultByName : Prop :=
  ∀ (s : State) (i : Issue) (rd ra rb : Reg), s.ready i →
    let c := i.core
    let faults := fun (x : Instr) (u : State) => exec x s = .next (u.endStep c)
    let m := s.issued c [ra, rb]
    let r := s.issued c [ra]
    let e := s.issued c []
    let n := (m.reg c ra).toNat % 256
    let desc := BitVec.ofNat 32 (QUE.DESC n)
    let dev := fun (u : State) (op code : Nat) =>
      ((u.setFld (SYS.DEVINFO_OPCODE (coreNum c)) op).setFld (SYS.DEVINFO_CODE (coreNum c)) code).fault c faultDevice 0
    let refused := fun (u : State) (a : Word) (cause kind : Nat) => (u.recordRefusal c a cause kind).fault c faultRefused a
    (c = .nave →
      (∀ x ∈ [Instr.tallyRead i rd ra rb, .tallyIndex i rd ra rb, .tallyConduit i rd ra rb, .tallyCondix i rd ra rb],
        faults x ((m.logEvent logForbiddenOp 0x28 (m.core c).pc).fault c faultForbidden 0)) ∧
      faults (.ledgLog i rd ra rb) ((m.logEvent logForbiddenOp 0x29 (m.core c).pc).fault c faultForbidden 0) ∧
      faults (.ledgCommit i rd) ((e.logEvent logForbiddenOp 0x29 (e.core c).pc).fault c faultForbidden 0)) ∧
    let away := fun (u : State) => u.select (coreIsland c) 256
    let counted := fun (u : State) => (away u).setFld QUE.ORPHAN_BADSEL (min 0xFFFF (u.fld QUE.ORPHAN_BADSEL + 1))
    (queueReader c n = false →
      (r.dark c .queue → faults (.qget i rd ra) (refused r desc causeScreen 0)) ∧
      (m.dark c .queue → faults (.qpeek i rd ra rb) (refused m desc causeScreen 0)) ∧
      (r.dark c .queue = false → faults (.qget i rd ra) (refused ((away r).waitReply c) desc causeScreen 0)) ∧
      (m.dark c .queue = false → faults (.qpeek i rd ra rb) (refused ((away m).waitReply c) desc causeScreen 0))) ∧
    (queueWriter c n = false →
      (m.dark c .queue → faults (.qput i rd ra rb) (refused m desc causeScreen 1)) ∧
      (m.dark c .queue = false → faults (.qput i rd ra rb) (refused ((counted m).waitReply c) desc causeScreen 1))) ∧
    (queueReader c n → r.dark c .queue → faults (.qget i rd ra) (refused r desc causeDark 0)) ∧
    (queueWriter c n → m.dark c .queue → faults (.qput i rd ra rb) (refused m desc causeDark 1)) ∧
    (67 ≤ n → faults (.usync i rd ra) (dev r 0x2B 1)) ∧
    (rd = ra → rd ≠ 0 → faults (.ldtmSplit i rd ra) (dev e 0x2A 6) ∧ faults (.roodTake i rd ra) (dev e 0x2C 6)) ∧
    (c = .choir → 412 ≤ (m.reg c ra).toNat → faults (.tallyRead i rd ra rb) (dev m 0x28 1)) ∧
    (c = .choir → 392 ≤ (m.reg c ra).toNat → faults (.tallyIndex i rd ra rb) (dev m 0x28 1)) ∧
    (bitsOf (m.reg c rb) 9 2 = 0 → faults (.cimev i rd ra rb) (dev m 0x26 4))

/-! ### Supplies, domains, resets and modes -/

/-- The supply monitor (R52, R77): each OK flag has 100 mV of hysteresis, BAKPRES follows 1.00 V, and every other register
stands. -/
def Obligations.SupplyMonitorHasHysteresis : Prop :=
  ∀ (s : State) (vmain vbak : Nat), s.Sound →
    let t := s.supplies vmain vbak
    let lo := 2400 + 20 * s.fld CRYPT.PWRCFG_MAINLO
    let bak := 1800 + 50 * s.fld CRYPT.PWRCFG_BAKLO
    (t.flag CRYPT.PWRSTAT_MAINOK = if s.flag CRYPT.PWRSTAT_MAINOK then decide (lo ≤ vmain) else decide (lo + 100 ≤ vmain)) ∧
    (t.flag CRYPT.PWRSTAT_BAKOK = if s.flag CRYPT.PWRSTAT_BAKOK then decide (bak ≤ vbak) else decide (bak + 100 ≤ vbak)) ∧
    t.flag CRYPT.PWRSTAT_BAKPRES = decide (1000 ≤ vbak) ∧ t.path = s.path ∧
    (∀ a, a ≠ CRYPT.PWRSTAT → t.getReg a = s.getReg a) ∧ t.choir = s.choir ∧ t.nave = s.nave ∧ t.wires = s.wires

/-- The power path (R53 to R58): a confirmed loss of VMAIN, which lies below MAINLO, goes to BACKUP where the backup supply is OK
and to HOLD where it is not; a low backup goes to HOLD; 10 ms of VMAIN end BACKUP; a survived hold returns to MAIN, counts, and
restarts the domains unless the hold began in standby; an expired hold resets the crypt, which then starts where a supply has its
operating level of 1.70 V ± 0.1 V (R461), and is without power where none has. That a first comparison to BACKUP leaves SWITCHES at 0
is the model's choice (log entry 68). -/
def Obligations.PowerPathFollowsTheSupplies : Prop :=
  ∀ (s : State) (vmain vbak : Nat),
    let u := s.supplies vmain vbak
    let main := s.supplies vmain s.crypt.vbak
    let low := s.supplies s.crypt.vmain vbak
    let hold := fun (u : State) =>
      let v := u.onCrypt (fun k => { k with holdInStandby := k.standby || (k.afterCryptReset && u.dom .choir == 0) })
      let w := (((v.setFld CRYPT.PWRSTAT_PATH 2).boostSync.takeAllDown).setFlag CRYPT.CLKSTAT_XHFON false).setFlag CRYPT.CLKSTAT_XHFOK
        false
      w.onCrypt (fun k => { k with xhfLinger := false })
    let back := (((u.setFld CRYPT.PWRSTAT_PATH 1).bump CRYPT.PWRSTAT_SWITCHES 1).boostSync.raiseBoth .crypt 2).radioPathLost
    let mains := fun (u : State) => (u.setFld CRYPT.PWRSTAT_PATH 0).boostSync.raiseBoth .crypt 2
    let first := fun (u : State) => (u.setFld CRYPT.PWRSTAT_PATH (if u.flag CRYPT.PWRSTAT_MAINOK then 0 else 1)).boostSync
    (s.domOn .crypt → u.path = 0 → vmain < 2400 + 20 * u.fld CRYPT.PWRCFG_MAINLO → u.flag CRYPT.PWRSTAT_BAKOK →
      exec (.vmainLoss vmain vbak) s = .next (if back.domOn .choir then (back.setFlag SYS.MODE_GAUTO true).guardSync else back)) ∧
    (s.domOn .crypt → u.path = 0 → vmain < 2400 + 20 * u.fld CRYPT.PWRCFG_MAINLO → u.flag CRYPT.PWRSTAT_BAKOK = false →
      exec (.vmainLoss vmain vbak) s = .next (hold u)) ∧
    (s.domOn .crypt → low.path = 1 → vbak < 1800 + 50 * low.fld CRYPT.PWRCFG_BAKLO → exec (.vbakLow vbak) s = .next (hold low)) ∧
    (s.domOn .crypt → main.path = 1 → 2500 + 20 * main.fld CRYPT.PWRCFG_MAINLO ≤ vmain →
      exec (.returnToMain vmain) s = .next (((mains main).setFlag SYS.MODE_GAUTO false).guardSync)) ∧
    (s.domOn .crypt → u.path = 2 → 2500 + 20 * u.fld CRYPT.PWRCFG_MAINLO ≤ vmain →
      let v := (mains u).bump CRYPT.PWRSTAT_HOLDS 1
      exec (.holdSurvival vmain vbak) s = .next (if v.crypt.holdInStandby then v else v.startDomains 3 0)) ∧
    (1600 ≤ cryptLevel ∧ cryptLevel ≤ 1800) ∧
    (s.path = 2 → cryptLevel ≤ max vmain vbak →
      exec (.holdExpiryCryptReset vmain vbak) s = .next (first (s.cryptReset.supplies vmain vbak))) ∧
    (s.path = 2 → max vmain vbak < cryptLevel → exec (.holdExpiryCryptReset vmain vbak) s =
      .next ((s.cryptReset.onCrypt (fun k => { k with vmain := vmain, vbak := vbak })).setDom .crypt 0)) ∧
    (cryptLevel ≤ max vmain vbak → exec (.cryptPowerOn vmain vbak) s = .next (first (s.cryptReset.supplies vmain vbak)))

/-- The VPUL boost (R61 to R63): OK of a boost that runs follows the ±5 % band of its target, at each voltage seen and at each new
level; below 90 % of its target or at its current limit it sets FAULT, stops and raises choir event 2; a write of 1 clears the fault
and lets the boost restart, unless the FAULT was set in the present period of the crypt's clock (R6). -/
def Obligations.BoostFollowsItsTargetAndFaults : Prop :=
  ∀ (s : State) (c : CoreId) (val : Word) (vpul : Nat), s.Sound →
    let target := 5000 + 125 * s.fld CRYPT.VPULCFG_LEVEL
    let seen := s.onCrypt (fun k => { k with vpul := vpul })
    let fault := (((seen.raiseBit CRYPT.VPULSTAT_FAULT).setFlag CRYPT.VPULSTAT_ON false).setFlag CRYPT.VPULSTAT_INHIBIT
      (s.path != 0)).setFlag CRYPT.VPULSTAT_OK false
    (s.flag CRYPT.VPULSTAT_ON → exec (.vpulInBand vpul) s =
      .next (seen.setFlag CRYPT.VPULSTAT_OK (decide (20 * vpul ≤ 21 * target ∧ 19 * target ≤ 20 * vpul)))) ∧
    (s.flag CRYPT.VPULSTAT_ON = false → exec (.vpulInBand vpul) s = .next seen) ∧
    (s.flag CRYPT.VPULSTAT_ON → 10 * vpul < 9 * target → exec (.vpulUndervoltFault vpul) s = .next (fault.raiseEvent .crypt .choir 2)) ∧
    (s.flag CRYPT.VPULSTAT_ON → exec (.vpulCurrentLimitFault vpul) s = .next (fault.raiseEvent .crypt .choir 2)) ∧
    (fault.flag CRYPT.VPULSTAT_FAULT = true ∧ fault.flag CRYPT.VPULSTAT_ON = false ∧ fault.flag CRYPT.VPULSTAT_OK = false) ∧
    (s.allows c CRYPT.VPULCFG true →
      let u := (s.setFld CRYPT.VPULCFG_LEVEL (min 56 (val.toNat % 64))).setFld CRYPT.VPULCFG_EN (bitsOf val 8 8)
      let now := 5000 + 125 * min 56 (val.toNat % 64)
      let v := if u.flag CRYPT.VPULSTAT_ON then u.setFlag CRYPT.VPULSTAT_OK
        (decide (20 * u.crypt.vpul ≤ 21 * now ∧ 19 * now ≤ 20 * u.crypt.vpul)) else u
      exec (.vpulLevelWrite c val) s = .next v.boostSync) ∧
    (s.allows c CRYPT.VPULSTAT true → val.getLsbD 2 → (s.setNow CRYPT.VPULSTAT).getLsbD 2 → exec (.vpulFaultClear c val) s = .next s) ∧
    (s.allows c CRYPT.VPULSTAT true → val.getLsbD 2 → (s.setNow CRYPT.VPULSTAT).getLsbD 2 = false → exec (.vpulFaultClear c val) s =
      .next ((s.setFlag CRYPT.VPULSTAT_FAULT false).boostSync))

/-- The supply measurement (R77): VMEAS takes both supplies in mV, each within 20 mV; MEASNOW measures after the thresholds
and the charger of the same store, which the monitor compares with at once (R52), and nothing else changes. -/
def Obligations.MeasurementsStayWithinTwentyMillivolts : Prop :=
  ∀ (s : State) (c : CoreId) (val : Word), s.Sound →
    let near := fun (x v : Nat) => v ≤ 4095 ∧ (v : Int) ≤ max 0 ((x : Int) + 20) ∧ min 4095 ((x : Int) - 20) ≤ (v : Int)
    let measured := fun (u t : State) =>
      near u.crypt.vmain (t.fld CRYPT.VMEAS_MAIN) ∧ near u.crypt.vbak (t.fld CRYPT.VMEAS_BAK) ∧
        t = { u.putReg CRYPT.VMEAS (t.getReg CRYPT.VMEAS) with free := u.free + 2 }
    (s.domOn .crypt → ∃ t, exec .vmeasPeriodic s = .next t ∧ measured s t) ∧
    (s.allows c CRYPT.PWRCFG true → val.getLsbD 16 →
      let u := if bitsOf val 15 14 = 3 then s else s.setFld CRYPT.PWRCFG_CHARGE (bitsOf val 15 14)
      let v := (u.setFld CRYPT.PWRCFG_BAKLO (min 12 (bitsOf val 11 8))).setFld CRYPT.PWRCFG_MAINLO (min 30 (val.toNat % 64))
      ∃ t, exec (.measnow c val) s = .next t ∧ measured (v.supplies v.crypt.vmain v.crypt.vbak) t)

/-- Domains fall and rise (R18 to R20, R59, R456, R461): a fall from ON closes the domain's inbound straits, starts the falls of its
units, breaks off deliveries to it, and takes the shared islands along once no domain keeps them; one asked for while RISING waits; a
drained domain loses its power, the shared islands with the last of both, and a rise asked for while FALLING then starts; after a
crypt reset the start waits for VMAIN. -/
def Obligations.DomainsFallAndRise : Prop :=
  ∀ (s : State) (vmain : Nat),
    let down := fun (d : Domain) => ((((s.setDom d 3).closeInbound d).unitsFall d).deliveriesStop d).sharedFollows
    let off := fun (d : Domain) =>
      let u := s.powerOff d
      if u.dom .shared ≠ 0 ∧ u.dom .choir < 2 ∧ u.dom .nave < 2 then u.powerOff .shared else u
    let u := s.supplies vmain s.crypt.vbak
    (s.dom .choir = 2 → exec (.domainFall .choir) s = .next (down .choir)) ∧
    (s.dom .nave = 2 → exec (.domainFall .nave) s = .next (down .nave).feedRecall) ∧
    (s.dom .choir = 1 → exec (.domainFall .choir) s = .next (s.onCrypt (fun k => { k with choirDown := true }))) ∧
    (s.dom .nave = 1 → exec (.domainFall .nave) s = .next (s.onCrypt (fun k => { k with naveDown := true }))) ∧
    (s.dom .choir = 3 → exec (.domainOff .choir) s = .next (if (off .choir).crypt.choirUp then
      ((off .choir).setDom .choir 1).onCrypt (fun k => { k with choirUp := false }) else off .choir)) ∧
    (s.dom .nave = 3 → exec (.domainOff .nave) s = .next (if (off .nave).crypt.naveUp then
      ((off .nave).setDom .nave 1).onCrypt (fun k => { k with naveUp := false }) else off .nave)) ∧
    (s.domOn .crypt → u.crypt.nrst = false → u.path ≠ 2 → (u.crypt.afterCryptReset → u.dom .choir = 1) →
      u.dom .choir = 1 ∨ u.dom .nave = 1 →
      let z := if u.dom .shared = 3 then u.powerOff .shared else u
      let a := if z.dom .shared = 2 then z else (z.domainOn .shared).queuesOn
      let b := if u.dom .choir = 1 then a.domainOn .choir else a
      let d := if u.dom .nave = 1 then b.domainOn .nave else b
      let e := if u.dom .choir = 1 then d.choirRisen else d
      let f := if u.dom .nave = 1 then e.naveRisen else e
      let g := if f.domOn .choir && f.domOn .nave then f.feedReopen else f
      exec (.domainPowerUp vmain) s = .next ((g.latchedDown .choir).latchedDown .nave)) ∧
    (s.domOn .crypt → u.crypt.nrst = false → u.path ≠ 2 → u.crypt.afterCryptReset → u.dom .choir = 0 →
      2500 + 20 * u.fld CRYPT.PWRCFG_MAINLO ≤ vmain →
      exec (.domainPowerUp vmain) s = .next (((if u.path = 0 then u else u.toMain).startDomains 0 0).domainsRise)) ∧
    (s.domOn .crypt → u.crypt.nrst = false → u.path ≠ 2 → u.crypt.afterCryptReset → u.dom .choir = 2 →
      exec (.domainPowerUp vmain) s = .next (if u.choirRisen.domOn .nave then u.choirRisen.naveRisen else u.choirRisen))

/-- Modes, standby and Guard (R443, R447 to R450, R455, R480): a store to MODE sets M and GFORCE, and Guard, the waiting
isles and the nave domain follow; GAUTO clears on MAIN; the timeout of Guard entry takes the nave domain down; standby
takes both domains down, and its alarm starts them again: at once where it names the present second (the model's choice, log entry
75), else the clock runs to the named second. -/
def Obligations.ModesStandbyAndGuardFollow : Prop :=
  ∀ (s : State) (c : CoreId) (val : Word),
    (s.allows c SYS.MODE true → exec (.modeWrite c val) s =
      .next (((((s.setFld SYS.MODE_GFORCE (bitsOf val 6 6)).setFld SYS.MODE_M (bitsOf val 0 0)).guardSync).islesFollow).naveFollows)) ∧
    (s.domOn .crypt → s.path = 0 → 2500 + 20 * s.fld CRYPT.PWRCFG_MAINLO ≤ s.crypt.vmain →
      exec .gautoClear s = .next (s.setFlag SYS.MODE_GAUTO false).guardSync) ∧
    (s.flag SYS.MODE_G → s.dom .nave = 2 → exec .guardNaveFallTimeout s = .next (s.fallStart .nave)) ∧
    (s.domOn .choir → runLife s.choir.run = 2 → s.nave.run ≠ .loader → s.flag SYS.MODE_M = false → s.flag SYS.MODE_V = false →
      s.flag SYS.MODE_G = false → s.flag SYS.MODE_C = false →
      exec .standbyEntry s = .next (s.takeAllDown.onCrypt (fun k => { k with standby := true }))) ∧
    (s.crypt.standby → s.flag CRYPT.WAKECFG_ALARM → s.getReg CRYPT.WAKEAT = s.timeSec →
      exec .wakeAlarm s = .next (s.startDomains 2 1)) ∧
    (s.crypt.standby → s.flag CRYPT.WAKECFG_ALARM → s.getReg CRYPT.WAKEAT ≠ s.timeSec →
      exec .wakeAlarm s =
        .next (s.advance (32768 * (s.getReg CRYPT.WAKEAT - s.timeSec).toNat - s.crypt.ticks.toNat % 32768))) ∧
    (s.crypt.standby → s.flag CRYPT.WAKECFG_ALARM → s.getReg CRYPT.WAKEAT = s.timeSec →
      s.wakeUp 1 = s.startDomains 2 1 ∧ (s.startDomains 2 1).crypt.standby = false)

/-- Resets (R448, R455, R466 to R468): NRST unpowers the domains, or wakes the device from standby; its release starts them;
RSTREQ with its KEY resets a core or all domains; a watchdog kick restarts its count, and the count that reaches its limit
resets its core alone. -/
def Obligations.ResetsReachTheirDomains : Prop :=
  ∀ (s : State) (c : CoreId) (val : Word),
    let low := s.onCrypt (fun k => { k with nrst := true })
    let high := s.onCrypt (fun k => { k with nrst := false })
    (s.domOn .crypt → s.crypt.standby → exec .nrstReset s = .next (low.startDomains 2 0)) ∧
    (s.domOn .crypt → s.crypt.standby = false → s.path ≠ 2 → ¬(s.crypt.afterCryptReset ∧ s.dom .choir = 0) → exec .nrstReset s = .next low.takeAllDown) ∧
    (s.domOn .crypt → s.crypt.nrst → s.dom .choir = 0 → s.path ≠ 2 → s.crypt.standby = false → s.crypt.afterCryptReset = false →
      exec .nrstRelease s = .next (high.startDomains 1 0)) ∧
    (s.allows .choir SYS.RSTREQ true → exec (.rstreqChoircore .choir) s = .next (s.coreReset .choir 3) ∧
      exec (.rstreqDomains .choir) s = .next (s.takeAllDown.startDomains 4 0)) ∧
    (s.allows c SYS.RSTREQ true → s.domOn .nave → exec (.rstreqNavecore c) s = .next (s.coreReset .nave 3)) ∧
    (s.allows c (SYS.WDOG (coreNum c)) true →
      let was := s.flag (SYS.WDOG_EN (coreNum c))
      let u := s.setFld (SYS.WDOG_PERIOD (coreNum c)) (max 1 (val.toNat % 65536))
      let v := if val.getLsbD 31 then u.setFlag (SYS.WDOG_EN (coreNum c)) true else u
      exec (.wdogKick c val) s = .next (if val.getLsbD 16 || (!was && val.getLsbD 31) then v.clearWdog c else v)) ∧
    (s.flag (SYS.WDOG_EN (coreNum c)) → (s.core c).halted = false →
      let count := match c with | .choir => s.crypt.wdogChoir | .nave => s.crypt.wdogNave
      let n := max 1 (1024 * s.fld (SYS.WDOG_PERIOD (coreNum c)) - count)
      exec (.wdogExpiry c) s = .next (s.advance n) ∧
      (s.domOn .crypt → s.period = Period.empty → (∀ d : CoreId, (s.core d).timer.getLsbD 31 = false ∧ (∀ r m e, (s.core d).run ≠ .asleep r m e) ∧
          (d ≠ c → s.flag (SYS.WDOG_EN (coreNum d)) = false)) →
        s.crypt.ticks.toNat % 32768 + n < 32766 →
        exec (.wdogExpiry c) s = .next ((s.onCrypt (fun k => { k with ticks := k.ticks + BitVec.ofNat 40 n })).coreReset c 2)))

/-! ### The acoustic isles -/

/-- A shot-set from its command to its listening (R151 to R154, R182, R185, R187, R188, R201 to R203): a command that may
start copies its descriptor, takes its gain within the leash's limits and begins its lead; one that may not is refused with
FAIL records; the burst starts, and its set holds its token from the first burst on (R198), unless VPUL or the line's capacitance ends
the shot; burst, damping and listening follow. -/
def Obligations.ShotSetsStartAndFire : Prop :=
  ∀ (s : State) (n : Fin 16) (clast : Nat),
    let k := s.isle n
    let twinFree := ∀ y, (s.isle (twinOf n)).cur = some y → y.claimWait = false
    (∀ c rest, k.cmds = c :: rest → s.fld (ISLE.STAT_LIFE n) = 2 → k.cur = none → s.flag (ISLE.STAT_CLAIMED n) = false →
      twinFree → s.flag CRYPT.CLKSTAT_XHFOK →
      let ctl := s.getReg (ISLE0.PDCTL c.pd)
      let t := s.setIsle n { k with cmds := rest }
      (∀ r, s.startRefusal n c = some r → exec (.isleCommandStart n) s = .next ((t.refuseShots n ctl c r).isleRun n)) ∧
      (s.startRefusal n c = none →
        let acoustic := decide (ctlKind ctl < 2)
        let gains := s.getReg (ISLE0.PDGAIN c.pd)
        let lim := gainLimits ctl gains
        let gain := if acoustic then t.limit 132 lim.1 lim.2 (t.fld (ISLE0.PDGAIN_WGAIN c.pd)) else 0
        let u := if acoustic then (t.setFld (ISLE0.PDGAIN_WGAIN c.pd) gain).spend else t
        let group := if acoustic then ctlExg ctl else 0
        let v := if group = 0 then u else { u with isles := { u.isles with requests := u.isles.requests ++ [(group, n.val)] } }
        ∃ x : ShotSet, x.cmd = c ∧ x.ctl = ctl ∧ x.burst = s.getReg (ISLE0.PDBURST c.pd) ∧ x.win = s.getReg (ISLE0.PDWIN c.pd) ∧
          x.gains = gains ∧ x.gain = gain ∧ x.bank = s.bankOf n ∧ x.second = false ∧ x.phase = .lead ∧
          x.tokenWait = decide (group ≠ 0) ∧ x.claimWait = (ctlKind ctl == 0 && ctlPortB ctl / 8 == twinOf n) ∧
          x.shot = k.next ∧ x.time = s.crypt.ticks.toNat % 2 ^ 28 ∧
          exec (.isleCommandStart n) s =
            .next (((v.setIsle n { v.isle n with cur := some x, next := k.next + 1 }).setFlag (ISLE.STAT_DCO n) true).isleSync n))) ∧
    (∀ x, k.cur = some x → x.phase = .lead → ctlKind x.ctl < 2 → x.tokenWait = false → x.claimWait = false →
      s.flag (ISLE.STAT_RECOV n) = false →
      (ctlKind x.ctl = 0 → ctlPortB x.ctl / 8 = twinOf n → s.flag (ISLE.STAT_RECOV (twinOf n)) = false) → s.flag CRYPT.CLKSTAT_XHFOK →
      let noVpul := bitsOf x.ctl 28 28 == 1 && !s.flag CRYPT.VPULSTAT_OK
      let y := { x with time := s.crypt.ticks.toNat % 2 ^ 28, drvsub := noVpul }
      let sensed := s.setFld (ISLE.SENSE_CLAST (shotTx y / 8)) (min clast 0xFFFF)
      exec (.burstStart n clast) s = .next (
        if noVpul && bitsOf x.ctl 27 27 == 1 then
          ((s.failPair n y reasonNovpul 0).isleFault n x.cmd.pd (some (ISLE.FAULTS_NOVPUL n))).isleRun n
        else if min clast 0xFFFF < sensed.fld (ISLE.SENSE_OPENC (shotTx y / 8)) then
          ((sensed.failPair n y reasonOpen flagOpen).isleFault n x.cmd.pd (some (ISLE.FAULTS_OPEN n))).isleRun n
        else (sensed.setCur n { y with phase := .burst }).tokenHeld n)) ∧
    (∀ x, k.cur = some x → x.phase = .burst ∨ (x.phase = .clamp ∧ bitsOf x.burst 21 18 ≠ 0) → exec (.short n) s =
      .next (((s.failPair n x reasonShort flagShort).isleFault n x.cmd.pd (some (ISLE.FAULTS_SHORT n))).isleRun n)) ∧
    (∀ x, k.cur = some x → x.phase = .burst → exec (.burstEnd n) s = .next (s.setCur n { x with phase := .clamp })) ∧
    (∀ x, k.cur = some x → x.phase = .clamp → exec (.clampEnd n) s = .next (s.setCur n { x with phase := .listen })) ∧
    exec (.recoveryEnd n) s = .next (s.setFlag (ISLE.STAT_RECOV n) false)

/-- Exclusion groups and twins (R184, R197 to R199): the twin grants a claim and reads CLAIMED; the token of a group goes to
its earliest request, is held from the set's first burst start, which EXSTAT.BUSY shows, and comes back after the holder's last
window; a wait past MAXWAIT ends the set with EXWAIT, its claims and its request withdrawn. A late grant counts one delay. -/
def Obligations.TokensAndClaimsAreGranted : Prop :=
  ∀ (s : State) (n g : Fin 16) (late : Bool),
    let l := twinOf n
    let delayed := fun (u : State) (m : Nat) (x : ShotSet) =>
      if late && !x.delayed then (u.bump ISLE0.EXSTAT_DELAYS 1).setCur m { x with delayed := true } else u
    let holds := fun (e : Nat × Option (Nat × TokenUse)) => match e.2 with
      | some (_, .held) => true
      | some (_, .ended) => true
      | _ => false
    let busy := fun (u : State) => u.setFld ISLE0.EXSTAT_BUSY (((u.isles.tokens.filter holds).map (fun e => 2 ^ (e.1 - 1))).sum)
    let token := fun (u : State) (v : Option (Nat × TokenUse)) =>
      { u with isles := { u.isles with tokens := tput (fun _ => none) u.isles.tokens g.val v } }
    (∀ u : State, u.tokenSync = busy u) ∧
    (∀ x, (s.isle l).cur = some x → x.claimWait → x.phase = .lead → s.fld (ISLE.STAT_LIFE n) = 2 → (s.isle n).cur = none →
      s.flag (ISLE.STAT_CLAIMED n) = false →
      let y := { x with claimWait := false }
      exec (.twinClaimGrant n late) s = .next (((delayed (s.setCur l y) l y).setFlag (ISLE.STAT_CLAIMED n) true).isleSync n)) ∧
    (∀ m x, tget (fun _ => none) s.isles.tokens g.val = none →
      s.isles.requests.find? (fun r => decide (r.1 = g.val)) = some (g.val, m) → (s.isle m).cur = some x →
      let y := { x with tokenWait := false }
      exec (.exclusionGrant g late) s = .next (delayed ((token (s.withdraw m) (some (m, .granted))).setCur m y) m y)) ∧
    (∀ m, tget (fun _ => none) s.isles.tokens g.val = some (m, .ended) → exec (.exclusionRelease g) s = .next (busy (token s none))) ∧
    (∀ x, (s.isle n).cur = some x → x.phase = .lead → x.tokenWait ∨ x.claimWait →
      let v := if x.delayed then s else (s.bump ISLE0.EXSTAT_DELAYS 1).setCur n { x with delayed := true }
      let w := v.failShot n { x with delayed := true } reasonExwait 0 reasonExwait 0
      exec (.exwait n) s = .next ((w.isleFault n x.cmd.pd (some (ISLE.FAULTS_EXWAIT n))).isleRun n) ∧
        ∃ y, (w.isle n).cur = some y ∧ y.phase = .written ∧ y.claimWait = false ∧ y.tokenWait = false)

/-- Windows (R189 to R191, R195, R200, R217, R246): an opened window takes its first 32 samples, fixes the gate for the rest and
streams to the bank it was granted; a closed one stores the crossings within the window whose half-wave reaches half the gate level.
Both count every overload that they see. -/
def Obligations.WindowsStreamAndClose : Prop :=
  ∀ (s : State) (n : Fin 16) (samples : List Sample) (crossings : List Nat) (o : List (BitVec 3)) (x : ShotSet),
    (s.isle n).cur = some x →
    let r := shotRx x / 8
    let named := (o.map (fun k => k.toNat)).filter (fun k => decide (1 ≤ k ∧ k ≤ 3))
    let overs := if named.isEmpty && clipped samples then [1] else named
    (x.phase = .listen → samples.length = 32 →
      let g0 := s.gateStart r
      let noise := s.rms samples
      let u := s.spend
      let g1 := u.gateWork r noise
      let v := ((u.spend.setFld (ISLE.GATESTAT_NOISE r) noise).setFld (ISLE.GATESTAT_WORK r) g1).overloads x overs
      let w : Window :=
        { opens := windowOpens x, gate0 := 8 * g0, gate1 := 8 * g1, noise := noise, clip := clipped samples || !overs.isEmpty,
          peak := peakOf samples, mags := magnitudes samples, crossings := [],
          streamed := match x.bank with | some b => v.sampleOpen b n | none => false }
      let open' := v.setCur n { x with phase := .window, window := w, centred := x.second && x.arrival.isSome }
      (∀ b, x.bank = some b → v.sampleOpen b n →
        let y := { open' with isles := { open'.isles with
          sent := tput (fun _ => []) open'.isles.sent r (tget (fun _ => []) open'.isles.sent r ++ [x.shot]) } }
        let header := y.sendItem r b 0 (BitVec.ofNat 32 (8 * g0 % 2048 + 2 ^ 12 * bitsOf x.win 29 27))
        exec (.windowOpen n samples o) s = .next ((header.sendAll (isleIsland r) (bankIsland b) tagSample (sampleWords samples)).sendItem
          r b 1 (BitVec.ofNat 32 (8 * g1 % 2048)))) ∧
      ((∀ b, x.bank = some b → v.sampleOpen b n = false) → exec (.windowOpen n samples o) s = .next open')) ∧
    (x.phase = .window → samples.length + 32 = 64 * 2 ^ bitsOf x.win 29 27 → risingTimes crossings →
      let mags := x.window.mags ++ magnitudes samples
      let at' := fun (i : Nat) => 128 * (x.window.opens + i * (25 * 2 ^ bitsOf x.win 26 24))
      let gate := fun (t : Nat) => if t < at' 32 then x.window.gate0 else x.window.gate1
      let within := crossings.filter (fun t => decide (at' 0 ≤ t ∧ t < at' mags.length))
      let w := { x.window with
        clip := x.window.clip || clipped samples || !overs.isEmpty
        peak := max x.window.peak (peakOf samples)
        crossings := ((halfWaves x mags within).filter (fun c => decide (gate c.1 ≤ 2 * c.2))).take 256 }
      let v := (s.overloads x overs).setCur n { x with phase := .lag, window := w }
      let z := if x.second || !x.cmd.pair then v.tokenDone n else v
      exec (.windowClose n samples crossings o) s = .next (match x.bank, x.window.streamed with
        | some b, true => z.sendAll (isleIsland r) (bankIsland b) tagSample (sampleWords samples)
        | _, _ => z))

/-- What ends a shot without its bank (R252): 2 ms after its window closed without LAG, the shot is finished with no arrival, and LAG
words from the banks are ignored; 10 ms after its record without a reply, the isle writes word 5 itself, FAIL with NOVERDICT. -/
def Obligations.ShotsEndWithoutTheirBank : Prop :=
  ∀ (s : State) (n : Fin 16),
    (∀ x, (s.isle n).cur = some x → x.phase = .lag →
      exec (.lagTimeout n) s = .next ((s.ignoreReplies n [tagLag]).finishShot n x none false true)) ∧
    (∀ shot, (s.isle n).awaits = some shot →
      let u := s.ignoreReplies n [tagWack, tagRefuse]
      let v := u.setIsle n { s.isle n with awaits := none }
      exec (.noverdict n) s = .next ((v.sendQueue (isleIsland n) (v.fld (ISLE.RQUEUE_QUEUE n)) [0xC2210000]).isleRun n))

/-- RTD and reference conversions (R266, R267): no capacitor within 20 µs, a short of it, an open sensor and a crossing too
early each end the conversion with their record and choir event 9; a crossing in time gives its record and teaches the
expected time of its descriptor. -/
def Obligations.ConversionsEndWithTheirRecord : Prop :=
  ∀ (s : State) (n : Fin 16) (x : ShotSet) (ns taps : Nat), (s.isle n).cur = some x → 2 ≤ ctlKind x.ctl →
    let m := x.cmd.pd
    let learned := tget (fun _ => none) s.isles.expected m
    let expect := learned.getD 70963200
    let fault := fun (bit : Option Fld) => s.isleFault n m bit
    (x.phase = .lead → s.flag CRYPT.CLKSTAT_XHFOK → ns ≤ 20000 → exec (.rtdChargeDone n ns) s =
      .next ((fault none).rtdRecord n x 0 false 0 verdictFail 0x32)) ∧
    (x.phase = .lead → s.flag CRYPT.CLKSTAT_XHFOK → 20000 < ns → ns ≤ 1000000 → exec (.rtdChargeDone n ns) s =
      .next (s.setCur n { x with phase := .discharge })) ∧
    (x.phase = .lead → exec (.capshort n) s = .next ((fault none).rtdRecord n x 0 false 0 verdictFail 0x33)) ∧
    (x.phase = .discharge → exec (.rtdopen n) s =
      .next ((fault (some (ISLE.FAULTS_OPEN n))).rtdRecord n x 0 true flagOpen verdictFail 0x30)) ∧
    (x.phase = .discharge → taps ≤ 4 * expect → taps < 283648 ∨ (learned ≠ none ∧ 4 * taps < expect) →
      exec (.rtdCrossing n taps) s =
        .next ((fault (some (ISLE.FAULTS_SHORT n))).rtdRecord n x taps false flagShort verdictFail 0x31)) ∧
    (x.phase = .discharge → taps ≤ 4 * expect → 283648 ≤ taps → (learned ≠ none → expect ≤ 4 * taps) →
      exec (.rtdCrossing n taps) s =
        .next (({ s with isles := { s.isles with expected := tput (fun _ => none) s.isles.expected m (some (min taps 70963200)) } }).rtdRecord
          n x taps false 0 verdictConfirm 0))

/-- The isles' registers and the loss of XHF (R179 to R181, R193, R205, R206, R267, R477): a port mode waits for a running
set; a descriptor word is stored field by field, a forbidden pair of ports clears its EN, a stored gain restarts the
working gain, and the learnt time is forgotten; EN starts and stops the isle; a loss of XHF fails every shot under way. -/
def Obligations.IsleRegistersAndXhfLoss : Prop :=
  ∀ (s : State) (c : CoreId) (n : Fin 16) (m : Fin 128) (f : Fin 4) (val : Word), s.Sound →
    let stored := s.storeReg c (ISLE0.PDCTL m + 4 * f.val) val
    let suits := fun (ctl : Word) => ctlKind ctl ≠ 0 ∨ (ctlPortB ctl ≠ ctlPortA ctl ∧
      (ctlPortB ctl / 8 = ctlPortA ctl / 8 ∨ ctlPortB ctl / 8 = twinOf (ctlPortA ctl / 8)))
    let forget := fun (u : State) => { u with isles := { u.isles with expected := terase u.isles.expected m.val } }
    (s.allows c (ISLE.PORTMODE n) true →
      ((s.isle n).cur = none → exec (.portmodeWrite c n val) s = .next (s.setFld (ISLE.PORTMODE_MODES n) (val.toNat % 65536))) ∧
      (∀ x, (s.isle n).cur = some x → exec (.portmodeWrite c n val) s = .next (s.setIsle n { s.isle n with modes := some val }))) ∧
    (s.allows c (ISLE0.PDCTL m + 4 * f.val) true →
      (f = 0 → suits (stored.getReg (ISLE0.PDCTL m)) → exec (.descriptorWrite c m f val) s = .next (forget stored)) ∧
      (f = 0 → ¬suits (stored.getReg (ISLE0.PDCTL m)) →
        exec (.descriptorWrite c m f val) s = .next (forget (stored.setFlag (ISLE0.PDCTL_EN m) false))) ∧
      (f = 1 ∨ f = 2 → exec (.descriptorWrite c m f val) s = .next (forget stored)) ∧
      (f = 3 → exec (.descriptorWrite c m f val) s =
        .next (forget (stored.setFld (ISLE0.PDGAIN_WGAIN m) (stored.fld (ISLE0.PDGAIN_GAIN m)))))) ∧
    (s.allows c (ISLE.CTL n) true →
      let u := s.setFld (ISLE.CTL_EN n) (bitsOf val 31 31)
      let v := u.enableActs (unitIsle n) (val.getLsbD 31 && u.flag SYS.MODE_M)
      exec (.isleEnableWrite c n val) s = .next ((v.fallRefuse n).isleRun n)) ∧
    (s.xhfHeld → s.flag CRYPT.CLKSTAT_XHFON → exec .xhflost s = .next
      (((((s.setFlag CRYPT.CLKSTAT_XHFON false).setFlag CRYPT.CLKSTAT_XHFOK false).onCrypt (fun k => { k with xhfTries := 0 })).raiseEvent
        .crypt .choir 2).islesXhfLost).radioXhfLost)

/-! ### The CIM banks -/

/-- Evaluations and scans of a bank (R211, R221, R224 to R227, R229 to R236): a bank that runs nothing starts the evaluation of the
oldest complete stream, by time before digitally, with its settings latched, unless a scan has been due for 10 ms; a time-domain
evaluation that ends sends LAG, a digital one settles its verdict; a due scan, periodic or by REFNOW, waits behind a running
evaluation; a scan refreshes the drifted rows of the tiles it names that are ON, counts as marked or not, and a periodic one adapts
its period. -/
def Obligations.BanksEvaluateAndScan : Prop :=
  ∀ (s : State) (bk : Fin 4) (c : CoreId) (val : Word) (upsets : Upsets) (drifted : List RowAt),
    let b := bk.val
    let u := s.copyPending b
    let patient := ∀ y ∈ s.scansOf b, (s.crypt.ticks - y.due).toNat < 328
    let started := fun (x : Stream) (digital : Bool) =>
      let mask := u.fld (CIM.CFG_SHOTTILES b)
      u.setEval b (some ⟨x.lead, x.shot, digital, u.fld (CIM.CFG_SPREAD b), mask, u.thresholdsOf b,
        u.tileReason (maskTiles b mask) (2 * x.len)⟩)
    (∀ x, s.evalOf b = none → 2 ≤ s.fld (CIM.STAT_LIFE b) → patient →
      (s.streams b).find? (fun x => decide (x.len ≤ x.count) && !x.lagged && x.reason.isNone) = some x →
      s.bankRun b = started x false ∧ exec (.timeDomainEval bk) s = exec (.timeDomainEval bk) (started x false)) ∧
    (∀ x, s.evalOf b = none → 2 ≤ s.fld (CIM.STAT_LIFE b) → patient →
      (s.streams b).find? (fun x => decide (x.len ≤ x.count) && !x.lagged && x.reason.isNone) = none →
      (s.streams b).find? (fun x => x.lagged && x.digital.isNone && x.reason.isNone) = some x →
      s.bankRun b = started x true ∧ exec (.digitalEval bk upsets.first upsets.drifted upsets.again) s = exec (.digitalEval bk upsets.first upsets.drifted upsets.again) (started x true)) ∧
    (∀ e x, s.evalOf b = some e → s.streamOf b e = some x → e.digital = false →
      let y := { x with lagged := true }
      (∀ q, e.reason = some q → exec (.timeDomainEval bk) s =
        .next ((((s.setStream b { y with reason := some q }).sendLag b x none).settleAll b).evalOver b)) ∧
      (e.reason = none →
        let active := tileActive (maskTiles b e.tiles) x.rows
        let out := s.tdCrossing e.spread e.thresholds (s.readTiles [] active)
        exec (.timeDomainEval bk) s =
          .next ((((((s.touchTiles active).bump (CIM.EVCNT_TD b) 1).spend).setStream b y).sendLag b x out.head?).evalOver b))) ∧
    (∀ e x, s.evalOf b = some e → s.streamOf b e = some x → e.digital = true →
      let tiles := maskTiles b e.tiles
      (∀ q, e.reason = some q → exec (.digitalEval bk upsets.first upsets.drifted upsets.again) s =
        .next (((s.setStream b { x with reason := some q }).settleAll b).evalOver b)) ∧
      (e.reason = none →
        let r := s.digitalRun b e.spread e.thresholds (tileActive tiles x.rows) upsets
        let y := match r.2, tiles.any (fun t => r.1.flag (CIM.TSTAT_POISON t)) with
          | none, _ => { x with reason := some 0xC0 }
          | some _, true => { x with reason := some 0xC1 }
          | some out, false => { x with digital := some out.head? }
        exec (.digitalEval bk upsets.first upsets.drifted upsets.again) s = .next (((r.1.setStream b y).settleAll b).evalOver b))) ∧
    (s.fld (CIM.STAT_LIFE b) = 2 → exec (.replicaScanDue bk drifted) s = .next (s.scanDue b 0xFF true drifted)) ∧
    (s.allows c (CIM.REFNOW b) true → s.fld (CIM.STAT_LIFE b) = 2 →
      exec (.refnow c bk val drifted) s = .next (s.scanDue b (val.toNat % 256) false drifted)) ∧
    (∀ mask periodic,
      let x : Scan := ⟨mask, periodic, drifted, s.crypt.ticks⟩
      ((s.evalOf b).isSome → s.scanDue b mask periodic drifted = s.setScans b (s.scansOf b ++ [x])) ∧
      (s.evalOf b = none → s.fld (CIM.STAT_LIFE b) = 2 → s.scansOf b = [] → nextStream (s.streams b) = none →
        s.scanDue b mask periodic drifted = (((s.setScans b [x]).setScans b []).runScan b x).bankNext b 1)) ∧
    (∀ x : Scan,
      let tiles := (maskTiles b x.tiles).filter (fun t => u.fld (CIM.TSTAT_LIFE t) == 2)
      let found := x.drifted.any (fun d => tiles.elem d.tile.val)
      let held := fun (v : State) => v.limit 255 (v.workLimits b).1 (v.workLimits b).2 (v.fld (CIM.REFSTAT_WORK b))
      let v := u.scanTiles b tiles x.drifted
      let w := { v with cim := { v.cim with scanned := tput (fun _ => none) v.cim.scanned b (some u.crypt.ticks) } }
      let marks := found && (u.fld (CIM.REFCFG_LEASH b) == 2 || decide (held u ≤ (u.workLimits b).1))
      let marked := if marks then tget (fun _ => 0) w.cim.marked b + 1 else 0
      let y := if 8 ≤ marked then (w.setFlag (CIM.FAULTS_LEASH b) true).cimEvent b else w
      let z := { y with cim := { y.cim with marked := tput (fun _ => 0) y.cim.marked b (if 8 ≤ marked then 0 else marked) } }
      let lim := z.workLimits b
      let a := z.spend
      let clean := if found then 0 else tget (fun _ => 0) a.cim.clean b + 1
      let next := if a.fld (CIM.REFCFG_LEASH b) = 2 then held z
        else if found then a.limit 255 lim.1 lim.2 ((held z / 2 : Nat) : Int)
        else if 8 ≤ clean then a.limit 255 lim.1 lim.2 ((2 * held z : Nat) : Int) else held z
      let adapted := (a.setFld (CIM.REFSTAT_WORK b) next).spend
      tiles ≠ [] → s.runScan b x = if x.periodic then { adapted with cim := { adapted.cim with
        clean := tput (fun _ => 0) adapted.cim.clean b (if 8 ≤ clean then 0 else clean) } } else z)

/-- Weights, thresholds, wipes and enables of a bank (R33, R210, R224, R228, R240, R242): the window reads and writes golden
words, correcting single errors and refusing uncorrectable ones; THRDATA reads or writes the entry of THRIDX, which then
rises; a wipe clears the bank's golden store, tiles and thresholds and lets the waiting change apply; EN starts and stops a
bank and its tiles, and a bank that stops takes its tiles along once it has completed every shot it accepted. -/
def Obligations.BankWeightsThresholdsAndWipes : Prop :=
  ∀ (s : State) (bk : Fin 4) (tile : Fin 32) (row : Fin 256) (j : Fin 8) (c : CoreId) (val addr : Word),
    s.Sound →
    let b := bk.val
    let key := 256 * tile.val + row.val
    let w := 8 * key + j.val
    let golden := tget (fun _ => 0#256) s.cim.golden key
    let held := golden.extractLsb' (32 * j.val) 32
    let mine := fun (k : Nat) => decide (k / 2048 = b)
    (addr.toNat = 0x60000000 + 0x2000 * tile.val + 32 * row.val + 4 * j.val →
      (s.allows c addr.toNat false → w ∉ s.cim.double → w ∉ s.cim.single →
        exec (.weightWindowLoad c addr) s = .next { s with reply := held }) ∧
      (s.allows c addr.toNat false → w ∉ s.cim.double → w ∈ s.cim.single →
        let u := { s with cim := { s.cim with single := s.cim.single.filter (fun x => decide (x ≠ w)) } }
        exec (.weightWindowLoad c addr) s = .next { u.bump (CIM.REFSTAT_GCORR (key / 2048)) 1 with reply := held }) ∧
      (s.allows c addr.toNat false → w ∈ s.cim.double →
        exec (.weightWindowLoad c addr) s = .next ((s.poison key).refuseAccess c addr causeEcc 0)) ∧
      (s.allows c addr.toNat true →
        let u := { s with cim := { s.cim with
          golden := tput (fun _ => 0) s.cim.golden key (rowPut golden j.val val)
          single := s.cim.single.filter (fun x => decide (x ≠ w))
          double := s.cim.double.filter (fun x => decide (x ≠ w))
          pending := if s.cim.pending.elem key then s.cim.pending else s.cim.pending ++ [key] } }
        exec (.weightWindowStore c addr val) s = .next ((u.wroteRow key (BitVec.ofNat 8 (2 ^ j.val))).pendSync (key / 2048)))) ∧
    (let i := s.fld (CIM.THRIDX_INDEX b)
     (s.allows c (CIM.THRDATA b) false → exec (.thrdataAccess c bk none) s = .next { s.setFld (CIM.THRIDX_INDEX b) (i + 1) with
        reply := (tget (fun _ => 0#20) s.cim.thresholds (256 * b + i)).setWidth 32 }) ∧
     (s.allows c (CIM.THRDATA b) true → exec (.thrdataAccess c bk (some val)) s = .next ({ s with cim := { s.cim with
        thresholds := tput (fun _ => 0#20) s.cim.thresholds (256 * b + i) (val.setWidth 20) } }.setFld (CIM.THRIDX_INDEX b) (i + 1)))) ∧
    (s.fld (CIM.LEASE_HOLDER b) = 4 →
      let u := { s with cim := { s.cim with
        golden := tdrop mine s.cim.golden, cells := tdrop mine s.cim.cells, written := tdrop mine s.cim.written
        poisoned := tdrop mine s.cim.poisoned, pending := s.cim.pending.filter (fun x => !mine x)
        single := s.cim.single.filter (fun x => !mine (x / 8)), double := s.cim.double.filter (fun x => !mine (x / 8))
        thresholds := tdrop (fun e => decide (e / 256 = b)) s.cim.thresholds } }
      let v := (((List.range 8).map (fun t => 8 * b + t)).foldl State.tileSync u).pendSync b
      let next := v.fld (CIM.LEASE_PENDTO b)
      exec (.bankWipeDone bk) s =
        .next ((((v.setHolder b next).setPend b false 0).setFlag (CIM.FAULTS_LEASED b) true).cimEvent b)) ∧
    (s.allows c (CIM.CTL b) true →
      let u := (s.setFld (CIM.CTL_EN b) (bitsOf val 31 31)).enableActs (unitBank b) (val.getLsbD 31)
      exec (.bankEnableWrite c bk val) s = .next (if u.fld (CIM.STAT_LIFE b) = 3 ∧ s.streams b = [] ∧ s.acksOf b = [] then
        (maskTiles b 0xFF).foldl (fun u t => if u.fld (CIM.TSTAT_LIFE t) = 2 then u.setLife (unitTile t) 3 else u) (u.setScans b [])
        else u)) ∧
    (s.allows c (CIM.TCTL tile) true → exec (.tileEnableWrite c tile val) s =
      .next ((s.setFld (CIM.TCTL_EN tile) (bitsOf val 31 31)).enableActs (unitTile tile) (val.getLsbD 31)))

/-! ### Quantities, the ledger and the outputs -/

/-- The quantity island (R260, R264, R268, R269, R272, R277, R284, R294, R296, R303): a packet on its strait is matched and
used, or breaks a waiting half; a set that times out closes, or is discarded where the conduit is not metered by the configuration
in effect for it (R279), and its close puts the registers' configuration into effect; AUXADD bills its weighted amount, saturating; a
vote restarts its age, also with the reserved class (the model's choice, log entry 71), and expires; CALCTL starts a run. -/
def Obligations.QuantitiesTakePacketsAndClose : Prop :=
  ∀ (s : State) (k : Fin 32) (a : Fin 8) (c : CoreId) (val : Word), s.Sound →
    (∀ q l, s.qty.taken = some (q, l) → s.fld QTY.STAT_LIFE = 2 →
      let u := { s with qty := { s.qty with taken := none } }
      exec .qtyTakePacket s = .next (
        if l.length = 1 ∧ (l.getD 0 0).getLsbD 29 then u.breakHalf q
        else match u.recDescriptor l with
          | some m => if bitsOf (l.getD 0 0) 9 8 = 0 then u.takeTransit q m l else (u.breakHalf q).takeSingle m l
          | none => u.rejectPacket q)) ∧
    (s.flag (QTY.CDSTAT_INSET k) → s.fld QTY.STAT_LIFE ≠ 0 →
      exec (.setWindowExpiry k) s = .next (
        if (s.cdCfg k).metered && (!s.flag SYS.MODE_G || (s.cdCfg k).guarded) then s.closeSet k
        else (s.setFlag (QTY.CDSTAT_INSET k) false).setConduit k { s.conduit k with results := [] })) ∧
    (s.fld (QTY.CLVOTE_AGE k) ≠ 0 → exec (.voteAgeExpiry k) s = .next (s.setConduit k { s.conduit k with vote := none })) ∧
    (s.allows c (QTY.CLVOTE k) true →
      let u := s.setFld (QTY.CLVOTE_AGE k) (bitsOf val 15 8)
      let v := if val.toNat % 8 = 7 then u else u.setFld (QTY.CLVOTE_CLASS k) (val.toNat % 8)
      exec (.clvoteWrite c k val) s = .next (v.setConduit k { s.conduit k with vote := some ⟨0, s.crypt.ticks.toNat % 32768⟩ })) ∧
    (s.allows c (QTY.AUXADD a) true →
      let n := 384 + a.val
      let amount := val.toNat * s.fld (QTY.AUXCFG_WEIGHT a)
      let before := tget (fun _ => 0) s.qty.indices n
      exec (.auxaddWrite c a val) s = .next (s.bill n amount) ∧
      (before < 2 ^ 64 → tget (fun _ => 0) (s.bill n amount).qty.indices n = min (2 ^ 64 - 1) (before + amount)) ∧
      (∀ m, m ≠ n → tget (fun _ => 0) (s.bill n amount).qty.indices m = tget (fun _ => 0) s.qty.indices m)) ∧
    (s.allows c QTY.CALCTL true → val.getLsbD 31 →
      let pd := bitsOf val 22 16
      let count := min 4095 (max 16 (val.toNat % 4096))
      let u := if val.getLsbD 29 && !(s.setNow QTY.CALCTL).getLsbD 29 then s.setFlag QTY.CALCTL_DONE false else s
      let v := ((u.setFld QTY.CALCTL_PD pd).setFld QTY.CALCTL_COUNT count).setFld QTY.CALCTL_START 0
      let w := (v.setFlag QTY.CALCTL_BUSY true).setFld QTY.CALN_N 0
      exec (.calStart c val) s = .next { w with qty := { w.qty with cal := some ⟨pd, count, []⟩ } })

/-- Commits (R298 to R301, R305, R356, R452): a due commit snapshots, and writes the bank without the newest valid image, so
that the newest valid image stands whatever follows; it waits behind a running one. A commit that reads back has its commit word
with its complement and a CRC-32 that matches, becomes the newest, clears or rebases the guard records and starts its follow-up; one that does not is torn and logged. -/
def Obligations.CommitsKeepTheNewestImage : Prop :=
  ∀ (s : State), s.domOn .choir →
    let asked := fun (q : Qty) => match q.follow with | some (r, a) => some (r, a) | none => some (0, false)
    (s.fld LEDG.CFG_PERIOD ≠ 0 → s.qty.commit = none →
      let bank := LedgerBank.begun (s.getReg LEDG.SEQ + 1)
      exec .commitPeriodicDue s =
        .next { s with qty := { s.qty.setBank s.qty.target bank with commit := some ⟨s.image 0, false, s.qty.guard⟩ } } ∧
      (s.qty.setBank s.qty.target bank).newest = s.qty.newest) ∧
    (s.fld LEDG.CFG_PERIOD ≠ 0 → s.qty.commit ≠ none →
      exec .commitPeriodicDue s = .next { s with qty := { s.qty with follow := asked s.qty } }) ∧
    (∀ k, s.qty.commit = some k →
      let b := s.qty.target
      let ended := { s with qty := { s.qty with commit := none } }
      let torn := (((ended.setFlag LEDG.STAT_TORN true).bump LEDG.STAT_TORNS 1).logEvent logCommitTorn k.image.seq 0).raiseEvent
        .ledger .choir 8
      let bank := LedgerBank.written k.image
      let saved := { ended with qty := ended.qty.setBank b bank }
      let shown := ((saved.putReg LEDG.SEQ k.image.seq).putReg LEDG.TIME k.image.sec).setFlag LEDG.STAT_BANK b
      let told := ((shown.setFld LEDG.STAT_REASON k.image.reason).setFlag CRYPT.TIMESTAT_RTCRST false).raiseEvent .ledger .choir 8
      let done := (told.guardCommitted k).followUp
      bank.valid = true ∧ bank.commitSeq = k.image.seq ∧ bank.commitInv = ~~~k.image.seq ∧
      exec (.commitComplete false) s = .next torn.followUp ∧
      exec (.commitComplete true) s = .next (if k.activate then done.coreReset .choir 4 else done))

/-- The pins (R308, R312 to R321): a heartbeat carries V and G; a pulse takes one from the debt and counts at its end; an
input counts its pulses; PINADD adds pulses to a VERIFY pin under V; PINCTL takes MODE only while OFF and refuses EN with a
source out of range; a locked pin takes no store of the nave core, and the choir core alone writes the lock. -/
def Obligations.PinsEmitCountAndLock : Prop :=
  ∀ (s : State) (n : Fin 8) (c : CoreId) (val : Word),
    let life := s.fld (OUT.PINSTAT_LIFE n)
    let mode := s.fld (OUT.PINCTL_MODE n)
    let debt := s.fld (OUT.PINDEBT_DEBT n)
    let active := s.flag (OUT.PINSTAT_ACTIVE n)
    let counted := fun (u : State) => u.setFld (OUT.PINCNT_CNT n) (s.fld (OUT.PINCNT_CNT n) + 1)
    (s.domOn .choir → s.strait .quantity .outputs = .isOpen →
      let v := s.flag SYS.MODE_V && !s.flag SYS.MODE_VSUSP
      exec .heartbeatSend s = .next ((s.send .quantity .outputs tagWaddr 0x300).send .quantity .outputs tagWdata
        (BitVec.ofNat 32 (v.toNat + 2 * (s.flag SYS.MODE_G).toNat)))) ∧
    (life = 2 → mode = 0 ∨ (mode = 1 ∧ s.flag OUT.FEEDSTAT_V) → active = false → 0 < debt →
      exec (.pulseStart n) s =
        .next (((s.setFld (OUT.PINDEBT_DEBT n) (debt - 1)).setFlag (OUT.PINSTAT_ACTIVE n) true).activity (unitPin n))) ∧
    (active → exec (.pulseEnd n) s =
      .next ((s.setFlag (OUT.PINSTAT_ACTIVE n) false).bumpWrap (OUT.PINCNT_CNT n) 1)) ∧
    (life = 2 → mode = 2 → exec (.inputPulseCount n) s = .next ((counted s).activity (unitPin n))) ∧
    (s.allows c (OUT.PINADD n) true → s.outLocked c (OUT.PINADD n) = false → mode = 1 → s.flag OUT.FEEDSTAT_V →
      let sum := debt + val.toNat % 2 ^ 24
      exec (.debtaddWrite c n val) s = .next (if sum ≤ 0xFFFFFF then s.setFld (OUT.PINDEBT_DEBT n) sum
        else (((s.setFld (OUT.PINDEBT_DEBT n) 0xFFFFFF).bump (OUT.PINDEBT_OVER n) (sum - 0xFFFFFF)).setFlag
          (OUT.PINSTAT_DEBTOVF n) true).raiseEvent .outputs .nave 9)) ∧
    (s.allows c (OUT.PINCTL n) true → s.outLocked c (OUT.PINCTL n) = false →
      let u := s.storeReg c (OUT.PINCTL n) val
      let v := if life = 0 then u else u.setFld (OUT.PINCTL_MODE n) mode
      let src := v.fld (OUT.PINCTL_SRC n)
      let ok := match v.fld (OUT.PINCTL_MODE n) with | 0 => decide (src ≤ 391) | 1 => decide (396 ≤ src ∧ src ≤ 411) | _ => true
      let w := if ok then v else v.setFlag (OUT.PINCTL_EN n) false
      let x := w.enableActs (unitPin n) (w.flag (OUT.PINCTL_EN n))
      exec (.pinEnableWrite c n val) s =
        .next (if x.fld (OUT.PINSTAT_LIFE n) = 2 then x else x.setFlag (OUT.PINSTAT_ACTIVE n) false)) ∧
    (s.allows .nave (OUT.PINCTL n) true → bitAt (s.fld OUT.LOCK_PIN) n →
      exec (.pinEnableWrite .nave n val) s = .next s ∧ exec (.debtaddWrite .nave n val) s = .next s) ∧
    (s.allows .choir OUT.LOCK true → exec (.outLockWrite .choir val) s =
      .next ((s.setFld OUT.LOCK_LOOP (bitsOf val 9 8)).setFld OUT.LOCK_PIN (val.toNat % 256)))

/-- The current loops (R326 to R330): a loop without a refresh is STALE; a low loop voltage is measured, latched and told;
a loop that regulates reads a current in LPMEAS within 30 µA of its command (the bounds of R73); the end of a low loop clears LOWNOW, and latches the failure where LOWFAIL asks for it; LPCTL takes EN only for a range that is one, and a
changed source starts unrefreshed. After each the loop takes its state. -/
def Obligations.LoopsFailAndRecover : Prop :=
  ∀ (s : State) (j : Fin 2) (vdev meas : BitVec 16) (c : CoreId) (val : Word),
    let on := s.fld (OUT.LPSTAT_LIFE j) == 2
    let measured := (s.setFld (OUT.LPMEAS_VDEV j) vdev.toNat).setFld (OUT.LPMEAS_MEAS j) meas.toNat
    (on → s.fld (OUT.LPCTL_SRC j) ≠ 0 → exec (.loopStale j) s = .next ((s.setFlag (OUT.LPSTAT_STALE j) true).loopSync j)) ∧
    (on → exec (.loopLow j vdev meas) s = .next
      (((measured.setFlag (OUT.LPSTAT_LOOP_LOW j) true).setFlag (OUT.LPSTAT_LOWNOW j) true).raiseEvent .outputs .nave 9)) ∧
    (on → s.flag (OUT.LPSTAT_LOWNOW j) →
      let u := measured.setFlag (OUT.LPSTAT_LOWNOW j) false
      exec (.lownowClear j vdev meas) s = .next ((if u.flag (OUT.LPCTL_LOWFAIL j) && u.flag (OUT.LPSTAT_LOOP_LOW j) then
        u.setFlag (OUT.LPSTAT_LATCHED j) true else u).loopSync j)) ∧
    (on → s.flag (OUT.LPSTAT_LOWNOW j) = false → s.allows .nave (OUT.LPMEAS j) false →
      let cmd := s.fld (OUT.LPCMD_CMD j)
      60 ≤ cmd → cmd ≤ 65475 → ∃ t, exec (.rzRead .nave (BitVec.ofNat 32 (OUT.LPMEAS j))) s = .next t ∧
        cmd ≤ bitsOf t.reply 15 0 + 60 ∧ bitsOf t.reply 15 0 ≤ cmd + 60) ∧
    (s.allows c (OUT.LPCTL j) true → s.outLocked c (OUT.LPCTL j) = false →
      let u := s.storeReg c (OUT.LPCTL j) val
      let v := if u.fld (OUT.LPCTL_SRC j) ≠ 0 ∧ u.sfld (OUT.LPHI_HI j) ≤ u.sfld (OUT.LPLO_LO j) then
        u.setFlag (OUT.LPCTL_EN j) false else u
      let same := v.fld (OUT.LPCTL_SRC j) = s.fld (OUT.LPCTL_SRC j) ∧ v.fld (OUT.LPCTL_SRCNUM j) = s.fld (OUT.LPCTL_SRCNUM j)
      let w := if same then v else (v.setLoop j LoopSt.empty).setFlag (OUT.LPSTAT_SRCERR j) false
      exec (.loopEnableWrite c j val) s = .next ((w.enableActs (unitLoop j) (w.flag (OUT.LPCTL_EN j))).loopSync j)) ∧
    (s.allows .nave (OUT.LPCTL j) true → bitAt (s.fld OUT.LOCK_LOOP) j → exec (.loopEnableWrite .nave j val) s = .next s)

/-! ### The seal, keys, and masters from outside -/

/-- The seal and the tamper inputs (R338, R339, R341, R342, R448): SEALCTL with its key starts the fuse where every condition
holds, else reports PRECOND; the blown fuse seals for good, clears V and ends a debug session; VERIFY opens a sealed device while the log has room, sets V and
wakes; its release closes it; a change of CASE or MAGNET is logged, or counted while the choir domain is OFF, and may wake. -/
def Obligations.SealAndTamperInputs : Prop :=
  ∀ (s : State) (c : CoreId) (val : Word) (v : Bool), s.Sound →
    let st := s.fld SACR.SEAL_STATE
    let open' := s.setFlag SACR.SEAL_VERIFY true
    let shut := s.setFlag SACR.SEAL_VERIFY false
    let tamper := fun (x : Instr) (level count : Fld) (kind : Nat) (wake : Fld) => s.domOn .crypt → s.flag level ≠ v →
      let u := s.setFlag level v
      let w := if s.dom .choir = 0 then u.bump count 1
        else (u.logEvent kind (BitVec.ofNat 32 v.toNat) 0).raiseEvent .crypt .choir 3
      exec x s = .next (if w.flag wake && w.crypt.standby then w.startDomains 2 2 else w)
    (s.allows c SACR.SEALCTL true → val.getLsbD 0 → bitsOf val 31 16 = 0x5EA1 →
      exec (.seal c val) s = .next (
        if st = 0 ∧ s.flag SACR.SEAL_VERIFY = false ∧ bitAt (s.fld SACR.KEYMAP_VKSET) 0 ∧ bitAt (s.fld SACR.KEYMAP_AES) 0 then
          let u := s.setFlag SACR.KEYSTAT_BUSY true
          { u with sacr := { u.sacr with sealing := true } }
        else s.setFld SACR.KEYSTAT_ERR 4)) ∧
    (s.sacr.sealing →
      let u := { s with sacr := { s.sacr with sealing := false, sealed := true } }
      let w := ((u.setFld SACR.SEAL_STATE 1).setFlag SACR.KEYSTAT_BUSY s.sacr.keyRuns).logEvent logSealed 0 0
      exec .sealingDone s = .next ((((w.raiseBoth .crypt 3).setV false).endDebug).startCommit 4)) ∧
    (s.domOn .crypt → st = 1 → s.logFull = false → exec .verifyOpen s =
      .next (((((open'.setFld SACR.SEAL_STATE 2).logEvent logVerifyOpen 0 0).raiseBoth .crypt 3).setV true).wakeUp 4)) ∧
    (s.domOn .crypt → st = 2 ∨ (st = 1 ∧ s.logFull) → exec .verifyOpen s = .next open') ∧
    (s.domOn .crypt → st = 0 → exec .verifyOpen s = .next ((open'.setV true).wakeUp 4)) ∧
    (s.domOn .crypt → st = 2 → exec .verifyClose s = .next
      (((((shut.setFld SACR.SEAL_STATE 1).logEvent logVerifyClose 0 0).raiseBoth .crypt 3).setV false).endDebug.startCommit 4)) ∧
    (s.domOn .crypt → st ≠ 2 → exec .verifyClose s = .next (shut.setV false)) ∧
    tamper (.case v) SACR.SEAL_CASE SACR.SEAL_CASECNT logCase CRYPT.WAKECFG_CASE ∧
    tamper (.magnet v) SACR.SEAL_MAGNET SACR.SEAL_MAGCNT logMagnet CRYPT.WAKECFG_MAGNET

/-- Keys and CMAC runs (R344 to R348): a free key engine takes each command in the order RANGE, then the seal, then the
key's own condition, and logs what changes a legal key; an error clears the key buffer; a command's end clears BUSY and the key buffer
and tells the core; the nave's slots are 8 to 15; a run streams its message, and its end gives the tag of the message, which holds
octets 12 to 15, its counter field RPTCTR, which then rises by 1. That FINISH uses SLOT and LEN of its own store is the model's choice
(log entry 71). -/
def Obligations.KeyCommandsAndMacRuns : Prop :=
  ∀ (s : State) (c : CoreId) (slot : BitVec 4) (val : Word), s.Sound →
    let n := slot.toNat
    let allowed := s.fld SACR.SEAL_STATE = 0 ∨ s.fld SACR.SEAL_STATE = 2
    let free := s.allows c SACR.KEYCMD true ∧ s.flag SACR.KEYSTAT_BUSY = false
    let wiped := fun (u : State) => (List.range 16).foldl (fun u i => u.putReg (SACR.KBUF 0 + 4 * i) 0) u
    let error := fun (x : Instr) (e : Nat) => exec x s = .next (wiped (s.setFld SACR.KEYSTAT_ERR e))
    let runs := fun (u : State) (b : Bool) => { u with sacr := { u.sacr with keyRuns := b } }
    let starts := fun (u : State) (kcv : Nat) =>
      runs (((u.setFld SACR.KEYSTAT_ERR 0).setFld SACR.KEYSTAT_KCV kcv).setFlag SACR.KEYSTAT_BUSY true) true
    let naveStarts := fun (u : State) (kcv : Nat) =>
      ((u.setFld SACR.NKEYSTAT_ERR 0).setFld SACR.NKEYSTAT_KCV kcv).setFlag SACR.NKEYSTAT_BUSY true
    let key := s.kbufKey (SACR.KBUF 0)
    let naveKey := s.kbufKey (SACR.NKBUF 0)
    let log := fun (u : State) (kind : Nat) (gone : Bool) (b : Nat) =>
      u.logEvent kind (BitVec.ofNat 32 (n + if gone then 2 ^ 31 else 0)) (BitVec.ofNat 32 b)
    (free →
      (8 ≤ n → error (.loadaes c slot) 3 ∧ error (.clear c slot) 3) ∧
      (n < 8 → ¬allowed → error (.loadaes c slot) 1 ∧ error (.clear c slot) 1) ∧
      (n < 8 → allowed →
        exec (.loadaes c slot) s = .next (log (starts (s.setAesKey n (some key)) (keyCheck key)) logKeyLoad false (keyCheck key)) ∧
        exec (.clear c slot) s = .next (log (starts (s.setAesKey n none) 0) logKeyLoad true 0)) ∧
      (4 ≤ n → error (.loadvk c slot) 3 ∧ error (.revokevk c slot) 3) ∧
      (n < 4 → s.fld SACR.SEAL_STATE ≠ 0 → error (.loadvk c slot) 1) ∧
      (n < 4 → s.fld SACR.SEAL_STATE = 0 → bitAt (s.fld SACR.KEYMAP_VKSET) n → error (.loadvk c slot) 2) ∧
      (n < 4 → s.fld SACR.SEAL_STATE = 0 → bitAt (s.fld SACR.KEYMAP_VKSET) n = false →
        let l := s.kbuf (SACR.KBUF 0) 16
        exec (.loadvk c slot) s = .next (starts (s.programVk n (BitVec.ofNat 256 (ofBe (l.take 32))) (BitVec.ofNat 256 (ofBe (l.drop 32)))) 0)) ∧
      (n < 4 → ¬allowed → error (.revokevk c slot) 1) ∧
      (n < 4 → allowed → exec (.revokevk c slot) s = .next (log (starts (s.setFld SACR.KEYMAP_VKREV
        (bitsPut (BitVec.ofNat 32 (s.fld SACR.KEYMAP_VKREV)) n n 1).toNat) 0) logVkey true 0))) ∧
    (s.allows c SACR.NKEYCMD true → s.flag SACR.NKEYSTAT_BUSY = false → 8 ≤ n →
      exec (.nkeyLoad c slot) s = .next (naveStarts (s.setAesKey n (some naveKey)) (keyCheck naveKey)) ∧
      exec (.nkeyClear c slot) s = .next (naveStarts (s.setAesKey n none) 0)) ∧
    (s.sacr.keyRuns → exec (.keyCommandDone .choir) s =
      .next ((wiped ((runs s false).setFlag SACR.KEYSTAT_BUSY s.sacr.sealing)).raiseEvent .sacristy .choir 6)) ∧
    (s.flag SACR.NKEYSTAT_BUSY → exec (.keyCommandDone .nave) s =
      .next (((List.range 4).foldl (fun u i => u.putReg (SACR.NKBUF 0 + 4 * i) 0) (s.setFlag SACR.NKEYSTAT_BUSY false)).raiseEvent
        .sacristy .nave 6)) ∧
    (s.allows c SACR.MACCTL true → s.flag SACR.MACCTL_BUSY = false → val.getLsbD 30 → val.getLsbD 29 = false →
      let u := ((s.setFld SACR.MACCTL_SLOT (bitsOf val 26 24)).setFld SACR.MACCTL_LEN (max 16 (val.toNat % 4096))).setFlag
        SACR.MACCTL_BUSY true
      exec (.macStart c val) s = .next { u with sacr := { u.sacr with macStream := [], macTag := none } }) ∧
    (s.allows c SACR.DIN true → s.flag SACR.MACCTL_BUSY → s.sacr.macTag = none → exec (.macDin c val) s = .next { s with
      sacr := { s.sacr with macStream := s.sacr.macStream ++ octetsOfWord val } }) ∧
    (s.allows c SACR.MACCTL true → s.flag SACR.MACCTL_BUSY → s.sacr.macTag = none → val.getLsbD 29 →
      let u := (s.setFld SACR.MACCTL_SLOT (bitsOf val 26 24)).setFld SACR.MACCTL_LEN (max 16 (val.toNat % 4096))
      let msg := s.sacr.macStream.take (max 16 (val.toNat % 4096))
      let ctr := s.getReg SACR.RPTCTR
      let bad := (u.setFlag SACR.MACCTL_ERR true).setFlag SACR.MACCTL_BUSY false
      exec (.macFinish c val) s = .next (match s.aesKey (bitsOf val 26 24) with
        | some k => if 16 ≤ msg.length ∧ ofLe ((msg.drop 12).take 4) = ctr.toNat ∧ ctr ≠ 0xFFFFFFFF then { u with sacr := { u.sacr with
            macTag := some (BitVec.ofNat 128 (ofLe (octetsOf (cmac (keyOctets k) (natsOf msg))))) } } else bad
        | none => bad)) ∧
    (∀ tag, s.sacr.macTag = some tag →
      let u := (List.range 4).foldl (fun u j => u.putReg (SACR.TAG j) (tag.extractLsb' (32 * j) 32)) s
      let w := ((u.putReg SACR.RPTCTR (u.getReg SACR.RPTCTR + 1)).setFlag SACR.MACCTL_BUSY false).setFlag SACR.MACCTL_ERR false
      exec .macTagReady s = .next ({ w with sacr := { w.sacr with macTag := none, macStream := [] } }.raiseEvent .sacristy .choir 6))

/-- Debug sessions, masters, the slot check and the log (R36, R41, R75, R343, R351, R356, R360): on powered pads a session attaches
while the seal is open, halts and resumes the choir core; a master reads and writes with the nave core's reach, an attached debugger reads
what the choir core reads; the checked slot may be activated if it is newer; LOGDATA reads an entry's words. -/
def Obligations.DebugMastersSlotCheckAndLog : Prop :=
  ∀ (s : State) (c : CoreId) (addr val : Word) (j : Fin 4) (one : Bool), s.Sound →
    let a := addr.toNat
    let own := inFlash .nave a || inSram .nave a
    let allowed := s.fld SACR.SEAL_STATE = 0 ∨ s.fld SACR.SEAL_STATE = 2
    let newer := s.header .choir (s.flag (SYS.IMGCTL_SLOT 0)) 8 < s.sacr.checkedSeq
    let log := s.logEvent logScreenViol
    (s.pathMain → s.domOn .crypt → allowed → s.domOn .choir → exec .debugAttach s = .next ((s.setFlag SACR.SEAL_DBG true).logEvent logDebugAttach 0 0)) ∧
    (s.pathMain → s.domOn .crypt → ¬allowed → exec .debugAttach s = .next (log 0 4)) ∧
    (s.pathMain → allowed → s.flag SACR.SEAL_DBG → exec .debugHalt s = .next { s with choir := { s.choir with halted := true } }) ∧
    (s.pathMain → s.flag SACR.SEAL_DBG → s.choir.halted → exec (.debugResume one) s =
      .next (({ s with choir := { s.choir with halted := false, stepping := one } }).wakeDeadline .choir)) ∧
    (s.pathMain → s.domOn .nave → a % 4 = 0 →
      (own = false → s.silentAt a = false → s.reach .nave a false = none → ∀ r g, regionOf a = some g → s.loadAt .nave a g = r →
        ∀ w, r.2 = .ok w → exec (.spiTargetAccess addr none) s = .next { r.1 with reply := w } ∧
          (s.flag SACR.SEAL_DBG = false → exec (.debugPortAccess addr none) s = .next { r.1 with reply := w })) ∧
      (inSram .nave a = false → s.silentAt a = false → s.reach .nave a true = none → ∀ g, regionOf a = some g →
        exec (.spiTargetAccess addr (some val)) s = .next (s.storeAt .nave a val [] g) ∧
        exec (.debugPortAccess addr (some val)) s = .next (s.storeAt .nave a val [] g)) ∧
      (own = false → s.reach .nave a false = some causeScreen → s.flag SACR.SEAL_DBG = false →
        exec (.spiTargetAccess addr none) s = .next (log addr 0) ∧ exec (.debugPortAccess addr none) s = .next (log addr 4)) ∧
      (inSram .nave a → exec (.spiTargetAccess addr (some val)) s = .next (s.writeOwn .nave a 4 val))) ∧
    (s.allows c SACR.IMGCHK true → s.flag SACR.IMGCHK_BUSY = false →
      let u := s.setFlag SACR.IMGCHK_BUSY true
      exec (.imgchkCheck c) s = .next { u with sacr := { u.sacr with slotWritten := false } }) ∧
    (s.flag SACR.IMGCHK_BUSY →
      let b := !s.flag (SYS.IMGCTL_SLOT 0)
      let u := (s.setFlag SACR.IMGCHK_BUSY false).setFlag SACR.IMGCHK_DONE true
      let w := u.setFlag SACR.IMGCHK_VALID (s.slotValid .choir b)
      exec .imgchkDone s = .next ({ w with sacr := { w.sacr with checkedSeq := w.header .choir b 8 } }.raiseEvent .sacristy .choir 6)) ∧
    (s.allows c SACR.IMGCHK true →
      exec (.imgchkActivate c) s = .next (
        if s.flag SACR.IMGCHK_VALID ∧ s.sacr.slotWritten = false ∧ s.flag SACR.IMGCHK_BUSY = false ∧ newer then
          ((s.setFlag SACR.IMGCHK_REFUSED false).logEvent logImageActivate (BitVec.ofNat 32 s.sacr.checkedSeq) 0).askCommit 1 true
        else s.setFlag SACR.IMGCHK_REFUSED true)) ∧
    (s.allows c (LEDG.LOGDATA j) false →
      let i := s.fld LEDG.LOGIDX_INDEX
      let w := match s.log[i]? with | some e => entryWord e j | none => 0
      exec (.logdataRead c j) s = .next { (if j = 3 then s.setFld LEDG.LOGIDX_INDEX (min 1791 (i + 1)) else s) with reply := w })

/-! ### The belfry: slots, registers and the network engine -/

/-- Slots and frames (R364, R365, R369, R370, R372 to R377, R379, R388): the ASN rises by 1 at a slot start, or takes the
value loaded, and a cell hops over HOPSEQ; a buffered frame that fits goes on air stamped and secured, at the working power or the
upper limit, and reaches its outcome; a SHARED cell that finds its channel busy listens; a good frame in a listening slot is delivered
and acknowledged. While a test carrier runs, no cell does (R389). -/
def Obligations.SlotsSendReceiveAndAcknowledge : Prop :=
  ∀ (s : State) (i : Fin 2) (e : BitVec 8) (f : RxFrame) (h : Mhr), s.Sound →
    let p := i.val
    let x := s.port p
    let idle := s.portOn p ∧ s.flag CRYPT.CLKSTAT_XHFOK ∧ x.air = none ∧ x.awaits = none ∧ x.ack = none
    let live := s.portLive p ∧ s.flag CRYPT.CLKSTAT_XHFOK ∧ x.air = none ∧ s.testing p = false
    (idle → x.lastDone = false → x.install = none →
      let u := match x.asnLoad with
        | some a => ((s.setAsn p a).setFlag (BELF.PSTAT_SYNCED p) true).onPort p (fun y => { y with asnLoad := none })
        | none => s.setAsn p ((s.asn p + 1) % 2 ^ 40)
      let v := (u.applyCorr p).keepBeacon p
      let r := v.slotAction p
      exec (.slotStart i) s = .next ((v.setFlag (BELF.PSTAT_RXON p) r.1.listens).onPort p (fun y => { y with
        act := r.1, channel := r.2, skip := y.skip - natOfBool (v.skipsShared p) }))) ∧
    (idle → x.lastDone → exec (.slotStart i) s = .next ((s.onPort p (fun y => { y with
      lastBuilt := false, lastDone := false })).setLife (55 + p) 3)) ∧
    (s.testing p = false → s.scanning p = false → s.flag (BELF.PSTAT_SYNCED p) → s.fld (BELF.HOP_HOPLEN p) ≠ 0 →
      ¬(s.role p = 2 ∧ s.netState p = 5) → ∀ act choff, s.pickCell p = (act, choff) →
        s.slotAction p = (act, bitsOf (s.getReg (hopSeq p ((s.asn p + choff) % s.fld (BELF.HOP_HOPLEN p)))) 6 0)) ∧
    (∀ kind q b, live → x.act = .send kind q → x.buf q = some b → s.pathMain →
      let u := s.onPort p (fun y => { y with act := .idle, lastDone := y.lastDone || (y.lastBuilt && q == s.fld (BELF.NETQS_BCNQ p)) })
      let ar := kind != 0 && bitAt (leAt b.octets 0 2) 5
      let size := b.octets.length + 2
      let l := if hdrStamp b.header then putOctets b.octets (hdrAsnOff b.header) (leOctets 5 (s.asn p)) else b.octets
      let onAir := fun (v : State) (m : List Octet) =>
        let w := v.setBuf p q (some { b with attempts := b.attempts + 1, upper := u.atUpper p })
        ((w.charge p (w.port p).channel (w.airtime p size)).setFlag (BELF.PSTAT_TXON p) true).onPort p (fun y => { y with
          air := some ⟨some q, kind == 4, ar, m, if ar then w.sfld (BELF.PSTAT_WPWR p) else w.powerHi p⟩ })
      (kind = 4 → s.sfld (BELF.CCA_THR p) ≤ e.toInt → exec (.frameTransmit i e) s =
        .next (((u.backoff p).setFlag (BELF.PSTAT_RXON p) true).onPort p (fun y => { y with act := .listen false false }))) ∧
      (¬(kind = 4 ∧ s.sfld (BELF.CCA_THR p) ≤ e.toInt) →
        u.badFrame p b.header (some b.octets) (u.fitsCell p q b.octets) = 0 → u.fits p b.octets.length ar → u.limitAllows p (u.port p).channel (u.airtime p size) →
        (hdrSecure b.header = false → exec (.frameTransmit i e) s = .next (onAir u l)) ∧
        (∀ k, hdrSecure b.header → u.counterReady (8 + hdrKey b.header) → parseMhr l = some h → u.aesKey (8 + hdrKey b.header) = some k →
          let c := u.takeCounter (8 + hdrKey b.header)
          exec (.frameTransmit i e) s = .next (onAir c.1 (secureFrame k u.eui c.2 h (l.take (l.length - micLen h.level))))))) ∧
    (∀ a, x.air = some a →
      let u := (s.setFlag (BELF.PSTAT_TXON p) false).onPort p (fun y => { y with air := none })
      (∀ q, a.queue = some q → a.ar → exec (.frameTransmitEnd i) s = .next ((u.setFlag (BELF.PSTAT_RXON p) true).onPort p
        (fun y => { y with awaits := some (q, a.shared) }))) ∧
      (∀ q b, a.queue = some q → a.ar = false → (u.port p).buf q = some b →
        exec (.frameTransmitEnd i) s = .next (u.finishFrame p q b 1 0)) ∧
      (a.queue = none → exec (.frameTransmitEnd i) s = .next u)) ∧
    (∀ c, live → f.channel.toNat = x.channel → x.awaits = none → x.act = .listen false c →
      (c ∨ ((f.start : Int) - s.txMicros p).natAbs ≤ s.guardMicros p) →
      (f.fcsGood = false → exec (.frameReceive i f) s = .next (s.bump (BELF.RXCNT_FCSERR p) 1)) ∧
      (f.fcsGood → parseMhr f.octets = some h → h.type = macData → h.version ≠ 3 → h.secured = false → s.passesFilter p h →
        let r := s.heardFrom p h.src f.rssi.toNat
        let t := r.1
        let take := fun (v : State) (ack : Bool) => exec (.frameReceive i f) s = .next ((v.sendQueue .belfry
          (v.fld (BELF.QUEUES_RXQ p)) (v.rxWords p f false ack f.octets)).bump (BELF.RXCNT_OK p) 1)
        t.fromSource p h r.2 = false →
        (h.ar = false → h.dst ≠ .short 0xFFFF → take t false) ∧
        (h.ar → s.toPort p h.dst → h.dst ≠ .short 0xFFFF → h.version < 2 →
          t.pathMain → t.limitAllows p (t.port p).channel (t.airtime p 5) →
          take (t.onPort p (fun y => { y with ack := some ⟨immAck (h.seq.getD 0), none⟩ })) true))) ∧
    (∀ l, x.ack = some ⟨l, none⟩ → s.portLive p → s.flag CRYPT.CLKSTAT_XHFOK → s.testing p = false → s.pathMain →
      let u := (s.onPort p (fun y => { y with ack := none })).setFlag (BELF.PSTAT_RXON p) false
      exec (.ackTransmit i) s = .next (((u.charge p (u.port p).channel (u.airtime p (l.length + 2))).setFlag (BELF.PSTAT_TXON p)
        true).onPort p (fun y => { y with air := some ⟨none, false, false, l, s.sfld (BELF.PSTAT_WPWR p)⟩ }))) ∧
    (∀ q shared b, x.awaits = some (q, shared) →
      let u := ((s.setFlag (BELF.PSTAT_RXON p) false).onPort p (fun y => { y with awaits := none, run := 0 })).adaptPower p 3
      let v := if shared then u.backoff p else u
      (v.port p).buf q = some b → exec (.ackTimeout i) s =
        .next (if 1 + v.fld (BELF.PCTL_MAXRETRY p) ≤ b.attempts then v.finishFrame p q b 2 0 else v)) ∧
    (s.flag (BELF.PSTAT_SYNCED p) → s.flag (BELF.PCTL_TIMESRC p) →
      let u := (((s.setFlag (BELF.PSTAT_SYNCED p) false).setFlag (BELF.FAULTS_SYNCLOST p) true).raiseEvent .belfry .nave 8)
      exec (.synclost i) s = .next (if s.role p = 1 ∧ s.netState p = 3 then u.nodeOrphan p else u)) ∧
    exec (.limitBucketAdvance i true) s = .next (s.onPort p (fun y => { y with
      dwell := y.dwell.foldl (fun m d => tput (fun _ => []) m d.1 (accNext d.2 21)) [], fullDwell := y.fullDwell - 1 })) ∧
    exec (.limitBucketAdvance i false) s = .next (s.onPort p (fun y => { y with
      duty := y.duty.foldl (fun m d => tput (fun _ => []) m d.1 (accNext d.2 61)) [], fullDuty := y.fullDuty - 1 })) ∧
    (s.fld (BELF.PSTAT_LIFE p) = 3 → s.flag SYS.MODE_G = false → x.bufs = [] →
      let u := ((s.setFlag (BELF.PSTAT_SYNCED p) false).setFlag (BELF.PSTAT_TXON p) false).setFlag (BELF.PSTAT_RXON p) false
      exec (.portFallDone i) s = .next ((((u.setNetState p 0).onPort p (fun y => { y with
        act := .idle, air := none, awaits := none, ack := none, asking := 0, fails := 0, lease := none, install := none
        corr := none, lastBuilt := false, lastDone := false, backoff := 0, skip := 0 })).unitOff (55 + p)).xhfSync))

/-- Belfry registers (R363, R371, R377, R381, R389, R421, R425): a store of PCTL switches the port; ASNHI and ASNLO load
the ASN under OWN and are discarded under NEIGHBOUR; GEN fills the hop table; PRESET loads the limiter; NBRCMD reads,
writes and deletes an entry; a counter's mark rises by 65,536. -/
def Obligations.BelfryRegistersActOnPorts : Prop :=
  ∀ (s : State) (c : CoreId) (i : Fin 2) (val hi lo : Word), s.Sound →
    let p := i.val
    let pctl := fun (v : Word) => (s.storeReg .nave (BELF.PCTL p) v)
    let legal := fun (src : Nat) => 128 ≤ s.fld (BELF.QUEUES_RXQ p) ∧ 128 ≤ s.fld (BELF.QUEUES_TXSTATQ p) ∧
      ¬(s.role p = 2 ∧ src = 1) ∧ ¬(s.role p = 1 ∧ src = 0)
    let old := s.getReg (BELF.PCTL p)
    let kept := bitsPut (bitsPut (bitsPut old 31 31 (bitsOf val 31 31)) 29 29 (bitsOf val 29 29)) 28 27 (bitsOf val 28 27)
    (s.allows c (BELF.PCTL p) true → s.fld (BELF.PSTAT_LIFE p) = 0 → val.getLsbD 31 → legal (bitsOf val 30 30) →
      planChannels p (bitsOf val 14 12) ≠ 0 →
      let u := (pctl val).setFlag (BELF.PCTL_EN p) true
      exec (.portEnableWrite c i val) s = .next (State.epochStep s
        (((u.setFlag (SYS.UNITSTATE_DEFER (55 + p)) false).setLife (55 + p) 1).xhfSync))) ∧
    (s.allows c (BELF.PCTL p) true → s.fld (BELF.PSTAT_LIFE p) = 2 → s.role p ≠ 2 → val.getLsbD 31 = false →
      exec (.portEnableWrite c i val) s = .next (State.epochStep s
        (((((pctl kept).setFlag (BELF.PCTL_EN p) false).setLife (55 + p) 3)).xhfSync))) ∧
    (s.allows c (BELF.PCTL p) true → s.fld (BELF.PSTAT_LIFE p) = 2 → s.role p ≠ 2 → val.getLsbD 31 → legal (bitsOf old 30 30) →
      exec (.radioTest c i val) s = .next (State.epochStep s (((pctl kept).setFlag (BELF.PCTL_EN p) true).xhfSync))) ∧
    (s.allows c (BELF.PCTL p) true → s.fld (BELF.PSTAT_LIFE p) = 2 → s.role p = 2 → s.netState p ≠ 7 →
      legal (bitsOf old 30 30) →
      let t := State.epochStep s ((pctl kept).setFlag (BELF.PCTL_EN p) (val.getLsbD 31))
      exec (.portEnableWrite c i val) s = .next t ∧ exec (.radioTest c i val) s = .next t) ∧
    (s.allows c (BELF.ASNHI p) true → s.flag (BELF.PCTL_TIMESRC p) = false →
      exec (.asnLoad c i hi lo) s = .next ((s.onPort p (fun y => { y with asnHi := some (bitsOf hi 7 0) })).onPort p
        (fun y => { y with asnLoad := some (bitsOf hi 7 0 * 2 ^ 32 + lo.toNat), asnHi := none }))) ∧
    (s.allows c (BELF.ASNHI p) true → s.flag (BELF.PCTL_TIMESRC p) → exec (.asnLoad c i hi lo) s = .next s) ∧
    (s.allows c (BELF.HOP p) true →
      let u := (s.setFld (BELF.HOP_HOPLEN p) (min 128 (bitsOf val 23 16))).setFld (BELF.HOP_SEED p) (bitsOf val 15 0)
      exec (.hopGen c i val) s = .next (State.epochStep s (if val.getLsbD 31 then u.setFlag (BELF.HOP_BUSY p) true else u))) ∧
    (s.flag (BELF.HOP_BUSY p) →
      let l := s.hopList p
      let u := (List.range l.length).foldl (fun t j => t.putReg (hopSeq p j) (BitVec.ofNat 32 (l.getD j 0))) s
      exec (.hopGenDone i) s = .next ((u.setFld (BELF.HOP_HOPLEN p) l.length).setFlag (BELF.HOP_BUSY p) false)) ∧
    (s.allows c (BELF.LIMCFG p) true →
      let u := s.setFld (BELF.LIMCFG_COLD p) (bitsOf val 28 28)
      let set := fun (n : Nat) => u.setFld (BELF.LIMCFG_PRESET p) n
      let write := fun (t : State) => exec (.limcfgPresetWrite c i val) s = .next (State.epochStep s t)
      (bitsOf val 31 29 = 0 → write (((set 0).setFld (BELF.LIMCFG_DLIM p) 0).loadBands p [])) ∧
      (bitsOf val 31 29 = 1 → p = 0 → write (((set 1).setFld (BELF.LIMCFG_DLIM p) 0).loadBands p
        [(10, 863000, 868000), (100, 868000, 868600), (10, 868700, 869200), (1000, 869400, 869650), (100, 869700, 870000)])) ∧
      (bitsOf val 31 29 = 2 → p = 0 →
        write ((((set 2).setFld (BELF.LIMCFG_DWIN p) 20).setFld (BELF.LIMCFG_DLIM p) 400).loadBands p [])) ∧
      let custom := fun (t : State) => (t.setFld (BELF.LIMCFG_DWIN p) (max 1 (bitsOf val 23 16))).setFld
        (BELF.LIMCFG_DLIM p) (bitsOf val 15 0)
      (bitsOf val 31 29 = 3 → write (custom (set 3))) ∧
      (4 ≤ bitsOf val 31 29 ∨ (p = 1 ∧ (bitsOf val 31 29 = 1 ∨ bitsOf val 31 29 = 2)) →
        write (if s.fld (BELF.LIMCFG_PRESET p) = 3 then custom u else u))) ∧
    (s.allows c BELF.NBRCMD true →
      let n := s.fld BELF.NBRIDX_INDEX
      let ok := s.setFld BELF.NBRCMD_ERR 0
      (s.nbr n = none → exec (.nbrRead c) s = .next (State.epochStep s ([BELF.NBRD0, BELF.NBRD1, BELF.NBRD2, BELF.NBRD3,
        BELF.NBRD4, BELF.NBRD5, BELF.NBRD6].foldl (fun t a => t.putReg a (regReset a)) ok)) ∧
        exec (.nbrDelete c) s = .next (State.epochStep s ok)) ∧
      (∀ e, s.nbr n = some e →
        exec (.nbrDelete c) s = .next (State.epochStep s ((if e.leased then ok.endLease e.port e.lidx else ok).setNbr n none)) ∧
        ∃ t, exec (.nbrRead c) s = .next t ∧ t.getReg BELF.NBRD6 = BitVec.ofNat 32 (e.lrem % 2 ^ 24 + 2 ^ 24 * e.lidx) ∧
          ∀ k, e.eui = some k → t.getReg BELF.NBRD0 = BitVec.ofNat 32 k ∧ t.getReg BELF.NBRD1 = BitVec.ofNat 32 (k / 2 ^ 32)) ∧
      (let eui := (s.getReg BELF.NBRD1).toNat * 2 ^ 32 + (s.getReg BELF.NBRD0).toNat
       let port := s.fld BELF.NBRD2_PORT
       let short := s.fld BELF.NBRD2_SHORT
       let other := s.findNbr (fun m =>
         m.port == port && m.short == short && short != 0xFFFF && m.eui.isSome && m.eui != some eui)
       let place := (s.nbrOfEui eui).orElse (fun _ => s.freeNbr)
       let err := fun (k : Nat) => exec (.nbrWrite c) s = .next (State.epochStep s (s.setFld BELF.NBRCMD_ERR k))
       (other ≠ none → err 3) ∧
       (other = none →
        (place = none → err 1) ∧
        (∀ j, place = some j →
          let e := (s.nbr j).getD (Nbr.new (some eui) short port s.now)
          let full := s.flag BELF.NBRD2_PINNED ∧ e.pinned = false ∧ 128 ≤ s.pinnedCount
          (full → err 2) ∧
          (¬full → exec (.nbrWrite c) s = .next (State.epochStep s (ok.setNbr j (some { e with
            eui := some eui, short := short, port := port
            pinned := s.flag BELF.NBRD2_PINNED || e.leased, allow := s.flag BELF.NBRD2_ALLOW })))))))) ∧
    (∀ k : Fin 8, s.fld (BELF.NMARK_MARK k) = 0 ∨ s.fld (BELF.NMARK_MARK k) - 4096 ≤ s.fld (BELF.NFC_COUNT k) →
      exec (.counterMarkDone k) s = .next (s.setFld (BELF.NMARK_MARK k) (min 0xFFFFFFFF (s.fld (BELF.NMARK_MARK k) + 65536))))

/-- The network engine (R400, R403, R406 to R409, R411, R413): a coordinator writes its cells, beacons, ends leases and
closes with a last beacon in BCNQ, or falls where none can be built (the model's choice, log entry 76); a node asks, renews, gives up
and scans; a relay goes once its delay ends unless enough copies were heard; the key whose CACHETTL ends first leaves the cache. -/
def Obligations.NetworkEngineRunsItsCommands : Prop :=
  ∀ (s : State) (i : Fin 2) (n : Fin 128), s.Sound →
    let p := i.val
    let x := s.port p
    let joinFail := fun (u : State) => (u.setFlag (BELF.NETFAULTS_JOINFAIL p) true).raiseEvent .belfry .nave 8
    (s.role p = 2 → s.portOn p → s.netState p = 0 →
      let u := s.writeCell p 0 (cellWord 0 0 (s.fld (BELF.CHCFG_BCHOFF p))) (s.fld (BELF.NETQS_BCNQ p))
      let v := u.writeCell p 1 (cellWord 4 (u.fld (BELF.CELLCFG_JOINSLOT p)) (u.fld (BELF.CHCFG_JOINCHOFF p)))
        (u.fld (BELF.NETQS_NETQ p))
      exec (.coordinatorStart i) s = .next ((v.setNetState p 5).queueBeacon p false)) ∧
    (s.netState p = 5 → exec (.startWindowEnd i) s = .next (s.setNetState p 6)) ∧
    (s.role p = 1 → x.asking = 2 →
      (2 ≤ x.fails → s.netState p = 2 →
        let u := joinFail (s.onPort p (fun y => { y with asking := 0, fails := 0 }))
        exec (.assocResponseTimeout i) s = .next (u.nodeScans p (u.port p).wanted)) ∧
      (x.fails < 2 → s.netState p = 2 → exec (.assocResponseTimeout i) s =
        .next ((s.onPort p (fun y => { y with asking := 0, fails := x.fails + 1 })).nodeRequest p 3)) ∧
      (x.fails < 2 → s.netState p = 3 ∨ s.netState p = 4 → exec (.assocResponseTimeout i) s =
        .next ((s.onPort p (fun y => { y with asking := 0, fails := x.fails + 1 })).nodeRequest p 4))) ∧
    (∀ e k left, s.role p = 1 → s.netState p = 3 → x.asking = 0 → s.nbr (s.fld (BELF.NETSTAT_PARENT p)) = some e →
      x.lease = some (k, left) →
      exec (.leaseRenewDue i) s = .next (((s.spend.spend).engineCommand p
        (if x.parentExt then .ext (e.eui.getD 0) else .short e.short) (.ext s.eui)
        (leaseOctets ⟨s.fld (BELF.ADDR_SHORT p), (Config.value (s.free + 1)).toNat, k, 4⟩)
        (leOctets 1 1 ++ leOctets 1 ((Config.value s.free).toNat % 256))).onPort p (fun y => { y with asking := 1 }))) ∧
    (∀ left, s.role p = 1 → x.lease = some (n.val, left) → exec (.leaseExpiry i n) s = .next (s.nodeScans p 0xFFFF)) ∧
    (∀ j e, s.role p ≠ 1 → s.leaseHolder p n = some j → s.nbr j = some e →
      let u := (s.setNbr j (some { e with leased := false, pinned := false, lrem := 0 })).setQuarantine p n
        (e.eui.getD 0, s.fld (BELF.LEASECFG_QUAR p) * 60)
      exec (.leaseExpiry i n) s = .next (((u.disableCell p (s.fld (BELF.CELLCFG_CELLBASE p) + n.val)).setFlag
        (BELF.NETFAULTS_LEASEEXP p) true).raiseEvent .belfry .nave 8)) ∧
    exec (.quarantineEnd i n) s = .next (s.onPort p (fun y => { y with
      quarantine := tput (fun _ => (0, 0)) y.quarantine n (0, 0) })) ∧
    (s.role p = 1 → s.netState p = 4 → exec (.orphanTimeout i) s = .next (s.nodeScans p (s.fld (BELF.ADDR_SHORT p)))) ∧
    (∀ wanted, let t := s.nodeScans p wanted
      t.netState p = 1 ∧ t.flag (BELF.PCTL_SCAN p) ∧ t.flag (BELF.SYNC_ANY p) ∧ t.flag (BELF.PSTAT_SYNCED p) = false ∧
        (∀ k < 6, bitsOf (t.getReg (cellA p k)) 31 31 = 0)) ∧
    (s.role p = 2 → s.portOn p → s.flag (BELF.PCTL_EN p) = false → s.netState p ≠ 7 →
      (s.pathMain = false ∨ s.fld (QUE.STAT_LIFE (s.fld (BELF.NETQS_BCNQ p))) ≠ 2 → exec (.lastBeacon i) s =
        .next ((s.onPort p (fun y => { y with lastBuilt := false, lastDone := false })).setLife (55 + p) 3)) ∧
      (s.pathMain → s.fld (QUE.STAT_LIFE (s.fld (BELF.NETQS_BCNQ p))) = 2 →
        let u := (s.dropQueued p).setNetState p 7
        let b := u.beacon p true
        exec (.lastBeacon i) s = .next ((u.spend.engineSend p (u.fld (BELF.NETQS_BCNQ p)) (beaconFields b.2) b.1).onPort p
          (fun y => { y with lastBuilt := false, lastDone := false })))) ∧
    (∀ r, s.dueRelay p = some r →
      let u := s.onRadio (fun y => { y with relays := y.relays.erase r })
      let k := s.fld (BELF.FLOODCFG_SUPK p)
      (k ≠ 0 → k ≤ r.copies → exec (.floodRelay i) s = .next (u.bump (BELF.FLOODCNT_SUPPRESSED p) 1)) ∧
      (k = 0 ∨ r.copies < k → exec (.floodRelay i) s = .next ((u.engineSend p (s.fld (BELF.NETQS_FLOODQ p))
        (if r.level.isSome then secureFields (s.fld (BELF.SECCFG_FKEY p)) else 0) (u.relayFrame p r)).bump
          (BELF.FLOODCNT_RELAYED p) 1))) ∧
    (s.radio.seen = [] → exec .seenCacheExpiry s = .next s) ∧
    (∀ k, s.dueKey = some k → k ∈ s.radio.seen ∧ (∀ y ∈ s.radio.seen, s.overTtl y ≤ s.overTtl k) ∧
      exec .seenCacheExpiry s = .next (s.onRadio (fun r => { r with seen := r.seen.erase k })))

/-! ### Straits and queues, boot and units, time, and register accesses -/

/-- Straits (R22, R23, R27, R29, R30, R40, R79 to R83, R132, R232, R459): a word that a strait carries leaves its wire and
acts by its tag; a wrong parity line is counted and the word is never trusted, and a damaged request is refused for the first
cause that applies; a word that its strait does not carry, or that stands behind a waiting header, stays; a strait reopens
once its receiver's domain is ON. -/
def Obligations.StraitsCarryWordsByTheirTags : Prop :=
  ∀ (s : State) (c : CoreId) (src dst : Island) (tag : BitVec 4) (w : Word) (good : Bool) (n : Fin 256), s.Sound →
    let n := n.val
    let front := s.frontWire src dst
    let sent := (front.map (fun x => x.word)).getD w
    let waits := s.blocks src dst ((front.map (fun x => x.tag)).getD tag) sent
    let u := { s with wires := dropFirstWire src dst s.wires }
    let v := u.portActive src tag
    let crosses := straitExists src dst ∧ s.carries src dst ∧ waits = false
    let par := u.tally32 SYS.STRAITERR_PARITY 1
    let refused := fun (t : State) (a : Word) (cause kind : Nat) =>
      let r := t.recordRefusal c a cause kind
      (if t.executes c then r.fault c faultRefused a else r).send dst src tagRefuse (BitVec.ofNat 32 cause)
    let now := fun (b : Bool) (t : State) =>
      exec (.straitWordReceive src dst tag w (parityLine tag w == b)) s = .next (t.handshakeDone src dst)
    let live := fun (t : State) => t.selected src = n ∧ t.fld (QUE.STAT_LIFE n) = 2
    (∀ b, ¬ crosses → exec (.straitWordReceive src dst tag w b) s = .next s) ∧
    (crosses → 0xC ≤ tag.toNat → now true (u.tally32 SYS.STRAITERR_PROTO 1) ∧ now false (par.tally32 SYS.STRAITERR_PROTO 1)) ∧
    (crosses → dst = .queue → tag = tagQword →
      (v.selected src = 256 → now true ((v.bump QUE.ORPHAN_BADSEL 1).verdictTaken src)) ∧
      (v.selected src = n → v.fld (QUE.STAT_LIFE n) ≠ 2 → now true ((v.bump QUE.ORPHAN_DENIED 1).verdictTaken src)) ∧
      (live v → (v.queue n).dropping = false → (v.queue n).count + 2 ≤ (v.queue n).capacity → now true
        ((((v.sourceActive (some src)).storeWord n (some src) ((w ||| 0x80000000) &&& ~~~0x20000000)).dropStuck n).verdictTaken src)) ∧
      (live v → (v.queue n).dropping = false → (v.queue n).capacity < (v.queue n).count + 2 →
        v.blockLimit n ≤ (v.queue n).held →
        now true (((v.sourceActive (some src)).dropTail n (some src) 1 (w.getLsbD 30)).verdictTaken src)) ∧
      (live par → (par.queue n).dropping = false →
        now false ((par.dropTail n (some src) 1 (w.getLsbD 30)).verdictTaken src))) ∧
    (crosses → dst = .queue → tag = tagQsel →
      (s.mayWrite src (bitsOf w 7 0) → now true (u.select src (bitsOf w 7 0))) ∧
      (s.mayWrite src (bitsOf w 7 0) = false →
        let r := (u.select src 256).send .queue src tagRefuse 2
        now true (if s.naveSender src then r.logEvent logScreenViol (BitVec.ofNat 32 (QUE.DESC (bitsOf w 7 0))) 9 else r)) ∧
      (par.selected src = 256 → now false (par.select src 256)) ∧
      (par.selected src = n → (par.queue n).openPk.isSome → (par.queue n).source = some src → (par.queue n).dropping = false →
        now false ((par.select src 256).dropTail n (some src) 0 false))) ∧
    (crosses → src = coreIsland c → tag = tagRaddr →
      (∀ cause, u.reach c w.toNat false = some cause → now true (refused u w cause 0)) ∧
      (∀ g r x, u.reach c w.toNat false = none → regionOf w.toNat = some g → u.loadAt c w.toNat g = (r, .ok x) →
        now true (if u.silentAt w.toNat then refused u w 7 0 else r.send dst src tagRdata x)) ∧
      now false (refused par sent ((par.reach c sent.toNat false).getD 6) 0)) ∧
    (crosses → src = coreIsland c → tag = tagWaddr →
      let held := par.holdAddr src dst (some (.damaged sent))
      now true (u.holdAddr src dst (some (.good w))) ∧
      now false (refused held sent ((held.reach c sent.toNat true).getD 6) 1)) ∧
    (∀ a, crosses → src = coreIsland c → tag = tagWdata → s.heldAddr src dst = some (.good a) →
      let h := u.holdAddr src dst none
      let x := par.holdAddr src dst none
      (∀ cause, h.reach c a.toNat true = some cause → now true (refused h a cause 1)) ∧
      now false (refused x a ((x.reach c a.toNat true).getD 6) 1) ∧
      (∀ g, h.reach c a.toNat true = none → regionOf a.toNat = some g → now true (if h.silentAt a.toNat then refused h a 7 1
        else (h.storeAt c a.toNat w [] g).send dst src tagWack 0))) ∧
    (∀ a, crosses → src = coreIsland c → tag = tagWdata → s.heldAddr src dst = some (.damaged a) →
      now good ((if good then u else par).holdAddr src dst none)) ∧
    (crosses → dst = coreIsland c → tag = tagEvent → (s.core c).run = .running →
      (bitsOf w 4 0 < 12 →
        now true (u.setCore c { s.core c with evpend := (s.core c).evpend ||| (1#32 <<< bitsOf w 4 0) })) ∧
      (12 ≤ bitsOf w 4 0 → now true u) ∧ now false par) ∧
    (crosses → dst = .crypt → tag = tagLife → bitsOf w 7 0 < 67 →
      let d := (bitsOf w 17 10 + 256 - s.fld (SYS.UNITSTATE_EPOCH (bitsOf w 7 0))) % 256
      now true (if 1 ≤ d ∧ d ≤ 127 then (u.setFld (SYS.UNITSTATE_STATE (bitsOf w 7 0)) (bitsOf w 9 8)).setFld
        (SYS.UNITSTATE_EPOCH (bitsOf w 7 0)) (bitsOf w 17 10) else u)) ∧
    (straitExists src dst → s.domOn (islandDomain dst) → s.strait src dst ≠ .isOpen →
      let t := s.setStrait src dst .isOpen
      exec (.straitReopen src dst) s = .next (if src = .quantity ∧ dst = .outputs then t.feedReopen else t)) ∧
    (s.strait src dst = .isOpen → exec (.straitReopen src dst) s = .next s)

/-- Queues (R79, R88, R94, R96 to R98, R101, R104, R135): a whole packet crosses to its hardware consumer from the word where
its delivery stands, and a damaged word ends the delivery; the scrubber corrects or discards; a descriptor holds a quota to the
pool; a queue rises with the marker of its last fall and falls with its blocks returned; a standing condition sends its notice
again. -/
def Obligations.QueuesDeliverScrubRiseAndFall : Prop :=
  ∀ (s : State) (c : CoreId) (val : Word) (f : Fin 256), s.Sound →
    let n := f.val
    let q := s.queue n
    (∀ k rest, q.packets = k :: rest → q.given < k.words.length → s.deliverable n →
      let last := if q.given + 1 < k.words.length then s.setQueue n { q with given := k.words.length - 1 } else s
      let crosses := (∀ x ∈ k.words, x.ecc = .good) ∧ s.domOn
        (match s.fld (QUE.DESC_CONSUMER n) with | 1 => .choir | _ => .nave)
      (crosses → s.fld (QUE.DESC_CONSUMER n) = 1 → s.strait .queue .quantity = .isOpen → exec (.queueDeliver f) s =
        .next ((last.popPacket n).onQty (fun y => { y with taken := some (n, k.words.map (fun x => x.word)), served := n }))) ∧
      (∀ p, crosses → s.fld (QUE.DESC_CONSUMER n) = 2 → s.strait .queue .belfry = .isOpen → s.bufTaker n = some p →
        exec (.queueDeliver f) s = .next ((last.popPacket n).belfTake p n (k.words.map (fun x => x.word)) k.marker)) ∧
      (crosses → s.fld (QUE.DESC_CONSUMER n) = 3 → s.strait .queue .service = .isOpen →
        exec (.queueDeliver f) s = .next (last.popPacket n)) ∧
      (∀ x i, consumerIsland (s.fld (QUE.DESC_CONSUMER n)) = some i → s.domOn (islandDomain i) →
        s.strait .queue i = .isOpen → q.words[q.given]? = some x → x.ecc = .double →
        exec (.queueDeliver f) s = .next ((s.queueUe n q.given).settled n))) ∧
    (q.packets = [] → exec (.queueDeliver f) s = .next s) ∧
    (∀ j, s.domOn .shared → q.inCloister j → j < q.count →
      let e1 := s.setQueue n (q.setEcc j .single)
      let e2 := s.setQueue n (q.setEcc j .double)
      ((e1.queue n).firstUpset = some (j, .single) → ((e1.queueCorr n j).queue n).firstUpset = none →
        exec (.cloisterScrub f [(j, false)]) s = .next ((e1.queueCorr n j).settled n)) ∧
      ((e2.queue n).firstUpset = some (j, .double) → ((e2.queueUe n j).queue n).firstUpset = none →
        exec (.cloisterScrub f [(j, true)]) s = .next ((e2.queueUe n j).settled n))) ∧
    (s.domOn .shared → q.firstUpset = none → exec (.cloisterScrub f []) s = .next (s.settled n)) ∧
    (s.allows c (QUE.DESC n) true →
      let off := s.fld (QUE.STAT_LIFE n) = 0
      let cons := bitsOf val 30 28
      let a := if off ∧ (cons = 0 ∨ (cons = 1 ∧ n < 112) ∨ ((cons = 2 ∨ cons = 3) ∧ 112 ≤ n)) then
        s.setFld (QUE.DESC_CONSUMER n) cons else s
      let b := if off then a.setFld (QUE.DESC_DELIVER n) (bitsOf val 27 27) else a
      let d := b.setFld (QUE.DESC_DEPTH n) (bitsOf val 23 12)
      let x := d.setQuota n (d.quotaClamp n (bitsOf val 11 0))
      exec (.queueDescWrite c f val) s =
        .next (((x.setFld (QUE.DESC_EN n) (bitsOf val 31 31)).queueEnable n (val.getLsbD 31)).dropStuck n)) ∧
    (∀ x, s.fld (QUE.DESC_QUOTA n) < x → s.quotaClamp n x ≤ max (s.fld (QUE.DESC_QUOTA n))
      (4096 - s.quotaSum (fun m => decide (m ≠ n)))) ∧
    (s.allows c QUE.POOL true → exec (.navecapWrite c val) s = .next (s.setFld QUE.POOL_NAVECAP (bitsOf val 27 16))) ∧
    (s.fld (QUE.STAT_LIFE n) = 1 →
      let t := s.setQueue n (match q.fell with
        | some (p, x) => { q with packets := [markerPacket p x .head], fell := none }
        | none => q)
      let r := (t.setFld (QUE.STAT_LIFE n) 2).notifyWatches n false
      exec (.queueRiseDone f) s = .next (if s.flag (QUE.DESC_EN n) then r else r.queueFalls n)) ∧
    (s.fld (QUE.STAT_LIFE n) = 3 →
      let t := (s.setBlocks n []).setFld (QUE.STAT_LIFE n) 0
      exec (.queueFallDone f) s = .next (if s.flag (QUE.STAT_DEFER n) then
        (t.setFlag (QUE.STAT_DEFER n) false).setFld (QUE.STAT_LIFE n) 1 else t)) ∧
    (let a := s.repeatCrypt
     let b := if s.domOn .shared then a.each (List.range 4) State.repeatBank else a
     let d := if s.domOn .choir then b.repeatChoir else b
     exec .eventRepeat s = .next (if s.domOn .nave then d.repeatNave else d)) ∧
    (s.flag CRYPT.CLKSTAT_XTFAIL ∨ s.flag CRYPT.CLKSTAT_XHFFAIL ∨ s.flag CRYPT.VPULSTAT_FAULT →
      s.sacr.mailCmd = none → s.sacr.mailReply = none → (∀ k < 67, s.flag (SYS.UNITSTATE_STALE k) = false) →
      s.repeatCrypt = s.raiseEvent .crypt .choir 2)

/-- Boot, flash and units (R172 to R177, R357, R456, R463, R465): a core starts the newer valid slot, slot A on equal SEQ,
and logs what R173 and R174 say; a flash command is refused with its error or starts, and its end erases or programs; the
loader takes an image for the inactive slot while the path is MAIN; a unit rises to ON, or falls at once where its enable is gone. -/
def Obligations.BootFlashAndUnitsComplete : Prop :=
  ∀ (s : State) (c : CoreId) (y : Fin 67), s.Sound →
    let n := y.val
    let i := coreNum c
    let valid := fun (b : Bool) => s.slotValid c b
    let boots := s.domOn (coreDomain c) ∧ ((s.core c).run = .off ∨ (s.core c).run = .booting)
    let rising := s.setRun c .booting
    let marked := (rising.setFlag (SYS.IMGCTL_VALIDA i) (valid false)).setFlag (SYS.IMGCTL_VALIDB i) (valid true)
    let cmd := fun (x : Instr) (u : FlashUnit) (erase : Bool) =>
      let a := (s.getReg (flashAddr u)).toNat
      let e := s.flashCheck u erase
      (s.flag (flashBusy u) → exec x s = .next (s.setFld (flashErr u) 5)) ∧
      (s.flag (flashBusy u) = false → e ≠ 0 → exec x s = .next (s.setFld (flashErr u) e)) ∧
      (s.flag (flashBusy u) = false → e = 0 → u ≠ .core .choir → exec x s =
        .next (((s.setFld (flashErr u) 0).setFlag (flashBusy u) true).setFlashOp u
          (some (if erase then .erase a else .program a (s.getReg (flashLo u)) (s.getReg (flashHi u)))))) ∧
      (flashBytes u ≤ a → e = 3) ∧
      (a < flashBytes u → s.flashActive u a → e = 1) ∧
      (a < flashBytes u → s.flashActive u a = false → a % (if erase then 4096 else 8) ≠ 0 → e = 2)
    let started := fun (erase : Bool) =>
      let a := (s.getReg (SYS.IMGADDR 0)).toNat
      let u := ((s.setFld (SYS.IMGCTL_ERR 0) 0).setFlag (SYS.IMGCTL_BUSY 0) true)
      { u with sacr := { u.sacr with
        opChoir := some (if erase then .erase a else .program a (s.getReg (SYS.IMGDLO 0)) (s.getReg (SYS.IMGDHI 0))), slotWritten := true } }
    (boots → valid false = false → valid true = false →
      exec (.coreBoot c) s = .next ((marked.logEvent logBootNoimage (BitVec.ofNat 32 i) 0).setRun c .loader)) ∧
    (∀ b, boots → b = (valid true && (!valid false || decide (s.header c false 8 < s.header c true 8))) →
      (valid false ∨ valid true) →
      let base := slotBase c b
      let v := marked.setFlag (SYS.IMGCTL_SLOT i) b
      let w := v.setCore c { rising.core c with
        pc := BitVec.ofNat 32 (base + s.header c b 0x10), fvec := BitVec.ofNat 32 (base + s.header c b 0x14) }
      let z := match c with | .choir => w.identify b | .nave => w
      let older := s.header c (!b) 0 = imageMagic c ∧ s.header c b 8 < s.header c (!b) 8
      let x := if older then z.logEvent logBootFallback (BitVec.ofNat 32 i) (BitVec.ofNat 32 (s.header c (!b) 8)) else z
      exec (.coreBoot c) s = .next ((x.logEvent logBoot (BitVec.ofNat 32 i + BitVec.ofNat 32 (256 * natOfBool b))
        (BitVec.ofNat 32 (s.header c b 8))).setRun c .running)) ∧
    (s.allows c (SYS.IMGCTL i) true → cmd (.imgErase c) (.core c) true ∧ cmd (.imgProgram c) (.core c) false) ∧
    (s.allows .choir (SYS.IMGCTL 0) true → s.flag (SYS.IMGCTL_BUSY 0) = false →
      (s.flashCheck (.core .choir) false = 0 → exec (.imgProgram .choir) s = .next (started false)) ∧
      (s.flashCheck (.core .choir) true = 0 →
        let t := (started true).logEvent logImageErase (s.getReg (SYS.IMGADDR 0)) 0
        exec (.imgErase .choir) s = .next (if s.sacr.eraseLogged then started true else
          { t with sacr := { t.sacr with eraseLogged := true } }))) ∧
    (s.allows c SYS.CFGCTL true →
      (s.sealOpen → cmd (.cfgErase c) .config true ∧ cmd (.cfgProgram c) .config false) ∧
      (s.sealOpen = false →
        let t := (s.setFld SYS.CFGCTL_ERR 7).logEvent logSlDeny (BitVec.ofNat 32 SYS.CFGCTL) 0
        exec (.cfgErase c) s = .next t ∧ exec (.cfgProgram c) s = .next t)) ∧
    (s.allows c SYS.CFGDATA false →
      let base := if s.flag SYS.STATUS_CFG_DEFAULT = false ∧ s.flag SYS.STATUS_CFGCOPY then 0x2000 else 0
      exec (.cfgdataRead c) s = .next { s.setFld SYS.CFGIDX_INDEX (s.fld SYS.CFGIDX_INDEX + 1) with
        reply := s.configWord (base + 4 * s.fld SYS.CFGIDX_INDEX) }) ∧
    (∀ (u : FlashUnit) (g : Bool), s.flag (flashBusy u) →
      let t := (s.setFlag (flashBusy u) false).setFlashOp u none
      (∀ a, s.flashOp u = some (.erase a) →
        exec (.flashOpDone u g) s = .next (t.flashPut u a (List.replicate 4096 0xFF))) ∧
      (∀ a lo hi, s.flashOp u = some (.program a lo hi) →
        exec (.flashOpDone u true) s = .next (t.flashPut u a (octetsOfWord lo ++ octetsOfWord hi)) ∧
        exec (.flashOpDone u false) s = .next (((t.flashPut u a (octetsOfWord (Config.value s.free) ++
          octetsOfWord (Config.value (s.free + 1)))).spend.spend).setFld (flashErr u) 6))) ∧
    (∀ addr lo hi : Word, s.pathMain → s.domOn (coreDomain c) → (s.core c).run = .loader →
      let base := slotBase c (!s.flag (SYS.IMGCTL_SLOT i))
      addr.toNat % 8 = 0 → base ≤ addr.toNat → addr.toNat < base + slotSize c →
      let t := s.setCore c ((s.core c).setBytes addr.toNat (octetsOfWord lo ++ octetsOfWord hi))
      exec (.serviceLoaderFrame c (.image addr lo hi)) s = .next (match c with
        | .choir => { t with sacr := { t.sacr with slotWritten := true } }
        | .nave => t)) ∧
    (∀ (k : Fin 4) kx ky, s.pathMain → s.domOn (coreDomain c) → (s.core c).run = .loader → s.fld SACR.SEAL_STATE = 0 →
      bitAt (s.fld SACR.KEYMAP_VKSET) k = false →
      exec (.serviceLoaderFrame c (.verifyKey k kx ky)) s = .next (s.programVk k kx ky)) ∧
    (s.life n = 1 → s.domOn (unitDomain n) →
      let on := s.setLife n 2
      (2 ≤ n → n < 18 → exec (.unitRiseDone y) s = .next ((on.isleRisen (n - 2)).isleFollow (n - 2))) ∧
      (18 ≤ n → n < 22 → exec (.unitRiseDone y) s = .next (((on.bankRisen (n - 18)).enableActs n
        ((on.bankRisen (n - 18)).flag (CIM.CTL_EN (n - 18)))).bankFalls (n - 18))) ∧
      (22 ≤ n → n < 54 → s.life (18 + (n - 22) / 8) = 2 → exec (.unitRiseDone y) s =
        .next ((on.tileRisen (n - 22)).enableActs n ((on.tileRisen (n - 22)).flag (CIM.TCTL_EN (n - 22))))) ∧
      (n = 54 → exec (.unitRiseDone y) s = .next (if s.flag QTY.CTL_EN then on else on.setLife 54 3)) ∧
      (n = 55 ∨ n = 56 → exec (.unitRiseDone y) s = .next (((s.portRisen (n - 55)).enableActs n
        ((s.portRisen (n - 55)).flag (BELF.PCTL_EN (n - 55)))).xhfSync)) ∧
      (57 ≤ n → n < 65 → exec (.unitRiseDone y) s = .next (if s.flag (OUT.PINCTL_EN (n - 57)) then on else on.setLife n 3)) ∧
      (65 ≤ n → exec (.unitRiseDone y) s = .next ((on.loopRisen (n - 65)).enableActs n
        ((on.loopRisen (n - 65)).flag (OUT.LPCTL_EN (n - 65)))))) ∧
    (s.life n = 3 →
      let off := fun (u : State) =>
        let v := u.setLife n 0
        if u.flag (SYS.UNITSTATE_DEFER n) then (v.setFlag (SYS.UNITSTATE_DEFER n) false).setLife n 1 else v
      (2 ≤ n → n < 18 → s.isleIdle (n - 2) → exec (.unitFallDone y) s = .next ((off s).isleRun (n - 2))) ∧
      (18 ≤ n → n < 22 → s.bankIdle (n - 18) → exec (.unitFallDone y) s = .next (off s)) ∧
      (22 ≤ n → n < 54 → s.tileBusy (n - 22) = false → exec (.unitFallDone y) s = .next (off (s.tileLost (n - 22)))) ∧
      (n = 54 ∨ 57 ≤ n → exec (.unitFallDone y) s = .next (off s)) ∧
      (n = 55 ∨ n = 56 → exec (.unitFallDone y) s = .next (s.portFallen (n - 55))))

/-- A second edge (R435, R436): TIME_SEC rises by 1, or takes the committed value in place of its increment; PEND then
clears unless a later value is staged, SET is set, and TIME_SET is logged with the value that TIME_SEC would have taken and
the value it took. Reads of TIME_SUB and TIME_SEC use the core's latch; ldtm SPLIT reads both and leaves it. A write
stages. -/
def Obligations.TimeOfDayRisesAndTakesStagedValues : Prop :=
  ∀ (s : State) (c : CoreId) (val : Word), s.Sound →
    let other : CoreId → CoreId := fun d => match d with | .choir => .nave | .nave => .choir
    (s.crypt.committed = none → s.secondEdge.timeSec = s.timeSec + 1 ∧ s.secondEdge.log = s.log) ∧
    (∀ v, s.crypt.committed = some v → s.logFull = false → s.dom .choir ≠ 0 →
      let t := s.secondEdge
      t.timeSec = v ∧ t.crypt.committed = none ∧ t.flag CRYPT.TIMESTAT_SET ∧
        t.flag CRYPT.TIMESTAT_PEND = s.crypt.staged.isSome ∧
        t.log = logPush s.log ⟨v, 0x0050, 0, s.timeSec + 1, v⟩) ∧
    (∀ v, s.crypt.staged = some v →
      s.commitStaged.crypt.committed = some v ∧ s.commitStaged.crypt.staged = none) ∧
    (s.allows c CRYPT.TIME_SUB false → ∃ t, exec (.timeSubRead c) s = .next t ∧
      t.reply = BitVec.ofNat 32 (s.crypt.ticks.toNat % 32768) ∧ t.latch c = some s.timeSec ∧
      t.latch (other c) = s.latch (other c) ∧ t.regs = s.regs) ∧
    (s.allows c CRYPT.TIME_SEC false → ∃ t, exec (.timeSecRead c) s = .next t ∧
      t.reply = (s.latch c).getD s.timeSec ∧ t.latch c = none ∧ t.latch (other c) = s.latch (other c) ∧ t.regs = s.regs) ∧
    (∀ (i : Issue) (rd ra : Reg), s.ready i → s.serves i.core .crypt → ¬(rd = ra ∧ rd ≠ 0) → ∃ t, exec (.ldtmSplit i rd ra) s = .next t ∧
      t.reg i.core rd = (if rd = 0 then 0 else s.timeSec) ∧
      t.reg i.core ra = (if ra = 0 then 0 else BitVec.ofNat 32 (s.crypt.ticks.toNat % 32768)) ∧
      t.latch c = s.latch c ∧ t.latch (other c) = s.latch (other c)) ∧
    (s.allows c CRYPT.TIME_NEW true → exec (.timeNewWrite c val) s =
      .next ({ s with crypt := { s.crypt with staged := some val } }.setFlag CRYPT.TIMESTAT_PEND true)) ∧
    exec .secondEdge s = .next (s.advance (32768 - s.crypt.ticks.toNat % 32768)) ∧
    (s.crypt.committed.isSome ∨ (s.crypt.staged.isSome ∧ s.crypt.ticks.toNat % 32768 < 32766) →
      exec .timeSet s = .next (s.advance (32768 - s.crypt.ticks.toNat % 32768)))

/-- Clocks (R429, R431, R433, R434): XHF is ON and OK once it is stable, lingers after its last holder, restarts three times
before it fails with choir event 2; the tick count follows TRIM on XT32K alone, makes up the gap of a lost crystal, and
keeps its value when the crystal returns. With no command waiting, a step lets one tick of TICK32 pass (that the empty
queue is a tick is the model's choice, log entry 4). -/
def Obligations.ClocksStartTrimAndFail : Prop :=
  ∀ (s : State) (c : CoreId) (val : Word) (gap : Nat), s.Sound →
    let tries := fun (u : State) (n : Nat) => { u with crypt := { u.crypt with xhfTries := n } }
    (s.xhfHeld → s.crypt.xhfTries ≠ 4 → s.path ≠ 2 → ∃ t, exec .xhfStart s = .next t ∧ t.flag CRYPT.CLKSTAT_XHFON ∧ t.flag CRYPT.CLKSTAT_XHFOK ∧
      t.crypt = { s.crypt with xhfTries := 0, xhfLinger := false } ∧
      ∀ a, a ≠ CRYPT.CLKSTAT → t.getReg a = s.getReg a) ∧
    (s.crypt.xhfLinger → s.xhfHeld = false → ∃ t, exec .xhfLingerEnd s = .next t ∧
      t.flag CRYPT.CLKSTAT_XHFON = false ∧ t.flag CRYPT.CLKSTAT_XHFOK = false ∧ t.crypt = { s.crypt with xhfLinger := false } ∧
      ∀ a, a ≠ CRYPT.CLKSTAT → t.getReg a = s.getReg a) ∧
    (s.xhfHeld → s.flag CRYPT.CLKSTAT_XHFOK = false → s.path ≠ 2 →
      (s.crypt.xhfTries < 3 → exec .xhfStartTimeout s = .next (tries s (s.crypt.xhfTries + 1))) ∧
      (s.crypt.xhfTries = 3 → exec .xhfStartTimeout s = .next ((tries ((s.raiseBit CRYPT.CLKSTAT_XHFFAIL).setFlag
        CRYPT.CLKSTAT_XHFON false) 4).raiseEvent .crypt .choir 2))) ∧
    (s.allows c CRYPT.XHFREQ true → exec (.xhfreqWrite c val) s = .next (((s.setFld CRYPT.XHFREQ_CHOIR (bitsOf val 31 31)).setFld
      CRYPT.XHFREQ_LINGER (bitsOf val 7 0)).xhfSync)) ∧
    (s.flag CRYPT.CLKSTAT_XT32K → 0 < s.sfld CRYPT.RTCTRIM_TRIM →
      exec .rtcTrim s = .next (s.advance (2 * (s.sfld CRYPT.RTCTRIM_TRIM).toNat))) ∧
    (s.sfld CRYPT.RTCTRIM_TRIM ≤ 0 → exec .rtcTrim s = .next s) ∧
    (s.domOn .crypt → exec .xt32kSwitch s = .next (s.setFlag CRYPT.CLKSTAT_XT32K true)) ∧
    (s.flag CRYPT.CLKSTAT_XT32K → exec (.xtfail gap) s = .next ((((s.setFlag CRYPT.CLKSTAT_XT32K false).raiseBit
      CRYPT.CLKSTAT_XTFAIL).raiseEvent .crypt .choir 2).advance gap)) ∧
    (∀ n, s.domOn .crypt = false → s.advance n = s) ∧
    (∀ n, n + s.crypt.ticks.toNat % 32768 < 32766 → calmBut s .choir → s.choir.timer.getLsbD 31 = false →
      (∀ r m e, s.choir.run ≠ .asleep r m e) →
      (s.pending = [] → n = 1 → step s = .next { s with crypt := { s.crypt with ticks := s.crypt.ticks + 1 } }) ∧
      s.advance n = { s with crypt := { s.crypt with ticks := s.crypt.ticks + BitVec.ofNat 40 n } })

/-- Register accesses (R5 to R7, R9 to R11, R38 to R41, R125, R142): each field takes a store and answers a load by its access
code; a W1C bit set in the present period stays, and a count raised in it shows after it (that such a cycle is a period of
the crypt's clock is read from R26, log entry 69); a register is read whole and its RZ fields restart; a refused access records
cause and address, changes nothing else beside the core's fault, and a nave SCREEN is logged; an island that never answers is
refused TIMEOUT; the first cause of R40 counts; a fault inside a handler resets the core and is logged. -/
def Obligations.RegistersFollowTheirAccessCodes : Prop :=
  ∀ (s : State) (c : CoreId) (addr val : Word), s.Sound →
    let a := addr.toNat
    let i := coreNum c
    let old := fun (f : FieldSpec) => bitsOf (s.getReg a) f.hi f.lo
    let new := fun (t : State) (f : FieldSpec) => bitsOf (t.getReg a) f.hi f.lo
    (∀ r k f, regFind a = some (r, k) → f ∈ r.fields → (f.choirOnly = false ∨ c = .choir) →
      (∀ g ∈ r.fields, g.acc = .sl → a ≠ LEDG.LOGSTAT) →
      let v := bitsOf val f.hi f.lo
      let now := new (s.storeReg c a val) f
      let size := 2 ^ (f.hi + 1 - f.lo)
      (f.acc = .ro ∨ f.acc = .rz → now = old f) ∧
      (f.acc = .w1c → now = bitsOf (s.getReg a &&& ~~~(val &&& ~~~s.setNow a)) f.hi f.lo) ∧
      (f.acc = .sl → (s.sealOpen = false ∨ s.logFull) → now = old f) ∧
      (f.acc = .rw ∨ f.acc = .wo ∨ (f.acc = .sl ∧ s.sealOpen ∧ s.logFull = false) →
        (f.reserved.elem v → now = old f) ∧
        (f.reserved.elem v = false → f.signed = false → now = (clampInt f.rangeLo f.rangeHi v).toNat) ∧
        (f.reserved.elem v = false → f.signed →
          now = codeOf (f.hi + 1 - f.lo) (clampInt f.rangeLo f.rangeHi (signedOf (f.hi + 1 - f.lo) v)) % size)) ∧
      bitsOf (s.loadReg a).2 f.hi f.lo = (if f.acc = .wo then 0 else old f) ∧
      new (s.loadReg a).1 f = (if f.acc = .rz then 0 else old f)) ∧
    (∀ r k j, regFind a = some (r, k) → (∀ f ∈ r.fields, j < f.lo ∨ f.hi < j) → (s.loadReg a).2.getLsbD j = false) ∧
    (∀ g, s.domOn (coreDomain c) → a % 4 = 0 → 0x40000000 ≤ a → s.reach c a true = none → s.silentAt a = false → regionOf a = some g →
      exec (.registerWrite c addr val) s = .next (s.storeAt c a val [] g) ∧
      (g = .ledg ∨ g = .rood → s.storeAt c a val [] g = s.storeReg c a val)) ∧
    (∀ g t w, s.domOn (coreDomain c) → a % 4 = 0 → 0x40000000 ≤ a → s.reach c a false = none → regionOf a = some g →
      s.loadAt c a g = (t, .ok w) → exec (.rzRead c addr) s =
        .next (if s.silentAt a then s.refuseAccess c addr causeTimeout 0 else { t with reply := w })) ∧
    (∀ g, s.domOn (coreDomain c) → a % 4 = 0 → 0x40000000 ≤ a → s.reach c a true = none → s.silentAt a → regionOf a = some g →
      exec (.registerWrite c addr val) s = .next (s.refuseAccess c addr causeTimeout 1)) ∧
    (let f := SYS.REFINFO_COUNT i
     s.period = Period.empty → (s.tally32 f 1).fld f = s.fld f ∧
      (s.tally32 f 1).endPeriod.fld f = satAdd (2 ^ (f.hi + 1 - f.lo) - 1) (s.fld f) 1) ∧
    (∀ f ∈ [CRYPT.CLKSTAT_XTFAIL, CRYPT.CLKSTAT_XHFFAIL, CRYPT.VPULSTAT_FAULT], (s.raiseBit f).regs = (s.setFlag f true).regs ∧ (s.raiseBit f).setNow f.addr = bitsPut (s.setNow f.addr) f.hi f.lo 1) ∧
    ((s.loadAt c QUE.CONTEND .que).2 = .ok (s.loadReg QUE.CONTEND).2 ∧ (s.loadAt c QUE.ORPHAN .que).2 = .ok (s.loadReg QUE.ORPHAN).2) ∧
    (s.domOn (coreDomain c) → a % 4 ≠ 0 → s.executes c → s.outsideHandler c →
      let t := s.setCore c ((s.core c).enterFault 2 addr)
      exec (.registerWrite c addr val) s = .next t ∧ exec (.rzRead c addr) s = .next t) ∧
    (∀ (cause : Nat) (write : Bool), s.domOn (coreDomain c) → a % 4 = 0 → 0x40000000 ≤ a → cause < 16 →
      s.reach c a write = some cause → s.logFull = false → s.dom .choir ≠ 0 →
      ∃ t, (if write then exec (.registerWrite c addr val) s else exec (.rzRead c addr) s) = .next t ∧
        (s.outsideHandler c → t.log = (if c = .nave ∧ cause = causeScreen then
          logPush s.log ⟨s.timeSec, logScreenViol, 0, addr, BitVec.ofNat 32 (natOfBool write)⟩ else s.log)) ∧
        (s.outsideHandler c → t.getReg (SYS.REFADDR i) = addr ∧ t.fld (SYS.REFINFO_CAUSE i) = cause ∧
          t.flag (SYS.REFINFO_WRITE i) = write ∧ t.flag (SYS.REFINFO_FETCH i) = false ∧
          (∀ b, b ≠ SYS.REFADDR i → b ≠ SYS.REFINFO i → t.getReg b = s.getReg b) ∧
          t.period = (s.tally32 (SYS.REFINFO_COUNT i) 1).period ∧
          t.core c = (if s.executes c then (s.core c).enterFault 3 addr else s.core c))) ∧
    (∀ write, inFlash c a = false → inSram c a = false →
      (regionOf a = none → s.reach c a write = some 1) ∧
      (∀ g, regionOf a = some g → screened c a write g → s.reach c a write = some 2) ∧
      (∀ g b, regionOf a = some g → screened c a write g = false → regionBank g = some b → s.bankCore b ≠ some c →
        leaseExempt c a write g = false → s.reach c a write = some 3) ∧
      (∀ g isle, regionOf a = some g → screened c a write g = false → regionBank g = none → regionIsland a g = some isle →
        s.dark c isle → s.reach c a write = some 4)) ∧
    (∀ cause, fhOf (s.core c).psr → s.logFull = false → s.dom .choir ≠ 0 →
      let u := s.logEvent logDoubleFault (BitVec.ofNat 32 (i + 256 * cause)) (s.core c).pc
      s.fault c cause addr = u.coreReset c 1 ∧ (u.coreReset c 1).core c = (s.core c).afterReset c)
end

