-- ==== Sys2Proof/Laws/Sparse.lean ====
section
/-! SUPPORT. Laws of the sparse tables: a key reads what was put there, other keys are left alone, and every operation
keeps the canonical form. -/
namespace Sys2Proof.Machine

variable {α : Type}

/-- Every key of a table is at least lo, and keys rise. -/
theorem tsortedFrom_mono [DecidableEq α] {d : Nat → α} {m : List (Nat × α)} {lo lo' : Nat} (hle : lo' ≤ lo)
    (h : tsortedFrom d lo m = true) : tsortedFrom d lo' m = true := by
  cases m with
  | nil => rfl
  | cons e rest =>
    simp only [tsortedFrom, Bool.and_eq_true, decide_eq_true_eq] at h ⊢
    exact ⟨⟨by omega, h.1.2⟩, h.2⟩

/-- A key below every key of a table reads the default. -/
theorem tget_of_lt [DecidableEq α] {d : Nat → α} {m : List (Nat × α)} {lo k : Nat} (h : tsortedFrom d lo m = true)
    (hk : k < lo) : tget d m k = d k := by
  induction m generalizing lo with
  | nil => rfl
  | cons e rest ih =>
    simp only [tsortedFrom, Bool.and_eq_true, decide_eq_true_eq] at h
    have : k ≠ e.1 := by omega
    simp only [tget, this, if_false]
    exact ih h.2 (by omega)

theorem tget_tinsert_self (d : Nat → α) (m : List (Nat × α)) (k : Nat) (x : α) : tget d (tinsert m k x) k = x := by
  induction m with
  | nil => simp [tinsert, tget]
  | cons e rest ih =>
    simp only [tinsert]
    split
    · simp [tget]
    · split
      · simp [tget]
      · next h => simp [tget, h, ih]

theorem tget_tinsert_ne (d : Nat → α) (m : List (Nat × α)) {k j : Nat} (x : α) (h : j ≠ k) :
    tget d (tinsert m k x) j = tget d m j := by
  induction m with
  | nil => simp [tinsert, tget, h]
  | cons e rest ih =>
    simp only [tinsert]
    split
    · simp [tget, h]
    · split
      · next hk => simp [tget, ← hk, h]
      · simp [tget, ih]

theorem tget_terase_ne (d : Nat → α) (m : List (Nat × α)) {k j : Nat} (h : j ≠ k) :
    tget d (terase m k) j = tget d m j := by
  induction m with
  | nil => rfl
  | cons e rest ih =>
    simp only [terase]
    split
    · next hk => simp [tget, ← hk, h]
    · simp [tget, ih]

/-- A table in canonical form reads, under every key but the one written, what it read before. -/
theorem tget_tput_ne [DecidableEq α] (d : Nat → α) (m : List (Nat × α)) {k j : Nat} (x : α) (h : j ≠ k) :
    tget d (tput d m k x) j = tget d m j := by
  unfold tput
  split
  · exact tget_terase_ne d m h
  · exact tget_tinsert_ne d m x h

theorem tget_terase_self [DecidableEq α] {d : Nat → α} {m : List (Nat × α)} {lo : Nat} (h : tsortedFrom d lo m = true)
    (k : Nat) : tget d (terase m k) k = d k := by
  induction m generalizing lo with
  | nil => rfl
  | cons e rest ih =>
    simp only [tsortedFrom, Bool.and_eq_true, decide_eq_true_eq] at h
    simp only [terase]
    split
    · next hk => exact tget_of_lt h.2 (by omega)
    · next hk => simp [tget, hk, ih h.2]

/-- A key reads what was put there, in a table in canonical form. -/
theorem tget_tput_self [DecidableEq α] {d : Nat → α} {m : List (Nat × α)} (h : twf d m = true) (k : Nat) (x : α) :
    tget d (tput d m k x) k = x := by
  unfold tput
  split
  · next hx => rw [tget_terase_self h, hx]
  · exact tget_tinsert_self d m k x

/-- A key reads a value other than the default that was put there, in any table. -/
theorem tget_tput_of_ne_default [DecidableEq α] {d : Nat → α} (m : List (Nat × α)) (k : Nat) {x : α} (h : x ≠ d k) :
    tget d (tput d m k x) k = x := by
  unfold tput
  rw [if_neg h]
  exact tget_tinsert_self d m k x

theorem tsortedFrom_terase [DecidableEq α] {d : Nat → α} {m : List (Nat × α)} {lo : Nat} (h : tsortedFrom d lo m = true)
    (k : Nat) : tsortedFrom d lo (terase m k) = true := by
  induction m generalizing lo with
  | nil => rfl
  | cons e rest ih =>
    simp only [tsortedFrom, Bool.and_eq_true, decide_eq_true_eq] at h
    simp only [terase]
    split
    · exact tsortedFrom_mono (by omega) h.2
    · simp only [tsortedFrom, Bool.and_eq_true, decide_eq_true_eq]
      exact ⟨h.1, ih h.2⟩

theorem tsortedFrom_tinsert [DecidableEq α] {d : Nat → α} {m : List (Nat × α)} {lo k : Nat} {x : α}
    (h : tsortedFrom d lo m = true) (hk : lo ≤ k) (hx : x ≠ d k) : tsortedFrom d lo (tinsert m k x) = true := by
  induction m generalizing lo with
  | nil => simp [tinsert, tsortedFrom, hk, hx]
  | cons e rest ih =>
    simp only [tsortedFrom, Bool.and_eq_true, decide_eq_true_eq] at h
    simp only [tinsert]
    split
    · simp only [tsortedFrom, Bool.and_eq_true, decide_eq_true_eq]
      exact ⟨⟨hk, by simp [hx]⟩, ⟨⟨by omega, h.1.2⟩, h.2⟩⟩
    · split
      · next hlt heq =>
        simp only [tsortedFrom, Bool.and_eq_true, decide_eq_true_eq]
        exact ⟨⟨hk, by simp [hx]⟩, by rw [heq]; exact h.2⟩
      · simp only [tsortedFrom, Bool.and_eq_true, decide_eq_true_eq]
        exact ⟨h.1, ih h.2 (by omega)⟩

/-- A write keeps the canonical form. -/
theorem twf_tput [DecidableEq α] {d : Nat → α} {m : List (Nat × α)} (h : twf d m = true) (k : Nat) (x : α) :
    twf d (tput d m k x) = true := by
  unfold twf at h ⊢
  unfold tput
  split
  · exact tsortedFrom_terase h k
  · next hx => exact tsortedFrom_tinsert h (Nat.zero_le k) hx

theorem tsortedFrom_filter [DecidableEq α] {d : Nat → α} {m : List (Nat × α)} {lo : Nat} (f : Nat × α → Bool)
    (h : tsortedFrom d lo m = true) : tsortedFrom d lo (m.filter f) = true := by
  induction m generalizing lo with
  | nil => rfl
  | cons e rest ih =>
    simp only [tsortedFrom, Bool.and_eq_true, decide_eq_true_eq] at h
    simp only [List.filter_cons]
    split
    · simp only [tsortedFrom, Bool.and_eq_true, decide_eq_true_eq]
      exact ⟨h.1, ih h.2⟩
    · exact tsortedFrom_mono (by omega) (ih h.2)

/-- Dropping entries keeps the canonical form. -/
theorem twf_filter [DecidableEq α] {d : Nat → α} {m : List (Nat × α)} (f : Nat × α → Bool) (h : twf d m = true) :
    twf d (m.filter f) = true := tsortedFrom_filter f h

theorem twf_tdrop [DecidableEq α] {d : Nat → α} {m : List (Nat × α)} (p : Nat → Bool) (h : twf d m = true) :
    twf d (tdrop p m) = true := tsortedFrom_filter _ h

theorem tget_tdrop_keep (d : Nat → α) (p : Nat → Bool) (m : List (Nat × α)) {k : Nat} (h : p k = false) :
    tget d (tdrop p m) k = tget d m k := by
  unfold tdrop
  induction m with
  | nil => rfl
  | cons e rest ih =>
    simp only [List.filter_cons]
    split
    · simp [tget, ih]
    · next he =>
      have : k ≠ e.1 := by rintro rfl; simp [h] at he
      simp [tget, this, ih]

theorem tget_tdrop_drop (d : Nat → α) (p : Nat → Bool) (m : List (Nat × α)) {k : Nat} (h : p k = true) :
    tget d (tdrop p m) k = d k := by
  unfold tdrop
  induction m with
  | nil => rfl
  | cons e rest ih =>
    simp only [List.filter_cons]
    split
    · next he =>
      have : k ≠ e.1 := by rintro rfl; simp [h] at he
      simp [tget, this, ih]
    · exact ih

end Sys2Proof.Machine
end

