-- ==== Sys2Proof/Laws/State.lean ====
section
/-! SUPPORT. The fields of State after each named update, one law per field and update; what a register, a register field
and a general register read after a write; the bit fields of a word. -/
namespace Sys2Proof.Machine

variable (s : State)

/-! ### Fields -/

@[simp] theorem State.putReg_pending (a : Nat) (w : Word) : (s.putReg a w).pending = s.pending := rfl
@[simp] theorem State.putReg_free (a : Nat) (w : Word) : (s.putReg a w).free = s.free := rfl
@[simp] theorem State.putReg_reply (a : Nat) (w : Word) : (s.putReg a w).reply = s.reply := rfl
@[simp] theorem State.putReg_regs (a : Nat) (w : Word) : (s.putReg a w).regs = tput regReset s.regs a w := rfl
@[simp] theorem State.putReg_choir (a : Nat) (w : Word) : (s.putReg a w).choir = s.choir := rfl
@[simp] theorem State.putReg_nave (a : Nat) (w : Word) : (s.putReg a w).nave = s.nave := rfl
@[simp] theorem State.putReg_crypt (a : Nat) (w : Word) : (s.putReg a w).crypt = s.crypt := rfl
@[simp] theorem State.putReg_wires (a : Nat) (w : Word) : (s.putReg a w).wires = s.wires := rfl
@[simp] theorem State.putReg_straits (a : Nat) (w : Word) : (s.putReg a w).straits = s.straits := rfl
@[simp] theorem State.putReg_qsel (a : Nat) (w : Word) : (s.putReg a w).qsel = s.qsel := rfl
@[simp] theorem State.putReg_waddr (a : Nat) (w : Word) : (s.putReg a w).waddr = s.waddr := rfl
@[simp] theorem State.putReg_period (a : Nat) (w : Word) : (s.putReg a w).period = s.period := rfl
@[simp] theorem State.putReg_mute (a : Nat) (w : Word) : (s.putReg a w).mute = s.mute := rfl
@[simp] theorem State.putReg_queues (a : Nat) (w : Word) : (s.putReg a w).queues = s.queues := rfl
@[simp] theorem State.putReg_isles (a : Nat) (w : Word) : (s.putReg a w).isles = s.isles := rfl
@[simp] theorem State.putReg_cim (a : Nat) (w : Word) : (s.putReg a w).cim = s.cim := rfl
@[simp] theorem State.putReg_qty (a : Nat) (w : Word) : (s.putReg a w).qty = s.qty := rfl
@[simp] theorem State.putReg_outp (a : Nat) (w : Word) : (s.putReg a w).outp = s.outp := rfl
@[simp] theorem State.putReg_radio (a : Nat) (w : Word) : (s.putReg a w).radio = s.radio := rfl
@[simp] theorem State.putReg_sacr (a : Nat) (w : Word) : (s.putReg a w).sacr = s.sacr := rfl
@[simp] theorem State.putReg_log (a : Nat) (w : Word) : (s.putReg a w).log = s.log := rfl

@[simp] theorem State.setFld_pending (f : Fld) (v : Nat) : (s.setFld f v).pending = s.pending := rfl
@[simp] theorem State.setFld_free (f : Fld) (v : Nat) : (s.setFld f v).free = s.free := rfl
@[simp] theorem State.setFld_reply (f : Fld) (v : Nat) : (s.setFld f v).reply = s.reply := rfl
@[simp] theorem State.setFld_choir (f : Fld) (v : Nat) : (s.setFld f v).choir = s.choir := rfl
@[simp] theorem State.setFld_nave (f : Fld) (v : Nat) : (s.setFld f v).nave = s.nave := rfl
@[simp] theorem State.setFld_crypt (f : Fld) (v : Nat) : (s.setFld f v).crypt = s.crypt := rfl
@[simp] theorem State.setFld_wires (f : Fld) (v : Nat) : (s.setFld f v).wires = s.wires := rfl
@[simp] theorem State.setFld_straits (f : Fld) (v : Nat) : (s.setFld f v).straits = s.straits := rfl
@[simp] theorem State.setFld_qsel (f : Fld) (v : Nat) : (s.setFld f v).qsel = s.qsel := rfl
@[simp] theorem State.setFld_waddr (f : Fld) (v : Nat) : (s.setFld f v).waddr = s.waddr := rfl
@[simp] theorem State.setFld_period (f : Fld) (v : Nat) : (s.setFld f v).period = s.period := rfl
@[simp] theorem State.setFld_mute (f : Fld) (v : Nat) : (s.setFld f v).mute = s.mute := rfl
@[simp] theorem State.setFld_queues (f : Fld) (v : Nat) : (s.setFld f v).queues = s.queues := rfl
@[simp] theorem State.setFld_isles (f : Fld) (v : Nat) : (s.setFld f v).isles = s.isles := rfl
@[simp] theorem State.setFld_cim (f : Fld) (v : Nat) : (s.setFld f v).cim = s.cim := rfl
@[simp] theorem State.setFld_qty (f : Fld) (v : Nat) : (s.setFld f v).qty = s.qty := rfl
@[simp] theorem State.setFld_outp (f : Fld) (v : Nat) : (s.setFld f v).outp = s.outp := rfl
@[simp] theorem State.setFld_radio (f : Fld) (v : Nat) : (s.setFld f v).radio = s.radio := rfl
@[simp] theorem State.setFld_sacr (f : Fld) (v : Nat) : (s.setFld f v).sacr = s.sacr := rfl
@[simp] theorem State.setFld_log (f : Fld) (v : Nat) : (s.setFld f v).log = s.log := rfl

@[simp] theorem State.setFlag_pending (f : Fld) (b : Bool) : (s.setFlag f b).pending = s.pending := rfl
@[simp] theorem State.setFlag_free (f : Fld) (b : Bool) : (s.setFlag f b).free = s.free := rfl
@[simp] theorem State.setFlag_reply (f : Fld) (b : Bool) : (s.setFlag f b).reply = s.reply := rfl
@[simp] theorem State.setFlag_choir (f : Fld) (b : Bool) : (s.setFlag f b).choir = s.choir := rfl
@[simp] theorem State.setFlag_nave (f : Fld) (b : Bool) : (s.setFlag f b).nave = s.nave := rfl
@[simp] theorem State.setFlag_crypt (f : Fld) (b : Bool) : (s.setFlag f b).crypt = s.crypt := rfl
@[simp] theorem State.setFlag_wires (f : Fld) (b : Bool) : (s.setFlag f b).wires = s.wires := rfl
@[simp] theorem State.setFlag_straits (f : Fld) (b : Bool) : (s.setFlag f b).straits = s.straits := rfl
@[simp] theorem State.setFlag_qsel (f : Fld) (b : Bool) : (s.setFlag f b).qsel = s.qsel := rfl
@[simp] theorem State.setFlag_waddr (f : Fld) (b : Bool) : (s.setFlag f b).waddr = s.waddr := rfl
@[simp] theorem State.setFlag_period (f : Fld) (b : Bool) : (s.setFlag f b).period = s.period := rfl
@[simp] theorem State.setFlag_mute (f : Fld) (b : Bool) : (s.setFlag f b).mute = s.mute := rfl
@[simp] theorem State.setFlag_queues (f : Fld) (b : Bool) : (s.setFlag f b).queues = s.queues := rfl
@[simp] theorem State.setFlag_isles (f : Fld) (b : Bool) : (s.setFlag f b).isles = s.isles := rfl
@[simp] theorem State.setFlag_cim (f : Fld) (b : Bool) : (s.setFlag f b).cim = s.cim := rfl
@[simp] theorem State.setFlag_qty (f : Fld) (b : Bool) : (s.setFlag f b).qty = s.qty := rfl
@[simp] theorem State.setFlag_outp (f : Fld) (b : Bool) : (s.setFlag f b).outp = s.outp := rfl
@[simp] theorem State.setFlag_radio (f : Fld) (b : Bool) : (s.setFlag f b).radio = s.radio := rfl
@[simp] theorem State.setFlag_sacr (f : Fld) (b : Bool) : (s.setFlag f b).sacr = s.sacr := rfl
@[simp] theorem State.setFlag_log (f : Fld) (b : Bool) : (s.setFlag f b).log = s.log := rfl

@[simp] theorem State.setCore_pending (c : CoreId) (k : Core) :
    (s.setCore c k).pending = s.pending := by cases c <;> rfl
@[simp] theorem State.setCore_free (c : CoreId) (k : Core) : (s.setCore c k).free = s.free := by cases c <;> rfl
@[simp] theorem State.setCore_reply (c : CoreId) (k : Core) : (s.setCore c k).reply = s.reply := by cases c <;> rfl
@[simp] theorem State.setCore_regs (c : CoreId) (k : Core) : (s.setCore c k).regs = s.regs := by cases c <;> rfl
@[simp] theorem State.setCore_crypt (c : CoreId) (k : Core) : (s.setCore c k).crypt = s.crypt := by cases c <;> rfl
@[simp] theorem State.setCore_wires (c : CoreId) (k : Core) : (s.setCore c k).wires = s.wires := by cases c <;> rfl
@[simp] theorem State.setCore_straits (c : CoreId) (k : Core) :
    (s.setCore c k).straits = s.straits := by cases c <;> rfl
@[simp] theorem State.setCore_qsel (c : CoreId) (k : Core) : (s.setCore c k).qsel = s.qsel := by cases c <;> rfl
@[simp] theorem State.setCore_waddr (c : CoreId) (k : Core) : (s.setCore c k).waddr = s.waddr := by cases c <;> rfl
@[simp] theorem State.setCore_period (c : CoreId) (k : Core) : (s.setCore c k).period = s.period := by cases c <;> rfl
@[simp] theorem State.setCore_mute (c : CoreId) (k : Core) : (s.setCore c k).mute = s.mute := by cases c <;> rfl
@[simp] theorem State.setCore_queues (c : CoreId) (k : Core) : (s.setCore c k).queues = s.queues := by cases c <;> rfl
@[simp] theorem State.setCore_isles (c : CoreId) (k : Core) : (s.setCore c k).isles = s.isles := by cases c <;> rfl
@[simp] theorem State.setCore_cim (c : CoreId) (k : Core) : (s.setCore c k).cim = s.cim := by cases c <;> rfl
@[simp] theorem State.setCore_qty (c : CoreId) (k : Core) : (s.setCore c k).qty = s.qty := by cases c <;> rfl
@[simp] theorem State.setCore_outp (c : CoreId) (k : Core) : (s.setCore c k).outp = s.outp := by cases c <;> rfl
@[simp] theorem State.setCore_radio (c : CoreId) (k : Core) : (s.setCore c k).radio = s.radio := by cases c <;> rfl
@[simp] theorem State.setCore_sacr (c : CoreId) (k : Core) : (s.setCore c k).sacr = s.sacr := by cases c <;> rfl
@[simp] theorem State.setCore_log (c : CoreId) (k : Core) : (s.setCore c k).log = s.log := by cases c <;> rfl

@[simp] theorem State.onCore_pending (c : CoreId) (f : Core → Core) :
    (s.onCore c f).pending = s.pending := by cases c <;> rfl
@[simp] theorem State.onCore_free (c : CoreId) (f : Core → Core) : (s.onCore c f).free = s.free := by cases c <;> rfl
@[simp] theorem State.onCore_reply (c : CoreId) (f : Core → Core) :
    (s.onCore c f).reply = s.reply := by cases c <;> rfl
@[simp] theorem State.onCore_regs (c : CoreId) (f : Core → Core) : (s.onCore c f).regs = s.regs := by cases c <;> rfl
@[simp] theorem State.onCore_crypt (c : CoreId) (f : Core → Core) :
    (s.onCore c f).crypt = s.crypt := by cases c <;> rfl
@[simp] theorem State.onCore_wires (c : CoreId) (f : Core → Core) :
    (s.onCore c f).wires = s.wires := by cases c <;> rfl
@[simp] theorem State.onCore_straits (c : CoreId) (f : Core → Core) :
    (s.onCore c f).straits = s.straits := by cases c <;> rfl
@[simp] theorem State.onCore_qsel (c : CoreId) (f : Core → Core) : (s.onCore c f).qsel = s.qsel := by cases c <;> rfl
@[simp] theorem State.onCore_waddr (c : CoreId) (f : Core → Core) :
    (s.onCore c f).waddr = s.waddr := by cases c <;> rfl
@[simp] theorem State.onCore_period (c : CoreId) (f : Core → Core) :
    (s.onCore c f).period = s.period := by cases c <;> rfl
@[simp] theorem State.onCore_mute (c : CoreId) (f : Core → Core) : (s.onCore c f).mute = s.mute := by cases c <;> rfl
@[simp] theorem State.onCore_queues (c : CoreId) (f : Core → Core) :
    (s.onCore c f).queues = s.queues := by cases c <;> rfl
@[simp] theorem State.onCore_isles (c : CoreId) (f : Core → Core) :
    (s.onCore c f).isles = s.isles := by cases c <;> rfl
@[simp] theorem State.onCore_cim (c : CoreId) (f : Core → Core) : (s.onCore c f).cim = s.cim := by cases c <;> rfl
@[simp] theorem State.onCore_qty (c : CoreId) (f : Core → Core) : (s.onCore c f).qty = s.qty := by cases c <;> rfl
@[simp] theorem State.onCore_outp (c : CoreId) (f : Core → Core) : (s.onCore c f).outp = s.outp := by cases c <;> rfl
@[simp] theorem State.onCore_radio (c : CoreId) (f : Core → Core) :
    (s.onCore c f).radio = s.radio := by cases c <;> rfl
@[simp] theorem State.onCore_sacr (c : CoreId) (f : Core → Core) : (s.onCore c f).sacr = s.sacr := by cases c <;> rfl
@[simp] theorem State.onCore_log (c : CoreId) (f : Core → Core) : (s.onCore c f).log = s.log := by cases c <;> rfl

@[simp] theorem State.setReg_pending (c : CoreId) (r : Reg) (v : Word) :
    (s.setReg c r v).pending = s.pending := by cases c <;> rfl
@[simp] theorem State.setReg_free (c : CoreId) (r : Reg) (v : Word) :
    (s.setReg c r v).free = s.free := by cases c <;> rfl
@[simp] theorem State.setReg_reply (c : CoreId) (r : Reg) (v : Word) :
    (s.setReg c r v).reply = s.reply := by cases c <;> rfl
@[simp] theorem State.setReg_regs (c : CoreId) (r : Reg) (v : Word) :
    (s.setReg c r v).regs = s.regs := by cases c <;> rfl
@[simp] theorem State.setReg_crypt (c : CoreId) (r : Reg) (v : Word) :
    (s.setReg c r v).crypt = s.crypt := by cases c <;> rfl
@[simp] theorem State.setReg_wires (c : CoreId) (r : Reg) (v : Word) :
    (s.setReg c r v).wires = s.wires := by cases c <;> rfl
@[simp] theorem State.setReg_straits (c : CoreId) (r : Reg) (v : Word) :
    (s.setReg c r v).straits = s.straits := by cases c <;> rfl
@[simp] theorem State.setReg_qsel (c : CoreId) (r : Reg) (v : Word) :
    (s.setReg c r v).qsel = s.qsel := by cases c <;> rfl
@[simp] theorem State.setReg_waddr (c : CoreId) (r : Reg) (v : Word) :
    (s.setReg c r v).waddr = s.waddr := by cases c <;> rfl
@[simp] theorem State.setReg_period (c : CoreId) (r : Reg) (v : Word) :
    (s.setReg c r v).period = s.period := by cases c <;> rfl
@[simp] theorem State.setReg_mute (c : CoreId) (r : Reg) (v : Word) :
    (s.setReg c r v).mute = s.mute := by cases c <;> rfl
@[simp] theorem State.setReg_queues (c : CoreId) (r : Reg) (v : Word) :
    (s.setReg c r v).queues = s.queues := by cases c <;> rfl
@[simp] theorem State.setReg_isles (c : CoreId) (r : Reg) (v : Word) :
    (s.setReg c r v).isles = s.isles := by cases c <;> rfl
@[simp] theorem State.setReg_cim (c : CoreId) (r : Reg) (v : Word) :
    (s.setReg c r v).cim = s.cim := by cases c <;> rfl
@[simp] theorem State.setReg_qty (c : CoreId) (r : Reg) (v : Word) :
    (s.setReg c r v).qty = s.qty := by cases c <;> rfl
@[simp] theorem State.setReg_outp (c : CoreId) (r : Reg) (v : Word) :
    (s.setReg c r v).outp = s.outp := by cases c <;> rfl
@[simp] theorem State.setReg_radio (c : CoreId) (r : Reg) (v : Word) :
    (s.setReg c r v).radio = s.radio := by cases c <;> rfl
@[simp] theorem State.setReg_sacr (c : CoreId) (r : Reg) (v : Word) :
    (s.setReg c r v).sacr = s.sacr := by cases c <;> rfl
@[simp] theorem State.setReg_log (c : CoreId) (r : Reg) (v : Word) :
    (s.setReg c r v).log = s.log := by cases c <;> rfl

@[simp] theorem State.onCrypt_pending (f : Crypt → Crypt) : (s.onCrypt f).pending = s.pending := rfl
@[simp] theorem State.onCrypt_free (f : Crypt → Crypt) : (s.onCrypt f).free = s.free := rfl
@[simp] theorem State.onCrypt_reply (f : Crypt → Crypt) : (s.onCrypt f).reply = s.reply := rfl
@[simp] theorem State.onCrypt_regs (f : Crypt → Crypt) : (s.onCrypt f).regs = s.regs := rfl
@[simp] theorem State.onCrypt_choir (f : Crypt → Crypt) : (s.onCrypt f).choir = s.choir := rfl
@[simp] theorem State.onCrypt_nave (f : Crypt → Crypt) : (s.onCrypt f).nave = s.nave := rfl
@[simp] theorem State.onCrypt_crypt (f : Crypt → Crypt) : (s.onCrypt f).crypt = f s.crypt := rfl
@[simp] theorem State.onCrypt_wires (f : Crypt → Crypt) : (s.onCrypt f).wires = s.wires := rfl
@[simp] theorem State.onCrypt_straits (f : Crypt → Crypt) : (s.onCrypt f).straits = s.straits := rfl
@[simp] theorem State.onCrypt_qsel (f : Crypt → Crypt) : (s.onCrypt f).qsel = s.qsel := rfl
@[simp] theorem State.onCrypt_waddr (f : Crypt → Crypt) : (s.onCrypt f).waddr = s.waddr := rfl
@[simp] theorem State.onCrypt_period (f : Crypt → Crypt) : (s.onCrypt f).period = s.period := rfl
@[simp] theorem State.onCrypt_mute (f : Crypt → Crypt) : (s.onCrypt f).mute = s.mute := rfl
@[simp] theorem State.onCrypt_queues (f : Crypt → Crypt) : (s.onCrypt f).queues = s.queues := rfl
@[simp] theorem State.onCrypt_isles (f : Crypt → Crypt) : (s.onCrypt f).isles = s.isles := rfl
@[simp] theorem State.onCrypt_cim (f : Crypt → Crypt) : (s.onCrypt f).cim = s.cim := rfl
@[simp] theorem State.onCrypt_qty (f : Crypt → Crypt) : (s.onCrypt f).qty = s.qty := rfl
@[simp] theorem State.onCrypt_outp (f : Crypt → Crypt) : (s.onCrypt f).outp = s.outp := rfl
@[simp] theorem State.onCrypt_radio (f : Crypt → Crypt) : (s.onCrypt f).radio = s.radio := rfl
@[simp] theorem State.onCrypt_sacr (f : Crypt → Crypt) : (s.onCrypt f).sacr = s.sacr := rfl
@[simp] theorem State.onCrypt_log (f : Crypt → Crypt) : (s.onCrypt f).log = s.log := rfl

@[simp] theorem State.onIsles_pending (f : Isles → Isles) : (s.onIsles f).pending = s.pending := rfl
@[simp] theorem State.onIsles_free (f : Isles → Isles) : (s.onIsles f).free = s.free := rfl
@[simp] theorem State.onIsles_reply (f : Isles → Isles) : (s.onIsles f).reply = s.reply := rfl
@[simp] theorem State.onIsles_regs (f : Isles → Isles) : (s.onIsles f).regs = s.regs := rfl
@[simp] theorem State.onIsles_choir (f : Isles → Isles) : (s.onIsles f).choir = s.choir := rfl
@[simp] theorem State.onIsles_nave (f : Isles → Isles) : (s.onIsles f).nave = s.nave := rfl
@[simp] theorem State.onIsles_crypt (f : Isles → Isles) : (s.onIsles f).crypt = s.crypt := rfl
@[simp] theorem State.onIsles_wires (f : Isles → Isles) : (s.onIsles f).wires = s.wires := rfl
@[simp] theorem State.onIsles_straits (f : Isles → Isles) : (s.onIsles f).straits = s.straits := rfl
@[simp] theorem State.onIsles_qsel (f : Isles → Isles) : (s.onIsles f).qsel = s.qsel := rfl
@[simp] theorem State.onIsles_waddr (f : Isles → Isles) : (s.onIsles f).waddr = s.waddr := rfl
@[simp] theorem State.onIsles_period (f : Isles → Isles) : (s.onIsles f).period = s.period := rfl
@[simp] theorem State.onIsles_mute (f : Isles → Isles) : (s.onIsles f).mute = s.mute := rfl
@[simp] theorem State.onIsles_queues (f : Isles → Isles) : (s.onIsles f).queues = s.queues := rfl
@[simp] theorem State.onIsles_isles (f : Isles → Isles) : (s.onIsles f).isles = f s.isles := rfl
@[simp] theorem State.onIsles_cim (f : Isles → Isles) : (s.onIsles f).cim = s.cim := rfl
@[simp] theorem State.onIsles_qty (f : Isles → Isles) : (s.onIsles f).qty = s.qty := rfl
@[simp] theorem State.onIsles_outp (f : Isles → Isles) : (s.onIsles f).outp = s.outp := rfl
@[simp] theorem State.onIsles_radio (f : Isles → Isles) : (s.onIsles f).radio = s.radio := rfl
@[simp] theorem State.onIsles_sacr (f : Isles → Isles) : (s.onIsles f).sacr = s.sacr := rfl
@[simp] theorem State.onIsles_log (f : Isles → Isles) : (s.onIsles f).log = s.log := rfl

@[simp] theorem State.onCim_pending (f : Cim → Cim) : (s.onCim f).pending = s.pending := rfl
@[simp] theorem State.onCim_free (f : Cim → Cim) : (s.onCim f).free = s.free := rfl
@[simp] theorem State.onCim_reply (f : Cim → Cim) : (s.onCim f).reply = s.reply := rfl
@[simp] theorem State.onCim_regs (f : Cim → Cim) : (s.onCim f).regs = s.regs := rfl
@[simp] theorem State.onCim_choir (f : Cim → Cim) : (s.onCim f).choir = s.choir := rfl
@[simp] theorem State.onCim_nave (f : Cim → Cim) : (s.onCim f).nave = s.nave := rfl
@[simp] theorem State.onCim_crypt (f : Cim → Cim) : (s.onCim f).crypt = s.crypt := rfl
@[simp] theorem State.onCim_wires (f : Cim → Cim) : (s.onCim f).wires = s.wires := rfl
@[simp] theorem State.onCim_straits (f : Cim → Cim) : (s.onCim f).straits = s.straits := rfl
@[simp] theorem State.onCim_qsel (f : Cim → Cim) : (s.onCim f).qsel = s.qsel := rfl
@[simp] theorem State.onCim_waddr (f : Cim → Cim) : (s.onCim f).waddr = s.waddr := rfl
@[simp] theorem State.onCim_period (f : Cim → Cim) : (s.onCim f).period = s.period := rfl
@[simp] theorem State.onCim_mute (f : Cim → Cim) : (s.onCim f).mute = s.mute := rfl
@[simp] theorem State.onCim_queues (f : Cim → Cim) : (s.onCim f).queues = s.queues := rfl
@[simp] theorem State.onCim_isles (f : Cim → Cim) : (s.onCim f).isles = s.isles := rfl
@[simp] theorem State.onCim_cim (f : Cim → Cim) : (s.onCim f).cim = f s.cim := rfl
@[simp] theorem State.onCim_qty (f : Cim → Cim) : (s.onCim f).qty = s.qty := rfl
@[simp] theorem State.onCim_outp (f : Cim → Cim) : (s.onCim f).outp = s.outp := rfl
@[simp] theorem State.onCim_radio (f : Cim → Cim) : (s.onCim f).radio = s.radio := rfl
@[simp] theorem State.onCim_sacr (f : Cim → Cim) : (s.onCim f).sacr = s.sacr := rfl
@[simp] theorem State.onCim_log (f : Cim → Cim) : (s.onCim f).log = s.log := rfl

@[simp] theorem State.onQty_pending (f : Qty → Qty) : (s.onQty f).pending = s.pending := rfl
@[simp] theorem State.onQty_free (f : Qty → Qty) : (s.onQty f).free = s.free := rfl
@[simp] theorem State.onQty_reply (f : Qty → Qty) : (s.onQty f).reply = s.reply := rfl
@[simp] theorem State.onQty_regs (f : Qty → Qty) : (s.onQty f).regs = s.regs := rfl
@[simp] theorem State.onQty_choir (f : Qty → Qty) : (s.onQty f).choir = s.choir := rfl
@[simp] theorem State.onQty_nave (f : Qty → Qty) : (s.onQty f).nave = s.nave := rfl
@[simp] theorem State.onQty_crypt (f : Qty → Qty) : (s.onQty f).crypt = s.crypt := rfl
@[simp] theorem State.onQty_wires (f : Qty → Qty) : (s.onQty f).wires = s.wires := rfl
@[simp] theorem State.onQty_straits (f : Qty → Qty) : (s.onQty f).straits = s.straits := rfl
@[simp] theorem State.onQty_qsel (f : Qty → Qty) : (s.onQty f).qsel = s.qsel := rfl
@[simp] theorem State.onQty_waddr (f : Qty → Qty) : (s.onQty f).waddr = s.waddr := rfl
@[simp] theorem State.onQty_period (f : Qty → Qty) : (s.onQty f).period = s.period := rfl
@[simp] theorem State.onQty_mute (f : Qty → Qty) : (s.onQty f).mute = s.mute := rfl
@[simp] theorem State.onQty_queues (f : Qty → Qty) : (s.onQty f).queues = s.queues := rfl
@[simp] theorem State.onQty_isles (f : Qty → Qty) : (s.onQty f).isles = s.isles := rfl
@[simp] theorem State.onQty_cim (f : Qty → Qty) : (s.onQty f).cim = s.cim := rfl
@[simp] theorem State.onQty_qty (f : Qty → Qty) : (s.onQty f).qty = f s.qty := rfl
@[simp] theorem State.onQty_outp (f : Qty → Qty) : (s.onQty f).outp = s.outp := rfl
@[simp] theorem State.onQty_radio (f : Qty → Qty) : (s.onQty f).radio = s.radio := rfl
@[simp] theorem State.onQty_sacr (f : Qty → Qty) : (s.onQty f).sacr = s.sacr := rfl
@[simp] theorem State.onQty_log (f : Qty → Qty) : (s.onQty f).log = s.log := rfl

@[simp] theorem State.onOut_pending (f : Outp → Outp) : (s.onOut f).pending = s.pending := rfl
@[simp] theorem State.onOut_free (f : Outp → Outp) : (s.onOut f).free = s.free := rfl
@[simp] theorem State.onOut_reply (f : Outp → Outp) : (s.onOut f).reply = s.reply := rfl
@[simp] theorem State.onOut_regs (f : Outp → Outp) : (s.onOut f).regs = s.regs := rfl
@[simp] theorem State.onOut_choir (f : Outp → Outp) : (s.onOut f).choir = s.choir := rfl
@[simp] theorem State.onOut_nave (f : Outp → Outp) : (s.onOut f).nave = s.nave := rfl
@[simp] theorem State.onOut_crypt (f : Outp → Outp) : (s.onOut f).crypt = s.crypt := rfl
@[simp] theorem State.onOut_wires (f : Outp → Outp) : (s.onOut f).wires = s.wires := rfl
@[simp] theorem State.onOut_straits (f : Outp → Outp) : (s.onOut f).straits = s.straits := rfl
@[simp] theorem State.onOut_qsel (f : Outp → Outp) : (s.onOut f).qsel = s.qsel := rfl
@[simp] theorem State.onOut_waddr (f : Outp → Outp) : (s.onOut f).waddr = s.waddr := rfl
@[simp] theorem State.onOut_period (f : Outp → Outp) : (s.onOut f).period = s.period := rfl
@[simp] theorem State.onOut_mute (f : Outp → Outp) : (s.onOut f).mute = s.mute := rfl
@[simp] theorem State.onOut_queues (f : Outp → Outp) : (s.onOut f).queues = s.queues := rfl
@[simp] theorem State.onOut_isles (f : Outp → Outp) : (s.onOut f).isles = s.isles := rfl
@[simp] theorem State.onOut_cim (f : Outp → Outp) : (s.onOut f).cim = s.cim := rfl
@[simp] theorem State.onOut_qty (f : Outp → Outp) : (s.onOut f).qty = s.qty := rfl
@[simp] theorem State.onOut_outp (f : Outp → Outp) : (s.onOut f).outp = f s.outp := rfl
@[simp] theorem State.onOut_radio (f : Outp → Outp) : (s.onOut f).radio = s.radio := rfl
@[simp] theorem State.onOut_sacr (f : Outp → Outp) : (s.onOut f).sacr = s.sacr := rfl
@[simp] theorem State.onOut_log (f : Outp → Outp) : (s.onOut f).log = s.log := rfl

@[simp] theorem State.onRadio_pending (f : Radio → Radio) : (s.onRadio f).pending = s.pending := rfl
@[simp] theorem State.onRadio_free (f : Radio → Radio) : (s.onRadio f).free = s.free := rfl
@[simp] theorem State.onRadio_reply (f : Radio → Radio) : (s.onRadio f).reply = s.reply := rfl
@[simp] theorem State.onRadio_regs (f : Radio → Radio) : (s.onRadio f).regs = s.regs := rfl
@[simp] theorem State.onRadio_choir (f : Radio → Radio) : (s.onRadio f).choir = s.choir := rfl
@[simp] theorem State.onRadio_nave (f : Radio → Radio) : (s.onRadio f).nave = s.nave := rfl
@[simp] theorem State.onRadio_crypt (f : Radio → Radio) : (s.onRadio f).crypt = s.crypt := rfl
@[simp] theorem State.onRadio_wires (f : Radio → Radio) : (s.onRadio f).wires = s.wires := rfl
@[simp] theorem State.onRadio_straits (f : Radio → Radio) : (s.onRadio f).straits = s.straits := rfl
@[simp] theorem State.onRadio_qsel (f : Radio → Radio) : (s.onRadio f).qsel = s.qsel := rfl
@[simp] theorem State.onRadio_waddr (f : Radio → Radio) : (s.onRadio f).waddr = s.waddr := rfl
@[simp] theorem State.onRadio_period (f : Radio → Radio) : (s.onRadio f).period = s.period := rfl
@[simp] theorem State.onRadio_mute (f : Radio → Radio) : (s.onRadio f).mute = s.mute := rfl
@[simp] theorem State.onRadio_queues (f : Radio → Radio) : (s.onRadio f).queues = s.queues := rfl
@[simp] theorem State.onRadio_isles (f : Radio → Radio) : (s.onRadio f).isles = s.isles := rfl
@[simp] theorem State.onRadio_cim (f : Radio → Radio) : (s.onRadio f).cim = s.cim := rfl
@[simp] theorem State.onRadio_qty (f : Radio → Radio) : (s.onRadio f).qty = s.qty := rfl
@[simp] theorem State.onRadio_outp (f : Radio → Radio) : (s.onRadio f).outp = s.outp := rfl
@[simp] theorem State.onRadio_radio (f : Radio → Radio) : (s.onRadio f).radio = f s.radio := rfl
@[simp] theorem State.onRadio_sacr (f : Radio → Radio) : (s.onRadio f).sacr = s.sacr := rfl
@[simp] theorem State.onRadio_log (f : Radio → Radio) : (s.onRadio f).log = s.log := rfl

@[simp] theorem State.onSacr_pending (f : Sacr → Sacr) : (s.onSacr f).pending = s.pending := rfl
@[simp] theorem State.onSacr_free (f : Sacr → Sacr) : (s.onSacr f).free = s.free := rfl
@[simp] theorem State.onSacr_reply (f : Sacr → Sacr) : (s.onSacr f).reply = s.reply := rfl
@[simp] theorem State.onSacr_regs (f : Sacr → Sacr) : (s.onSacr f).regs = s.regs := rfl
@[simp] theorem State.onSacr_choir (f : Sacr → Sacr) : (s.onSacr f).choir = s.choir := rfl
@[simp] theorem State.onSacr_nave (f : Sacr → Sacr) : (s.onSacr f).nave = s.nave := rfl
@[simp] theorem State.onSacr_crypt (f : Sacr → Sacr) : (s.onSacr f).crypt = s.crypt := rfl
@[simp] theorem State.onSacr_wires (f : Sacr → Sacr) : (s.onSacr f).wires = s.wires := rfl
@[simp] theorem State.onSacr_straits (f : Sacr → Sacr) : (s.onSacr f).straits = s.straits := rfl
@[simp] theorem State.onSacr_qsel (f : Sacr → Sacr) : (s.onSacr f).qsel = s.qsel := rfl
@[simp] theorem State.onSacr_waddr (f : Sacr → Sacr) : (s.onSacr f).waddr = s.waddr := rfl
@[simp] theorem State.onSacr_period (f : Sacr → Sacr) : (s.onSacr f).period = s.period := rfl
@[simp] theorem State.onSacr_mute (f : Sacr → Sacr) : (s.onSacr f).mute = s.mute := rfl
@[simp] theorem State.onSacr_queues (f : Sacr → Sacr) : (s.onSacr f).queues = s.queues := rfl
@[simp] theorem State.onSacr_isles (f : Sacr → Sacr) : (s.onSacr f).isles = s.isles := rfl
@[simp] theorem State.onSacr_cim (f : Sacr → Sacr) : (s.onSacr f).cim = s.cim := rfl
@[simp] theorem State.onSacr_qty (f : Sacr → Sacr) : (s.onSacr f).qty = s.qty := rfl
@[simp] theorem State.onSacr_outp (f : Sacr → Sacr) : (s.onSacr f).outp = s.outp := rfl
@[simp] theorem State.onSacr_radio (f : Sacr → Sacr) : (s.onSacr f).radio = s.radio := rfl
@[simp] theorem State.onSacr_sacr (f : Sacr → Sacr) : (s.onSacr f).sacr = f s.sacr := rfl
@[simp] theorem State.onSacr_log (f : Sacr → Sacr) : (s.onSacr f).log = s.log := rfl

@[simp] theorem State.setQueue_pending (n : Nat) (q : Queue) : (s.setQueue n q).pending = s.pending := rfl
@[simp] theorem State.setQueue_free (n : Nat) (q : Queue) : (s.setQueue n q).free = s.free := rfl
@[simp] theorem State.setQueue_reply (n : Nat) (q : Queue) : (s.setQueue n q).reply = s.reply := rfl
@[simp] theorem State.setQueue_regs (n : Nat) (q : Queue) : (s.setQueue n q).regs = s.regs := rfl
@[simp] theorem State.setQueue_choir (n : Nat) (q : Queue) : (s.setQueue n q).choir = s.choir := rfl
@[simp] theorem State.setQueue_nave (n : Nat) (q : Queue) : (s.setQueue n q).nave = s.nave := rfl
@[simp] theorem State.setQueue_crypt (n : Nat) (q : Queue) : (s.setQueue n q).crypt = s.crypt := rfl
@[simp] theorem State.setQueue_wires (n : Nat) (q : Queue) : (s.setQueue n q).wires = s.wires := rfl
@[simp] theorem State.setQueue_straits (n : Nat) (q : Queue) : (s.setQueue n q).straits = s.straits := rfl
@[simp] theorem State.setQueue_qsel (n : Nat) (q : Queue) : (s.setQueue n q).qsel = s.qsel := rfl
@[simp] theorem State.setQueue_waddr (n : Nat) (q : Queue) : (s.setQueue n q).waddr = s.waddr := rfl
@[simp] theorem State.setQueue_period (n : Nat) (q : Queue) : (s.setQueue n q).period = s.period := rfl
@[simp] theorem State.setQueue_mute (n : Nat) (q : Queue) : (s.setQueue n q).mute = s.mute := rfl
@[simp] theorem State.setQueue_queues (n : Nat) (q : Queue) :
    (s.setQueue n q).queues = tput (fun _ => Queue.empty) s.queues n q := rfl
@[simp] theorem State.setQueue_isles (n : Nat) (q : Queue) : (s.setQueue n q).isles = s.isles := rfl
@[simp] theorem State.setQueue_cim (n : Nat) (q : Queue) : (s.setQueue n q).cim = s.cim := rfl
@[simp] theorem State.setQueue_qty (n : Nat) (q : Queue) : (s.setQueue n q).qty = s.qty := rfl
@[simp] theorem State.setQueue_outp (n : Nat) (q : Queue) : (s.setQueue n q).outp = s.outp := rfl
@[simp] theorem State.setQueue_radio (n : Nat) (q : Queue) : (s.setQueue n q).radio = s.radio := rfl
@[simp] theorem State.setQueue_sacr (n : Nat) (q : Queue) : (s.setQueue n q).sacr = s.sacr := rfl
@[simp] theorem State.setQueue_log (n : Nat) (q : Queue) : (s.setQueue n q).log = s.log := rfl

@[simp] theorem State.setStrait_pending (x y : Island) (v : StraitState) :
    (s.setStrait x y v).pending = s.pending := rfl
@[simp] theorem State.setStrait_free (x y : Island) (v : StraitState) : (s.setStrait x y v).free = s.free := rfl
@[simp] theorem State.setStrait_reply (x y : Island) (v : StraitState) : (s.setStrait x y v).reply = s.reply := rfl
@[simp] theorem State.setStrait_regs (x y : Island) (v : StraitState) : (s.setStrait x y v).regs = s.regs := rfl
@[simp] theorem State.setStrait_choir (x y : Island) (v : StraitState) : (s.setStrait x y v).choir = s.choir := rfl
@[simp] theorem State.setStrait_nave (x y : Island) (v : StraitState) : (s.setStrait x y v).nave = s.nave := rfl
@[simp] theorem State.setStrait_crypt (x y : Island) (v : StraitState) : (s.setStrait x y v).crypt = s.crypt := rfl
@[simp] theorem State.setStrait_wires (x y : Island) (v : StraitState) : (s.setStrait x y v).wires = s.wires := rfl
@[simp] theorem State.setStrait_straits (x y : Island) (v : StraitState) :
    (s.setStrait x y v).straits = tput (fun _ => StraitState.isOpen) s.straits (straitKey x y) v := rfl
@[simp] theorem State.setStrait_qsel (x y : Island) (v : StraitState) : (s.setStrait x y v).qsel = s.qsel := rfl
@[simp] theorem State.setStrait_waddr (x y : Island) (v : StraitState) : (s.setStrait x y v).waddr = s.waddr := rfl
@[simp] theorem State.setStrait_period (x y : Island) (v : StraitState) : (s.setStrait x y v).period = s.period := rfl
@[simp] theorem State.setStrait_mute (x y : Island) (v : StraitState) : (s.setStrait x y v).mute = s.mute := rfl
@[simp] theorem State.setStrait_queues (x y : Island) (v : StraitState) : (s.setStrait x y v).queues = s.queues := rfl
@[simp] theorem State.setStrait_isles (x y : Island) (v : StraitState) : (s.setStrait x y v).isles = s.isles := rfl
@[simp] theorem State.setStrait_cim (x y : Island) (v : StraitState) : (s.setStrait x y v).cim = s.cim := rfl
@[simp] theorem State.setStrait_qty (x y : Island) (v : StraitState) : (s.setStrait x y v).qty = s.qty := rfl
@[simp] theorem State.setStrait_outp (x y : Island) (v : StraitState) : (s.setStrait x y v).outp = s.outp := rfl
@[simp] theorem State.setStrait_radio (x y : Island) (v : StraitState) : (s.setStrait x y v).radio = s.radio := rfl
@[simp] theorem State.setStrait_sacr (x y : Island) (v : StraitState) : (s.setStrait x y v).sacr = s.sacr := rfl
@[simp] theorem State.setStrait_log (x y : Island) (v : StraitState) : (s.setStrait x y v).log = s.log := rfl

@[simp] theorem State.spend_pending : (s.spend).pending = s.pending := rfl
@[simp] theorem State.spend_free : (s.spend).free = s.free + 1 := rfl
@[simp] theorem State.spend_reply : (s.spend).reply = s.reply := rfl
@[simp] theorem State.spend_regs : (s.spend).regs = s.regs := rfl
@[simp] theorem State.spend_choir : (s.spend).choir = s.choir := rfl
@[simp] theorem State.spend_nave : (s.spend).nave = s.nave := rfl
@[simp] theorem State.spend_crypt : (s.spend).crypt = s.crypt := rfl
@[simp] theorem State.spend_wires : (s.spend).wires = s.wires := rfl
@[simp] theorem State.spend_straits : (s.spend).straits = s.straits := rfl
@[simp] theorem State.spend_qsel : (s.spend).qsel = s.qsel := rfl
@[simp] theorem State.spend_waddr : (s.spend).waddr = s.waddr := rfl
@[simp] theorem State.spend_period : (s.spend).period = s.period := rfl
@[simp] theorem State.spend_mute : (s.spend).mute = s.mute := rfl
@[simp] theorem State.spend_queues : (s.spend).queues = s.queues := rfl
@[simp] theorem State.spend_isles : (s.spend).isles = s.isles := rfl
@[simp] theorem State.spend_cim : (s.spend).cim = s.cim := rfl
@[simp] theorem State.spend_qty : (s.spend).qty = s.qty := rfl
@[simp] theorem State.spend_outp : (s.spend).outp = s.outp := rfl
@[simp] theorem State.spend_radio : (s.spend).radio = s.radio := rfl
@[simp] theorem State.spend_sacr : (s.spend).sacr = s.sacr := rfl
@[simp] theorem State.spend_log : (s.spend).log = s.log := rfl

/-! ### Cores -/

@[simp] theorem State.core_setCore_self (c : CoreId) (k : Core) : (s.setCore c k).core c = k := by cases c <;> rfl

theorem State.core_setCore_ne {c d : CoreId} (k : Core) (h : d ≠ c) : (s.setCore c k).core d = s.core d := by
  cases c <;> cases d <;> first | rfl | exact absurd rfl h

@[simp] theorem State.core_onCore_self (c : CoreId) (f : Core → Core) : (s.onCore c f).core c = f (s.core c) :=
  s.core_setCore_self c _

theorem State.core_onCore_ne {c d : CoreId} (f : Core → Core) (h : d ≠ c) : (s.onCore c f).core d = s.core d :=
  s.core_setCore_ne _ h

@[simp] theorem State.putReg_core (a : Nat) (w : Word) (c : CoreId) : (s.putReg a w).core c = s.core c := by
  cases c <;> rfl

@[simp] theorem State.setFld_core (f : Fld) (v : Nat) (c : CoreId) : (s.setFld f v).core c = s.core c := by
  cases c <;> rfl

@[simp] theorem State.setFlag_core (f : Fld) (b : Bool) (c : CoreId) : (s.setFlag f b).core c = s.core c := by
  cases c <;> rfl

@[simp] theorem State.onCrypt_core (f : Crypt → Crypt) (c : CoreId) : (s.onCrypt f).core c = s.core c := by
  cases c <;> rfl

/-- w0 reads 0 (R111). -/
@[simp] theorem Core.reg_zero (k : Core) : k.reg 0 = 0 := rfl

/-- A write to w0 is discarded (R111). -/
@[simp] theorem Core.setReg_zero (k : Core) (v : Word) : k.setReg 0 v = k := rfl

theorem Core.reg_setReg_self (k : Core) {r : Reg} (v : Word) (h : r ≠ 0) : (k.setReg r v).reg r = v := by
  unfold Core.setReg Core.reg
  rw [if_neg h, if_neg h]
  exact Array.getElem_set_self (by simpa using r.isLt)

theorem Core.reg_setReg_ne (k : Core) {r q : Reg} (v : Word) (h : q ≠ r) : (k.setReg r v).reg q = k.reg q := by
  unfold Core.setReg
  split
  · rfl
  · unfold Core.reg
    split
    · rfl
    · have hn : r.toNat ≠ q.toNat := fun e => h (BitVec.eq_of_toNat_eq e.symm)
      exact Array.getElem_set_ne (xs := k.w.toArray) (by simpa using r.isLt) (Fin.isLt (Fin.cast (by simp) q.toFin)) hn

/-! ### Registers of the device -/

theorem State.getReg_putReg_ne {a b : Nat} (w : Word) (h : b ≠ a) : (s.putReg a w).getReg b = s.getReg b :=
  tget_tput_ne regReset s.regs w h

theorem State.getReg_putReg_self {s : State} (h : twf regReset s.regs = true) (a : Nat) (w : Word) :
    (s.putReg a w).getReg a = w := tget_tput_self h a w

theorem State.fld_setFld_ne {f g : Fld} (v : Nat) (h : g.addr ≠ f.addr) : (s.setFld f v).fld g = s.fld g := by
  unfold State.fld State.setFld
  rw [s.getReg_putReg_ne _ h]

/-! ### Bit fields -/

theorem lowMask_getLsbD (n i : Nat) (h : i < 32) : (lowMask n).getLsbD i = decide (i < n) := by
  unfold lowMask
  rw [BitVec.getLsbD_ofNat, Nat.testBit_two_pow_sub_one]
  simp [h]

/-- Bit i of a word whose field [hi:lo] was replaced. -/
theorem bitsPut_getLsbD (w : Word) {hi lo : Nat} (v i : Nat) (h : i < 32) (hl : lo ≤ hi) :
    (bitsPut w hi lo v).getLsbD i = if lo ≤ i ∧ i ≤ hi then v.testBit (i - lo) else w.getLsbD i := by
  unfold bitsPut
  by_cases h1 : i < lo
  · have : ¬(lo ≤ i ∧ i ≤ hi) := by omega
    rw [if_neg this]
    simp [h1, h]
  · have hm : (lowMask (hi + 1 - lo)).getLsbD (i - lo) = decide (i - lo < hi + 1 - lo) :=
      lowMask_getLsbD _ _ (by omega)
    have hv : (BitVec.ofNat 32 v).getLsbD (i - lo) = v.testBit (i - lo) := by
      rw [BitVec.getLsbD_ofNat]; simp; omega
    simp only [BitVec.getLsbD_or, BitVec.getLsbD_and, BitVec.getLsbD_not, BitVec.getLsbD_shiftLeft, h1, h, hm, hv,
      decide_true, decide_false, Bool.not_false, Bool.true_and]
    by_cases h2 : i ≤ hi
    · have : i - lo < hi + 1 - lo := by omega
      rw [if_pos ⟨by omega, h2⟩]
      simp [this]
    · have : ¬(i - lo < hi + 1 - lo) := by omega
      rw [if_neg (fun e => h2 e.2)]
      simp [this]

theorem bitsOf_testBit (w : Word) (hi lo i : Nat) (h : hi < 32) (hl : lo ≤ hi) :
    (bitsOf w hi lo).testBit i = (decide (i < hi + 1 - lo) && w.getLsbD (lo + i)) := by
  unfold bitsOf
  rw [BitVec.testBit_toNat, BitVec.getLsbD_and, BitVec.getLsbD_ushiftRight]
  by_cases h1 : i < 32
  · rw [lowMask_getLsbD _ _ h1, Bool.and_comm]
  · have : ¬(i < hi + 1 - lo) := by omega
    have h3 : (lowMask (hi + 1 - lo)).getLsbD i = false := BitVec.getLsbD_of_ge _ _ (by omega)
    simp [this, h3]

/-- A field reads what was put into it, held to its width. -/
theorem bitsOf_bitsPut (w : Word) {hi lo : Nat} (v : Nat) (h : hi < 32) (hl : lo ≤ hi) :
    bitsOf (bitsPut w hi lo v) hi lo = v % 2 ^ (hi + 1 - lo) := by
  apply Nat.eq_of_testBit_eq
  intro i
  rw [bitsOf_testBit _ _ _ _ h hl, Nat.testBit_mod_two_pow]
  by_cases h1 : i < hi + 1 - lo
  · rw [bitsPut_getLsbD _ _ _ (by omega) hl, if_pos ⟨by omega, by omega⟩]
    simp
  · simp [h1]

/-- A field apart from the one that was put reads what it read. -/
theorem bitsOf_bitsPut_ne (w : Word) {hi lo h2 l2 : Nat} (v : Nat) (h : h2 < 32) (hl : lo ≤ hi) (hl2 : l2 ≤ h2)
    (hd : h2 < lo ∨ hi < l2) : bitsOf (bitsPut w hi lo v) h2 l2 = bitsOf w h2 l2 := by
  apply Nat.eq_of_testBit_eq
  intro i
  rw [bitsOf_testBit _ _ _ _ h hl2, bitsOf_testBit _ _ _ _ h hl2]
  by_cases h1 : i < h2 + 1 - l2
  · rw [bitsPut_getLsbD _ _ _ (by omega) hl, if_neg (by omega)]
  · simp [h1]

/-- A field of a register reads what was stored into it, held to its width. -/
theorem State.fld_setFld_self {s : State} (h : twf regReset s.regs = true) (f : Fld) (v : Nat) (hf : f.hi < 32)
    (hl : f.lo ≤ f.hi) : (s.setFld f v).fld f = v % 2 ^ (f.hi + 1 - f.lo) := by
  unfold State.fld State.setFld
  rw [State.getReg_putReg_self h, bitsOf_bitsPut _ _ hf hl]

end Sys2Proof.Machine
end

