-- ==== Sys2Proof/Laws/Core.lean ====
section
/-! SUPPORT. Laws of the shared operations of the cores: what the issue of an instruction does around its body, and which
operations leave the cores' data alone. -/
namespace Sys2Proof.Machine

theorem State.activity_core (s : State) (u : Nat) (c : CoreId) : (s.activity u).core c = s.core c := by
  unfold State.activity State.raiseBoth State.raiseEvent State.send State.setFlag State.setFld State.putReg
  cases c <;> (repeat' split) <;> rfl

theorem State.setCore_setCore (s : State) (c : CoreId) (k l : Core) : (s.setCore c k).setCore c l = s.setCore c l := by
  cases c <;> rfl
theorem State.setCore_fld (s : State) (c : CoreId) (k : Core) (f : Fld) : (s.setCore c k).fld f = s.fld f := by cases c <;> rfl
theorem State.setCore_setFld (s : State) (c : CoreId) (k : Core) (f : Fld) (v : Nat) : (s.setCore c k).setFld f v = (s.setFld f v).setCore c k := by cases c <;> rfl
theorem State.setCore_send (s : State) (c : CoreId) (k : Core) (x y : Island) (t : BitVec 4) (w : Word) :
    (s.setCore c k).send x y t w = (s.send x y t w).setCore c k := by
  unfold State.send State.dom
  rw [State.setCore_fld]
  split
  · rfl
  · cases c <;> rfl
theorem State.setCore_activity (s : State) (u : Nat) (c : CoreId) (k : Core) : (s.setCore c k).activity u = (s.activity u).setCore c k := by
  unfold State.activity State.raiseBoth State.raiseEvent State.setFlag State.flag
  rw [State.setCore_fld, State.setCore_fld]
  split
  · rw [State.setCore_setFld, State.setCore_send, State.setCore_send]
  · rfl

/-- An instruction that is ready: its body is a change f of the core alone, so the outcome is the state after the activity
mark of the core's unit with f of the fetched core, and the end of a single step. -/
theorem State.issue_ready {s : State} {i : Issue} (h : s.ready i = true) (srcs : List Reg) (body : State → State)
    (f : Core → Core) (hb : ∀ s', s'.core i.core = (s.core i.core).fetched srcs → body s' = s'.setCore i.core (f ((s.core i.core).fetched srcs))) :
    s.issue i srcs body = (s.activity (coreNum i.core)).setCore i.core (Core.stepped (f ((s.core i.core).fetched srcs))) := by
  unfold State.ready State.fetches at h
  simp only [Bool.and_eq_true, Bool.not_eq_true'] at h
  obtain ⟨⟨⟨⟨h1, h2⟩, h3'⟩, h3⟩, h4⟩ := h
  unfold State.issue
  rw [h1, h3']
  simp only [Bool.not_false, Bool.and_self, if_true]
  unfold State.runOne
  have hf : fetchCause i.core (s.core i.core).pc.toNat = none := by unfold fetchCause; rw [if_pos h2]
  simp only [hf, h3, h4, Bool.false_eq_true, if_false, if_true]
  have e : (s.onCore i.core fun k =>
      { (if k.isSingle (s.core i.core).pc.toNat then k.countCorr (s.core i.core).pc.toNat else k) with
        cycle := (if k.isSingle (s.core i.core).pc.toNat then k.countCorr (s.core i.core).pc.toNat else k).cycle +
          loadStall (if k.isSingle (s.core i.core).pc.toNat then k.countCorr (s.core i.core).pc.toNat else k) srcs, lastLoad := none }) =
      s.setCore i.core ((s.core i.core).fetched srcs) := rfl
  rw [e, State.setCore_activity]
  rw [hb _ (State.core_setCore_self _ _ _), State.setCore_setCore]
  unfold State.endStep Core.stepped
  rw [State.core_setCore_self]
  split
  · unfold State.onCore; rw [State.core_setCore_self, State.setCore_setCore]
  · rfl

end Sys2Proof.Machine
end

