-- ==== Sys2Proof/Laws/Kept.lean ====
section
/-! SUPPORT. What keeps a state sound and its queue as it stands: the laws of the named updates of State. The laws of the
operations over them follow in KeptOps.lean. -/
namespace Sys2Proof.Machine

variable {p : List Instr} {s t : State}

/-! ### Words -/

theorem alignedWord_add {a b : Word} (ha : alignedWord a) (hb : alignedWord b) : alignedWord (a + b) := by
  unfold alignedWord at *
  rw [BitVec.toNat_add]
  omega

theorem alignedWord_ofNat {n : Nat} (h : n % 4 = 0) : alignedWord (BitVec.ofNat 32 n) := by
  unfold alignedWord
  rw [BitVec.toNat_ofNat]
  omega

theorem alignedWord_shl2 (w : Word) : alignedWord (w <<< 2) := by
  unfold alignedWord
  rw [BitVec.toNat_shiftLeft, Nat.shiftLeft_eq]
  omega

theorem alignedWord_of_and3 {w : Word} (h : w &&& 3 = 0) : alignedWord w := by
  unfold alignedWord
  have h' : (w &&& 3).toNat = 0 := by rw [h]; rfl
  rw [BitVec.toNat_and, show (3 : Word).toNat = 2 ^ 2 - 1 from rfl, Nat.and_two_pow_sub_one_eq_mod] at h'
  exact h'

theorem alignedWord_mask (w : Word) : alignedWord (w &&& 0xFFFFFFFC) := by
  apply alignedWord_of_and3
  rw [BitVec.and_assoc]
  exact BitVec.and_zero

theorem bitsPut_reserved {w : Word} (hi lo v : Nat) (h : statusReserved w)
    (hm : (lowMask (hi + 1 - lo) <<< lo) &&& 0x00FFFFFE = 0#32) : statusReserved (bitsPut w hi lo v) := by
  unfold statusReserved bitsPut at *
  apply BitVec.eq_of_getLsbD_eq
  intro i hi'
  have h1 := congrArg (fun x : Word => x.getLsbD i) h
  have h2 := congrArg (fun x : Word => x.getLsbD i) hm
  simp only [BitVec.getLsbD_and, BitVec.getLsbD_or, BitVec.getLsbD_not, BitVec.getLsbD_shiftLeft,
    BitVec.getLsbD_zero] at h1 h2 ⊢
  revert h1 h2
  generalize BitVec.getLsbD 0x00FFFFFE#32 i = m
  generalize w.getLsbD i = x
  generalize (lowMask (hi + 1 - lo)).getLsbD (i - lo) = y
  generalize (BitVec.ofNat 32 v).getLsbD (i - lo) = z
  generalize decide (i < lo) = u
  cases m <;> cases x <;> cases y <;> cases z <;> cases u <;> simp [hi']

theorem specialPsr_reserved (v w : Word) : statusReserved ((v &&& 0xFF000000) ||| (w &&& 1)) := by
  unfold statusReserved
  apply BitVec.eq_of_getLsbD_eq
  intro i hi
  rcases i with _ | i
  · simp
  · have h1 : (1 : Word).getLsbD (i + 1) = false := by simp
    simp only [BitVec.getLsbD_and, BitVec.getLsbD_or, h1, Bool.and_false, Bool.or_false, Bool.and_assoc]
    have : ∀ j : Fin 32, ((0xFF000000#32).getLsbD j.val && (0x00FFFFFE#32).getLsbD j.val) = false := by decide
    exact (congrArg (v.getLsbD (i + 1) && ·) (this ⟨i + 1, hi⟩)).trans ((Bool.and_false _).trans BitVec.getLsbD_zero.symm)

theorem specialEpsr_reserved (v : Word) : statusReserved (v &&& 0xFF000001) := by
  unfold statusReserved
  rw [BitVec.and_assoc]
  exact BitVec.and_zero

/-! ### Cores -/

theorem Core.Sound.setReg {k : Core} (h : k.Sound) (r : Reg) (v : Word) : (k.setReg r v).Sound := by
  unfold Core.setReg
  split
  · exact h
  · next hr =>
    refine { h with w0 := ?_ }
    have : r.toNat ≠ 0 := fun e => hr (BitVec.eq_of_toNat_eq (by simpa using e))
    simp only [Vector.getElem_set, this, if_false]
    exact h.w0

theorem Core.Sound.setByte {k : Core} (h : k.Sound) (a : Nat) (v : Octet) : (k.setByte a v).Sound :=
  { h with mem := twf_tput h.mem a v }

theorem Core.Sound.setBytes {k : Core} (h : k.Sound) (a : Nat) (l : List Octet) : (k.setBytes a l).Sound := by
  induction l generalizing k a with
  | nil => exact h
  | cons v rest ih => exact ih (h.setByte a v) _

theorem Core.Sound.freshEcc {k : Core} (h : k.Sound) (a : Nat) : (k.freshEcc a).Sound := ⟨h.1, h.2, h.3, h.4, h.5, h.6, h.7, h.8⟩

theorem Core.Sound.countCorr {k : Core} (h : k.Sound) (a : Nat) : (k.countCorr a).Sound := ⟨h.1, h.2, h.3, h.4, h.5, h.6, h.7, h.8⟩

theorem Core.Sound.reset (c : CoreId) : (Core.reset c).Sound := by
  cases c <;> exact ⟨rfl, rfl, rfl, rfl, rfl, rfl, rfl, rfl⟩

theorem Core.Sound.afterReset {k : Core} (h : k.Sound) (c : CoreId) : (Core.afterReset c k).Sound :=
  ⟨twf_filter _ h.mem, (Core.Sound.reset c).2, (Core.Sound.reset c).3, (Core.Sound.reset c).4, (Core.Sound.reset c).5,
    (Core.Sound.reset c).6, (Core.Sound.reset c).7, (Core.Sound.reset c).8⟩

theorem Core.Sound.enterFault {k : Core} (h : k.Sound) (cause : Nat) (addr : Word) : (k.enterFault cause addr).Sound :=
  ⟨h.1, h.2, h.fvec, h.pc, h.5, h.6, bitsPut_reserved _ _ _ h.psr (by decide), h.psr⟩

theorem Core.Sound.leaveFault {k : Core} (h : k.Sound) : k.leaveFault.Sound :=
  ⟨h.1, h.2, h.epc, h.4, h.5, h.6, bitsPut_reserved _ _ _ h.epsr (by decide), h.8⟩

theorem Core.Sound.putFlags {k : Core} (h : k.Sound) (f : Flags) : Core.Sound { k with psr := putFlags k.psr f } :=
  ⟨h.1, h.2, h.3, h.4, h.5, h.6, bitsPut_reserved _ _ _ h.psr (by decide), h.8⟩

theorem Core.Sound.putQt {k : Core} (h : k.Sound) (q : Nat) : Core.Sound { k with psr := putQt k.psr q } :=
  ⟨h.1, h.2, h.3, h.4, h.5, h.6, bitsPut_reserved _ _ _ h.psr (by decide), h.8⟩

/-- A core that differs from a sound one in no field that soundness names. -/
theorem Core.Sound.same {k l : Core} (h : k.Sound) (e1 : l.mem = k.mem := by rfl) (e2 : l.w = k.w := by rfl)
    (e3 : l.pc = k.pc := by rfl) (e4 : l.epc = k.epc := by rfl) (e5 : l.fvec = k.fvec := by rfl)
    (e6 : l.splim = k.splim := by rfl) (e7 : l.psr = k.psr := by rfl) (e8 : l.epsr = k.epsr := by rfl) : l.Sound :=
  ⟨by have := h.mem; unfold Core.memWf at *; rw [e1]; exact this, by simp only [e2]; exact h.w0, e3 ▸ h.pc, e4 ▸ h.epc, e5 ▸ h.fvec, e6 ▸ h.splim, e7 ▸ h.psr, e8 ▸ h.epsr⟩

/-! ### The updates of State -/

/-- A state that differs in no field that soundness names. -/
theorem State.Kept.same (h : s.Kept p) (e0 : t.pending = s.pending := by rfl) (e1 : t.regs = s.regs := by rfl)
    (e2 : t.choir = s.choir := by rfl) (e3 : t.nave = s.nave := by rfl) (e4 : t.sacr.config = s.sacr.config := by rfl) :
    t.Kept p :=
  ⟨e0 ▸ h.queue, ⟨e1 ▸ h.sound.regs, e4 ▸ h.sound.config, e2 ▸ h.sound.choir, e3 ▸ h.sound.nave⟩⟩

/-- A rewritten record that keeps every field that soundness names. -/
theorem State.Kept.record (h : s.Kept p) {free : Nat} {reply : Word} {crypt : Crypt} {wires : List Wire}
    {straits : List (Nat × StraitState)} {qsel : List (Nat × Nat)} {waddr : List (Nat × Option WriteAddr)}
    {period : Period} {mute : List Nat}
    {queues : List (Nat × Queue)} {isles : Isles} {cim : Cim} {qty : Qty} {outp : Outp} {radio : Radio} {sacr : Sacr}
    {log : List LogEntry} (e : sacr.config = s.sacr.config := by rfl) :
    (State.mk s.pending free reply s.regs s.choir s.nave crypt wires straits qsel waddr period mute queues isles cim qty outp radio
      sacr log).Kept p := h.same (e4 := e)

theorem State.Kept.putReg (h : s.Kept p) (a : Nat) (w : Word) : (s.putReg a w).Kept p :=
  ⟨h.queue, { h.sound with regs := twf_tput h.sound.regs a w }⟩

theorem State.Kept.core (h : s.Kept p) (c : CoreId) : (s.core c).Sound := by
  cases c
  · exact h.sound.choir
  · exact h.sound.nave

theorem State.Kept.setCore (h : s.Kept p) {k : Core} (hk : k.Sound) (c : CoreId) : (s.setCore c k).Kept p := by
  cases c
  · exact ⟨h.queue, { h.sound with choir := hk }⟩
  · exact ⟨h.queue, { h.sound with nave := hk }⟩

theorem State.Kept.onCore (h : s.Kept p) (c : CoreId) {f : Core → Core} (hf : ∀ k : Core, k.Sound → (f k).Sound) :
    (s.onCore c f).Kept p := h.setCore (hf _ (h.core c)) c

theorem State.Kept.onSacr (h : s.Kept p) {f : Sacr → Sacr} (hf : ∀ x, (f x).config = x.config) : (s.onSacr f).Kept p :=
  h.same (e4 := hf _)

theorem State.Kept.each {α : Type} (h : s.Kept p) (l : List α) {f : State → α → State}
    (hf : ∀ s a, s.Kept p → (f s a).Kept p) : (s.each l f).Kept p := by
  unfold State.each
  induction l generalizing s with
  | nil => exact h
  | cons a rest ih => exact ih (hf s a h)

theorem State.Kept.foldl {α : Type} (h : s.Kept p) (l : List α) {f : State → α → State}
    (hf : ∀ s a, s.Kept p → (f s a).Kept p) : (l.foldl f s).Kept p := h.each l hf

/-- The state of a result whose two halves a match has named. -/
theorem State.Kept.of_fst {α : Type} {r : State × α} {t : State} {x : α} (e : r = (t, x)) (h : r.1.Kept p) : t.Kept p := by
  rw [e] at h; exact h

end Sys2Proof.Machine
end

