-- ==== Sys2Proof/Laws/KeptOps.lean ====
section
/-! SUPPORT. Every operation keeps a sound state sound and its queue as it stands: one law for each function of the
machine that answers a state, in the order of their definitions. A law named f_kept is cited where f is called, so that
no proof unfolds f. The theorems are elaborated one after another: at once they would take too many threads. -/
set_option Elab.async false
namespace Sys2Proof.Machine

variable {p : List Instr} {s : State}

theorem State.setFld_kept (h : s.Kept p) (a1 a2) : (State.setFld s a1 a2).Kept p := by
  unfold State.setFld
  repeat' first
      | with_reducible assumption | extract_lets | intro _ _ _ | intro _ _ | with_reducible apply State.Kept.putReg
      | with_reducible apply State.Kept.foldl | with_reducible refine State.Kept.of_fst (by assumption) ?_ | split
      | dsimp +zetaDelta only

theorem State.setFlag_kept (h : s.Kept p) (a1 a2) : (State.setFlag s a1 a2).Kept p := by
  unfold State.setFlag
  repeat' first
      | with_reducible assumption | extract_lets | intro _ _ _ | intro _ _ | with_reducible apply State.setFld_kept
      | with_reducible apply State.Kept.foldl | with_reducible refine State.Kept.of_fst (by assumption) ?_ | split
      | dsimp +zetaDelta only

theorem State.bump_kept (h : s.Kept p) (a1 a2) : (State.bump s a1 a2).Kept p := by
  unfold State.bump
  repeat' first
      | with_reducible assumption | extract_lets | intro _ _ _ | intro _ _ | with_reducible apply State.setFld_kept
      | with_reducible apply State.Kept.foldl | with_reducible refine State.Kept.of_fst (by assumption) ?_ | split
      | dsimp +zetaDelta only

theorem State.raiseBit_kept (h : s.Kept p) (a1) : (State.raiseBit s a1).Kept p := by
  unfold State.raiseBit
  repeat' first
      | with_reducible assumption | extract_lets | intro _ _ _ | intro _ _
      | with_reducible apply State.setFlag_kept | with_reducible apply State.Kept.foldl
      | with_reducible refine State.Kept.of_fst (by assumption) ?_ | split
      | (with_reducible refine State.Kept.record ?_; first | with_reducible assumption | split | with_reducible apply State.setFlag_kept | with_reducible refine State.Kept.of_fst (by assumption) ?_)
      | dsimp +zetaDelta only

theorem State.tally32_kept (h : s.Kept p) (a1 a2) : (State.tally32 s a1 a2).Kept p := by
  unfold State.tally32
  repeat' first
      | with_reducible assumption | extract_lets | intro _ _ _ | intro _ _
      | with_reducible apply State.Kept.foldl | with_reducible refine State.Kept.of_fst (by assumption) ?_
      | split
      | (with_reducible refine State.Kept.record ?_; first | with_reducible assumption | split | with_reducible refine State.Kept.of_fst (by assumption) ?_)
      | dsimp +zetaDelta only

theorem State.joinCounts_kept (h : s.Kept p) : (State.joinCounts s).Kept p := by
  unfold State.joinCounts
  repeat' first
      | with_reducible assumption | extract_lets | intro _ _ _ | intro _ _
      | with_reducible apply State.bump_kept | with_reducible apply State.Kept.foldl
      | with_reducible refine State.Kept.of_fst (by assumption) ?_ | split
      | (with_reducible refine State.Kept.record ?_; first | with_reducible assumption | split | with_reducible apply State.bump_kept | with_reducible refine State.Kept.of_fst (by assumption) ?_)
      | dsimp +zetaDelta only

theorem State.endPeriod_kept (h : s.Kept p) : (State.endPeriod s).Kept p := by
  unfold State.endPeriod
  repeat' first
      | with_reducible assumption | extract_lets | intro _ _ _ | intro _ _
      | with_reducible apply State.joinCounts_kept | with_reducible apply State.Kept.foldl
      | with_reducible refine State.Kept.of_fst (by assumption) ?_ | split
      | (with_reducible refine State.Kept.record ?_; first | with_reducible assumption | split | with_reducible apply State.joinCounts_kept | with_reducible refine State.Kept.of_fst (by assumption) ?_)
      | dsimp +zetaDelta only

theorem State.bumpWrap_kept (h : s.Kept p) (a1 a2) : (State.bumpWrap s a1 a2).Kept p := by
  unfold State.bumpWrap
  repeat' first
      | with_reducible assumption | extract_lets | intro _ _ _ | intro _ _ | with_reducible apply State.setFld_kept
      | with_reducible apply State.Kept.foldl | with_reducible refine State.Kept.of_fst (by assumption) ?_ | split
      | dsimp +zetaDelta only

theorem State.spend_kept (h : s.Kept p) : (State.spend s).Kept p := by
  unfold State.spend
  repeat' first
      | with_reducible assumption | extract_lets | intro _ _ _ | intro _ _ | with_reducible apply State.Kept.foldl
      | with_reducible refine State.Kept.of_fst (by assumption) ?_ | split
      | (with_reducible refine State.Kept.record ?_; first | with_reducible assumption | split | with_reducible refine State.Kept.of_fst (by assumption) ?_)
      | dsimp +zetaDelta only

theorem State.onCrypt_kept (h : s.Kept p) (a1) : (State.onCrypt s a1).Kept p := by
  unfold State.onCrypt
  repeat' first
      | with_reducible assumption | extract_lets | intro _ _ _ | intro _ _ | with_reducible apply State.Kept.foldl
      | with_reducible refine State.Kept.of_fst (by assumption) ?_ | split
      | (with_reducible refine State.Kept.record ?_; first | with_reducible assumption | split | with_reducible refine State.Kept.of_fst (by assumption) ?_)
      | dsimp +zetaDelta only

theorem State.setDom_kept (h : s.Kept p) (a1 a2) : (State.setDom s a1 a2).Kept p := by
  unfold State.setDom
  repeat' first
      | with_reducible assumption | extract_lets | intro _ _ _ | intro _ _ | with_reducible apply State.setFld_kept
      | with_reducible apply State.Kept.foldl | with_reducible refine State.Kept.of_fst (by assumption) ?_ | split
      | dsimp +zetaDelta only

theorem State.setStrait_kept (h : s.Kept p) (a1 a2 a3) : (State.setStrait s a1 a2 a3).Kept p := by
  unfold State.setStrait
  repeat' first
      | with_reducible assumption | extract_lets | intro _ _ _ | intro _ _ | with_reducible apply State.Kept.foldl
      | with_reducible refine State.Kept.of_fst (by assumption) ?_ | split
      | (with_reducible refine State.Kept.record ?_; first | with_reducible assumption | split | with_reducible refine State.Kept.of_fst (by assumption) ?_)
      | dsimp +zetaDelta only

theorem State.closeStrait_kept (h : s.Kept p) (a1 a2) : (State.closeStrait s a1 a2).Kept p := by
  unfold State.closeStrait
  repeat' first
      | with_reducible assumption | extract_lets | intro _ _ _ | intro _ _
      | with_reducible apply State.setStrait_kept | with_reducible apply State.Kept.foldl
      | with_reducible refine State.Kept.of_fst (by assumption) ?_ | split | dsimp +zetaDelta only

theorem State.handshakeDone_kept (h : s.Kept p) (a1 a2) : (State.handshakeDone s a1 a2).Kept p := by
  unfold State.handshakeDone
  repeat' first
      | with_reducible assumption | extract_lets | intro _ _ _ | intro _ _
      | with_reducible apply State.setStrait_kept | with_reducible apply State.Kept.foldl
      | with_reducible refine State.Kept.of_fst (by assumption) ?_ | split
      | (with_reducible refine State.Kept.record ?_; first | with_reducible assumption | split | with_reducible apply State.setStrait_kept | with_reducible refine State.Kept.of_fst (by assumption) ?_)
      | dsimp +zetaDelta only

theorem State.send_kept (h : s.Kept p) (a1 a2 a3 a4) : (State.send s a1 a2 a3 a4).Kept p := by
  unfold State.send
  repeat' first
      | with_reducible assumption | extract_lets | intro _ _ _ | intro _ _
      | with_reducible apply State.Kept.foldl | with_reducible refine State.Kept.of_fst (by assumption) ?_
      | split
      | (with_reducible refine State.Kept.record ?_; first | with_reducible assumption | split | with_reducible refine State.Kept.of_fst (by assumption) ?_)
      | dsimp +zetaDelta only

theorem State.sendAll_kept (h : s.Kept p) (a1 a2 a3) (l : List Word) : (s.sendAll a1 a2 a3 l).Kept p := by
  induction l generalizing s with
  | nil => exact h
  | cons x rest ih =>
    unfold State.sendAll
    repeat' first
        | with_reducible assumption | extract_lets | intro _ _ _ | intro _ _ | with_reducible apply ih
        | with_reducible apply State.send_kept | with_reducible apply State.Kept.putReg
        | with_reducible apply State.Kept.each | with_reducible apply State.Kept.foldl
        | with_reducible apply State.Kept.onCore | with_reducible apply State.Kept.setCore
        | with_reducible apply State.Kept.core | with_reducible exact Core.Sound.same (by assumption)
        | with_reducible exact Core.Sound.same (State.Kept.core (by assumption) _)
        | with_reducible refine State.Kept.of_fst (by assumption) ?_ | split | dsimp +zetaDelta only

theorem State.raiseEvent_kept (h : s.Kept p) (a1 a2 a3) : (State.raiseEvent s a1 a2 a3).Kept p := by
  unfold State.raiseEvent
  repeat' first
      | with_reducible assumption | extract_lets | intro _ _ _ | intro _ _ | with_reducible apply State.send_kept
      | with_reducible apply State.Kept.foldl | with_reducible refine State.Kept.of_fst (by assumption) ?_ | split
      | dsimp +zetaDelta only

theorem State.raiseBoth_kept (h : s.Kept p) (a1 a2) : (State.raiseBoth s a1 a2).Kept p := by
  unfold State.raiseBoth
  repeat' first
      | with_reducible assumption | extract_lets | intro _ _ _ | intro _ _
      | with_reducible apply State.raiseEvent_kept | with_reducible apply State.Kept.foldl
      | with_reducible refine State.Kept.of_fst (by assumption) ?_ | split | dsimp +zetaDelta only

theorem State.setEpoch_kept (h : s.Kept p) (a1 a2) : (State.setEpoch s a1 a2).Kept p := by
  unfold State.setEpoch
  repeat' first
      | with_reducible assumption | extract_lets | intro _ _ _ | intro _ _ | with_reducible apply State.onCrypt_kept
      | with_reducible apply State.Kept.foldl | with_reducible refine State.Kept.of_fst (by assumption) ?_ | split
      | dsimp +zetaDelta only

theorem State.announce_kept (h : s.Kept p) (a1) : (State.announce s a1).Kept p := by
  unfold State.announce
  repeat' first
      | with_reducible assumption | extract_lets | intro _ _ _ | intro _ _ | with_reducible apply State.send_kept
      | with_reducible apply State.setEpoch_kept | with_reducible apply State.Kept.foldl
      | with_reducible refine State.Kept.of_fst (by assumption) ?_ | split | dsimp +zetaDelta only

theorem State.setLife_kept (h : s.Kept p) (a1 a2) : (State.setLife s a1 a2).Kept p := by
  unfold State.setLife
  repeat' first
      | with_reducible assumption | extract_lets | intro _ _ _ | intro _ _ | with_reducible apply State.announce_kept
      | with_reducible apply State.setFld_kept | with_reducible apply State.Kept.foldl
      | with_reducible refine State.Kept.of_fst (by assumption) ?_ | split | dsimp +zetaDelta only

theorem State.setRun_kept (h : s.Kept p) (a1 a2) : (State.setRun s a1 a2).Kept p := by
  unfold State.setRun
  repeat' first
      | with_reducible assumption | extract_lets | intro _ _ _ | intro _ _ | with_reducible apply State.announce_kept
      | with_reducible apply State.Kept.setCore | with_reducible apply State.Kept.core
      | with_reducible exact Core.Sound.same (by assumption)
      | with_reducible exact Core.Sound.same (State.Kept.core (by assumption) _)
      | with_reducible apply State.Kept.foldl | with_reducible refine State.Kept.of_fst (by assumption) ?_ | split
      | dsimp +zetaDelta only

theorem State.activity_kept (h : s.Kept p) (a1) : (State.activity s a1).Kept p := by
  unfold State.activity
  repeat' first
      | with_reducible assumption | extract_lets | intro _ _ _ | intro _ _
      | with_reducible apply State.raiseBoth_kept | with_reducible apply State.setFlag_kept
      | with_reducible apply State.Kept.foldl | with_reducible refine State.Kept.of_fst (by assumption) ?_ | split
      | dsimp +zetaDelta only

theorem State.enableActs_kept (h : s.Kept p) (a1 a2) : (State.enableActs s a1 a2).Kept p := by
  unfold State.enableActs
  repeat' first
      | with_reducible assumption | extract_lets | intro _ _ _ | intro _ _ | with_reducible apply State.setLife_kept
      | with_reducible apply State.setFlag_kept | with_reducible apply State.Kept.foldl
      | with_reducible refine State.Kept.of_fst (by assumption) ?_ | split | dsimp +zetaDelta only

theorem State.unitOff_kept (h : s.Kept p) (a1) : (State.unitOff s a1).Kept p := by
  unfold State.unitOff
  repeat' first
      | with_reducible assumption | extract_lets | intro _ _ _ | intro _ _ | with_reducible apply State.setLife_kept
      | with_reducible apply State.setFlag_kept | with_reducible apply State.Kept.foldl
      | with_reducible refine State.Kept.of_fst (by assumption) ?_ | split | dsimp +zetaDelta only

theorem State.ledgerWrite_kept (h : s.Kept p) (a1) : (State.ledgerWrite s a1).Kept p := by
  unfold State.ledgerWrite
  repeat' first
      | with_reducible assumption | extract_lets | intro _ _ _ | intro _ _ | with_reducible apply State.bump_kept
      | with_reducible apply State.Kept.foldl | with_reducible refine State.Kept.of_fst (by assumption) ?_ | split
      | (with_reducible refine State.Kept.record ?_; first | with_reducible assumption | split | with_reducible apply State.bump_kept | with_reducible refine State.Kept.of_fst (by assumption) ?_)
      | dsimp +zetaDelta only

theorem State.logEvent_kept (h : s.Kept p) (a1 a2 a3) : (State.logEvent s a1 a2 a3).Kept p := by
  unfold State.logEvent
  repeat' first
      | with_reducible assumption | extract_lets | intro _ _ _ | intro _ _ | with_reducible apply State.onCrypt_kept
      | with_reducible apply State.bump_kept | with_reducible apply State.ledgerWrite_kept
      | with_reducible apply State.Kept.foldl | with_reducible refine State.Kept.of_fst (by assumption) ?_ | split
      | dsimp +zetaDelta only

theorem State.flushHeldLog_kept (h : s.Kept p) : (State.flushHeldLog s).Kept p := by
  unfold State.flushHeldLog
  repeat' first
      | with_reducible assumption | extract_lets | intro _ _ _ | intro _ _
      | with_reducible apply State.onCrypt_kept | with_reducible apply State.ledgerWrite_kept
      | with_reducible apply State.Kept.foldl | with_reducible refine State.Kept.of_fst (by assumption) ?_
      | split
      | (with_reducible refine State.Kept.record ?_; first | with_reducible assumption | split | with_reducible apply State.onCrypt_kept | with_reducible apply State.ledgerWrite_kept | with_reducible refine State.Kept.of_fst (by assumption) ?_)
      | dsimp +zetaDelta only

theorem State.storeField_kept (h : s.Kept p) (a1 a2 a3 a4) : (State.storeField s a1 a2 a3 a4).Kept p := by
  unfold State.storeField
  repeat' first
      | with_reducible assumption | extract_lets | intro _ _ _ | intro _ _
      | with_reducible apply State.Kept.putReg | with_reducible apply State.Kept.foldl
      | with_reducible refine State.Kept.of_fst (by assumption) ?_ | split
      | (with_reducible refine State.Kept.record ?_; first | with_reducible assumption | split | with_reducible refine State.Kept.of_fst (by assumption) ?_)
      | dsimp +zetaDelta only

theorem State.storeReg_kept (h : s.Kept p) (a1 a2 a3) : (State.storeReg s a1 a2 a3).Kept p := by
  unfold State.storeReg
  repeat' first
      | with_reducible assumption | extract_lets | intro _ _ _ | intro _ _
      | with_reducible apply State.storeField_kept | with_reducible apply State.logEvent_kept
      | with_reducible apply State.Kept.foldl | with_reducible refine State.Kept.of_fst (by assumption) ?_ | split
      | dsimp +zetaDelta only

theorem State.loadReg_kept (h : s.Kept p) (a1) : (State.loadReg s a1).1.Kept p := by
  unfold State.loadReg
  repeat' first
      | with_reducible assumption | extract_lets | intro _ _ _ | intro _ _ | with_reducible apply State.Kept.putReg
      | with_reducible apply State.Kept.foldl | with_reducible refine State.Kept.of_fst (by assumption) ?_ | split
      | dsimp +zetaDelta only

theorem State.setReg_kept (h : s.Kept p) (a1 a2 a3) : (State.setReg s a1 a2 a3).Kept p := by
  unfold State.setReg
  repeat' first
      | with_reducible assumption | extract_lets | intro _ _ _ | intro _ _ | with_reducible apply State.Kept.onCore
      | with_reducible apply Core.Sound.setReg | with_reducible apply State.Kept.core
      | with_reducible exact Core.Sound.same (by assumption)
      | with_reducible exact Core.Sound.same (State.Kept.core (by assumption) _)
      | with_reducible apply State.Kept.foldl | with_reducible refine State.Kept.of_fst (by assumption) ?_ | split
      | dsimp +zetaDelta only

theorem State.setQueue_kept (h : s.Kept p) (a1 a2) : (State.setQueue s a1 a2).Kept p := by
  unfold State.setQueue
  repeat' first
      | with_reducible assumption | extract_lets | intro _ _ _ | intro _ _ | with_reducible apply State.Kept.foldl
      | with_reducible refine State.Kept.of_fst (by assumption) ?_ | split
      | (with_reducible refine State.Kept.record ?_; first | with_reducible assumption | split | with_reducible refine State.Kept.of_fst (by assumption) ?_)
      | dsimp +zetaDelta only

theorem State.rebalance_kept (h : s.Kept p) : (State.rebalance s).Kept p := by
  unfold State.rebalance
  repeat' first
      | with_reducible assumption | extract_lets | intro _ _ _ | intro _ _ | with_reducible apply State.setQueue_kept
      | with_reducible apply State.Kept.each | with_reducible apply State.Kept.foldl
      | with_reducible refine State.Kept.of_fst (by assumption) ?_ | split | dsimp +zetaDelta only

theorem State.setBlocks_kept (h : s.Kept p) (a1 a2) : (State.setBlocks s a1 a2).Kept p := by
  unfold State.setBlocks
  repeat' first
      | with_reducible assumption | extract_lets | intro _ _ _ | intro _ _
      | with_reducible apply State.setQueue_kept | with_reducible apply State.rebalance_kept
      | with_reducible apply State.Kept.foldl | with_reducible refine State.Kept.of_fst (by assumption) ?_
      | split
      | (with_reducible refine State.Kept.record ?_; first | with_reducible assumption | split | with_reducible apply State.setQueue_kept | with_reducible apply State.rebalance_kept | with_reducible refine State.Kept.of_fst (by assumption) ?_)
      | dsimp +zetaDelta only

theorem State.trim_kept (h : s.Kept p) (a1) : (State.trim s a1).Kept p := by
  unfold State.trim
  repeat' first
      | with_reducible assumption | extract_lets | intro _ _ _ | intro _ _
      | with_reducible apply State.setBlocks_kept | with_reducible apply State.Kept.foldl
      | with_reducible refine State.Kept.of_fst (by assumption) ?_ | split | dsimp +zetaDelta only

theorem State.notePeak_kept (h : s.Kept p) (a1) : (State.notePeak s a1).Kept p := by
  unfold State.notePeak
  repeat' first
      | with_reducible assumption | extract_lets | intro _ _ _ | intro _ _ | with_reducible apply State.setFld_kept
      | with_reducible apply State.Kept.foldl | with_reducible refine State.Kept.of_fst (by assumption) ?_ | split
      | dsimp +zetaDelta only

theorem State.grantBlock_kept (h : s.Kept p) (a1) : (State.grantBlock s a1).Kept p := by
  unfold State.grantBlock
  repeat' first
      | with_reducible assumption | extract_lets | intro _ _ _ | intro _ _
      | with_reducible apply State.setQueue_kept | with_reducible apply State.notePeak_kept
      | with_reducible apply State.Kept.foldl | with_reducible refine State.Kept.of_fst (by assumption) ?_
      | split
      | (with_reducible refine State.Kept.record ?_; first | with_reducible assumption | split | with_reducible apply State.setQueue_kept | with_reducible apply State.notePeak_kept | with_reducible refine State.Kept.of_fst (by assumption) ?_)
      | dsimp +zetaDelta only

theorem State.countRefused_kept (h : s.Kept p) (a1) : (State.countRefused s a1).Kept p := by
  unfold State.countRefused
  repeat' first
      | with_reducible assumption | extract_lets | intro _ _ _ | intro _ _ | with_reducible apply State.bump_kept
      | with_reducible apply State.Kept.foldl | with_reducible refine State.Kept.of_fst (by assumption) ?_ | split
      | dsimp +zetaDelta only

theorem State.poolCycle_kept (h : s.Kept p) (a1) : (State.poolCycle s a1).1.Kept p := by
  unfold State.poolCycle
  repeat' first
      | with_reducible assumption | extract_lets | intro _ _ _ | intro _ _
      | with_reducible apply State.setFld_kept | with_reducible apply State.grantBlock_kept
      | with_reducible apply State.countRefused_kept | with_reducible apply State.Kept.each
      | with_reducible apply State.Kept.foldl | with_reducible refine State.Kept.of_fst (by assumption) ?_
      | split | dsimp +zetaDelta only

theorem State.notifyWatches_kept (h : s.Kept p) (a1 a2) : (State.notifyWatches s a1 a2).Kept p := by
  unfold State.notifyWatches
  repeat' first
      | with_reducible assumption | extract_lets | intro _ _ _ | intro _ _
      | with_reducible apply State.raiseEvent_kept | with_reducible apply State.Kept.each
      | with_reducible apply State.Kept.foldl | with_reducible refine State.Kept.of_fst (by assumption) ?_ | split
      | dsimp +zetaDelta only

theorem State.queueEvent_kept (h : s.Kept p) (a1) : (State.queueEvent s a1).Kept p := by
  unfold State.queueEvent
  repeat' first
      | with_reducible assumption | extract_lets | intro _ _ _ | intro _ _
      | with_reducible apply State.raiseEvent_kept | with_reducible apply State.Kept.foldl
      | with_reducible refine State.Kept.of_fst (by assumption) ?_ | split | dsimp +zetaDelta only

theorem State.queueUe_kept (h : s.Kept p) (a1 a2) : (State.queueUe s a1 a2).Kept p := by
  unfold State.queueUe
  repeat' first
      | with_reducible assumption | extract_lets | intro _ _ _ | intro _ _
      | with_reducible apply State.bump_kept | with_reducible apply State.logEvent_kept
      | with_reducible apply State.setQueue_kept | with_reducible apply State.notifyWatches_kept
      | with_reducible apply State.queueEvent_kept | with_reducible apply State.Kept.foldl
      | with_reducible refine State.Kept.of_fst (by assumption) ?_ | split
      | (with_reducible refine State.Kept.record ?_; first | with_reducible assumption | split | with_reducible apply State.bump_kept | with_reducible apply State.logEvent_kept | with_reducible apply State.setQueue_kept | with_reducible apply State.notifyWatches_kept | with_reducible apply State.queueEvent_kept | with_reducible refine State.Kept.of_fst (by assumption) ?_)
      | dsimp +zetaDelta only

theorem State.queueCorr_kept (h : s.Kept p) (a1 a2) : (State.queueCorr s a1 a2).Kept p := by
  unfold State.queueCorr
  repeat' first
      | with_reducible assumption | extract_lets | intro _ _ _ | intro _ _ | with_reducible apply State.bump_kept
      | with_reducible apply State.setQueue_kept | with_reducible apply State.Kept.foldl
      | with_reducible refine State.Kept.of_fst (by assumption) ?_ | split | dsimp +zetaDelta only

theorem State.checkWord_kept (h : s.Kept p) (a1 a2) : (State.checkWord s a1 a2).1.Kept p := by
  unfold State.checkWord
  repeat' first
      | with_reducible assumption | extract_lets | intro _ _ _ | intro _ _
      | with_reducible apply State.queueCorr_kept | with_reducible apply State.queueUe_kept
      | with_reducible apply State.Kept.foldl | with_reducible refine State.Kept.of_fst (by assumption) ?_ | split
      | dsimp +zetaDelta only

theorem State.checkRun_kept (h : s.Kept p) (a1 a2 n) : (s.checkRun a1 a2 n).1.Kept p := by
  induction n generalizing s a2 with
  | zero => exact h
  | succ k ih =>
    unfold State.checkRun
    repeat' first
        | with_reducible assumption | extract_lets | intro _ _ _ | intro _ _ | with_reducible apply ih
        | with_reducible apply State.checkWord_kept | with_reducible apply State.Kept.putReg
        | with_reducible apply State.Kept.each | with_reducible apply State.Kept.foldl
        | with_reducible apply State.Kept.onCore | with_reducible apply State.Kept.setCore
        | with_reducible apply State.Kept.core | with_reducible exact Core.Sound.same (by assumption)
        | with_reducible exact Core.Sound.same (State.Kept.core (by assumption) _)
        | with_reducible refine State.Kept.of_fst (by assumption) ?_ | split | dsimp +zetaDelta only

theorem State.moveWords_kept (h : s.Kept p) (a1 n) : (State.moveWords s a1 n).Kept p := by
  induction n generalizing s a1 with
  | zero =>
    unfold State.moveWords
    repeat' first
        | with_reducible assumption | extract_lets | intro _ _ _ | intro _ _
        | with_reducible apply State.setQueue_kept | with_reducible apply State.checkWord_kept
        | with_reducible apply State.Kept.foldl | with_reducible refine State.Kept.of_fst (by assumption) ?_
        | split
        | (with_reducible refine State.Kept.record ?_; first | with_reducible assumption | split | with_reducible apply State.setQueue_kept | with_reducible apply State.checkWord_kept | with_reducible refine State.Kept.of_fst (by assumption) ?_)
        | dsimp +zetaDelta only
  | succ k ih =>
    unfold State.moveWords
    repeat' first
        | with_reducible assumption | extract_lets | intro _ _ _ | intro _ _ | with_reducible apply ih
        | with_reducible apply State.setQueue_kept | with_reducible apply State.checkWord_kept
        | with_reducible apply State.Kept.foldl | with_reducible refine State.Kept.of_fst (by assumption) ?_
        | split
        | (with_reducible refine State.Kept.record ?_; first | with_reducible assumption | split | with_reducible apply ih | with_reducible apply State.setQueue_kept | with_reducible apply State.checkWord_kept | with_reducible refine State.Kept.of_fst (by assumption) ?_)
        | dsimp +zetaDelta only

theorem State.settled_kept (h : s.Kept p) (a1) : (State.settled s a1).Kept p := by
  unfold State.settled
  repeat' first
      | with_reducible assumption | extract_lets | intro _ _ _ | intro _ _
      | with_reducible apply State.trim_kept | with_reducible apply State.moveWords_kept
      | with_reducible apply State.Kept.foldl | with_reducible refine State.Kept.of_fst (by assumption) ?_
      | split | dsimp +zetaDelta only

theorem State.dropTail_kept (h : s.Kept p) (a1 a2 a3 a4) : (State.dropTail s a1 a2 a3 a4).Kept p := by
  unfold State.dropTail
  repeat' first
      | with_reducible assumption | extract_lets | intro _ _ _ | intro _ _
      | with_reducible apply State.bump_kept | with_reducible apply State.setQueue_kept
      | with_reducible apply State.notifyWatches_kept | with_reducible apply State.settled_kept
      | with_reducible apply State.Kept.foldl | with_reducible refine State.Kept.of_fst (by assumption) ?_
      | split
      | (with_reducible refine State.Kept.record ?_; first | with_reducible assumption | split | with_reducible apply State.bump_kept | with_reducible apply State.setQueue_kept | with_reducible apply State.notifyWatches_kept | with_reducible apply State.settled_kept | with_reducible refine State.Kept.of_fst (by assumption) ?_)
      | dsimp +zetaDelta only

theorem State.dropLater_kept (h : s.Kept p) (a1 a2) : (State.dropLater s a1 a2).Kept p := by
  unfold State.dropLater
  repeat' first
      | with_reducible assumption | extract_lets | intro _ _ _ | intro _ _
      | with_reducible apply State.setQueue_kept | with_reducible apply State.notifyWatches_kept
      | with_reducible apply State.settled_kept | with_reducible apply State.Kept.foldl
      | with_reducible refine State.Kept.of_fst (by assumption) ?_ | split
      | (with_reducible refine State.Kept.record ?_; first | with_reducible assumption | split | with_reducible apply State.setQueue_kept | with_reducible apply State.notifyWatches_kept | with_reducible apply State.settled_kept | with_reducible refine State.Kept.of_fst (by assumption) ?_)
      | dsimp +zetaDelta only

theorem State.storeWord_kept (h : s.Kept p) (a1 a2 a3) : (State.storeWord s a1 a2 a3).Kept p := by
  unfold State.storeWord
  repeat' first
      | with_reducible assumption | extract_lets | intro _ _ _ | intro _ _
      | with_reducible apply State.setQueue_kept | with_reducible apply State.notifyWatches_kept
      | with_reducible apply State.settled_kept | with_reducible apply State.Kept.foldl
      | with_reducible refine State.Kept.of_fst (by assumption) ?_ | split
      | (with_reducible refine State.Kept.record ?_; first | with_reducible assumption | split | with_reducible apply State.setQueue_kept | with_reducible apply State.notifyWatches_kept | with_reducible apply State.settled_kept | with_reducible refine State.Kept.of_fst (by assumption) ?_)
      | dsimp +zetaDelta only

theorem State.dropStuck_kept (h : s.Kept p) (a1) : (State.dropStuck s a1).Kept p := by
  unfold State.dropStuck
  repeat' first
      | with_reducible assumption | extract_lets | intro _ _ _ | intro _ _
      | with_reducible apply State.dropTail_kept | with_reducible apply State.Kept.foldl
      | with_reducible refine State.Kept.of_fst (by assumption) ?_ | split | dsimp +zetaDelta only

theorem State.sourceActive_kept (h : s.Kept p) (a1) : (State.sourceActive s a1).Kept p := by
  unfold State.sourceActive
  repeat' first
      | with_reducible assumption | extract_lets | intro _ _ _ | intro _ _ | with_reducible apply State.activity_kept
      | with_reducible apply State.Kept.foldl | with_reducible refine State.Kept.of_fst (by assumption) ?_ | split
      | dsimp +zetaDelta only

theorem State.storeOrDrop_kept (h : s.Kept p) (a1 a2 a3) : (State.storeOrDrop s a1 a2 a3).1.Kept p := by
  unfold State.storeOrDrop
  repeat' first
      | with_reducible assumption | extract_lets | intro _ _ _ | intro _ _
      | with_reducible apply State.storeWord_kept | with_reducible apply State.dropStuck_kept
      | with_reducible apply State.Kept.foldl | with_reducible refine State.Kept.of_fst (by assumption) ?_
      | split | dsimp +zetaDelta only

theorem State.offer_kept (h : s.Kept p) (a1 a2 a3) : (State.offer s a1 a2 a3).1.Kept p := by
  unfold State.offer
  repeat' first
      | with_reducible assumption | extract_lets | intro _ _ _ | intro _ _
      | with_reducible apply State.bump_kept | with_reducible apply State.poolCycle_kept
      | with_reducible apply State.dropTail_kept | with_reducible apply State.dropLater_kept
      | with_reducible apply State.sourceActive_kept | with_reducible apply State.storeOrDrop_kept
      | with_reducible apply State.Kept.foldl | with_reducible refine State.Kept.of_fst (by assumption) ?_
      | split | dsimp +zetaDelta only

theorem State.readWord_kept (h : s.Kept p) (a1 a2 n) : (State.readWord s a1 a2 n).1.Kept p := by
  induction n generalizing s a1 a2 with
  | zero =>
    unfold State.readWord
    repeat' first
        | with_reducible assumption | extract_lets | intro _ _ _ | intro _ _
        | with_reducible apply State.queueUe_kept | with_reducible apply State.queueCorr_kept
        | with_reducible apply State.settled_kept | with_reducible apply State.Kept.foldl
        | with_reducible refine State.Kept.of_fst (by assumption) ?_ | split
        | (with_reducible refine State.Kept.record ?_; first | with_reducible assumption | split | with_reducible apply State.queueUe_kept | with_reducible apply State.queueCorr_kept | with_reducible apply State.settled_kept | with_reducible refine State.Kept.of_fst (by assumption) ?_)
        | dsimp +zetaDelta only
  | succ k ih =>
    unfold State.readWord
    repeat' first
        | with_reducible assumption | extract_lets | intro _ _ _ | intro _ _ | with_reducible apply ih
        | with_reducible apply State.queueUe_kept | with_reducible apply State.queueCorr_kept
        | with_reducible apply State.settled_kept | with_reducible apply State.Kept.foldl
        | with_reducible refine State.Kept.of_fst (by assumption) ?_ | split
        | (with_reducible refine State.Kept.record ?_; first | with_reducible assumption | split | with_reducible apply ih | with_reducible apply State.queueUe_kept | with_reducible apply State.queueCorr_kept | with_reducible apply State.settled_kept | with_reducible refine State.Kept.of_fst (by assumption) ?_)
        | dsimp +zetaDelta only

theorem State.readAt_kept (h : s.Kept p) (a1 a2) : (State.readAt s a1 a2).1.Kept p := by
  unfold State.readAt
  repeat' first
      | with_reducible assumption | extract_lets | intro _ _ _ | intro _ _
      | with_reducible apply State.readWord_kept | with_reducible apply State.Kept.foldl
      | with_reducible refine State.Kept.of_fst (by assumption) ?_ | split | dsimp +zetaDelta only

theorem State.takeWord_kept (h : s.Kept p) (a1) : (State.takeWord s a1).1.Kept p := by
  unfold State.takeWord
  repeat' first
      | with_reducible assumption | extract_lets | intro _ _ _ | intro _ _
      | with_reducible apply State.setQueue_kept | with_reducible apply State.settled_kept
      | with_reducible apply State.readAt_kept | with_reducible apply State.Kept.foldl
      | with_reducible refine State.Kept.of_fst (by assumption) ?_ | split
      | (with_reducible refine State.Kept.record ?_; first | with_reducible assumption | split | with_reducible apply State.setQueue_kept | with_reducible apply State.settled_kept | with_reducible apply State.readAt_kept | with_reducible refine State.Kept.of_fst (by assumption) ?_)
      | dsimp +zetaDelta only

theorem State.peekWord_kept (h : s.Kept p) (a1 a2) : (State.peekWord s a1 a2).1.Kept p := by
  unfold State.peekWord
  repeat' first
      | with_reducible assumption | extract_lets | intro _ _ _ | intro _ _
      | with_reducible apply State.readAt_kept | with_reducible apply State.Kept.foldl
      | with_reducible refine State.Kept.of_fst (by assumption) ?_ | split
      | (with_reducible refine State.Kept.record ?_; first | with_reducible assumption | split | with_reducible apply State.readAt_kept | with_reducible refine State.Kept.of_fst (by assumption) ?_)
      | dsimp +zetaDelta only

theorem State.popPacket_kept (h : s.Kept p) (a1) : (State.popPacket s a1).Kept p := by
  unfold State.popPacket
  repeat' first
      | with_reducible assumption | extract_lets | intro _ _ _ | intro _ _
      | with_reducible apply State.setQueue_kept | with_reducible apply State.settled_kept
      | with_reducible apply State.Kept.foldl | with_reducible refine State.Kept.of_fst (by assumption) ?_
      | split
      | (with_reducible refine State.Kept.record ?_; first | with_reducible assumption | split | with_reducible apply State.setQueue_kept | with_reducible apply State.settled_kept | with_reducible refine State.Kept.of_fst (by assumption) ?_)
      | dsimp +zetaDelta only

theorem State.breakOff_kept (h : s.Kept p) (a1) : (State.breakOff s a1).Kept p := by
  unfold State.breakOff
  repeat' first
      | with_reducible assumption | extract_lets | intro _ _ _ | intro _ _
      | with_reducible apply State.setQueue_kept | with_reducible apply State.Kept.foldl
      | with_reducible refine State.Kept.of_fst (by assumption) ?_ | split
      | (with_reducible refine State.Kept.record ?_; first | with_reducible assumption | split | with_reducible apply State.setQueue_kept | with_reducible refine State.Kept.of_fst (by assumption) ?_)
      | dsimp +zetaDelta only

theorem State.setQueueLife_kept (h : s.Kept p) (a1 a2) : (State.setQueueLife s a1 a2).Kept p := by
  unfold State.setQueueLife
  repeat' first
      | with_reducible assumption | extract_lets | intro _ _ _ | intro _ _ | with_reducible apply State.setFld_kept
      | with_reducible apply State.Kept.foldl | with_reducible refine State.Kept.of_fst (by assumption) ?_ | split
      | dsimp +zetaDelta only

theorem State.queueFalls_kept (h : s.Kept p) (a1) : (State.queueFalls s a1).Kept p := by
  unfold State.queueFalls
  repeat' first
      | with_reducible assumption | extract_lets | intro _ _ _ | intro _ _
      | with_reducible apply State.setQueue_kept | with_reducible apply State.setQueueLife_kept
      | with_reducible apply State.Kept.foldl | with_reducible refine State.Kept.of_fst (by assumption) ?_
      | split
      | (with_reducible refine State.Kept.record ?_; first | with_reducible assumption | split | with_reducible apply State.setQueue_kept | with_reducible apply State.setQueueLife_kept | with_reducible refine State.Kept.of_fst (by assumption) ?_)
      | dsimp +zetaDelta only

theorem State.queueRises_kept (h : s.Kept p) (a1) : (State.queueRises s a1).Kept p := by
  unfold State.queueRises
  repeat' first
      | with_reducible assumption | extract_lets | intro _ _ _ | intro _ _
      | with_reducible apply State.setQueue_kept | with_reducible apply State.notifyWatches_kept
      | with_reducible apply State.setQueueLife_kept | with_reducible apply State.Kept.foldl
      | with_reducible refine State.Kept.of_fst (by assumption) ?_ | split
      | (with_reducible refine State.Kept.record ?_; first | with_reducible assumption | split | with_reducible apply State.setQueue_kept | with_reducible apply State.notifyWatches_kept | with_reducible apply State.setQueueLife_kept | with_reducible refine State.Kept.of_fst (by assumption) ?_)
      | dsimp +zetaDelta only

theorem State.queueEnable_kept (h : s.Kept p) (a1 a2) : (State.queueEnable s a1 a2).Kept p := by
  unfold State.queueEnable
  repeat' first
      | with_reducible assumption | extract_lets | intro _ _ _ | intro _ _
      | with_reducible apply State.setQueueLife_kept | with_reducible apply State.setFlag_kept
      | with_reducible apply State.queueFalls_kept | with_reducible apply State.Kept.foldl
      | with_reducible refine State.Kept.of_fst (by assumption) ?_ | split | dsimp +zetaDelta only

theorem State.setQuota_kept (h : s.Kept p) (a1 a2) : (State.setQuota s a1 a2).Kept p := by
  unfold State.setQuota
  repeat' first
      | with_reducible assumption | extract_lets | intro _ _ _ | intro _ _ | with_reducible apply State.setFld_kept
      | with_reducible apply State.rebalance_kept | with_reducible apply State.setQueue_kept
      | with_reducible apply State.Kept.foldl | with_reducible refine State.Kept.of_fst (by assumption) ?_ | split
      | dsimp +zetaDelta only

theorem State.storeDesc_kept (h : s.Kept p) (a1 a2) : (State.storeDesc s a1 a2).Kept p := by
  unfold State.storeDesc
  repeat' first
      | with_reducible assumption | extract_lets | intro _ _ _ | intro _ _
      | with_reducible apply State.setFld_kept | with_reducible apply State.dropStuck_kept
      | with_reducible apply State.queueEnable_kept | with_reducible apply State.setQuota_kept
      | with_reducible apply State.Kept.foldl | with_reducible refine State.Kept.of_fst (by assumption) ?_
      | split | dsimp +zetaDelta only

theorem State.countFlushed_kept (h : s.Kept p) : (State.countFlushed s).Kept p := by
  unfold State.countFlushed
  repeat' first
      | with_reducible assumption | extract_lets | intro _ _ _ | intro _ _
      | with_reducible apply State.onCrypt_kept | with_reducible apply State.Kept.foldl
      | with_reducible refine State.Kept.of_fst (by assumption) ?_ | split
      | (with_reducible refine State.Kept.record ?_; first | with_reducible assumption | split | with_reducible apply State.onCrypt_kept | with_reducible refine State.Kept.of_fst (by assumption) ?_)
      | dsimp +zetaDelta only

theorem State.queuesFall_kept (h : s.Kept p) : (State.queuesFall s).Kept p := by
  unfold State.queuesFall
  repeat' first
      | with_reducible assumption | extract_lets | intro _ _ _ | intro _ _
      | with_reducible apply State.queueFalls_kept | with_reducible apply State.countFlushed_kept
      | with_reducible apply State.Kept.each | with_reducible apply State.Kept.foldl
      | with_reducible refine State.Kept.of_fst (by assumption) ?_ | split | dsimp +zetaDelta only

theorem State.queuesOff_kept (h : s.Kept p) : (State.queuesOff s).Kept p := by
  unfold State.queuesOff
  repeat' first
      | with_reducible assumption | extract_lets | intro _ _ _ | intro _ _
      | with_reducible apply State.Kept.foldl | with_reducible refine State.Kept.of_fst (by assumption) ?_
      | split
      | (with_reducible refine State.Kept.record ?_; first | with_reducible assumption | split | with_reducible refine State.Kept.of_fst (by assumption) ?_)
      | dsimp +zetaDelta only

theorem State.queuesOn_kept (h : s.Kept p) : (State.queuesOn s).Kept p := by
  unfold State.queuesOn
  repeat' first
      | with_reducible assumption | extract_lets | intro _ _ _ | intro _ _ | with_reducible apply State.setFld_kept
      | with_reducible apply State.logEvent_kept | with_reducible apply State.onCrypt_kept
      | with_reducible apply State.Kept.foldl | with_reducible refine State.Kept.of_fst (by assumption) ?_ | split
      | dsimp +zetaDelta only

theorem State.queuesLose_kept (h : s.Kept p) (a1) : (State.queuesLose s a1).Kept p := by
  unfold State.queuesLose
  repeat' first
      | with_reducible assumption | extract_lets | intro _ _ _ | intro _ _
      | with_reducible apply State.setQueue_kept | with_reducible apply State.dropTail_kept
      | with_reducible apply State.Kept.each | with_reducible apply State.Kept.foldl
      | with_reducible refine State.Kept.of_fst (by assumption) ?_ | split
      | (with_reducible refine State.Kept.record ?_; first | with_reducible assumption | split | with_reducible apply State.setQueue_kept | with_reducible apply State.dropTail_kept | with_reducible apply State.Kept.each | with_reducible refine State.Kept.of_fst (by assumption) ?_)
      | dsimp +zetaDelta only

theorem State.select_kept (h : s.Kept p) (a1 a2) : (State.select s a1 a2).Kept p := by
  unfold State.select
  repeat' first
      | with_reducible assumption | extract_lets | intro _ _ _ | intro _ _ | with_reducible apply State.Kept.foldl
      | with_reducible refine State.Kept.of_fst (by assumption) ?_ | split
      | (with_reducible refine State.Kept.record ?_; first | with_reducible assumption | split | with_reducible refine State.Kept.of_fst (by assumption) ?_)
      | dsimp +zetaDelta only

theorem State.recvQsel_kept (h : s.Kept p) (a1 a2) : (State.recvQsel s a1 a2).Kept p := by
  unfold State.recvQsel
  repeat' first
      | with_reducible assumption | extract_lets | intro _ _ _ | intro _ _
      | with_reducible apply State.send_kept | with_reducible apply State.logEvent_kept
      | with_reducible apply State.select_kept | with_reducible apply State.Kept.foldl
      | with_reducible refine State.Kept.of_fst (by assumption) ?_ | split | dsimp +zetaDelta only

theorem State.recvQselBad_kept (h : s.Kept p) (a1) : (State.recvQselBad s a1).Kept p := by
  unfold State.recvQselBad
  repeat' first
      | with_reducible assumption | extract_lets | intro _ _ _ | intro _ _ | with_reducible apply State.select_kept
      | with_reducible apply State.dropTail_kept | with_reducible apply State.Kept.foldl
      | with_reducible refine State.Kept.of_fst (by assumption) ?_ | split | dsimp +zetaDelta only

theorem State.recvQword_kept (h : s.Kept p) (a1 a2) : (State.recvQword s a1 a2).Kept p := by
  unfold State.recvQword
  repeat' first
      | with_reducible assumption | extract_lets | intro _ _ _ | intro _ _ | with_reducible apply State.offer_kept
      | with_reducible apply State.bump_kept | with_reducible apply State.Kept.foldl
      | with_reducible refine State.Kept.of_fst (by assumption) ?_ | split | dsimp +zetaDelta only

theorem State.recvQwordBad_kept (h : s.Kept p) (a1 a2) : (State.recvQwordBad s a1 a2).Kept p := by
  unfold State.recvQwordBad
  repeat' first
      | with_reducible assumption | extract_lets | intro _ _ _ | intro _ _ | with_reducible apply State.bump_kept
      | with_reducible apply State.dropLater_kept | with_reducible apply State.dropTail_kept
      | with_reducible apply State.Kept.foldl | with_reducible refine State.Kept.of_fst (by assumption) ?_ | split
      | dsimp +zetaDelta only

theorem State.sendQueue_kept (h : s.Kept p) (a1 a2 a3) : (State.sendQueue s a1 a2 a3).Kept p := by
  unfold State.sendQueue
  repeat' first
      | with_reducible assumption | extract_lets | intro _ _ _ | intro _ _ | with_reducible apply State.sendAll_kept
      | with_reducible apply State.send_kept | with_reducible apply State.Kept.foldl
      | with_reducible refine State.Kept.of_fst (by assumption) ?_ | split | dsimp +zetaDelta only

theorem State.recordRefusal_kept (h : s.Kept p) (a1 a2 a3 a4) : (State.recordRefusal s a1 a2 a3 a4).Kept p := by
  unfold State.recordRefusal
  repeat' first
      | with_reducible assumption | extract_lets | intro _ _ _ | intro _ _
      | with_reducible apply State.setFld_kept | with_reducible apply State.setFlag_kept
      | with_reducible apply State.tally32_kept | with_reducible apply State.logEvent_kept
      | with_reducible apply State.Kept.putReg | with_reducible apply State.Kept.foldl
      | with_reducible refine State.Kept.of_fst (by assumption) ?_ | split | dsimp +zetaDelta only

theorem State.clearWdog_kept (h : s.Kept p) (a1) : (State.clearWdog s a1).Kept p := by
  unfold State.clearWdog
  repeat' first
      | with_reducible assumption | extract_lets | intro _ _ _ | intro _ _ | with_reducible apply State.onCrypt_kept
      | with_reducible apply State.Kept.foldl | with_reducible refine State.Kept.of_fst (by assumption) ?_ | split
      | dsimp +zetaDelta only

theorem State.coreReset_kept (h : s.Kept p) (a1 a2) : (State.coreReset s a1 a2).Kept p := by
  unfold State.coreReset
  repeat' first
      | with_reducible assumption | extract_lets | intro _ _ _ | intro _ _ | with_reducible apply State.announce_kept
      | with_reducible apply State.clearWdog_kept | with_reducible apply State.setFlag_kept
      | with_reducible apply State.setFld_kept | with_reducible apply State.Kept.setCore
      | with_reducible apply Core.Sound.afterReset | with_reducible apply State.Kept.core
      | with_reducible exact Core.Sound.same (by assumption)
      | with_reducible exact Core.Sound.same (State.Kept.core (by assumption) _)
      | with_reducible apply State.Kept.foldl | with_reducible refine State.Kept.of_fst (by assumption) ?_ | split
      | dsimp +zetaDelta only

theorem State.fault_kept (h : s.Kept p) (a1 a2 a3) : (State.fault s a1 a2 a3).Kept p := by
  unfold State.fault
  repeat' first
      | with_reducible assumption | extract_lets | intro _ _ _ | intro _ _
      | with_reducible apply State.coreReset_kept | with_reducible apply State.logEvent_kept
      | with_reducible apply State.Kept.setCore | with_reducible apply Core.Sound.enterFault
      | with_reducible apply State.Kept.core | with_reducible exact Core.Sound.same (by assumption)
      | with_reducible exact Core.Sound.same (State.Kept.core (by assumption) _)
      | with_reducible apply State.Kept.foldl | with_reducible refine State.Kept.of_fst (by assumption) ?_ | split
      | dsimp +zetaDelta only

theorem State.refuse_kept (h : s.Kept p) (a1 a2 a3 a4) : (State.refuse s a1 a2 a3 a4).Kept p := by
  unfold State.refuse
  repeat' first
      | with_reducible assumption | extract_lets | intro _ _ _ | intro _ _ | with_reducible apply State.fault_kept
      | with_reducible apply State.recordRefusal_kept | with_reducible apply State.Kept.foldl
      | with_reducible refine State.Kept.of_fst (by assumption) ?_ | split | dsimp +zetaDelta only

theorem State.memEcc_kept (h : s.Kept p) (a1 a2) : (State.memEcc s a1 a2).Kept p := by
  unfold State.memEcc
  repeat' first
      | with_reducible assumption | extract_lets | intro _ _ _ | intro _ _ | with_reducible apply State.logEvent_kept
      | with_reducible apply State.fault_kept | with_reducible apply State.Kept.onCore
      | with_reducible apply State.Kept.core | with_reducible exact Core.Sound.same (by assumption)
      | with_reducible exact Core.Sound.same (State.Kept.core (by assumption) _)
      | with_reducible apply State.Kept.foldl | with_reducible refine State.Kept.of_fst (by assumption) ?_ | split
      | dsimp +zetaDelta only

theorem State.forbid_kept (h : s.Kept p) (a1 a2) : (State.forbid s a1 a2).Kept p := by
  unfold State.forbid
  repeat' first
      | with_reducible assumption | extract_lets | intro _ _ _ | intro _ _ | with_reducible apply State.logEvent_kept
      | with_reducible apply State.fault_kept | with_reducible apply State.Kept.foldl
      | with_reducible refine State.Kept.of_fst (by assumption) ?_ | split | dsimp +zetaDelta only

theorem State.devFault_kept (h : s.Kept p) (a1 a2 a3) : (State.devFault s a1 a2 a3).Kept p := by
  unfold State.devFault
  repeat' first
      | with_reducible assumption | extract_lets | intro _ _ _ | intro _ _ | with_reducible apply State.fault_kept
      | with_reducible apply State.setFld_kept | with_reducible apply State.Kept.foldl
      | with_reducible refine State.Kept.of_fst (by assumption) ?_ | split | dsimp +zetaDelta only

theorem State.runOne_kept (h : s.Kept p) (i : Issue) (l : List Reg) {body : State → State} (hb : ∀ s : State, s.Kept
    p → (body s).Kept p) : (s.runOne i l body).Kept p := by
  have h1 := h.onCore i.core (f := fun k =>
    let k := if k.isSingle (s.core i.core).pc.toNat then k.countCorr (s.core i.core).pc.toNat else k
    { k with cycle := k.cycle + loadStall k l, lastLoad := none }) fun k hk => by
      dsimp only
      split
      · exact (hk.countCorr (s.core i.core).pc.toNat).same
      · exact hk.same
  unfold State.runOne
  extract_lets
  split
  · exact State.refuse_kept h _ _ _ _
  · split
    · exact State.memEcc_kept h _ _
    · split
      · exact hb _ (State.activity_kept h1 _)
      · exact State.fault_kept (State.activity_kept h1 _) _ _ _

theorem State.endStep_kept (h : s.Kept p) (a1) : (State.endStep s a1).Kept p := by
  unfold State.endStep
  repeat' first
      | with_reducible assumption | extract_lets | intro _ _ _ | intro _ _ | with_reducible apply State.Kept.onCore
      | with_reducible apply State.Kept.core | with_reducible exact Core.Sound.same (by assumption)
      | with_reducible exact Core.Sound.same (State.Kept.core (by assumption) _)
      | with_reducible apply State.Kept.foldl | with_reducible refine State.Kept.of_fst (by assumption) ?_ | split
      | dsimp +zetaDelta only

theorem State.issue_kept (h : s.Kept p) (i : Issue) (l : List Reg) {body : State → State} (hb : ∀ s : State, s.Kept
    p → (body s).Kept p) : (s.issue i l body).Kept p := by
  unfold State.issue
  split
  · exact State.endStep_kept (State.runOne_kept h i l hb) _
  · exact h

theorem State.retire_kept (h : s.Kept p) (c : CoreId) (n : Nat) : (s.retire c n).Kept p := by
  unfold State.retire
  exact h.onCore c fun k hk => { hk with pc := alignedWord_add hk.pc (by decide) }

theorem State.jump_kept (h : s.Kept p) (c : CoreId) {w : Word} (hw : alignedWord w) (n : Nat) : (s.jump c w n).Kept
    p := by
  unfold State.jump
  exact h.onCore c fun k hk => { hk with pc := hw }

theorem State.waitFor_kept (h : s.Kept p) (a1 a2 a3) : (State.waitFor s a1 a2 a3).Kept p := by
  unfold State.waitFor
  repeat' first
      | with_reducible assumption | extract_lets | intro _ _ _ | intro _ _ | with_reducible apply State.spend_kept
      | with_reducible apply State.Kept.onCore | with_reducible apply State.Kept.core
      | with_reducible exact Core.Sound.same (by assumption)
      | with_reducible exact Core.Sound.same (State.Kept.core (by assumption) _)
      | with_reducible apply State.Kept.foldl | with_reducible refine State.Kept.of_fst (by assumption) ?_ | split
      | dsimp +zetaDelta only

theorem State.waitReply_kept (h : s.Kept p) (a1) : (State.waitReply s a1).Kept p := by
  unfold State.waitReply
  repeat' first
      | with_reducible assumption | extract_lets | intro _ _ _ | intro _ _ | with_reducible apply State.waitFor_kept
      | with_reducible apply State.Kept.foldl | with_reducible refine State.Kept.of_fst (by assumption) ?_ | split
      | dsimp +zetaDelta only

theorem State.waitTimeout_kept (h : s.Kept p) (a1) : (State.waitTimeout s a1).Kept p := by
  unfold State.waitTimeout
  repeat' first
      | with_reducible assumption | extract_lets | intro _ _ _ | intro _ _
      | with_reducible apply State.Kept.onCore | with_reducible apply State.Kept.setCore
      | with_reducible apply Core.Sound.setReg | with_reducible apply State.Kept.core
      | with_reducible exact Core.Sound.same (by assumption)
      | with_reducible exact Core.Sound.same (State.Kept.core (by assumption) _)
      | with_reducible apply State.Kept.foldl | with_reducible refine State.Kept.of_fst (by assumption) ?_
      | split
      | (with_reducible refine State.Kept.record ?_; first | with_reducible assumption | split | with_reducible refine State.Kept.of_fst (by assumption) ?_)
      | dsimp +zetaDelta only

theorem State.waitRefuse_kept (h : s.Kept p) (a1 a2) : (State.waitRefuse s a1 a2).Kept p := by
  unfold State.waitRefuse
  repeat' first
      | with_reducible assumption | extract_lets | intro _ _ _ | intro _ _
      | with_reducible apply State.waitReply_kept | with_reducible apply State.waitTimeout_kept
      | with_reducible apply State.Kept.foldl | with_reducible refine State.Kept.of_fst (by assumption) ?_
      | split | dsimp +zetaDelta only

theorem State.clearEvents_kept (h : s.Kept p) (a1 a2) : (State.clearEvents s a1 a2).Kept p := by
  unfold State.clearEvents
  repeat' first
      | with_reducible assumption | extract_lets | intro _ _ _ | intro _ _ | with_reducible apply State.Kept.onCore
      | with_reducible apply State.Kept.core | with_reducible exact Core.Sound.same (by assumption)
      | with_reducible exact Core.Sound.same (State.Kept.core (by assumption) _)
      | with_reducible apply State.Kept.foldl | with_reducible refine State.Kept.of_fst (by assumption) ?_ | split
      | dsimp +zetaDelta only

theorem State.wake_kept (h : s.Kept p) (a1) : (State.wake s a1).Kept p := by
  unfold State.wake
  repeat' first
      | with_reducible assumption | extract_lets | intro _ _ _ | intro _ _ | with_reducible apply State.retire_kept
      | with_reducible apply State.setReg_kept | with_reducible apply State.setRun_kept
      | with_reducible apply State.clearEvents_kept | with_reducible apply State.Kept.foldl
      | with_reducible refine State.Kept.of_fst (by assumption) ?_ | split | dsimp +zetaDelta only

theorem State.wakeDeadline_kept (h : s.Kept p) (a1) : (State.wakeDeadline s a1).Kept p := by
  unfold State.wakeDeadline
  repeat' first
      | with_reducible assumption | extract_lets | intro _ _ _ | intro _ _ | with_reducible apply State.wake_kept
      | with_reducible apply State.retire_kept | with_reducible apply State.setReg_kept
      | with_reducible apply State.setRun_kept | with_reducible apply State.Kept.foldl
      | with_reducible refine State.Kept.of_fst (by assumption) ?_ | split | dsimp +zetaDelta only

theorem State.recvEvent_kept (h : s.Kept p) (a1 a2) : (State.recvEvent s a1 a2).Kept p := by
  unfold State.recvEvent
  repeat' first
      | with_reducible assumption | extract_lets | intro _ _ _ | intro _ _
      | with_reducible apply State.wake_kept | with_reducible apply State.Kept.onCore
      | with_reducible apply State.Kept.setCore | with_reducible apply Core.Sound.setReg
      | with_reducible apply State.Kept.core | with_reducible exact Core.Sound.same (by assumption)
      | with_reducible exact Core.Sound.same (State.Kept.core (by assumption) _)
      | with_reducible apply State.Kept.foldl | with_reducible refine State.Kept.of_fst (by assumption) ?_
      | split
      | (with_reducible refine State.Kept.record ?_; first | with_reducible assumption | split | with_reducible apply State.wake_kept | with_reducible refine State.Kept.of_fst (by assumption) ?_)
      | dsimp +zetaDelta only

theorem State.fireTimer_kept (h : s.Kept p) (a1) : (State.fireTimer s a1).Kept p := by
  unfold State.fireTimer
  repeat' first
      | with_reducible assumption | extract_lets | intro _ _ _ | intro _ _
      | with_reducible apply State.recvEvent_kept | with_reducible apply State.Kept.setCore
      | with_reducible apply State.Kept.core | with_reducible exact Core.Sound.same (by assumption)
      | with_reducible exact Core.Sound.same (State.Kept.core (by assumption) _)
      | with_reducible apply State.Kept.foldl | with_reducible refine State.Kept.of_fst (by assumption) ?_ | split
      | dsimp +zetaDelta only

theorem State.readSpecial_kept {t : State} {x : Word} {a1 a2} (e : (s.readSpecial a1 a2) = some (t, x)) (h : s.Kept
    p) : t.Kept p := by
  unfold State.readSpecial at e
  split at e <;> first | (simp only [Option.some.injEq, Prod.mk.injEq] at e; obtain ⟨e, -⟩ := e; subst e; first | exact h | exact h.setCore ((h.core _).same) _) | (split at e <;> simp only [Option.some.injEq, Prod.mk.injEq, reduceCtorEq] at e; obtain ⟨e, -⟩ := e; subst e; exact h)

theorem State.writeSpecial_kept {t : State} {a1 a2 a3} (e : (s.writeSpecial a1 a2 a3) = some t) (h : s.Kept p) :
    t.Kept p := by
  have hk := h.core a1
  unfold State.writeSpecial at e
  split at e
  case h_13 =>
    split at e
    · split at e <;> (simp only [Option.some.injEq] at e; subst e; first | exact h | exact h.setCore hk.same _)
    · simp at e
  all_goals simp only [Option.some.injEq] at e; subst e
  · refine h.setCore ?_ _; exact { hk with psr := specialPsr_reserved _ _ }
  · refine h.setCore ?_ _; exact { hk with epsr := specialEpsr_reserved _ }
  · refine h.setCore ?_ _; exact { hk with epc := alignedWord_mask _ }
  · exact h
  · exact h
  · refine h.setCore ?_ _; exact { hk with fvec := alignedWord_mask _ }
  · refine h.setCore ?_ _; exact { hk with splim := alignedWord_mask _ }
  · exact State.clearEvents_kept h _ _
  · exact h.setCore hk.same _
  all_goals exact h

theorem State.onQty_kept (h : s.Kept p) (a1) : (State.onQty s a1).Kept p := by
  unfold State.onQty
  repeat' first
      | with_reducible assumption | extract_lets | intro _ _ _ | intro _ _ | with_reducible apply State.Kept.foldl
      | with_reducible refine State.Kept.of_fst (by assumption) ?_ | split
      | (with_reducible refine State.Kept.record ?_; first | with_reducible assumption | split | with_reducible refine State.Kept.of_fst (by assumption) ?_)
      | dsimp +zetaDelta only

theorem State.setConduit_kept (h : s.Kept p) (a1 a2) : (State.setConduit s a1 a2).Kept p := by
  unfold State.setConduit
  repeat' first
      | with_reducible assumption | extract_lets | intro _ _ _ | intro _ _ | with_reducible apply State.onQty_kept
      | with_reducible apply State.Kept.foldl | with_reducible refine State.Kept.of_fst (by assumption) ?_ | split
      | dsimp +zetaDelta only

theorem State.takeCfg_kept (h : s.Kept p) (a1) : (State.takeCfg s a1).Kept p := by
  unfold State.takeCfg
  repeat' first
      | with_reducible assumption | extract_lets | intro _ _ _ | intro _ _
      | with_reducible apply State.setConduit_kept | with_reducible apply State.Kept.foldl
      | with_reducible refine State.Kept.of_fst (by assumption) ?_ | split
      | (with_reducible refine State.Kept.record ?_; first | with_reducible assumption | split | with_reducible apply State.setConduit_kept | with_reducible refine State.Kept.of_fst (by assumption) ?_)
      | dsimp +zetaDelta only

theorem State.xhfSync_kept (h : s.Kept p) : (State.xhfSync s).Kept p := by
  unfold State.xhfSync
  repeat' first
      | with_reducible assumption | extract_lets | intro _ _ _ | intro _ _ | with_reducible apply State.setFlag_kept
      | with_reducible apply State.onCrypt_kept | with_reducible apply State.Kept.foldl
      | with_reducible refine State.Kept.of_fst (by assumption) ?_ | split | dsimp +zetaDelta only

theorem State.onIsles_kept (h : s.Kept p) (a1) : (State.onIsles s a1).Kept p := by
  unfold State.onIsles
  repeat' first
      | with_reducible assumption | extract_lets | intro _ _ _ | intro _ _ | with_reducible apply State.Kept.foldl
      | with_reducible refine State.Kept.of_fst (by assumption) ?_ | split
      | (with_reducible refine State.Kept.record ?_; first | with_reducible assumption | split | with_reducible refine State.Kept.of_fst (by assumption) ?_)
      | dsimp +zetaDelta only

theorem State.setIsle_kept (h : s.Kept p) (a1 a2) : (State.setIsle s a1 a2).Kept p := by
  unfold State.setIsle
  repeat' first
      | with_reducible assumption | extract_lets | intro _ _ _ | intro _ _ | with_reducible apply State.onIsles_kept
      | with_reducible apply State.Kept.foldl | with_reducible refine State.Kept.of_fst (by assumption) ?_ | split
      | dsimp +zetaDelta only

theorem State.setCur_kept (h : s.Kept p) (a1 a2) : (State.setCur s a1 a2).Kept p := by
  unfold State.setCur
  repeat' first
      | with_reducible assumption | extract_lets | intro _ _ _ | intro _ _ | with_reducible apply State.setIsle_kept
      | with_reducible apply State.Kept.foldl | with_reducible refine State.Kept.of_fst (by assumption) ?_ | split
      | dsimp +zetaDelta only

theorem State.isleSync_kept (h : s.Kept p) (a1) : (State.isleSync s a1).Kept p := by
  unfold State.isleSync
  repeat' first
      | with_reducible assumption | extract_lets | intro _ _ _ | intro _ _ | with_reducible apply State.xhfSync_kept
      | with_reducible apply State.setFlag_kept | with_reducible apply State.Kept.foldl
      | with_reducible refine State.Kept.of_fst (by assumption) ?_ | split | dsimp +zetaDelta only

theorem State.emit_kept (h : s.Kept p) (a1 a2) : (State.emit s a1 a2).Kept p := by
  unfold State.emit
  repeat' first
      | with_reducible assumption | extract_lets | intro _ _ _ | intro _ _ | with_reducible apply State.setIsle_kept
      | with_reducible apply State.Kept.foldl | with_reducible refine State.Kept.of_fst (by assumption) ?_ | split
      | dsimp +zetaDelta only

theorem State.refuseShots_kept (h : s.Kept p) (a1 a2 a3 a4) : (State.refuseShots s a1 a2 a3 a4).Kept p := by
  unfold State.refuseShots
  repeat' first
      | with_reducible assumption | extract_lets | intro _ _ _ | intro _ _ | with_reducible apply State.emit_kept
      | with_reducible apply State.Kept.foldl | with_reducible refine State.Kept.of_fst (by assumption) ?_ | split
      | dsimp +zetaDelta only

theorem State.refuseLatched_kept (h : s.Kept p) (a1) : (State.refuseLatched s a1).Kept p := by
  unfold State.refuseLatched
  repeat' first
      | with_reducible assumption | extract_lets | intro _ _ _ | intro _ _ | with_reducible apply State.setIsle_kept
      | with_reducible apply State.refuseShots_kept | with_reducible apply State.Kept.each
      | with_reducible apply State.Kept.foldl | with_reducible refine State.Kept.of_fst (by assumption) ?_ | split
      | dsimp +zetaDelta only

theorem State.fallRefuse_kept (h : s.Kept p) (a1) : (State.fallRefuse s a1).Kept p := by
  unfold State.fallRefuse
  repeat' first
      | with_reducible assumption | extract_lets | intro _ _ _ | intro _ _
      | with_reducible apply State.refuseLatched_kept | with_reducible apply State.Kept.foldl
      | with_reducible refine State.Kept.of_fst (by assumption) ?_ | split | dsimp +zetaDelta only

theorem State.isleFault_kept (h : s.Kept p) (a1 a2 a3) : (State.isleFault s a1 a2 a3).Kept p := by
  unfold State.isleFault
  repeat' first
      | with_reducible assumption | extract_lets | intro _ _ _ | intro _ _ | with_reducible apply State.setFlag_kept
      | with_reducible apply State.raiseEvent_kept | with_reducible apply State.setFld_kept
      | with_reducible apply State.Kept.foldl | with_reducible refine State.Kept.of_fst (by assumption) ?_ | split
      | dsimp +zetaDelta only

theorem State.setStreams_kept (h : s.Kept p) (a1 a2) : (State.setStreams s a1 a2).Kept p := by
  unfold State.setStreams
  repeat' first
      | with_reducible assumption | extract_lets | intro _ _ _ | intro _ _ | with_reducible apply State.setFld_kept
      | with_reducible apply State.setFlag_kept | with_reducible apply State.Kept.foldl
      | with_reducible refine State.Kept.of_fst (by assumption) ?_ | split
      | (with_reducible refine State.Kept.record ?_; first | with_reducible assumption | split | with_reducible apply State.setFld_kept | with_reducible apply State.setFlag_kept | with_reducible refine State.Kept.of_fst (by assumption) ?_)
      | dsimp +zetaDelta only

theorem State.abandon_kept (h : s.Kept p) (a1 a2) : (State.abandon s a1 a2).Kept p := by
  unfold State.abandon
  repeat' first
      | with_reducible assumption | extract_lets | intro _ _ _ | intro _ _
      | with_reducible apply State.onIsles_kept | with_reducible apply State.setStreams_kept
      | with_reducible apply State.Kept.each | with_reducible apply State.Kept.foldl
      | with_reducible refine State.Kept.of_fst (by assumption) ?_ | split
      | (with_reducible refine State.Kept.record ?_; first | with_reducible assumption | split | with_reducible apply State.onIsles_kept | with_reducible apply State.setStreams_kept | with_reducible apply State.Kept.each | with_reducible refine State.Kept.of_fst (by assumption) ?_)
      | dsimp +zetaDelta only

theorem State.tokenDone_kept (h : s.Kept p) (a1) : (State.tokenDone s a1).Kept p := by
  unfold State.tokenDone
  repeat' first
      | with_reducible assumption | extract_lets | intro _ _ _ | intro _ _
      | with_reducible apply State.onIsles_kept | with_reducible apply State.Kept.foldl
      | with_reducible refine State.Kept.of_fst (by assumption) ?_ | split
      | (with_reducible refine State.Kept.record ?_; first | with_reducible assumption | split | with_reducible apply State.onIsles_kept | with_reducible refine State.Kept.of_fst (by assumption) ?_)
      | dsimp +zetaDelta only

theorem State.withdraw_kept (h : s.Kept p) (a1) : (State.withdraw s a1).Kept p := by
  unfold State.withdraw
  repeat' first
      | with_reducible assumption | extract_lets | intro _ _ _ | intro _ _ | with_reducible apply State.onIsles_kept
      | with_reducible apply State.Kept.foldl | with_reducible refine State.Kept.of_fst (by assumption) ?_ | split
      | dsimp +zetaDelta only

theorem State.failShot_kept (h : s.Kept p) (a1 a2 a3 a4 a5 a6) : (State.failShot s a1 a2 a3 a4 a5 a6).Kept p := by
  unfold State.failShot
  repeat' first
      | with_reducible assumption | extract_lets | intro _ _ _ | intro _ _
      | with_reducible apply State.setCur_kept | with_reducible apply State.emit_kept
      | with_reducible apply State.abandon_kept | with_reducible apply State.tokenDone_kept
      | with_reducible apply State.withdraw_kept | with_reducible apply State.Kept.foldl
      | with_reducible refine State.Kept.of_fst (by assumption) ?_ | split
      | (with_reducible refine State.Kept.record ?_; first | with_reducible assumption | split | with_reducible apply State.setCur_kept | with_reducible apply State.emit_kept | with_reducible apply State.abandon_kept | with_reducible apply State.tokenDone_kept | with_reducible apply State.withdraw_kept | with_reducible refine State.Kept.of_fst (by assumption) ?_)
      | dsimp +zetaDelta only

theorem State.failPair_kept (h : s.Kept p) (a1 a2 a3 a4) : (State.failPair s a1 a2 a3 a4).Kept p := by
  unfold State.failPair
  repeat' first
      | with_reducible assumption | extract_lets | intro _ _ _ | intro _ _ | with_reducible apply State.failShot_kept
      | with_reducible apply State.Kept.foldl | with_reducible refine State.Kept.of_fst (by assumption) ?_ | split
      | dsimp +zetaDelta only

theorem State.unclaim_kept (h : s.Kept p) (a1) : (State.unclaim s a1).Kept p := by
  unfold State.unclaim
  repeat' first
      | with_reducible assumption | extract_lets | intro _ _ _ | intro _ _ | with_reducible apply State.isleSync_kept
      | with_reducible apply State.fallRefuse_kept | with_reducible apply State.setFlag_kept
      | with_reducible apply State.Kept.foldl | with_reducible refine State.Kept.of_fst (by assumption) ?_ | split
      | dsimp +zetaDelta only

theorem State.agc_kept (h : s.Kept p) (a1) : (State.agc s a1).Kept p := by
  unfold State.agc
  repeat' first
      | with_reducible assumption | extract_lets | intro _ _ _ | intro _ _ | with_reducible apply State.setFld_kept
      | with_reducible apply State.Kept.foldl | with_reducible refine State.Kept.of_fst (by assumption) ?_ | split
      | dsimp +zetaDelta only

theorem State.endSet_kept (h : s.Kept p) (a1) : (State.endSet s a1).Kept p := by
  unfold State.endSet
  repeat' first
      | with_reducible assumption | extract_lets | intro _ _ _ | intro _ _ | with_reducible apply State.withdraw_kept
      | with_reducible apply State.tokenDone_kept | with_reducible apply State.spend_kept
      | with_reducible apply State.agc_kept | with_reducible apply State.setFld_kept
      | with_reducible apply State.setIsle_kept | with_reducible apply State.unclaim_kept
      | with_reducible apply State.isleSync_kept | with_reducible apply State.fallRefuse_kept
      | with_reducible apply State.Kept.foldl | with_reducible refine State.Kept.of_fst (by assumption) ?_ | split
      | dsimp +zetaDelta only

theorem State.nextShot_kept (h : s.Kept p) (a1) : (State.nextShot s a1).Kept p := by
  unfold State.nextShot
  repeat' first
      | with_reducible assumption | extract_lets | intro _ _ _ | intro _ _ | with_reducible apply State.setIsle_kept
      | with_reducible apply State.Kept.foldl | with_reducible refine State.Kept.of_fst (by assumption) ?_ | split
      | dsimp +zetaDelta only

theorem State.sendItem_kept (h : s.Kept p) (a1 a2 a3 a4) : (State.sendItem s a1 a2 a3 a4).Kept p := by
  unfold State.sendItem
  repeat' first
      | with_reducible assumption | extract_lets | intro _ _ _ | intro _ _ | with_reducible apply State.send_kept
      | with_reducible apply State.Kept.foldl | with_reducible refine State.Kept.of_fst (by assumption) ?_ | split
      | dsimp +zetaDelta only

theorem State.flush_kept (h : s.Kept p) (a1 n) : (s.flush a1 n).Kept p := by
  induction n generalizing s with
  | zero => exact h
  | succ k ih =>
    unfold State.flush
    repeat' first
        | with_reducible assumption | extract_lets | intro _ _ _ | intro _ _ | with_reducible apply ih
        | with_reducible apply State.setIsle_kept | with_reducible apply State.sendQueue_kept
        | with_reducible apply State.sendItem_kept | with_reducible apply State.nextShot_kept
        | with_reducible apply State.endSet_kept | with_reducible apply State.Kept.putReg
        | with_reducible apply State.Kept.each | with_reducible apply State.Kept.foldl
        | with_reducible apply State.Kept.onCore | with_reducible apply State.Kept.setCore
        | with_reducible apply State.Kept.core | with_reducible exact Core.Sound.same (by assumption)
        | with_reducible exact Core.Sound.same (State.Kept.core (by assumption) _)
        | with_reducible refine State.Kept.of_fst (by assumption) ?_ | split | dsimp +zetaDelta only

theorem State.isleRun_kept (h : s.Kept p) (a1) : (State.isleRun s a1).Kept p := by
  unfold State.isleRun
  repeat' first
      | with_reducible assumption | extract_lets | intro _ _ _ | intro _ _ | with_reducible apply State.isleSync_kept
      | with_reducible apply State.flush_kept | with_reducible apply State.Kept.foldl
      | with_reducible refine State.Kept.of_fst (by assumption) ?_ | split | dsimp +zetaDelta only

theorem State.recvShot_kept (h : s.Kept p) (a1 a2) : (State.recvShot s a1 a2).Kept p := by
  unfold State.recvShot
  repeat' first
      | with_reducible assumption | extract_lets | intro _ _ _ | intro _ _ | with_reducible apply State.isleRun_kept
      | with_reducible apply State.refuseShots_kept | with_reducible apply State.isleSync_kept
      | with_reducible apply State.setIsle_kept | with_reducible apply State.Kept.foldl
      | with_reducible refine State.Kept.of_fst (by assumption) ?_ | split | dsimp +zetaDelta only

theorem State.countDelay_kept (h : s.Kept p) (a1 a2 a3) : (State.countDelay s a1 a2 a3).Kept p := by
  unfold State.countDelay
  repeat' first
      | with_reducible assumption | extract_lets | intro _ _ _ | intro _ _ | with_reducible apply State.setCur_kept
      | with_reducible apply State.bump_kept | with_reducible apply State.Kept.foldl
      | with_reducible refine State.Kept.of_fst (by assumption) ?_ | split | dsimp +zetaDelta only

theorem State.tokenSync_kept (h : s.Kept p) : (State.tokenSync s).Kept p := by
  unfold State.tokenSync
  repeat' first
      | with_reducible assumption | extract_lets | intro _ _ _ | intro _ _
      | with_reducible apply State.setFld_kept | with_reducible apply State.Kept.foldl
      | with_reducible refine State.Kept.of_fst (by assumption) ?_ | split
      | (with_reducible refine State.Kept.record ?_; first | with_reducible assumption | split | with_reducible apply State.setFld_kept | with_reducible refine State.Kept.of_fst (by assumption) ?_)
      | dsimp +zetaDelta only

theorem State.tokenHeld_kept (h : s.Kept p) (a1) : (State.tokenHeld s a1).Kept p := by
  unfold State.tokenHeld
  repeat' first
      | with_reducible assumption | extract_lets | intro _ _ _ | intro _ _
      | with_reducible apply State.onIsles_kept | with_reducible apply State.tokenSync_kept
      | with_reducible apply State.Kept.foldl | with_reducible refine State.Kept.of_fst (by assumption) ?_
      | split
      | (with_reducible refine State.Kept.record ?_; first | with_reducible assumption | split | with_reducible apply State.onIsles_kept | with_reducible apply State.tokenSync_kept | with_reducible refine State.Kept.of_fst (by assumption) ?_)
      | dsimp +zetaDelta only

theorem State.phaseStep_kept (h : s.Kept p) (a1 a2 a3) : (State.phaseStep s a1 a2 a3).Kept p := by
  unfold State.phaseStep
  repeat' first
      | with_reducible assumption | extract_lets | intro _ _ _ | intro _ _ | with_reducible apply State.setCur_kept
      | with_reducible apply State.Kept.foldl | with_reducible refine State.Kept.of_fst (by assumption) ?_ | split
      | dsimp +zetaDelta only

theorem State.overload_kept (h : s.Kept p) (a1 a2) : (State.overload s a1 a2).Kept p := by
  unfold State.overload
  repeat' first
      | with_reducible assumption | extract_lets | intro _ _ _ | intro _ _
      | with_reducible apply State.setFld_kept | with_reducible apply State.setFlag_kept
      | with_reducible apply State.bump_kept | with_reducible apply State.Kept.foldl
      | with_reducible refine State.Kept.of_fst (by assumption) ?_ | split | dsimp +zetaDelta only

theorem State.overloads_kept (h : s.Kept p) (a1 a2) : (State.overloads s a1 a2).Kept p := by
  unfold State.overloads
  repeat' first
      | with_reducible assumption | extract_lets | intro _ _ _ | intro _ _
      | with_reducible apply State.overload_kept | with_reducible apply State.Kept.each
      | with_reducible apply State.Kept.foldl | with_reducible refine State.Kept.of_fst (by assumption) ?_
      | split | dsimp +zetaDelta only

theorem State.finishShot_kept (h : s.Kept p) (a1 a2 a3 a4 a5) : (State.finishShot s a1 a2 a3 a4 a5).Kept p := by
  unfold State.finishShot
  repeat' first
      | with_reducible assumption | extract_lets | intro _ _ _ | intro _ _ | with_reducible apply State.onIsles_kept
      | with_reducible apply State.isleFault_kept | with_reducible apply State.setFld_kept
      | with_reducible apply State.spend_kept | with_reducible apply State.setCur_kept
      | with_reducible apply State.isleRun_kept | with_reducible apply State.emit_kept
      | with_reducible apply State.Kept.foldl | with_reducible refine State.Kept.of_fst (by assumption) ?_ | split
      | dsimp +zetaDelta only

theorem State.recvLag_kept (h : s.Kept p) (a1 a2 a3) : (State.recvLag s a1 a2 a3).Kept p := by
  unfold State.recvLag
  repeat' first
      | with_reducible assumption | extract_lets | intro _ _ _ | intro _ _
      | with_reducible apply State.finishShot_kept | with_reducible apply State.Kept.foldl
      | with_reducible refine State.Kept.of_fst (by assumption) ?_ | split | dsimp +zetaDelta only

theorem State.ignoreReplies_kept (h : s.Kept p) (a1 a2) : (State.ignoreReplies s a1 a2).Kept p := by
  unfold State.ignoreReplies
  repeat' first
      | with_reducible assumption | extract_lets | intro _ _ _ | intro _ _ | with_reducible apply State.Kept.foldl
      | with_reducible refine State.Kept.of_fst (by assumption) ?_ | split
      | (with_reducible refine State.Kept.record ?_; first | with_reducible assumption | split | with_reducible refine State.Kept.of_fst (by assumption) ?_)
      | dsimp +zetaDelta only

theorem State.recvReply_kept (h : s.Kept p) (a1 a2) : (State.recvReply s a1 a2).Kept p := by
  unfold State.recvReply
  repeat' first
      | with_reducible assumption | extract_lets | intro _ _ _ | intro _ _
      | with_reducible apply State.setIsle_kept | with_reducible apply State.isleRun_kept
      | with_reducible apply State.Kept.foldl | with_reducible refine State.Kept.of_fst (by assumption) ?_
      | split
      | (with_reducible refine State.Kept.record ?_; first | with_reducible assumption | split | with_reducible apply State.setIsle_kept | with_reducible apply State.isleRun_kept | with_reducible refine State.Kept.of_fst (by assumption) ?_)
      | dsimp +zetaDelta only

theorem State.rtdRecord_kept (h : s.Kept p) (a1 a2 a3 a4 a5 a6 a7) : (State.rtdRecord s a1 a2 a3 a4 a5 a6 a7).Kept p
    := by
  unfold State.rtdRecord
  repeat' first
      | with_reducible assumption | extract_lets | intro _ _ _ | intro _ _ | with_reducible apply State.setCur_kept
      | with_reducible apply State.isleRun_kept | with_reducible apply State.emit_kept
      | with_reducible apply State.Kept.foldl | with_reducible refine State.Kept.of_fst (by assumption) ?_ | split
      | dsimp +zetaDelta only

theorem State.storePortmode_kept (h : s.Kept p) (a1 a2) : (State.storePortmode s a1 a2).Kept p := by
  unfold State.storePortmode
  repeat' first
      | with_reducible assumption | extract_lets | intro _ _ _ | intro _ _ | with_reducible apply State.setIsle_kept
      | with_reducible apply State.setFld_kept | with_reducible apply State.Kept.foldl
      | with_reducible refine State.Kept.of_fst (by assumption) ?_ | split | dsimp +zetaDelta only

theorem State.storeDescriptor_kept (h : s.Kept p) (a1 a2 a3 a4) : (State.storeDescriptor s a1 a2 a3 a4).Kept p := by
  unfold State.storeDescriptor
  repeat' first
      | with_reducible assumption | extract_lets | intro _ _ _ | intro _ _ | with_reducible apply State.storeReg_kept
      | with_reducible apply State.setFlag_kept | with_reducible apply State.setFld_kept
      | with_reducible apply State.onIsles_kept | with_reducible apply State.Kept.foldl
      | with_reducible refine State.Kept.of_fst (by assumption) ?_ | split | dsimp +zetaDelta only

theorem State.isleFollow_kept (h : s.Kept p) (a1) : (State.isleFollow s a1).Kept p := by
  unfold State.isleFollow
  repeat' first
      | with_reducible assumption | extract_lets | intro _ _ _ | intro _ _
      | with_reducible apply State.enableActs_kept | with_reducible apply State.isleRun_kept
      | with_reducible apply State.fallRefuse_kept | with_reducible apply State.Kept.foldl
      | with_reducible refine State.Kept.of_fst (by assumption) ?_ | split | dsimp +zetaDelta only

theorem State.storeIsleCtl_kept (h : s.Kept p) (a1 a2 a3) : (State.storeIsleCtl s a1 a2 a3).Kept p := by
  unfold State.storeIsleCtl
  repeat' first
      | with_reducible assumption | extract_lets | intro _ _ _ | intro _ _
      | with_reducible apply State.isleFollow_kept | with_reducible apply State.storeReg_kept
      | with_reducible apply State.Kept.foldl | with_reducible refine State.Kept.of_fst (by assumption) ?_ | split
      | dsimp +zetaDelta only

theorem State.islesFollow_kept (h : s.Kept p) : (State.islesFollow s).Kept p := by
  unfold State.islesFollow
  repeat' first
      | with_reducible assumption | extract_lets | intro _ _ _ | intro _ _
      | with_reducible apply State.isleFollow_kept | with_reducible apply State.Kept.each
      | with_reducible apply State.Kept.foldl | with_reducible refine State.Kept.of_fst (by assumption) ?_ | split
      | dsimp +zetaDelta only

theorem State.isleRisen_kept (h : s.Kept p) (a1) : (State.isleRisen s a1).Kept p := by
  unfold State.isleRisen
  repeat' first
      | with_reducible assumption | extract_lets | intro _ _ _ | intro _ _ | with_reducible apply State.onIsles_kept
      | with_reducible apply State.Kept.foldl | with_reducible refine State.Kept.of_fst (by assumption) ?_ | split
      | dsimp +zetaDelta only

theorem State.islesXhfLost_kept (h : s.Kept p) : (State.islesXhfLost s).Kept p := by
  unfold State.islesXhfLost
  repeat' first
      | with_reducible assumption | extract_lets | intro _ _ _ | intro _ _
      | with_reducible apply State.spend_kept | with_reducible apply State.failPair_kept
      | with_reducible apply State.isleRun_kept | with_reducible apply State.countDelay_kept
      | with_reducible apply State.Kept.each | with_reducible apply State.Kept.foldl
      | with_reducible refine State.Kept.of_fst (by assumption) ?_ | split
      | (with_reducible refine State.Kept.record ?_; first | with_reducible assumption | split | with_reducible apply State.spend_kept | with_reducible apply State.failPair_kept | with_reducible apply State.isleRun_kept | with_reducible apply State.countDelay_kept | with_reducible apply State.Kept.each | with_reducible refine State.Kept.of_fst (by assumption) ?_)
      | dsimp +zetaDelta only

theorem State.islesLost_kept (h : s.Kept p) : (State.islesLost s).Kept p := by
  unfold State.islesLost
  repeat' first
      | with_reducible assumption | extract_lets | intro _ _ _ | intro _ _ | with_reducible apply State.Kept.foldl
      | with_reducible refine State.Kept.of_fst (by assumption) ?_ | split
      | (with_reducible refine State.Kept.record ?_; first | with_reducible assumption | split | with_reducible refine State.Kept.of_fst (by assumption) ?_)
      | dsimp +zetaDelta only

theorem State.onCim_kept (h : s.Kept p) (a1) : (State.onCim s a1).Kept p := by
  unfold State.onCim
  repeat' first
      | with_reducible assumption | extract_lets | intro _ _ _ | intro _ _ | with_reducible apply State.Kept.foldl
      | with_reducible refine State.Kept.of_fst (by assumption) ?_ | split
      | (with_reducible refine State.Kept.record ?_; first | with_reducible assumption | split | with_reducible refine State.Kept.of_fst (by assumption) ?_)
      | dsimp +zetaDelta only

theorem State.cimEvent_kept (h : s.Kept p) (a1) : (State.cimEvent s a1).Kept p := by
  unfold State.cimEvent
  repeat' first
      | with_reducible assumption | extract_lets | intro _ _ _ | intro _ _
      | with_reducible apply State.raiseEvent_kept | with_reducible apply State.Kept.foldl
      | with_reducible refine State.Kept.of_fst (by assumption) ?_ | split | dsimp +zetaDelta only

theorem State.tileSync_kept (h : s.Kept p) (a1) : (State.tileSync s a1).Kept p := by
  unfold State.tileSync
  repeat' first
      | with_reducible assumption | extract_lets | intro _ _ _ | intro _ _ | with_reducible apply State.setFlag_kept
      | with_reducible apply State.setFld_kept | with_reducible apply State.Kept.foldl
      | with_reducible refine State.Kept.of_fst (by assumption) ?_ | split | dsimp +zetaDelta only

theorem State.pendSync_kept (h : s.Kept p) (a1) : (State.pendSync s a1).Kept p := by
  unfold State.pendSync
  repeat' first
      | with_reducible assumption | extract_lets | intro _ _ _ | intro _ _ | with_reducible apply State.setFld_kept
      | with_reducible apply State.Kept.foldl | with_reducible refine State.Kept.of_fst (by assumption) ?_ | split
      | dsimp +zetaDelta only

theorem State.wroteRow_kept (h : s.Kept p) (a1 a2) : (State.wroteRow s a1 a2).Kept p := by
  unfold State.wroteRow
  repeat' first
      | with_reducible assumption | extract_lets | intro _ _ _ | intro _ _ | with_reducible apply State.onCim_kept
      | with_reducible apply State.tileSync_kept | with_reducible apply State.Kept.foldl
      | with_reducible refine State.Kept.of_fst (by assumption) ?_ | split | dsimp +zetaDelta only

theorem State.poison_kept (h : s.Kept p) (a1) : (State.poison s a1).Kept p := by
  unfold State.poison
  repeat' first
      | with_reducible assumption | extract_lets | intro _ _ _ | intro _ _ | with_reducible apply State.onCim_kept
      | with_reducible apply State.tileSync_kept | with_reducible apply State.setFld_kept
      | with_reducible apply State.setFlag_kept | with_reducible apply State.cimEvent_kept
      | with_reducible apply State.logEvent_kept | with_reducible apply State.Kept.foldl
      | with_reducible refine State.Kept.of_fst (by assumption) ?_ | split | dsimp +zetaDelta only

theorem State.correctRow_kept (h : s.Kept p) (a1) : (State.correctRow s a1).Kept p := by
  unfold State.correctRow
  repeat' first
      | with_reducible assumption | extract_lets | intro _ _ _ | intro _ _ | with_reducible apply State.bump_kept
      | with_reducible apply State.onCim_kept | with_reducible apply State.Kept.foldl
      | with_reducible refine State.Kept.of_fst (by assumption) ?_ | split | dsimp +zetaDelta only

theorem State.copyRow_kept (h : s.Kept p) (a1) : (State.copyRow s a1).Kept p := by
  unfold State.copyRow
  repeat' first
      | with_reducible assumption | extract_lets | intro _ _ _ | intro _ _ | with_reducible apply State.poison_kept
      | with_reducible apply State.correctRow_kept | with_reducible apply State.onCim_kept
      | with_reducible apply State.Kept.foldl | with_reducible refine State.Kept.of_fst (by assumption) ?_ | split
      | dsimp +zetaDelta only

theorem State.copyPending_kept (h : s.Kept p) (a1) : (State.copyPending s a1).Kept p := by
  unfold State.copyPending
  repeat' first
      | with_reducible assumption | extract_lets | intro _ _ _ | intro _ _ | with_reducible apply State.onCim_kept
      | with_reducible apply State.pendSync_kept | with_reducible apply State.copyRow_kept
      | with_reducible apply State.Kept.each | with_reducible apply State.Kept.foldl
      | with_reducible refine State.Kept.of_fst (by assumption) ?_ | split | dsimp +zetaDelta only

theorem State.storeGolden_kept (h : s.Kept p) (a1 a2 a3) : (State.storeGolden s a1 a2 a3).Kept p := by
  unfold State.storeGolden
  repeat' first
      | with_reducible assumption | extract_lets | intro _ _ _ | intro _ _ | with_reducible apply State.onCim_kept
      | with_reducible apply State.pendSync_kept | with_reducible apply State.wroteRow_kept
      | with_reducible apply State.Kept.foldl | with_reducible refine State.Kept.of_fst (by assumption) ?_ | split
      | dsimp +zetaDelta only

theorem State.loadGolden_kept (h : s.Kept p) (a1 a2) : (State.loadGolden s a1 a2).1.Kept p := by
  unfold State.loadGolden
  repeat' first
      | with_reducible assumption | extract_lets | intro _ _ _ | intro _ _ | with_reducible apply State.poison_kept
      | with_reducible apply State.bump_kept | with_reducible apply State.onCim_kept
      | with_reducible apply State.Kept.foldl | with_reducible refine State.Kept.of_fst (by assumption) ?_ | split
      | dsimp +zetaDelta only

theorem State.loadRow_kept (h : s.Kept p) (a1 a2) : (State.loadRow s a1 a2).Kept p := by
  unfold State.loadRow
  repeat' first
      | with_reducible assumption | extract_lets | intro _ _ _ | intro _ _ | with_reducible apply State.onCim_kept
      | with_reducible apply State.pendSync_kept | with_reducible apply State.wroteRow_kept
      | with_reducible apply State.Kept.foldl | with_reducible refine State.Kept.of_fst (by assumption) ?_ | split
      | dsimp +zetaDelta only

theorem State.touchTiles_kept (h : s.Kept p) (a1) : (State.touchTiles s a1).Kept p := by
  unfold State.touchTiles
  repeat' first
      | with_reducible assumption | extract_lets | intro _ _ _ | intro _ _ | with_reducible apply State.activity_kept
      | with_reducible apply State.setFld_kept | with_reducible apply State.Kept.each
      | with_reducible apply State.Kept.foldl | with_reducible refine State.Kept.of_fst (by assumption) ?_ | split
      | dsimp +zetaDelta only

theorem State.scanTiles_kept (h : s.Kept p) (a1 a2 a3) : (State.scanTiles s a1 a2 a3).Kept p := by
  unfold State.scanTiles
  repeat' first
      | with_reducible assumption | extract_lets | intro _ _ _ | intro _ _ | with_reducible apply State.bump_kept
      | with_reducible apply State.setFld_kept | with_reducible apply State.copyRow_kept
      | with_reducible apply State.Kept.each | with_reducible apply State.Kept.foldl
      | with_reducible refine State.Kept.of_fst (by assumption) ?_ | split | dsimp +zetaDelta only

theorem State.markScan_kept (h : s.Kept p) (a1 a2 a3) : (State.markScan s a1 a2 a3).Kept p := by
  unfold State.markScan
  repeat' first
      | with_reducible assumption | extract_lets | intro _ _ _ | intro _ _
      | with_reducible apply State.setFlag_kept | with_reducible apply State.onCim_kept
      | with_reducible apply State.cimEvent_kept | with_reducible apply State.Kept.foldl
      | with_reducible refine State.Kept.of_fst (by assumption) ?_ | split
      | (with_reducible refine State.Kept.record ?_; first | with_reducible assumption | split | with_reducible apply State.setFlag_kept | with_reducible apply State.onCim_kept | with_reducible apply State.cimEvent_kept | with_reducible refine State.Kept.of_fst (by assumption) ?_)
      | dsimp +zetaDelta only

theorem State.adaptWork_kept (h : s.Kept p) (a1 a2) : (State.adaptWork s a1 a2).Kept p := by
  unfold State.adaptWork
  repeat' first
      | with_reducible assumption | extract_lets | intro _ _ _ | intro _ _
      | with_reducible apply State.setFld_kept | with_reducible apply State.spend_kept
      | with_reducible apply State.onCim_kept | with_reducible apply State.Kept.foldl
      | with_reducible refine State.Kept.of_fst (by assumption) ?_ | split
      | (with_reducible refine State.Kept.record ?_; first | with_reducible assumption | split | with_reducible apply State.setFld_kept | with_reducible apply State.spend_kept | with_reducible apply State.onCim_kept | with_reducible refine State.Kept.of_fst (by assumption) ?_)
      | dsimp +zetaDelta only

theorem State.runScan_kept (h : s.Kept p) (a1 a2) : (State.runScan s a1 a2).Kept p := by
  unfold State.runScan
  repeat' first
      | with_reducible assumption | extract_lets | intro _ _ _ | intro _ _
      | with_reducible apply State.onCim_kept | with_reducible apply State.copyPending_kept
      | with_reducible apply State.scanTiles_kept | with_reducible apply State.markScan_kept
      | with_reducible apply State.adaptWork_kept | with_reducible apply State.Kept.foldl
      | with_reducible refine State.Kept.of_fst (by assumption) ?_ | split
      | (with_reducible refine State.Kept.record ?_; first | with_reducible assumption | split | with_reducible apply State.onCim_kept | with_reducible apply State.copyPending_kept | with_reducible apply State.scanTiles_kept | with_reducible apply State.markScan_kept | with_reducible apply State.adaptWork_kept | with_reducible refine State.Kept.of_fst (by assumption) ?_)
      | dsimp +zetaDelta only

theorem State.setScans_kept (h : s.Kept p) (a1 a2) : (State.setScans s a1 a2).Kept p := by
  unfold State.setScans
  repeat' first
      | with_reducible assumption | extract_lets | intro _ _ _ | intro _ _
      | with_reducible apply State.onCim_kept | with_reducible apply State.Kept.foldl
      | with_reducible refine State.Kept.of_fst (by assumption) ?_ | split
      | (with_reducible refine State.Kept.record ?_; first | with_reducible assumption | split | with_reducible apply State.onCim_kept | with_reducible refine State.Kept.of_fst (by assumption) ?_)
      | dsimp +zetaDelta only

theorem State.setEval_kept (h : s.Kept p) (a1 a2) : (State.setEval s a1 a2).Kept p := by
  unfold State.setEval
  repeat' first
      | with_reducible assumption | extract_lets | intro _ _ _ | intro _ _
      | with_reducible apply State.onCim_kept | with_reducible apply State.Kept.foldl
      | with_reducible refine State.Kept.of_fst (by assumption) ?_ | split
      | (with_reducible refine State.Kept.record ?_; first | with_reducible assumption | split | with_reducible apply State.onCim_kept | with_reducible refine State.Kept.of_fst (by assumption) ?_)
      | dsimp +zetaDelta only

theorem State.startEval_kept (h : s.Kept p) (a1 a2 a3) : (State.startEval s a1 a2 a3).Kept p := by
  unfold State.startEval
  repeat' first
      | with_reducible assumption | extract_lets | intro _ _ _ | intro _ _
      | with_reducible apply State.copyPending_kept | with_reducible apply State.setEval_kept
      | with_reducible apply State.Kept.foldl | with_reducible refine State.Kept.of_fst (by assumption) ?_
      | split | dsimp +zetaDelta only

theorem State.bankNext_kept (h : s.Kept p) (a1 n) : (State.bankNext s a1 n).Kept p := by
  induction n generalizing s a1 with
  | zero =>
    unfold State.bankNext
    repeat' first
        | with_reducible assumption | extract_lets | intro _ _ _ | intro _ _
        | with_reducible apply State.runScan_kept | with_reducible apply State.setScans_kept
        | with_reducible apply State.startEval_kept | with_reducible apply State.Kept.foldl
        | with_reducible refine State.Kept.of_fst (by assumption) ?_ | split
        | (with_reducible refine State.Kept.record ?_; first | with_reducible assumption | split | with_reducible apply State.runScan_kept | with_reducible apply State.setScans_kept | with_reducible apply State.startEval_kept | with_reducible refine State.Kept.of_fst (by assumption) ?_)
        | dsimp +zetaDelta only
  | succ k ih =>
    unfold State.bankNext
    repeat' first
        | with_reducible assumption | extract_lets | intro _ _ _ | intro _ _ | with_reducible apply ih
        | with_reducible apply State.runScan_kept | with_reducible apply State.setScans_kept
        | with_reducible apply State.startEval_kept | with_reducible apply State.Kept.foldl
        | with_reducible refine State.Kept.of_fst (by assumption) ?_ | split
        | (with_reducible refine State.Kept.record ?_; first | with_reducible assumption | split | with_reducible apply ih | with_reducible apply State.runScan_kept | with_reducible apply State.setScans_kept | with_reducible apply State.startEval_kept | with_reducible refine State.Kept.of_fst (by assumption) ?_)
        | dsimp +zetaDelta only

theorem State.bankRun_kept (h : s.Kept p) (a1) : (State.bankRun s a1).Kept p := by
  unfold State.bankRun
  repeat' first
      | with_reducible assumption | extract_lets | intro _ _ _ | intro _ _
      | with_reducible apply State.bankNext_kept | with_reducible apply State.Kept.foldl
      | with_reducible refine State.Kept.of_fst (by assumption) ?_ | split | dsimp +zetaDelta only

theorem State.scanDue_kept (h : s.Kept p) (a1 a2 a3 a4) : (State.scanDue s a1 a2 a3 a4).Kept p := by
  unfold State.scanDue
  repeat' first
      | with_reducible assumption | extract_lets | intro _ _ _ | intro _ _
      | with_reducible apply State.setScans_kept | with_reducible apply State.bankRun_kept
      | with_reducible apply State.Kept.foldl | with_reducible refine State.Kept.of_fst (by assumption) ?_
      | split | dsimp +zetaDelta only

theorem State.storeRefnow_kept (h : s.Kept p) (a1 a2 a3) : (State.storeRefnow s a1 a2 a3).Kept p := by
  unfold State.storeRefnow
  repeat' first
      | with_reducible assumption | extract_lets | intro _ _ _ | intro _ _
      | with_reducible apply State.scanDue_kept | with_reducible apply State.Kept.foldl
      | with_reducible refine State.Kept.of_fst (by assumption) ?_ | split | dsimp +zetaDelta only

theorem State.setHolder_kept (h : s.Kept p) (a1 a2) : (State.setHolder s a1 a2).Kept p := by
  unfold State.setHolder
  repeat' first
      | with_reducible assumption | extract_lets | intro _ _ _ | intro _ _ | with_reducible apply State.setFld_kept
      | with_reducible apply State.Kept.foldl | with_reducible refine State.Kept.of_fst (by assumption) ?_ | split
      | dsimp +zetaDelta only

theorem State.setPend_kept (h : s.Kept p) (a1 a2 a3) : (State.setPend s a1 a2 a3).Kept p := by
  unfold State.setPend
  repeat' first
      | with_reducible assumption | extract_lets | intro _ _ _ | intro _ _ | with_reducible apply State.setFld_kept
      | with_reducible apply State.setFlag_kept | with_reducible apply State.Kept.foldl
      | with_reducible refine State.Kept.of_fst (by assumption) ?_ | split | dsimp +zetaDelta only

theorem State.leaseApplies_kept (h : s.Kept p) (a1) : (State.leaseApplies s a1).Kept p := by
  unfold State.leaseApplies
  repeat' first
      | with_reducible assumption | extract_lets | intro _ _ _ | intro _ _ | with_reducible apply State.cimEvent_kept
      | with_reducible apply State.setFlag_kept | with_reducible apply State.setPend_kept
      | with_reducible apply State.setHolder_kept | with_reducible apply State.Kept.foldl
      | with_reducible refine State.Kept.of_fst (by assumption) ?_ | split | dsimp +zetaDelta only

theorem State.setAcks_kept (h : s.Kept p) (a1 a2) : (State.setAcks s a1 a2).Kept p := by
  unfold State.setAcks
  repeat' first
      | with_reducible assumption | extract_lets | intro _ _ _ | intro _ _
      | with_reducible apply State.onCim_kept | with_reducible apply State.Kept.foldl
      | with_reducible refine State.Kept.of_fst (by assumption) ?_ | split
      | (with_reducible refine State.Kept.record ?_; first | with_reducible assumption | split | with_reducible apply State.onCim_kept | with_reducible refine State.Kept.of_fst (by assumption) ?_)
      | dsimp +zetaDelta only

theorem State.leaseSync_kept (h : s.Kept p) (a1) : (State.leaseSync s a1).Kept p := by
  unfold State.leaseSync
  repeat' first
      | with_reducible assumption | extract_lets | intro _ _ _ | intro _ _
      | with_reducible apply State.leaseApplies_kept | with_reducible apply State.Kept.foldl
      | with_reducible refine State.Kept.of_fst (by assumption) ?_ | split | dsimp +zetaDelta only

theorem State.wipeFor_kept (h : s.Kept p) (a1 a2) : (State.wipeFor s a1 a2).Kept p := by
  unfold State.wipeFor
  repeat' first
      | with_reducible assumption | extract_lets | intro _ _ _ | intro _ _
      | with_reducible apply State.setHolder_kept | with_reducible apply State.setPend_kept
      | with_reducible apply State.Kept.foldl | with_reducible refine State.Kept.of_fst (by assumption) ?_ | split
      | dsimp +zetaDelta only

theorem State.leaseTake_kept (h : s.Kept p) (a1 a2) : (State.leaseTake s a1 a2).1.Kept p := by
  unfold State.leaseTake
  repeat' first
      | with_reducible assumption | extract_lets | intro _ _ _ | intro _ _
      | with_reducible apply State.setFlag_kept | with_reducible apply State.raiseEvent_kept
      | with_reducible apply State.setHolder_kept | with_reducible apply State.setPend_kept
      | with_reducible apply State.wipeFor_kept | with_reducible apply State.Kept.foldl
      | with_reducible refine State.Kept.of_fst (by assumption) ?_ | split
      | (with_reducible refine State.Kept.record ?_; first | with_reducible assumption | split | with_reducible apply State.setFlag_kept | with_reducible apply State.raiseEvent_kept | with_reducible apply State.setHolder_kept | with_reducible apply State.setPend_kept | with_reducible apply State.wipeFor_kept | with_reducible refine State.Kept.of_fst (by assumption) ?_)
      | dsimp +zetaDelta only

theorem State.leaseGive_kept (h : s.Kept p) (a1 a2 a3) : (State.leaseGive s a1 a2 a3).1.Kept p := by
  unfold State.leaseGive
  repeat' first
      | with_reducible assumption | extract_lets | intro _ _ _ | intro _ _ | with_reducible apply State.setFld_kept
      | with_reducible apply State.setHolder_kept | with_reducible apply State.Kept.foldl
      | with_reducible refine State.Kept.of_fst (by assumption) ?_ | split | dsimp +zetaDelta only

theorem State.leaseRelease_kept (h : s.Kept p) (a1 a2) : (State.leaseRelease s a1 a2).1.Kept p := by
  unfold State.leaseRelease
  repeat' first
      | with_reducible assumption | extract_lets | intro _ _ _ | intro _ _
      | with_reducible apply State.setHolder_kept | with_reducible apply State.Kept.foldl
      | with_reducible refine State.Kept.of_fst (by assumption) ?_ | split | dsimp +zetaDelta only

theorem State.setStream_kept (h : s.Kept p) (a1 a2) : (State.setStream s a1 a2).Kept p := by
  unfold State.setStream
  repeat' first
      | with_reducible assumption | extract_lets | intro _ _ _ | intro _ _
      | with_reducible apply State.setStreams_kept | with_reducible apply State.Kept.foldl
      | with_reducible refine State.Kept.of_fst (by assumption) ?_ | split | dsimp +zetaDelta only

theorem State.headerTaken_kept (h : s.Kept p) (a1) : (State.headerTaken s a1).Kept p := by
  unfold State.headerTaken
  repeat' first
      | with_reducible assumption | extract_lets | intro _ _ _ | intro _ _ | with_reducible apply State.onIsles_kept
      | with_reducible apply State.Kept.foldl | with_reducible refine State.Kept.of_fst (by assumption) ?_ | split
      | dsimp +zetaDelta only

theorem State.recvHeader_kept (h : s.Kept p) (a1 a2 a3) : (State.recvHeader s a1 a2 a3).Kept p := by
  unfold State.recvHeader
  repeat' first
      | with_reducible assumption | extract_lets | intro _ _ _ | intro _ _
      | with_reducible apply State.setStreams_kept | with_reducible apply State.Kept.foldl
      | with_reducible refine State.Kept.of_fst (by assumption) ?_ | split | dsimp +zetaDelta only

theorem State.recvGate_kept (h : s.Kept p) (a1 a2 a3) : (State.recvGate s a1 a2 a3).Kept p := by
  unfold State.recvGate
  repeat' first
      | with_reducible assumption | extract_lets | intro _ _ _ | intro _ _
      | with_reducible apply State.setStream_kept | with_reducible apply State.Kept.foldl
      | with_reducible refine State.Kept.of_fst (by assumption) ?_ | split | dsimp +zetaDelta only

theorem State.recvSample_kept (h : s.Kept p) (a1 a2 a3 a4) : (State.recvSample s a1 a2 a3 a4).Kept p := by
  unfold State.recvSample
  repeat' first
      | with_reducible assumption | extract_lets | intro _ _ _ | intro _ _
      | with_reducible apply State.bankRun_kept | with_reducible apply State.setStream_kept
      | with_reducible apply State.Kept.foldl | with_reducible refine State.Kept.of_fst (by assumption) ?_
      | split
      | (with_reducible refine State.Kept.record ?_; first | with_reducible assumption | split | with_reducible apply State.bankRun_kept | with_reducible apply State.setStream_kept | with_reducible refine State.Kept.of_fst (by assumption) ?_)
      | dsimp +zetaDelta only

theorem State.bankFalls_kept (h : s.Kept p) (a1) : (State.bankFalls s a1).Kept p := by
  unfold State.bankFalls
  repeat' first
      | with_reducible assumption | extract_lets | intro _ _ _ | intro _ _
      | with_reducible apply State.setLife_kept | with_reducible apply State.setScans_kept
      | with_reducible apply State.Kept.each | with_reducible apply State.Kept.foldl
      | with_reducible refine State.Kept.of_fst (by assumption) ?_ | split | dsimp +zetaDelta only

theorem State.settleAll_kept (h : s.Kept p) (a1) : (State.settleAll s a1).Kept p := by
  unfold State.settleAll
  repeat' first
      | with_reducible assumption | extract_lets | intro _ _ _ | intro _ _
      | with_reducible apply State.sendQueue_kept | with_reducible apply State.setStreams_kept
      | with_reducible apply State.onCim_kept | with_reducible apply State.setAcks_kept
      | with_reducible apply State.Kept.each | with_reducible apply State.Kept.foldl
      | with_reducible refine State.Kept.of_fst (by assumption) ?_ | split
      | (with_reducible refine State.Kept.record ?_; first | with_reducible assumption | split | with_reducible apply State.sendQueue_kept | with_reducible apply State.setStreams_kept | with_reducible apply State.onCim_kept | with_reducible apply State.setAcks_kept | with_reducible apply State.Kept.each | with_reducible refine State.Kept.of_fst (by assumption) ?_)
      | dsimp +zetaDelta only

theorem State.verdictTaken_kept (h : s.Kept p) (a1) : (State.verdictTaken s a1).Kept p := by
  unfold State.verdictTaken
  repeat' first
      | with_reducible assumption | extract_lets | intro _ _ _ | intro _ _
      | with_reducible apply State.send_kept | with_reducible apply State.setAcks_kept
      | with_reducible apply State.leaseSync_kept | with_reducible apply State.bankFalls_kept
      | with_reducible apply State.Kept.foldl | with_reducible refine State.Kept.of_fst (by assumption) ?_
      | split
      | (with_reducible refine State.Kept.record ?_; first | with_reducible assumption | split | with_reducible apply State.send_kept | with_reducible apply State.setAcks_kept | with_reducible apply State.leaseSync_kept | with_reducible apply State.bankFalls_kept | with_reducible refine State.Kept.of_fst (by assumption) ?_)
      | dsimp +zetaDelta only

theorem State.recvSummary_kept (h : s.Kept p) (a1 a2 a3 a4) : (State.recvSummary s a1 a2 a3 a4).Kept p := by
  unfold State.recvSummary
  repeat' first
      | with_reducible assumption | extract_lets | intro _ _ _ | intro _ _
      | with_reducible apply State.settleAll_kept | with_reducible apply State.setStream_kept
      | with_reducible apply State.Kept.foldl | with_reducible refine State.Kept.of_fst (by assumption) ?_ | split
      | dsimp +zetaDelta only

theorem State.sendLag_kept (h : s.Kept p) (a1 a2 a3) : (State.sendLag s a1 a2 a3).Kept p := by
  unfold State.sendLag
  repeat' first
      | with_reducible assumption | extract_lets | intro _ _ _ | intro _ _ | with_reducible apply State.send_kept
      | with_reducible apply State.Kept.foldl | with_reducible refine State.Kept.of_fst (by assumption) ?_ | split
      | dsimp +zetaDelta only

theorem State.evalEnds_kept (h : s.Kept p) (a1 a2) : (State.evalEnds s a1 a2).1.Kept p := by
  unfold State.evalEnds
  repeat' first
      | with_reducible assumption | extract_lets | intro _ _ _ | intro _ _
      | with_reducible apply State.bankRun_kept | with_reducible apply State.Kept.foldl
      | with_reducible refine State.Kept.of_fst (by assumption) ?_ | split
      | (with_reducible refine State.Kept.record ?_; first | with_reducible assumption | split | with_reducible apply State.bankRun_kept | with_reducible refine State.Kept.of_fst (by assumption) ?_)
      | dsimp +zetaDelta only

theorem State.evalOver_kept (h : s.Kept p) (a1) : (State.evalOver s a1).Kept p := by
  unfold State.evalOver
  repeat' first
      | with_reducible assumption | extract_lets | intro _ _ _ | intro _ _
      | with_reducible apply State.setEval_kept | with_reducible apply State.bankRun_kept
      | with_reducible apply State.Kept.foldl | with_reducible refine State.Kept.of_fst (by assumption) ?_
      | split | dsimp +zetaDelta only

theorem State.digitalRun_kept (h : s.Kept p) (a1 a2 a3 a4 a5) : (State.digitalRun s a1 a2 a3 a4 a5).1.Kept p := by
  unfold State.digitalRun
  repeat' first
      | with_reducible assumption | extract_lets | intro _ _ _ | intro _ _
      | with_reducible apply State.setFld_kept | with_reducible apply State.setFlag_kept
      | with_reducible apply State.bump_kept | with_reducible apply State.logEvent_kept
      | with_reducible apply State.cimEvent_kept | with_reducible apply State.touchTiles_kept
      | with_reducible apply State.scanTiles_kept | with_reducible apply State.markScan_kept
      | with_reducible apply State.Kept.foldl | with_reducible refine State.Kept.of_fst (by assumption) ?_
      | split
      | (with_reducible refine State.Kept.record ?_; first | with_reducible assumption | split | with_reducible apply State.setFld_kept | with_reducible apply State.setFlag_kept | with_reducible apply State.bump_kept | with_reducible apply State.logEvent_kept | with_reducible apply State.cimEvent_kept | with_reducible apply State.touchTiles_kept | with_reducible apply State.scanTiles_kept | with_reducible apply State.markScan_kept | with_reducible refine State.Kept.of_fst (by assumption) ?_)
      | dsimp +zetaDelta only

theorem State.cimev_kept (h : s.Kept p) (a1 a2 a3 a4) : (State.cimev s a1 a2 a3 a4).1.Kept p := by
  unfold State.cimev
  repeat' first
      | with_reducible assumption | extract_lets | intro _ _ _ | intro _ _
      | with_reducible apply State.bump_kept | with_reducible apply State.spend_kept
      | with_reducible apply State.copyPending_kept | with_reducible apply State.touchTiles_kept
      | with_reducible apply State.digitalRun_kept | with_reducible apply State.Kept.foldl
      | with_reducible refine State.Kept.of_fst (by assumption) ?_ | split
      | (with_reducible refine State.Kept.record ?_; first | with_reducible assumption | split | with_reducible apply State.bump_kept | with_reducible apply State.spend_kept | with_reducible apply State.copyPending_kept | with_reducible apply State.touchTiles_kept | with_reducible apply State.digitalRun_kept | with_reducible refine State.Kept.of_fst (by assumption) ?_)
      | dsimp +zetaDelta only

theorem State.readThr_kept (h : s.Kept p) (a1) : (State.readThr s a1).1.Kept p := by
  unfold State.readThr
  repeat' first
      | with_reducible assumption | extract_lets | intro _ _ _ | intro _ _ | with_reducible apply State.setFld_kept
      | with_reducible apply State.Kept.foldl | with_reducible refine State.Kept.of_fst (by assumption) ?_ | split
      | dsimp +zetaDelta only

theorem State.writeThr_kept (h : s.Kept p) (a1 a2) : (State.writeThr s a1 a2).Kept p := by
  unfold State.writeThr
  repeat' first
      | with_reducible assumption | extract_lets | intro _ _ _ | intro _ _ | with_reducible apply State.setFld_kept
      | with_reducible apply State.onCim_kept | with_reducible apply State.Kept.foldl
      | with_reducible refine State.Kept.of_fst (by assumption) ?_ | split | dsimp +zetaDelta only

theorem State.storeBankCtl_kept (h : s.Kept p) (a1 a2 a3) : (State.storeBankCtl s a1 a2 a3).Kept p := by
  unfold State.storeBankCtl
  repeat' first
      | with_reducible assumption | extract_lets | intro _ _ _ | intro _ _ | with_reducible apply State.storeReg_kept
      | with_reducible apply State.bankFalls_kept | with_reducible apply State.enableActs_kept
      | with_reducible apply State.Kept.foldl | with_reducible refine State.Kept.of_fst (by assumption) ?_ | split
      | dsimp +zetaDelta only

theorem State.storeTileCtl_kept (h : s.Kept p) (a1 a2 a3) : (State.storeTileCtl s a1 a2 a3).Kept p := by
  unfold State.storeTileCtl
  repeat' first
      | with_reducible assumption | extract_lets | intro _ _ _ | intro _ _ | with_reducible apply State.storeReg_kept
      | with_reducible apply State.enableActs_kept | with_reducible apply State.Kept.foldl
      | with_reducible refine State.Kept.of_fst (by assumption) ?_ | split | dsimp +zetaDelta only

theorem State.bankRisen_kept (h : s.Kept p) (a1) : (State.bankRisen s a1).Kept p := by
  unfold State.bankRisen
  repeat' first
      | with_reducible assumption | extract_lets | intro _ _ _ | intro _ _ | with_reducible apply State.setLife_kept
      | with_reducible apply State.Kept.each | with_reducible apply State.Kept.foldl
      | with_reducible refine State.Kept.of_fst (by assumption) ?_ | split | dsimp +zetaDelta only

theorem State.bankStat_kept (h : s.Kept p) (a1) : (State.bankStat s a1).1.Kept p := by
  unfold State.bankStat
  repeat' first
      | with_reducible assumption | extract_lets | intro _ _ _ | intro _ _
      | with_reducible apply State.spend_kept | with_reducible apply State.Kept.foldl
      | with_reducible refine State.Kept.of_fst (by assumption) ?_ | split
      | (with_reducible refine State.Kept.record ?_; first | with_reducible assumption | split | with_reducible apply State.spend_kept | with_reducible refine State.Kept.of_fst (by assumption) ?_)
      | dsimp +zetaDelta only

theorem State.tileLost_kept (h : s.Kept p) (a1) : (State.tileLost s a1).Kept p := by
  unfold State.tileLost
  repeat' first
      | with_reducible assumption | extract_lets | intro _ _ _ | intro _ _ | with_reducible apply State.onCim_kept
      | with_reducible apply State.Kept.foldl | with_reducible refine State.Kept.of_fst (by assumption) ?_ | split
      | dsimp +zetaDelta only

theorem State.tileRisen_kept (h : s.Kept p) (a1) : (State.tileRisen s a1).Kept p := by
  unfold State.tileRisen
  repeat' first
      | with_reducible assumption | extract_lets | intro _ _ _ | intro _ _ | with_reducible apply State.copyRow_kept
      | with_reducible apply State.pendSync_kept | with_reducible apply State.onCim_kept
      | with_reducible apply State.Kept.each | with_reducible apply State.Kept.foldl
      | with_reducible refine State.Kept.of_fst (by assumption) ?_ | split | dsimp +zetaDelta only

theorem State.cimLost_kept (h : s.Kept p) : (State.cimLost s).Kept p := by
  unfold State.cimLost
  repeat' first
      | with_reducible assumption | extract_lets | intro _ _ _ | intro _ _ | with_reducible apply State.Kept.foldl
      | with_reducible refine State.Kept.of_fst (by assumption) ?_ | split
      | (with_reducible refine State.Kept.record ?_; first | with_reducible assumption | split | with_reducible refine State.Kept.of_fst (by assumption) ?_)
      | dsimp +zetaDelta only

theorem State.streamsLost_kept (h : s.Kept p) : (State.streamsLost s).Kept p := by
  unfold State.streamsLost
  repeat' first
      | with_reducible assumption | extract_lets | intro _ _ _ | intro _ _
      | with_reducible apply State.setStreams_kept | with_reducible apply State.leaseSync_kept
      | with_reducible apply State.bankFalls_kept | with_reducible apply State.evalOver_kept
      | with_reducible apply State.Kept.each | with_reducible apply State.Kept.foldl
      | with_reducible refine State.Kept.of_fst (by assumption) ?_ | split
      | (with_reducible refine State.Kept.record ?_; first | with_reducible assumption | split | with_reducible apply State.setStreams_kept | with_reducible apply State.leaseSync_kept | with_reducible apply State.bankFalls_kept | with_reducible apply State.evalOver_kept | with_reducible apply State.Kept.each | with_reducible refine State.Kept.of_fst (by assumption) ?_)
      | dsimp +zetaDelta only

theorem State.onOut_kept (h : s.Kept p) (a1) : (State.onOut s a1).Kept p := by
  unfold State.onOut
  repeat' first
      | with_reducible assumption | extract_lets | intro _ _ _ | intro _ _ | with_reducible apply State.Kept.foldl
      | with_reducible refine State.Kept.of_fst (by assumption) ?_ | split
      | (with_reducible refine State.Kept.record ?_; first | with_reducible assumption | split | with_reducible refine State.Kept.of_fst (by assumption) ?_)
      | dsimp +zetaDelta only

theorem State.outEvent_kept (h : s.Kept p) : (State.outEvent s).Kept p := by
  unfold State.outEvent
  repeat' first
      | with_reducible assumption | extract_lets | intro _ _ _ | intro _ _
      | with_reducible apply State.raiseEvent_kept | with_reducible apply State.Kept.foldl
      | with_reducible refine State.Kept.of_fst (by assumption) ?_ | split | dsimp +zetaDelta only

theorem State.feedPair_kept (h : s.Kept p) (a1 a2) : (State.feedPair s a1 a2).Kept p := by
  unfold State.feedPair
  repeat' first
      | with_reducible assumption | extract_lets | intro _ _ _ | intro _ _ | with_reducible apply State.send_kept
      | with_reducible apply State.Kept.foldl | with_reducible refine State.Kept.of_fst (by assumption) ?_ | split
      | dsimp +zetaDelta only

theorem State.feedSplit_kept (h : s.Kept p) (a1 a2 n) : (s.feedSplit a1 a2 n).Kept p := by
  induction n generalizing s a2 with
  | zero => exact h
  | succ k ih =>
    unfold State.feedSplit
    repeat' first
        | with_reducible assumption | extract_lets | intro _ _ _ | intro _ _ | with_reducible apply ih
        | with_reducible apply State.feedPair_kept | with_reducible apply State.Kept.putReg
        | with_reducible apply State.Kept.each | with_reducible apply State.Kept.foldl
        | with_reducible apply State.Kept.onCore | with_reducible apply State.Kept.setCore
        | with_reducible apply State.Kept.core | with_reducible exact Core.Sound.same (by assumption)
        | with_reducible exact Core.Sound.same (State.Kept.core (by assumption) _)
        | with_reducible refine State.Kept.of_fst (by assumption) ?_ | split | dsimp +zetaDelta only

theorem State.feedTally_kept (h : s.Kept p) (a1 a2) : (State.feedTally s a1 a2).Kept p := by
  unfold State.feedTally
  repeat' first
      | with_reducible assumption | extract_lets | intro _ _ _ | intro _ _
      | with_reducible apply State.feedSplit_kept | with_reducible apply State.onOut_kept
      | with_reducible apply State.Kept.foldl | with_reducible refine State.Kept.of_fst (by assumption) ?_ | split
      | dsimp +zetaDelta only

theorem State.feedItem_kept (h : s.Kept p) (a1 a2) : (State.feedItem s a1 a2).Kept p := by
  unfold State.feedItem
  repeat' first
      | with_reducible assumption | extract_lets | intro _ _ _ | intro _ _ | with_reducible apply State.feedPair_kept
      | with_reducible apply State.onOut_kept | with_reducible apply State.Kept.foldl
      | with_reducible refine State.Kept.of_fst (by assumption) ?_ | split | dsimp +zetaDelta only

theorem State.feedReopen_kept (h : s.Kept p) : (State.feedReopen s).Kept p := by
  unfold State.feedReopen
  repeat' first
      | with_reducible assumption | extract_lets | intro _ _ _ | intro _ _ | with_reducible apply State.onOut_kept
      | with_reducible apply State.feedPair_kept | with_reducible apply State.feedSplit_kept
      | with_reducible apply State.Kept.each | with_reducible apply State.Kept.foldl
      | with_reducible refine State.Kept.of_fst (by assumption) ?_ | split | dsimp +zetaDelta only

theorem State.feedUnsend_kept (h : s.Kept p) (a1 a2) : (State.feedUnsend s a1 a2).Kept p := by
  unfold State.feedUnsend
  repeat' first
      | with_reducible assumption | extract_lets | intro _ _ _ | intro _ _
      | with_reducible apply State.feedTally_kept | with_reducible apply State.feedItem_kept
      | with_reducible apply State.Kept.foldl | with_reducible refine State.Kept.of_fst (by assumption) ?_ | split
      | dsimp +zetaDelta only

theorem State.feedUnsendAll_kept (h : s.Kept p) (a1) (l : List Wire) : (s.feedUnsendAll a1 l).Kept p := by
  induction l generalizing s a1 with
  | nil => exact h
  | cons x rest ih =>
    unfold State.feedUnsendAll
    repeat' first
        | with_reducible assumption | extract_lets | intro _ _ _ | intro _ _ | with_reducible apply ih
        | with_reducible apply State.feedUnsend_kept | with_reducible apply State.Kept.putReg
        | with_reducible apply State.Kept.each | with_reducible apply State.Kept.foldl
        | with_reducible apply State.Kept.onCore | with_reducible apply State.Kept.setCore
        | with_reducible apply State.Kept.core | with_reducible exact Core.Sound.same (by assumption)
        | with_reducible exact Core.Sound.same (State.Kept.core (by assumption) _)
        | with_reducible refine State.Kept.of_fst (by assumption) ?_ | split | dsimp +zetaDelta only

theorem State.feedRecall_kept (h : s.Kept p) : (State.feedRecall s).Kept p := by
  unfold State.feedRecall
  repeat' first
      | with_reducible assumption | extract_lets | intro _ _ _ | intro _ _
      | with_reducible apply State.feedUnsendAll_kept | with_reducible apply State.Kept.foldl
      | with_reducible refine State.Kept.of_fst (by assumption) ?_ | split
      | (with_reducible refine State.Kept.record ?_; first | with_reducible assumption | split | with_reducible apply State.feedUnsendAll_kept | with_reducible refine State.Kept.of_fst (by assumption) ?_)
      | dsimp +zetaDelta only

theorem State.addDebt_kept (h : s.Kept p) (a1 a2) : (State.addDebt s a1 a2).Kept p := by
  unfold State.addDebt
  repeat' first
      | with_reducible assumption | extract_lets | intro _ _ _ | intro _ _ | with_reducible apply State.setFld_kept
      | with_reducible apply State.outEvent_kept | with_reducible apply State.setFlag_kept
      | with_reducible apply State.bump_kept | with_reducible apply State.Kept.foldl
      | with_reducible refine State.Kept.of_fst (by assumption) ?_ | split | dsimp +zetaDelta only

theorem State.emitAdd_kept (h : s.Kept p) (a1 a2) : (State.emitAdd s a1 a2).Kept p := by
  unfold State.emitAdd
  repeat' first
      | with_reducible assumption | extract_lets | intro _ _ _ | intro _ _ | with_reducible apply State.addDebt_kept
      | with_reducible apply State.setFld_kept | with_reducible apply State.Kept.foldl
      | with_reducible refine State.Kept.of_fst (by assumption) ?_ | split | dsimp +zetaDelta only

theorem State.quiet_kept (h : s.Kept p) (a1) : (State.quiet s a1).Kept p := by
  unfold State.quiet
  repeat' first
      | with_reducible assumption | extract_lets | intro _ _ _ | intro _ _ | with_reducible apply State.setFld_kept
      | with_reducible apply State.setFlag_kept | with_reducible apply State.Kept.foldl
      | with_reducible refine State.Kept.of_fst (by assumption) ?_ | split | dsimp +zetaDelta only

theorem State.storePinadd_kept (h : s.Kept p) (a1 a2) : (State.storePinadd s a1 a2).Kept p := by
  unfold State.storePinadd
  repeat' first
      | with_reducible assumption | extract_lets | intro _ _ _ | intro _ _ | with_reducible apply State.addDebt_kept
      | with_reducible apply State.Kept.foldl | with_reducible refine State.Kept.of_fst (by assumption) ?_ | split
      | dsimp +zetaDelta only

theorem State.storePinctl_kept (h : s.Kept p) (a1 a2 a3) : (State.storePinctl s a1 a2 a3).Kept p := by
  unfold State.storePinctl
  repeat' first
      | with_reducible assumption | extract_lets | intro _ _ _ | intro _ _ | with_reducible apply State.storeReg_kept
      | with_reducible apply State.setFld_kept | with_reducible apply State.setFlag_kept
      | with_reducible apply State.enableActs_kept | with_reducible apply State.Kept.foldl
      | with_reducible refine State.Kept.of_fst (by assumption) ?_ | split | dsimp +zetaDelta only

theorem State.setLoop_kept (h : s.Kept p) (a1 a2) : (State.setLoop s a1 a2).Kept p := by
  unfold State.setLoop
  repeat' first
      | with_reducible assumption | extract_lets | intro _ _ _ | intro _ _ | with_reducible apply State.onOut_kept
      | with_reducible apply State.Kept.foldl | with_reducible refine State.Kept.of_fst (by assumption) ?_ | split
      | dsimp +zetaDelta only

theorem State.loopSync_kept (h : s.Kept p) (a1) : (State.loopSync s a1).Kept p := by
  unfold State.loopSync
  repeat' first
      | with_reducible assumption | extract_lets | intro _ _ _ | intro _ _ | with_reducible apply State.setFlag_kept
      | with_reducible apply State.setFld_kept | with_reducible apply State.Kept.foldl
      | with_reducible refine State.Kept.of_fst (by assumption) ?_ | split | dsimp +zetaDelta only

theorem State.loopRefresh_kept (h : s.Kept p) (a1 a2) : (State.loopRefresh s a1 a2).Kept p := by
  unfold State.loopRefresh
  repeat' first
      | with_reducible assumption | extract_lets | intro _ _ _ | intro _ _ | with_reducible apply State.setLoop_kept
      | with_reducible apply State.activity_kept | with_reducible apply State.loopSync_kept
      | with_reducible apply State.spend_kept | with_reducible apply State.setFlag_kept
      | with_reducible apply State.Kept.foldl | with_reducible refine State.Kept.of_fst (by assumption) ?_ | split
      | dsimp +zetaDelta only

theorem State.storeLpctl_kept (h : s.Kept p) (a1 a2 a3) : (State.storeLpctl s a1 a2 a3).Kept p := by
  unfold State.storeLpctl
  repeat' first
      | with_reducible assumption | extract_lets | intro _ _ _ | intro _ _ | with_reducible apply State.storeReg_kept
      | with_reducible apply State.setFlag_kept | with_reducible apply State.setLoop_kept
      | with_reducible apply State.loopSync_kept | with_reducible apply State.enableActs_kept
      | with_reducible apply State.Kept.foldl | with_reducible refine State.Kept.of_fst (by assumption) ?_ | split
      | dsimp +zetaDelta only

theorem State.storeLoopReg_kept (h : s.Kept p) (a1 a2 a3 a4) : (State.storeLoopReg s a1 a2 a3 a4).Kept p := by
  unfold State.storeLoopReg
  repeat' first
      | with_reducible assumption | extract_lets | intro _ _ _ | intro _ _ | with_reducible apply State.loopSync_kept
      | with_reducible apply State.storeReg_kept | with_reducible apply State.Kept.foldl
      | with_reducible refine State.Kept.of_fst (by assumption) ?_ | split | dsimp +zetaDelta only

theorem State.storeLpstat_kept (h : s.Kept p) (a1 a2 a3) : (State.storeLpstat s a1 a2 a3).Kept p := by
  unfold State.storeLpstat
  repeat' first
      | with_reducible assumption | extract_lets | intro _ _ _ | intro _ _ | with_reducible apply State.storeReg_kept
      | with_reducible apply State.loopSync_kept | with_reducible apply State.setFlag_kept
      | with_reducible apply State.Kept.foldl | with_reducible refine State.Kept.of_fst (by assumption) ?_ | split
      | dsimp +zetaDelta only

theorem State.loadLpmeas_kept (h : s.Kept p) (a1) : (State.loadLpmeas s a1).1.Kept p := by
  unfold State.loadLpmeas
  repeat' first
      | with_reducible assumption | extract_lets | intro _ _ _ | intro _ _
      | with_reducible apply State.spend_kept | with_reducible apply State.loadReg_kept
      | with_reducible apply State.Kept.foldl | with_reducible refine State.Kept.of_fst (by assumption) ?_
      | split | dsimp +zetaDelta only

theorem State.loopMeas_kept (h : s.Kept p) (a1 a2 a3) : (State.loopMeas s a1 a2 a3).Kept p := by
  unfold State.loopMeas
  repeat' first
      | with_reducible assumption | extract_lets | intro _ _ _ | intro _ _ | with_reducible apply State.setFld_kept
      | with_reducible apply State.Kept.foldl | with_reducible refine State.Kept.of_fst (by assumption) ?_ | split
      | dsimp +zetaDelta only

theorem State.takeIncrement_kept (h : s.Kept p) (a1 a2) : (State.takeIncrement s a1 a2).Kept p := by
  unfold State.takeIncrement
  repeat' first
      | with_reducible assumption | extract_lets | intro _ _ _ | intro _ _ | with_reducible apply State.emitAdd_kept
      | with_reducible apply State.setLoop_kept | with_reducible apply State.Kept.each
      | with_reducible apply State.Kept.foldl | with_reducible refine State.Kept.of_fst (by assumption) ?_ | split
      | dsimp +zetaDelta only

theorem State.takeHeartbeat_kept (h : s.Kept p) (a1) : (State.takeHeartbeat s a1).Kept p := by
  unfold State.takeHeartbeat
  repeat' first
      | with_reducible assumption | extract_lets | intro _ _ _ | intro _ _ | with_reducible apply State.setFlag_kept
      | with_reducible apply State.quiet_kept | with_reducible apply State.loopRefresh_kept
      | with_reducible apply State.setLoop_kept | with_reducible apply State.Kept.each
      | with_reducible apply State.Kept.foldl | with_reducible refine State.Kept.of_fst (by assumption) ?_ | split
      | dsimp +zetaDelta only

theorem State.feedTake_kept (h : s.Kept p) (a1 a2) : (State.feedTake s a1 a2).Kept p := by
  unfold State.feedTake
  repeat' first
      | with_reducible assumption | extract_lets | intro _ _ _ | intro _ _
      | with_reducible apply State.takeIncrement_kept | with_reducible apply State.loopRefresh_kept
      | with_reducible apply State.loopSync_kept | with_reducible apply State.setFlag_kept
      | with_reducible apply State.takeHeartbeat_kept | with_reducible apply State.quiet_kept
      | with_reducible apply State.Kept.each | with_reducible apply State.Kept.foldl
      | with_reducible refine State.Kept.of_fst (by assumption) ?_ | split | dsimp +zetaDelta only

theorem State.feedBad_kept (h : s.Kept p) : (State.feedBad s).Kept p := by
  unfold State.feedBad
  repeat' first
      | with_reducible assumption | extract_lets | intro _ _ _ | intro _ _ | with_reducible apply State.outEvent_kept
      | with_reducible apply State.bump_kept | with_reducible apply State.setFlag_kept
      | with_reducible apply State.Kept.foldl | with_reducible refine State.Kept.of_fst (by assumption) ?_ | split
      | dsimp +zetaDelta only

theorem State.outRecords_kept (h : s.Kept p) : (State.outRecords s).Kept p := by
  unfold State.outRecords
  repeat' first
      | with_reducible assumption | extract_lets | intro _ _ _ | intro _ _ | with_reducible apply State.setFlag_kept
      | with_reducible apply State.onOut_kept | with_reducible apply State.Kept.each
      | with_reducible apply State.Kept.foldl | with_reducible refine State.Kept.of_fst (by assumption) ?_ | split
      | dsimp +zetaDelta only

theorem State.outLost_kept (h : s.Kept p) : (State.outLost s).Kept p := by
  unfold State.outLost
  repeat' first
      | with_reducible assumption | extract_lets | intro _ _ _ | intro _ _ | with_reducible apply State.onOut_kept
      | with_reducible apply State.Kept.foldl | with_reducible refine State.Kept.of_fst (by assumption) ?_ | split
      | dsimp +zetaDelta only

theorem State.pinRestore_kept (h : s.Kept p) (a1) : (State.pinRestore s a1).Kept p := by
  unfold State.pinRestore
  repeat' first
      | with_reducible assumption | extract_lets | intro _ _ _ | intro _ _
      | with_reducible apply State.setFld_kept | with_reducible apply State.bumpWrap_kept
      | with_reducible apply State.Kept.putReg | with_reducible apply State.Kept.foldl
      | with_reducible refine State.Kept.of_fst (by assumption) ?_ | split
      | (with_reducible refine State.Kept.record ?_; first | with_reducible assumption | split | with_reducible apply State.setFld_kept | with_reducible apply State.bumpWrap_kept | with_reducible refine State.Kept.of_fst (by assumption) ?_)
      | dsimp +zetaDelta only

theorem State.outRestore_kept (h : s.Kept p) : (State.outRestore s).Kept p := by
  unfold State.outRestore
  repeat' first
      | with_reducible assumption | extract_lets | intro _ _ _ | intro _ _
      | with_reducible apply State.setFlag_kept | with_reducible apply State.outEvent_kept
      | with_reducible apply State.pinRestore_kept | with_reducible apply State.Kept.each
      | with_reducible apply State.Kept.foldl | with_reducible refine State.Kept.of_fst (by assumption) ?_
      | split | dsimp +zetaDelta only

theorem State.loopRisen_kept (h : s.Kept p) (a1) : (State.loopRisen s a1).Kept p := by
  unfold State.loopRisen
  repeat' first
      | with_reducible assumption | extract_lets | intro _ _ _ | intro _ _ | with_reducible apply State.activity_kept
      | with_reducible apply State.loopSync_kept | with_reducible apply State.setFlag_kept
      | with_reducible apply State.setLoop_kept | with_reducible apply State.Kept.foldl
      | with_reducible refine State.Kept.of_fst (by assumption) ?_ | split | dsimp +zetaDelta only

theorem State.outRetentionStore_kept (h : s.Kept p) (a1 a2) : (State.outRetentionStore s a1 a2).Kept p := by
  unfold State.outRetentionStore
  repeat' first
      | with_reducible assumption | extract_lets | intro _ _ _ | intro _ _
      | with_reducible apply State.onOut_kept | with_reducible apply State.Kept.foldl
      | with_reducible refine State.Kept.of_fst (by assumption) ?_ | split
      | (with_reducible refine State.Kept.record ?_; first | with_reducible assumption | split | with_reducible apply State.onOut_kept | with_reducible refine State.Kept.of_fst (by assumption) ?_)
      | dsimp +zetaDelta only

theorem State.qtyEvent_kept (h : s.Kept p) : (State.qtyEvent s).Kept p := by
  unfold State.qtyEvent
  repeat' first
      | with_reducible assumption | extract_lets | intro _ _ _ | intro _ _
      | with_reducible apply State.raiseEvent_kept | with_reducible apply State.Kept.foldl
      | with_reducible refine State.Kept.of_fst (by assumption) ?_ | split | dsimp +zetaDelta only

theorem State.putSigned_kept (h : s.Kept p) (a1 a2) : (State.putSigned s a1 a2).Kept p := by
  unfold State.putSigned
  repeat' first
      | with_reducible assumption | extract_lets | intro _ _ _ | intro _ _ | with_reducible apply State.spend_kept
      | with_reducible apply State.setFld_kept | with_reducible apply State.Kept.foldl
      | with_reducible refine State.Kept.of_fst (by assumption) ?_ | split | dsimp +zetaDelta only

theorem State.putUnsigned_kept (h : s.Kept p) (a1 a2) : (State.putUnsigned s a1 a2).Kept p := by
  unfold State.putUnsigned
  repeat' first
      | with_reducible assumption | extract_lets | intro _ _ _ | intro _ _ | with_reducible apply State.spend_kept
      | with_reducible apply State.setFld_kept | with_reducible apply State.Kept.foldl
      | with_reducible refine State.Kept.of_fst (by assumption) ?_ | split | dsimp +zetaDelta only

theorem State.setMark_kept (h : s.Kept p) (a1 a2) : (State.setMark s a1 a2).Kept p := by
  unfold State.setMark
  repeat' first
      | with_reducible assumption | extract_lets | intro _ _ _ | intro _ _
      | with_reducible apply State.onQty_kept | with_reducible apply State.Kept.foldl
      | with_reducible refine State.Kept.of_fst (by assumption) ?_ | split
      | (with_reducible refine State.Kept.record ?_; first | with_reducible assumption | split | with_reducible apply State.onQty_kept | with_reducible refine State.Kept.of_fst (by assumption) ?_)
      | dsimp +zetaDelta only

theorem State.setTallyReg_kept (h : s.Kept p) (a1 a2) : (State.setTallyReg s a1 a2).Kept p := by
  unfold State.setTallyReg
  repeat' first
      | with_reducible assumption | extract_lets | intro _ _ _ | intro _ _ | with_reducible apply State.onQty_kept
      | with_reducible apply State.Kept.foldl | with_reducible refine State.Kept.of_fst (by assumption) ?_ | split
      | dsimp +zetaDelta only

theorem State.bumpTally_kept (h : s.Kept p) (a1 a2) : (State.bumpTally s a1 a2).Kept p := by
  unfold State.bumpTally
  repeat' first
      | with_reducible assumption | extract_lets | intro _ _ _ | intro _ _
      | with_reducible apply State.feedTally_kept | with_reducible apply State.setTallyReg_kept
      | with_reducible apply State.Kept.foldl | with_reducible refine State.Kept.of_fst (by assumption) ?_ | split
      | dsimp +zetaDelta only

theorem State.bill_kept (h : s.Kept p) (a1 a2) : (State.bill s a1 a2).Kept p := by
  unfold State.bill
  repeat' first
      | with_reducible assumption | extract_lets | intro _ _ _ | intro _ _
      | with_reducible apply State.feedTally_kept | with_reducible apply State.onQty_kept
      | with_reducible apply State.bumpTally_kept | with_reducible apply State.Kept.each
      | with_reducible apply State.Kept.foldl | with_reducible refine State.Kept.of_fst (by assumption) ?_ | split
      | dsimp +zetaDelta only

theorem State.whole_kept (h : s.Kept p) (a1 a2) : (State.whole s a1 a2).1.Kept p := by
  unfold State.whole
  repeat' first
      | with_reducible assumption | extract_lets | intro _ _ _ | intro _ _ | with_reducible apply State.onQty_kept
      | with_reducible apply State.Kept.foldl | with_reducible refine State.Kept.of_fst (by assumption) ?_ | split
      | dsimp +zetaDelta only

theorem State.clearTests_kept (h : s.Kept p) : (State.clearTests s).Kept p := by
  unfold State.clearTests
  repeat' first
      | with_reducible assumption | extract_lets | intro _ _ _ | intro _ _ | with_reducible apply State.onQty_kept
      | with_reducible apply State.Kept.foldl | with_reducible refine State.Kept.of_fst (by assumption) ?_ | split
      | dsimp +zetaDelta only

theorem State.readTallies_kept (h : s.Kept p) (a1) : (State.readTallies s a1).1.Kept p := by
  unfold State.readTallies
  repeat' first
      | with_reducible assumption | extract_lets | intro _ _ _ | intro _ _ | with_reducible apply State.setMark_kept
      | with_reducible apply State.setTallyReg_kept | with_reducible apply State.Kept.each
      | with_reducible apply State.Kept.foldl | with_reducible refine State.Kept.of_fst (by assumption) ?_ | split
      | dsimp +zetaDelta only

theorem State.storeAuxadd_kept (h : s.Kept p) (a1 a2) : (State.storeAuxadd s a1 a2).Kept p := by
  unfold State.storeAuxadd
  repeat' first
      | with_reducible assumption | extract_lets | intro _ _ _ | intro _ _ | with_reducible apply State.bill_kept
      | with_reducible apply State.Kept.foldl | with_reducible refine State.Kept.of_fst (by assumption) ?_ | split
      | dsimp +zetaDelta only

theorem State.setVelocity_kept (h : s.Kept p) (a1 a2 a3) : (State.setVelocity s a1 a2 a3).Kept p := by
  unfold State.setVelocity
  repeat' first
      | with_reducible assumption | extract_lets | intro _ _ _ | intro _ _ | with_reducible apply State.onQty_kept
      | with_reducible apply State.Kept.foldl | with_reducible refine State.Kept.of_fst (by assumption) ?_ | split
      | dsimp +zetaDelta only

theorem State.takeCandidate_kept (h : s.Kept p) (a1 a2) : (State.takeCandidate s a1 a2).Kept p := by
  unfold State.takeCandidate
  repeat' first
      | with_reducible assumption | extract_lets | intro _ _ _ | intro _ _ | with_reducible apply State.bump_kept
      | with_reducible apply State.setFld_kept | with_reducible apply State.Kept.foldl
      | with_reducible refine State.Kept.of_fst (by assumption) ?_ | split | dsimp +zetaDelta only

theorem State.classify_kept (h : s.Kept p) (a1 a2 a3) : (State.classify s a1 a2 a3).Kept p := by
  unfold State.classify
  repeat' first
      | with_reducible assumption | extract_lets | intro _ _ _ | intro _ _
      | with_reducible apply State.setFlag_kept | with_reducible apply State.putSigned_kept
      | with_reducible apply State.putUnsigned_kept | with_reducible apply State.takeCandidate_kept
      | with_reducible apply State.Kept.foldl | with_reducible refine State.Kept.of_fst (by assumption) ?_
      | split
      | (with_reducible refine State.Kept.record ?_; first | with_reducible assumption | split | with_reducible apply State.setFlag_kept | with_reducible apply State.putSigned_kept | with_reducible apply State.putUnsigned_kept | with_reducible apply State.takeCandidate_kept | with_reducible refine State.Kept.of_fst (by assumption) ?_)
      | dsimp +zetaDelta only

theorem State.qtyFault_kept (h : s.Kept p) (a1 a2) : (State.qtyFault s a1 a2).Kept p := by
  unfold State.qtyFault
  repeat' first
      | with_reducible assumption | extract_lets | intro _ _ _ | intro _ _ | with_reducible apply State.qtyEvent_kept
      | with_reducible apply State.setFld_kept | with_reducible apply State.setFlag_kept
      | with_reducible apply State.Kept.foldl | with_reducible refine State.Kept.of_fst (by assumption) ?_ | split
      | dsimp +zetaDelta only

theorem State.guardAdd_kept (h : s.Kept p) (a1 a2 a3 a4 a5 a6) : (State.guardAdd s a1 a2 a3 a4 a5 a6).Kept p := by
  unfold State.guardAdd
  repeat' first
      | with_reducible assumption | extract_lets | intro _ _ _ | intro _ _ | with_reducible apply State.onQty_kept
      | with_reducible apply State.Kept.foldl | with_reducible refine State.Kept.of_fst (by assumption) ?_ | split
      | dsimp +zetaDelta only

theorem State.guardOpen_kept (h : s.Kept p) (a1) : (State.guardOpen s a1).Kept p := by
  unfold State.guardOpen
  repeat' first
      | with_reducible assumption | extract_lets | intro _ _ _ | intro _ _ | with_reducible apply State.onQty_kept
      | with_reducible apply State.Kept.foldl | with_reducible refine State.Kept.of_fst (by assumption) ?_ | split
      | dsimp +zetaDelta only

theorem State.setLastTicks_kept (h : s.Kept p) (a1 a2) : (State.setLastTicks s a1 a2).Kept p := by
  unfold State.setLastTicks
  repeat' first
      | with_reducible assumption | extract_lets | intro _ _ _ | intro _ _ | with_reducible apply State.setFld_kept
      | with_reducible apply State.Kept.foldl | with_reducible refine State.Kept.of_fst (by assumption) ?_ | split
      | dsimp +zetaDelta only

theorem State.billVolume_kept (h : s.Kept p) (a1 a2 a3) : (State.billVolume s a1 a2 a3).1.Kept p := by
  unfold State.billVolume
  repeat' first
      | with_reducible assumption | extract_lets | intro _ _ _ | intro _ _ | with_reducible apply State.whole_kept
      | with_reducible apply State.bill_kept | with_reducible apply State.Kept.foldl
      | with_reducible refine State.Kept.of_fst (by assumption) ?_ | split | dsimp +zetaDelta only

theorem State.billEnergy_kept (h : s.Kept p) (a1 a2) : (State.billEnergy s a1 a2).Kept p := by
  unfold State.billEnergy
  repeat' first
      | with_reducible assumption | extract_lets | intro _ _ _ | intro _ _ | with_reducible apply State.whole_kept
      | with_reducible apply State.bill_kept | with_reducible apply State.Kept.foldl
      | with_reducible refine State.Kept.of_fst (by assumption) ?_ | split | dsimp +zetaDelta only

theorem State.showLevel_kept (h : s.Kept p) (a1 a2) : (State.showLevel s a1 a2).Kept p := by
  unfold State.showLevel
  repeat' first
      | with_reducible assumption | extract_lets | intro _ _ _ | intro _ _
      | with_reducible apply State.setConduit_kept | with_reducible apply State.putUnsigned_kept
      | with_reducible apply State.Kept.foldl | with_reducible refine State.Kept.of_fst (by assumption) ?_
      | split
      | (with_reducible refine State.Kept.record ?_; first | with_reducible assumption | split | with_reducible apply State.setConduit_kept | with_reducible apply State.putUnsigned_kept | with_reducible refine State.Kept.of_fst (by assumption) ?_)
      | dsimp +zetaDelta only

theorem State.showPaths_kept (h : s.Kept p) (a1 a2 a3) : (State.showPaths s a1 a2 a3).Kept p := by
  unfold State.showPaths
  repeat' first
      | with_reducible assumption | extract_lets | intro _ _ _ | intro _ _
      | with_reducible apply State.setFld_kept | with_reducible apply State.setFlag_kept
      | with_reducible apply State.putSigned_kept | with_reducible apply State.Kept.each
      | with_reducible apply State.Kept.foldl | with_reducible refine State.Kept.of_fst (by assumption) ?_
      | split | dsimp +zetaDelta only

theorem State.billSet_kept (h : s.Kept p) (a1 a2 a3 a4 a5 a6) : (State.billSet s a1 a2 a3 a4 a5 a6).Kept p := by
  unfold State.billSet
  repeat' first
      | with_reducible assumption | extract_lets | intro _ _ _ | intro _ _
      | with_reducible apply State.billVolume_kept | with_reducible apply State.billEnergy_kept
      | with_reducible apply State.putSigned_kept | with_reducible apply State.whole_kept
      | with_reducible apply State.bill_kept | with_reducible apply State.guardOpen_kept
      | with_reducible apply State.guardAdd_kept | with_reducible apply State.Kept.foldl
      | with_reducible refine State.Kept.of_fst (by assumption) ?_ | split | dsimp +zetaDelta only

theorem State.showSet_kept (h : s.Kept p) (a1 a2) : (State.showSet s a1 a2).Kept p := by
  unfold State.showSet
  repeat' first
      | with_reducible assumption | extract_lets | intro _ _ _ | intro _ _
      | with_reducible apply State.setFld_kept | with_reducible apply State.setFlag_kept
      | with_reducible apply State.setConduit_kept | with_reducible apply State.feedItem_kept
      | with_reducible apply State.putSigned_kept | with_reducible apply State.qtyFault_kept
      | with_reducible apply State.setLastTicks_kept | with_reducible apply State.showLevel_kept
      | with_reducible apply State.showPaths_kept | with_reducible apply State.Kept.foldl
      | with_reducible refine State.Kept.of_fst (by assumption) ?_ | split
      | (with_reducible refine State.Kept.record ?_; first | with_reducible assumption | split | with_reducible apply State.setFld_kept | with_reducible apply State.setFlag_kept | with_reducible apply State.setConduit_kept | with_reducible apply State.feedItem_kept | with_reducible apply State.putSigned_kept | with_reducible apply State.qtyFault_kept | with_reducible apply State.setLastTicks_kept | with_reducible apply State.showLevel_kept | with_reducible apply State.showPaths_kept | with_reducible refine State.Kept.of_fst (by assumption) ?_)
      | dsimp +zetaDelta only

theorem State.closeSet_kept (h : s.Kept p) (k : Nat) : (s.closeSet k).Kept p := by
  unfold State.closeSet
  refine State.showSet_kept (State.classify_kept (State.billSet_kept ?_ _ _ _ _ _ _) _ _ _) _ _
  refine State.Kept.each (State.spend_kept (State.bumpTally_kept (State.takeCfg_kept h _) _ _)) _ fun s u h => ?_
  split
  · exact State.setVelocity_kept h _ _ _
  · exact h

theorem State.dropSet_kept (h : s.Kept p) (a1) : (State.dropSet s a1).Kept p := by
  unfold State.dropSet
  repeat' first
      | with_reducible assumption | extract_lets | intro _ _ _ | intro _ _
      | with_reducible apply State.setConduit_kept | with_reducible apply State.setFlag_kept
      | with_reducible apply State.Kept.foldl | with_reducible refine State.Kept.of_fst (by assumption) ?_ | split
      | dsimp +zetaDelta only

theorem State.closeIfFull_kept (h : s.Kept p) (a1) : (State.closeIfFull s a1).Kept p := by
  unfold State.closeIfFull
  repeat' first
      | with_reducible assumption | extract_lets | intro _ _ _ | intro _ _ | with_reducible apply State.closeSet_kept
      | with_reducible apply State.Kept.foldl | with_reducible refine State.Kept.of_fst (by assumption) ?_ | split
      | dsimp +zetaDelta only

theorem State.addTo_kept (h : s.Kept p) (a1 a2 a3) : (State.addTo s a1 a2 a3).Kept p := by
  unfold State.addTo
  repeat' first
      | with_reducible assumption | extract_lets | intro _ _ _ | intro _ _
      | with_reducible apply State.setFlag_kept | with_reducible apply State.setConduit_kept
      | with_reducible apply State.closeIfFull_kept | with_reducible apply State.Kept.foldl
      | with_reducible refine State.Kept.of_fst (by assumption) ?_ | split
      | (with_reducible refine State.Kept.record ?_; first | with_reducible assumption | split | with_reducible apply State.setFlag_kept | with_reducible apply State.setConduit_kept | with_reducible apply State.closeIfFull_kept | with_reducible refine State.Kept.of_fst (by assumption) ?_)
      | dsimp +zetaDelta only

theorem State.addResult_kept (h : s.Kept p) (a1 a2) : (State.addResult s a1 a2).Kept p := by
  unfold State.addResult
  repeat' first
      | with_reducible assumption | extract_lets | intro _ _ _ | intro _ _
      | with_reducible apply State.addTo_kept | with_reducible apply State.Kept.each
      | with_reducible apply State.Kept.foldl | with_reducible refine State.Kept.of_fst (by assumption) ?_
      | split | dsimp +zetaDelta only

theorem State.failedPath_kept (h : s.Kept p) (a1 a2) : (State.failedPath s a1 a2).Kept p := by
  unfold State.failedPath
  repeat' first
      | with_reducible assumption | extract_lets | intro _ _ _ | intro _ _
      | with_reducible apply State.addResult_kept | with_reducible apply State.bumpTally_kept
      | with_reducible apply State.Kept.foldl | with_reducible refine State.Kept.of_fst (by assumption) ?_ | split
      | dsimp +zetaDelta only

theorem State.setHalf_kept (h : s.Kept p) (a1 a2) : (State.setHalf s a1 a2).Kept p := by
  unfold State.setHalf
  repeat' first
      | with_reducible assumption | extract_lets | intro _ _ _ | intro _ _ | with_reducible apply State.onQty_kept
      | with_reducible apply State.Kept.foldl | with_reducible refine State.Kept.of_fst (by assumption) ?_ | split
      | dsimp +zetaDelta only

theorem State.breakHalf_kept (h : s.Kept p) (a1) : (State.breakHalf s a1).Kept p := by
  unfold State.breakHalf
  repeat' first
      | with_reducible assumption | extract_lets | intro _ _ _ | intro _ _
      | with_reducible apply State.failedPath_kept | with_reducible apply State.setHalf_kept
      | with_reducible apply State.Kept.foldl | with_reducible refine State.Kept.of_fst (by assumption) ?_ | split
      | dsimp +zetaDelta only

theorem State.calAdd_kept (h : s.Kept p) (a1 a2 a3) : (State.calAdd s a1 a2 a3).Kept p := by
  unfold State.calAdd
  repeat' first
      | with_reducible assumption | extract_lets | intro _ _ _ | intro _ _
      | with_reducible apply State.setFld_kept | with_reducible apply State.setFlag_kept
      | with_reducible apply State.onQty_kept | with_reducible apply State.qtyEvent_kept
      | with_reducible apply State.putSigned_kept | with_reducible apply State.putUnsigned_kept
      | with_reducible apply State.Kept.foldl | with_reducible refine State.Kept.of_fst (by assumption) ?_
      | split
      | (with_reducible refine State.Kept.record ?_; first | with_reducible assumption | split | with_reducible apply State.setFld_kept | with_reducible apply State.setFlag_kept | with_reducible apply State.onQty_kept | with_reducible apply State.qtyEvent_kept | with_reducible apply State.putSigned_kept | with_reducible apply State.putUnsigned_kept | with_reducible refine State.Kept.of_fst (by assumption) ?_)
      | dsimp +zetaDelta only

theorem State.storeCalctl_kept (h : s.Kept p) (a1 a2) : (State.storeCalctl s a1 a2).Kept p := by
  unfold State.storeCalctl
  repeat' first
      | with_reducible assumption | extract_lets | intro _ _ _ | intro _ _ | with_reducible apply State.setFld_kept
      | with_reducible apply State.storeReg_kept | with_reducible apply State.onQty_kept
      | with_reducible apply State.setFlag_kept | with_reducible apply State.Kept.foldl
      | with_reducible refine State.Kept.of_fst (by assumption) ?_ | split | dsimp +zetaDelta only

theorem State.addPair_kept (h : s.Kept p) (a1 a2 a3) : (State.addPair s a1 a2 a3).Kept p := by
  unfold State.addPair
  repeat' first
      | with_reducible assumption | extract_lets | intro _ _ _ | intro _ _
      | with_reducible apply State.spend_kept | with_reducible apply State.bumpTally_kept
      | with_reducible apply State.setVelocity_kept | with_reducible apply State.addResult_kept
      | with_reducible apply State.failedPath_kept | with_reducible apply State.calAdd_kept
      | with_reducible apply State.Kept.foldl | with_reducible refine State.Kept.of_fst (by assumption) ?_
      | split | dsimp +zetaDelta only

theorem State.takeTransit_kept (h : s.Kept p) (a1 a2 a3) : (State.takeTransit s a1 a2 a3).Kept p := by
  unfold State.takeTransit
  repeat' first
      | with_reducible assumption | extract_lets | intro _ _ _ | intro _ _ | with_reducible apply State.addPair_kept
      | with_reducible apply State.setHalf_kept | with_reducible apply State.breakHalf_kept
      | with_reducible apply State.Kept.foldl | with_reducible refine State.Kept.of_fst (by assumption) ?_ | split
      | dsimp +zetaDelta only

theorem State.takeSingle_kept (h : s.Kept p) (a1 a2) : (State.takeSingle s a1 a2).Kept p := by
  unfold State.takeSingle
  repeat' first
      | with_reducible assumption | extract_lets | intro _ _ _ | intro _ _
      | with_reducible apply State.spend_kept | with_reducible apply State.onQty_kept
      | with_reducible apply State.closeIfFull_kept | with_reducible apply State.Kept.each
      | with_reducible apply State.Kept.foldl | with_reducible refine State.Kept.of_fst (by assumption) ?_
      | split
      | (with_reducible refine State.Kept.record ?_; first | with_reducible assumption | split | with_reducible apply State.spend_kept | with_reducible apply State.onQty_kept | with_reducible apply State.closeIfFull_kept | with_reducible apply State.Kept.each | with_reducible refine State.Kept.of_fst (by assumption) ?_)
      | dsimp +zetaDelta only

theorem State.rejectPacket_kept (h : s.Kept p) (a1) : (State.rejectPacket s a1).Kept p := by
  unfold State.rejectPacket
  repeat' first
      | with_reducible assumption | extract_lets | intro _ _ _ | intro _ _
      | with_reducible apply State.breakHalf_kept | with_reducible apply State.qtyEvent_kept
      | with_reducible apply State.setFlag_kept | with_reducible apply State.bumpTally_kept
      | with_reducible apply State.Kept.foldl | with_reducible refine State.Kept.of_fst (by assumption) ?_ | split
      | dsimp +zetaDelta only

theorem State.storeClvote_kept (h : s.Kept p) (a1 a2 a3) : (State.storeClvote s a1 a2 a3).Kept p := by
  unfold State.storeClvote
  repeat' first
      | with_reducible assumption | extract_lets | intro _ _ _ | intro _ _ | with_reducible apply State.storeReg_kept
      | with_reducible apply State.setConduit_kept | with_reducible apply State.Kept.foldl
      | with_reducible refine State.Kept.of_fst (by assumption) ?_ | split | dsimp +zetaDelta only

theorem State.storeCdcfg_kept (h : s.Kept p) (a1 a2 a3) : (State.storeCdcfg s a1 a2 a3).Kept p := by
  unfold State.storeCdcfg
  repeat' first
      | with_reducible assumption | extract_lets | intro _ _ _ | intro _ _
      | with_reducible apply State.setFlag_kept | with_reducible apply State.storeReg_kept
      | with_reducible apply State.takeCfg_kept | with_reducible apply State.Kept.foldl
      | with_reducible refine State.Kept.of_fst (by assumption) ?_ | split | dsimp +zetaDelta only

theorem State.storeQtyCtl_kept (h : s.Kept p) (a1 a2) : (State.storeQtyCtl s a1 a2).Kept p := by
  unfold State.storeQtyCtl
  repeat' first
      | with_reducible assumption | extract_lets | intro _ _ _ | intro _ _ | with_reducible apply State.storeReg_kept
      | with_reducible apply State.enableActs_kept | with_reducible apply State.Kept.foldl
      | with_reducible refine State.Kept.of_fst (by assumption) ?_ | split | dsimp +zetaDelta only

theorem State.qtySecond_kept (h : s.Kept p) : (State.qtySecond s).Kept p := by
  unfold State.qtySecond
  repeat' first
      | with_reducible assumption | extract_lets | intro _ _ _ | intro _ _ | with_reducible apply State.onQty_kept
      | with_reducible apply State.bumpTally_kept | with_reducible apply State.Kept.foldl
      | with_reducible refine State.Kept.of_fst (by assumption) ?_ | split | dsimp +zetaDelta only

theorem State.qtyGuardEnter_kept (h : s.Kept p) : (State.qtyGuardEnter s).Kept p := by
  unfold State.qtyGuardEnter
  repeat' first
      | with_reducible assumption | extract_lets | intro _ _ _ | intro _ _
      | with_reducible apply State.guardOpen_kept | with_reducible apply State.dropSet_kept
      | with_reducible apply State.Kept.each | with_reducible apply State.Kept.foldl
      | with_reducible refine State.Kept.of_fst (by assumption) ?_ | split | dsimp +zetaDelta only

theorem State.qtyLost_kept (h : s.Kept p) : (State.qtyLost s).Kept p := by
  unfold State.qtyLost
  repeat' first
      | with_reducible assumption | extract_lets | intro _ _ _ | intro _ _ | with_reducible apply State.Kept.foldl
      | with_reducible refine State.Kept.of_fst (by assumption) ?_ | split
      | (with_reducible refine State.Kept.record ?_; first | with_reducible assumption | split | with_reducible refine State.Kept.of_fst (by assumption) ?_)
      | dsimp +zetaDelta only

theorem State.putSl_kept (h : s.Kept p) (a1 a2) : (State.putSl s a1 a2).Kept p := by
  unfold State.putSl
  repeat' first
      | with_reducible assumption | extract_lets | intro _ _ _ | intro _ _ | with_reducible apply State.Kept.putReg
      | with_reducible apply State.Kept.foldl | with_reducible refine State.Kept.of_fst (by assumption) ?_ | split
      | dsimp +zetaDelta only

theorem State.restoreSl_kept (h : s.Kept p) (a1) : (State.restoreSl s a1).Kept p := by
  unfold State.restoreSl
  repeat' first
      | with_reducible assumption | extract_lets | intro _ _ _ | intro _ _ | with_reducible apply State.putSl_kept
      | with_reducible apply State.Kept.each | with_reducible apply State.Kept.foldl
      | with_reducible refine State.Kept.of_fst (by assumption) ?_ | split | dsimp +zetaDelta only

theorem State.beginCommit_kept (h : s.Kept p) (a1 a2) : (State.beginCommit s a1 a2).Kept p := by
  unfold State.beginCommit
  repeat' first
      | with_reducible assumption | extract_lets | intro _ _ _ | intro _ _
      | with_reducible apply State.onQty_kept | with_reducible apply State.Kept.foldl
      | with_reducible refine State.Kept.of_fst (by assumption) ?_ | split
      | (with_reducible refine State.Kept.record ?_; first | with_reducible assumption | split | with_reducible apply State.onQty_kept | with_reducible refine State.Kept.of_fst (by assumption) ?_)
      | dsimp +zetaDelta only

theorem State.askCommit_kept (h : s.Kept p) (a1 a2) : (State.askCommit s a1 a2).Kept p := by
  unfold State.askCommit
  repeat' first
      | with_reducible assumption | extract_lets | intro _ _ _ | intro _ _
      | with_reducible apply State.beginCommit_kept | with_reducible apply State.onQty_kept
      | with_reducible apply State.Kept.foldl | with_reducible refine State.Kept.of_fst (by assumption) ?_ | split
      | dsimp +zetaDelta only

theorem State.startCommit_kept (h : s.Kept p) (a1) : (State.startCommit s a1).Kept p := by
  unfold State.startCommit
  repeat' first
      | with_reducible assumption | extract_lets | intro _ _ _ | intro _ _
      | with_reducible apply State.askCommit_kept | with_reducible apply State.Kept.foldl
      | with_reducible refine State.Kept.of_fst (by assumption) ?_ | split | dsimp +zetaDelta only

theorem State.followUp_kept (h : s.Kept p) : (State.followUp s).Kept p := by
  unfold State.followUp
  repeat' first
      | with_reducible assumption | extract_lets | intro _ _ _ | intro _ _
      | with_reducible apply State.beginCommit_kept | with_reducible apply State.onQty_kept
      | with_reducible apply State.Kept.foldl | with_reducible refine State.Kept.of_fst (by assumption) ?_ | split
      | dsimp +zetaDelta only

theorem State.guardCommitted_kept (h : s.Kept p) (a1) : (State.guardCommitted s a1).Kept p := by
  unfold State.guardCommitted
  repeat' first
      | with_reducible assumption | extract_lets | intro _ _ _ | intro _ _ | with_reducible apply State.onQty_kept
      | with_reducible apply State.Kept.foldl | with_reducible refine State.Kept.of_fst (by assumption) ?_ | split
      | dsimp +zetaDelta only

theorem State.writeGuardWord_kept (h : s.Kept p) : (State.writeGuardWord s).Kept p := by
  unfold State.writeGuardWord
  repeat' first
      | with_reducible assumption | extract_lets | intro _ _ _ | intro _ _ | with_reducible apply State.onQty_kept
      | with_reducible apply State.Kept.foldl | with_reducible refine State.Kept.of_fst (by assumption) ?_ | split
      | dsimp +zetaDelta only

theorem State.guardTorn_kept (h : s.Kept p) : (State.guardTorn s).Kept p := by
  unfold State.guardTorn
  repeat' first
      | with_reducible assumption | extract_lets | intro _ _ _ | intro _ _ | with_reducible apply State.setFlag_kept
      | with_reducible apply State.logEvent_kept | with_reducible apply State.Kept.foldl
      | with_reducible refine State.Kept.of_fst (by assumption) ?_ | split | dsimp +zetaDelta only

theorem State.addIndex_kept (h : s.Kept p) (a1 a2) : (State.addIndex s a1 a2).Kept p := by
  unfold State.addIndex
  repeat' first
      | with_reducible assumption | extract_lets | intro _ _ _ | intro _ _ | with_reducible apply State.onQty_kept
      | with_reducible apply State.Kept.foldl | with_reducible refine State.Kept.of_fst (by assumption) ?_ | split
      | dsimp +zetaDelta only

theorem State.addGuard_kept (h : s.Kept p) (a1 a2) : (State.addGuard s a1 a2).Kept p := by
  unfold State.addGuard
  repeat' first
      | with_reducible assumption | extract_lets | intro _ _ _ | intro _ _ | with_reducible apply State.addIndex_kept
      | with_reducible apply State.Kept.foldl | with_reducible refine State.Kept.of_fst (by assumption) ?_ | split
      | dsimp +zetaDelta only

theorem State.guardRestart_kept (h : s.Kept p) (a1) : (State.guardRestart s a1).Kept p := by
  unfold State.guardRestart
  repeat' first
      | with_reducible assumption | extract_lets | intro _ _ _ | intro _ _ | with_reducible apply State.addGuard_kept
      | with_reducible apply State.guardTorn_kept | with_reducible apply State.onQty_kept
      | with_reducible apply State.Kept.each | with_reducible apply State.Kept.foldl
      | with_reducible refine State.Kept.of_fst (by assumption) ?_ | split | dsimp +zetaDelta only

theorem State.restoreConduit_kept (h : s.Kept p) (a1 a2) : (State.restoreConduit s a1 a2).Kept p := by
  unfold State.restoreConduit
  repeat' first
      | with_reducible assumption | extract_lets | intro _ _ _ | intro _ _
      | with_reducible apply State.setConduit_kept | with_reducible apply State.setLastTicks_kept
      | with_reducible apply State.setFld_kept | with_reducible apply State.Kept.foldl
      | with_reducible refine State.Kept.of_fst (by assumption) ?_ | split | dsimp +zetaDelta only

theorem State.restoreMarks_kept (h : s.Kept p) : (State.restoreMarks s).Kept p := by
  unfold State.restoreMarks
  repeat' first
      | with_reducible assumption | extract_lets | intro _ _ _ | intro _ _ | with_reducible apply State.setMark_kept
      | with_reducible apply State.Kept.each | with_reducible apply State.Kept.foldl
      | with_reducible refine State.Kept.of_fst (by assumption) ?_ | split | dsimp +zetaDelta only

theorem State.logTorn_kept (h : s.Kept p) (a1 a2) : (State.logTorn s a1 a2).Kept p := by
  unfold State.logTorn
  repeat' first
      | with_reducible assumption | extract_lets | intro _ _ _ | intro _ _ | with_reducible apply State.logEvent_kept
      | with_reducible apply State.Kept.foldl | with_reducible refine State.Kept.of_fst (by assumption) ?_ | split
      | dsimp +zetaDelta only

theorem State.ledgerRestore_kept (h : s.Kept p) (a1) : (State.ledgerRestore s a1).Kept p := by
  unfold State.ledgerRestore
  repeat' first
      | with_reducible assumption | extract_lets | intro _ _ _ | intro _ _
      | with_reducible apply State.setFlag_kept | with_reducible apply State.logEvent_kept
      | with_reducible apply State.onQty_kept | with_reducible apply State.takeCfg_kept
      | with_reducible apply State.setVelocity_kept | with_reducible apply State.restoreSl_kept
      | with_reducible apply State.guardTorn_kept | with_reducible apply State.guardRestart_kept
      | with_reducible apply State.restoreConduit_kept | with_reducible apply State.restoreMarks_kept
      | with_reducible apply State.logTorn_kept | with_reducible apply State.Kept.putReg
      | with_reducible apply State.Kept.each | with_reducible apply State.Kept.foldl
      | with_reducible refine State.Kept.of_fst (by assumption) ?_ | split
      | (with_reducible refine State.Kept.record ?_; first | with_reducible assumption | split | with_reducible apply State.setFlag_kept | with_reducible apply State.logEvent_kept | with_reducible apply State.onQty_kept | with_reducible apply State.takeCfg_kept | with_reducible apply State.setVelocity_kept | with_reducible apply State.restoreSl_kept | with_reducible apply State.guardTorn_kept | with_reducible apply State.guardRestart_kept | with_reducible apply State.restoreConduit_kept | with_reducible apply State.restoreMarks_kept | with_reducible apply State.logTorn_kept | with_reducible apply State.Kept.each | with_reducible refine State.Kept.of_fst (by assumption) ?_)
      | dsimp +zetaDelta only

theorem State.onRadio_kept (h : s.Kept p) (a1) : (State.onRadio s a1).Kept p := by
  unfold State.onRadio
  repeat' first
      | with_reducible assumption | extract_lets | intro _ _ _ | intro _ _ | with_reducible apply State.Kept.foldl
      | with_reducible refine State.Kept.of_fst (by assumption) ?_ | split
      | (with_reducible refine State.Kept.record ?_; first | with_reducible assumption | split | with_reducible refine State.Kept.of_fst (by assumption) ?_)
      | dsimp +zetaDelta only

theorem State.setPort_kept (h : s.Kept p) (a1 a2) : (State.setPort s a1 a2).Kept p := by
  unfold State.setPort
  repeat' first
      | with_reducible assumption | extract_lets | intro _ _ _ | intro _ _ | with_reducible apply State.onRadio_kept
      | with_reducible apply State.Kept.foldl | with_reducible refine State.Kept.of_fst (by assumption) ?_ | split
      | dsimp +zetaDelta only

theorem State.onPort_kept (h : s.Kept p) (a1 a2) : (State.onPort s a1 a2).Kept p := by
  unfold State.onPort
  repeat' first
      | with_reducible assumption | extract_lets | intro _ _ _ | intro _ _ | with_reducible apply State.setPort_kept
      | with_reducible apply State.Kept.foldl | with_reducible refine State.Kept.of_fst (by assumption) ?_ | split
      | dsimp +zetaDelta only

theorem State.belfEvent_kept (h : s.Kept p) : (State.belfEvent s).Kept p := by
  unfold State.belfEvent
  repeat' first
      | with_reducible assumption | extract_lets | intro _ _ _ | intro _ _
      | with_reducible apply State.raiseEvent_kept | with_reducible apply State.Kept.foldl
      | with_reducible refine State.Kept.of_fst (by assumption) ?_ | split | dsimp +zetaDelta only

theorem State.belfFault_kept (h : s.Kept p) (a1) : (State.belfFault s a1).Kept p := by
  unfold State.belfFault
  repeat' first
      | with_reducible assumption | extract_lets | intro _ _ _ | intro _ _
      | with_reducible apply State.belfEvent_kept | with_reducible apply State.setFlag_kept
      | with_reducible apply State.Kept.foldl | with_reducible refine State.Kept.of_fst (by assumption) ?_ | split
      | dsimp +zetaDelta only

theorem State.writeCell_kept (h : s.Kept p) (a1 a2 a3 a4) : (State.writeCell s a1 a2 a3 a4).Kept p := by
  unfold State.writeCell
  repeat' first
      | with_reducible assumption | extract_lets | intro _ _ _ | intro _ _ | with_reducible apply State.Kept.putReg
      | with_reducible apply State.Kept.foldl | with_reducible refine State.Kept.of_fst (by assumption) ?_ | split
      | dsimp +zetaDelta only

theorem State.setAsn_kept (h : s.Kept p) (a1 a2) : (State.setAsn s a1 a2).Kept p := by
  unfold State.setAsn
  repeat' first
      | with_reducible assumption | extract_lets | intro _ _ _ | intro _ _ | with_reducible apply State.setFld_kept
      | with_reducible apply State.Kept.foldl | with_reducible refine State.Kept.of_fst (by assumption) ?_ | split
      | dsimp +zetaDelta only

theorem State.charge_kept (h : s.Kept p) (a1 a2 a3) : (State.charge s a1 a2 a3).Kept p := by
  unfold State.charge
  repeat' first
      | with_reducible assumption | extract_lets | intro _ _ _ | intro _ _ | with_reducible apply State.onPort_kept
      | with_reducible apply State.Kept.foldl | with_reducible refine State.Kept.of_fst (by assumption) ?_ | split
      | dsimp +zetaDelta only

theorem State.limitRestore_kept (h : s.Kept p) (a1) : (State.limitRestore s a1).Kept p := by
  unfold State.limitRestore
  repeat' first
      | with_reducible assumption | extract_lets | intro _ _ _ | intro _ _ | with_reducible apply State.onPort_kept
      | with_reducible apply State.belfFault_kept | with_reducible apply State.Kept.foldl
      | with_reducible refine State.Kept.of_fst (by assumption) ?_ | split | dsimp +zetaDelta only

theorem State.setPower_kept (h : s.Kept p) (a1 a2) : (State.setPower s a1 a2).Kept p := by
  unfold State.setPower
  repeat' first
      | with_reducible assumption | extract_lets | intro _ _ _ | intro _ _ | with_reducible apply State.spend_kept
      | with_reducible apply State.setFld_kept | with_reducible apply State.Kept.foldl
      | with_reducible refine State.Kept.of_fst (by assumption) ?_ | split | dsimp +zetaDelta only

theorem State.adaptPower_kept (h : s.Kept p) (a1 a2) : (State.adaptPower s a1 a2).Kept p := by
  unfold State.adaptPower
  repeat' first
      | with_reducible assumption | extract_lets | intro _ _ _ | intro _ _ | with_reducible apply State.setPower_kept
      | with_reducible apply State.Kept.foldl | with_reducible refine State.Kept.of_fst (by assumption) ?_ | split
      | dsimp +zetaDelta only

theorem State.setAesKey_kept (h : s.Kept p) (a1 a2) : (State.setAesKey s a1 a2).Kept p := by
  unfold State.setAesKey
  repeat' first
      | with_reducible assumption | extract_lets | intro _ _ _ | intro _ _ | with_reducible apply State.setFld_kept
      | with_reducible apply State.Kept.foldl | with_reducible refine State.Kept.of_fst (by assumption) ?_ | split
      | (with_reducible refine State.Kept.record ?_; first | with_reducible assumption | split | with_reducible apply State.setFld_kept | with_reducible refine State.Kept.of_fst (by assumption) ?_)
      | dsimp +zetaDelta only

theorem State.takeCounter_kept (h : s.Kept p) (a1) : (State.takeCounter s a1).1.Kept p := by
  unfold State.takeCounter
  repeat' first
      | with_reducible assumption | extract_lets | intro _ _ _ | intro _ _
      | with_reducible apply State.belfEvent_kept | with_reducible apply State.setAesKey_kept
      | with_reducible apply State.setFld_kept | with_reducible apply State.Kept.foldl
      | with_reducible refine State.Kept.of_fst (by assumption) ?_ | split | dsimp +zetaDelta only

theorem State.counterRise_kept (h : s.Kept p) : (State.counterRise s).Kept p := by
  unfold State.counterRise
  repeat' first
      | with_reducible assumption | extract_lets | intro _ _ _ | intro _ _
      | with_reducible apply State.setFld_kept | with_reducible apply State.belfEvent_kept
      | with_reducible apply State.setAesKey_kept | with_reducible apply State.Kept.each
      | with_reducible apply State.Kept.foldl | with_reducible refine State.Kept.of_fst (by assumption) ?_
      | split | dsimp +zetaDelta only

theorem State.setNbr_kept (h : s.Kept p) (a1 a2) : (State.setNbr s a1 a2).Kept p := by
  unfold State.setNbr
  repeat' first
      | with_reducible assumption | extract_lets | intro _ _ _ | intro _ _ | with_reducible apply State.onRadio_kept
      | with_reducible apply State.Kept.foldl | with_reducible refine State.Kept.of_fst (by assumption) ?_ | split
      | dsimp +zetaDelta only

theorem State.onNbr_kept (h : s.Kept p) (a1 a2) : (State.onNbr s a1 a2).Kept p := by
  unfold State.onNbr
  repeat' first
      | with_reducible assumption | extract_lets | intro _ _ _ | intro _ _ | with_reducible apply State.setNbr_kept
      | with_reducible apply State.Kept.foldl | with_reducible refine State.Kept.of_fst (by assumption) ?_ | split
      | dsimp +zetaDelta only

theorem State.heardFrom_kept (h : s.Kept p) (a1 a2 a3) : (State.heardFrom s a1 a2 a3).1.Kept p := by
  unfold State.heardFrom
  repeat' first
      | with_reducible assumption | extract_lets | intro _ _ _ | intro _ _ | with_reducible apply State.onNbr_kept
      | with_reducible apply State.setNbr_kept | with_reducible apply State.belfFault_kept
      | with_reducible apply State.Kept.foldl | with_reducible refine State.Kept.of_fst (by assumption) ?_ | split
      | dsimp +zetaDelta only

theorem State.nbrSecond_kept (h : s.Kept p) : (State.nbrSecond s).Kept p := by
  unfold State.nbrSecond
  repeat' first
      | with_reducible assumption | extract_lets | intro _ _ _ | intro _ _ | with_reducible apply State.onRadio_kept
      | with_reducible apply State.Kept.foldl | with_reducible refine State.Kept.of_fst (by assumption) ?_ | split
      | dsimp +zetaDelta only

theorem State.setBuf_kept (h : s.Kept p) (a1 a2 a3) : (State.setBuf s a1 a2 a3).Kept p := by
  unfold State.setBuf
  repeat' first
      | with_reducible assumption | extract_lets | intro _ _ _ | intro _ _ | with_reducible apply State.onPort_kept
      | with_reducible apply State.Kept.foldl | with_reducible refine State.Kept.of_fst (by assumption) ?_ | split
      | dsimp +zetaDelta only

theorem State.outcome_kept (h : s.Kept p) (a1 a2 a3 a4 a5) : (State.outcome s a1 a2 a3 a4 a5).Kept p := by
  unfold State.outcome
  repeat' first
      | with_reducible assumption | extract_lets | intro _ _ _ | intro _ _
      | with_reducible apply State.sendQueue_kept | with_reducible apply State.bump_kept
      | with_reducible apply State.Kept.foldl | with_reducible refine State.Kept.of_fst (by assumption) ?_ | split
      | dsimp +zetaDelta only

theorem State.enterSeen_kept (h : s.Kept p) (a1 a2 a3) : (State.enterSeen s a1 a2 a3).Kept p := by
  unfold State.enterSeen
  repeat' first
      | with_reducible assumption | extract_lets | intro _ _ _ | intro _ _
      | with_reducible apply State.onRadio_kept | with_reducible apply State.Kept.foldl
      | with_reducible refine State.Kept.of_fst (by assumption) ?_ | split
      | (with_reducible refine State.Kept.record ?_; first | with_reducible assumption | split | with_reducible apply State.onRadio_kept | with_reducible refine State.Kept.of_fst (by assumption) ?_)
      | dsimp +zetaDelta only

theorem State.loadBuf_kept (h : s.Kept p) (a1 a2 a3 a4) : (State.loadBuf s a1 a2 a3 a4).Kept p := by
  unfold State.loadBuf
  repeat' first
      | with_reducible assumption | extract_lets | intro _ _ _ | intro _ _
      | with_reducible apply State.setBuf_kept | with_reducible apply State.outcome_kept
      | with_reducible apply State.enterSeen_kept | with_reducible apply State.Kept.foldl
      | with_reducible refine State.Kept.of_fst (by assumption) ?_ | split
      | (with_reducible refine State.Kept.record ?_; first | with_reducible assumption | split | with_reducible apply State.setBuf_kept | with_reducible apply State.outcome_kept | with_reducible apply State.enterSeen_kept | with_reducible refine State.Kept.of_fst (by assumption) ?_)
      | dsimp +zetaDelta only

theorem State.finish_kept (h : s.Kept p) (c : CoreId) (rd : Reg) (r : Word) (f : Flags) (n : Nat) : (s.finish c rd r
    f n).Kept p := by
  unfold State.finish
  exact State.retire_kept ((State.setReg_kept h c rd r).onCore c fun k hk => hk.putFlags f) c n

theorem State.finishPlain_kept (h : s.Kept p) (a1 a2 a3 a4) : (State.finishPlain s a1 a2 a3 a4).Kept p := by
  unfold State.finishPlain
  repeat' first
      | with_reducible assumption | extract_lets | intro _ _ _ | intro _ _ | with_reducible apply State.retire_kept
      | with_reducible apply State.setReg_kept | with_reducible apply State.Kept.foldl
      | with_reducible refine State.Kept.of_fst (by assumption) ?_ | split | dsimp +zetaDelta only

theorem State.alu_kept (h : s.Kept p) (a1 a2 a3 a4 a5 a6 a7) : (State.alu s a1 a2 a3 a4 a5 a6 a7).Kept p := by
  unfold State.alu
  repeat' first
      | with_reducible assumption | extract_lets | intro _ _ _ | intro _ _ | with_reducible apply State.issue_kept
      | with_reducible apply State.finish_kept | with_reducible apply State.Kept.foldl
      | with_reducible refine State.Kept.of_fst (by assumption) ?_ | split | dsimp +zetaDelta only

theorem State.divide_kept (h : s.Kept p) (a1 a2 a3 a4 a5) : (State.divide s a1 a2 a3 a4 a5).Kept p := by
  unfold State.divide
  repeat' first
      | with_reducible assumption | extract_lets | intro _ _ _ | intro _ _ | with_reducible apply State.issue_kept
      | with_reducible apply State.fault_kept | with_reducible apply State.finish_kept
      | with_reducible apply State.Kept.foldl | with_reducible refine State.Kept.of_fst (by assumption) ?_ | split
      | dsimp +zetaDelta only

theorem State.branch_kept (h : s.Kept p) (c : CoreId) (b : Bool) {w : Word} (hw : alignedWord w) : (s.branch c b
    w).Kept p := by
  unfold State.branch
  split
  · exact State.jump_kept h c (alignedWord_add (h.core c).pc hw) 2
  · exact State.retire_kept h c 1

theorem State.setNetState_kept (h : s.Kept p) (a1 a2) : (State.setNetState s a1 a2).Kept p := by
  unfold State.setNetState
  repeat' first
      | with_reducible assumption | extract_lets | intro _ _ _ | intro _ _ | with_reducible apply State.setFld_kept
      | with_reducible apply State.Kept.foldl | with_reducible refine State.Kept.of_fst (by assumption) ?_ | split
      | dsimp +zetaDelta only

theorem State.cFollows_kept (h : s.Kept p) : (State.cFollows s).Kept p := by
  unfold State.cFollows
  repeat' first
      | with_reducible assumption | extract_lets | intro _ _ _ | intro _ _ | with_reducible apply State.setFlag_kept
      | with_reducible apply State.Kept.foldl | with_reducible refine State.Kept.of_fst (by assumption) ?_ | split
      | dsimp +zetaDelta only

theorem State.epochUp_kept (h : s.Kept p) (a1) : (State.epochUp s a1).Kept p := by
  unfold State.epochUp
  repeat' first
      | with_reducible assumption | extract_lets | intro _ _ _ | intro _ _ | with_reducible apply State.bumpWrap_kept
      | with_reducible apply State.Kept.foldl | with_reducible refine State.Kept.of_fst (by assumption) ?_ | split
      | dsimp +zetaDelta only

theorem State.engineSend_kept (h : s.Kept p) (a1 a2 a3 a4) : (State.engineSend s a1 a2 a3 a4).Kept p := by
  unfold State.engineSend
  repeat' first
      | with_reducible assumption | extract_lets | intro _ _ _ | intro _ _ | with_reducible apply State.onPort_kept
      | with_reducible apply State.spend_kept | with_reducible apply State.sendQueue_kept
      | with_reducible apply State.Kept.foldl | with_reducible refine State.Kept.of_fst (by assumption) ?_ | split
      | dsimp +zetaDelta only

theorem State.setQuarantine_kept (h : s.Kept p) (a1 a2 a3) : (State.setQuarantine s a1 a2 a3).Kept p := by
  unfold State.setQuarantine
  repeat' first
      | with_reducible assumption | extract_lets | intro _ _ _ | intro _ _ | with_reducible apply State.onPort_kept
      | with_reducible apply State.Kept.foldl | with_reducible refine State.Kept.of_fst (by assumption) ?_ | split
      | dsimp +zetaDelta only

theorem State.engineCell_kept (h : s.Kept p) (a1 a2 a3 a4 a5 a6) : (State.engineCell s a1 a2 a3 a4 a5 a6).Kept p := by
  unfold State.engineCell
  repeat' first
      | with_reducible assumption | extract_lets | intro _ _ _ | intro _ _
      | with_reducible apply State.writeCell_kept | with_reducible apply State.Kept.foldl
      | with_reducible refine State.Kept.of_fst (by assumption) ?_ | split | dsimp +zetaDelta only

theorem State.disableCell_kept (h : s.Kept p) (a1 a2) : (State.disableCell s a1 a2).Kept p := by
  unfold State.disableCell
  repeat' first
      | with_reducible assumption | extract_lets | intro _ _ _ | intro _ _ | with_reducible apply State.Kept.putReg
      | with_reducible apply State.Kept.foldl | with_reducible refine State.Kept.of_fst (by assumption) ?_ | split
      | dsimp +zetaDelta only

theorem State.endLease_kept (h : s.Kept p) (a1 a2) : (State.endLease s a1 a2).Kept p := by
  unfold State.endLease
  repeat' first
      | with_reducible assumption | extract_lets | intro _ _ _ | intro _ _ | with_reducible apply State.onNbr_kept
      | with_reducible apply State.setQuarantine_kept | with_reducible apply State.disableCell_kept
      | with_reducible apply State.Kept.foldl | with_reducible refine State.Kept.of_fst (by assumption) ?_ | split
      | dsimp +zetaDelta only

theorem State.engineCommand_kept (h : s.Kept p) (a1 a2 a3 a4 a5) : (State.engineCommand s a1 a2 a3 a4 a5).Kept p := by
  unfold State.engineCommand
  repeat' first
      | with_reducible assumption | extract_lets | intro _ _ _ | intro _ _
      | with_reducible apply State.engineSend_kept | with_reducible apply State.Kept.foldl
      | with_reducible refine State.Kept.of_fst (by assumption) ?_ | split | dsimp +zetaDelta only

theorem State.answer_kept (h : s.Kept p) (a1 a2 a3 a4) : (State.answer s a1 a2 a3 a4).Kept p := by
  unfold State.answer
  repeat' first
      | with_reducible assumption | extract_lets | intro _ _ _ | intro _ _
      | with_reducible apply State.spend_kept | with_reducible apply State.engineCommand_kept
      | with_reducible apply State.Kept.foldl | with_reducible refine State.Kept.of_fst (by assumption) ?_
      | split
      | (with_reducible refine State.Kept.record ?_; first | with_reducible assumption | split | with_reducible apply State.spend_kept | with_reducible apply State.engineCommand_kept | with_reducible refine State.Kept.of_fst (by assumption) ?_)
      | dsimp +zetaDelta only

theorem State.freeShort_kept (h : s.Kept p) (a1 a2) : (State.freeShort s a1 a2).Kept p := by
  unfold State.freeShort
  repeat' first
      | with_reducible assumption | extract_lets | intro _ _ _ | intro _ _
      | with_reducible apply State.onRadio_kept | with_reducible apply State.Kept.foldl
      | with_reducible refine State.Kept.of_fst (by assumption) ?_ | split
      | (with_reducible refine State.Kept.record ?_; first | with_reducible assumption | split | with_reducible apply State.onRadio_kept | with_reducible refine State.Kept.of_fst (by assumption) ?_)
      | dsimp +zetaDelta only

theorem State.grantLease_kept (h : s.Kept p) (a1 a2 a3 a4) : (State.grantLease s a1 a2 a3 a4).Kept p := by
  unfold State.grantLease
  repeat' first
      | with_reducible assumption | extract_lets | intro _ _ _ | intro _ _
      | with_reducible apply State.onNbr_kept | with_reducible apply State.setQuarantine_kept
      | with_reducible apply State.engineCell_kept | with_reducible apply State.answer_kept
      | with_reducible apply State.freeShort_kept | with_reducible apply State.Kept.foldl
      | with_reducible refine State.Kept.of_fst (by assumption) ?_ | split
      | (with_reducible refine State.Kept.record ?_; first | with_reducible assumption | split | with_reducible apply State.onNbr_kept | with_reducible apply State.setQuarantine_kept | with_reducible apply State.engineCell_kept | with_reducible apply State.answer_kept | with_reducible apply State.freeShort_kept | with_reducible refine State.Kept.of_fst (by assumption) ?_)
      | dsimp +zetaDelta only

theorem State.answerReq_kept (h : s.Kept p) (a1 a2 a3 a4 a5) : (State.answerReq s a1 a2 a3 a4 a5).Kept p := by
  unfold State.answerReq
  repeat' first
      | with_reducible assumption | extract_lets | intro _ _ _ | intro _ _ | with_reducible apply State.answer_kept
      | with_reducible apply State.grantLease_kept | with_reducible apply State.Kept.foldl
      | with_reducible refine State.Kept.of_fst (by assumption) ?_ | split | dsimp +zetaDelta only

theorem State.coordCommand_kept (h : s.Kept p) (a1 a2 a3) : (State.coordCommand s a1 a2 a3).Kept p := by
  unfold State.coordCommand
  repeat' first
      | with_reducible assumption | extract_lets | intro _ _ _ | intro _ _
      | with_reducible apply State.endLease_kept | with_reducible apply State.grantLease_kept
      | with_reducible apply State.answerReq_kept | with_reducible apply State.Kept.foldl
      | with_reducible refine State.Kept.of_fst (by assumption) ?_ | split
      | (with_reducible refine State.Kept.record ?_; first | with_reducible assumption | split | with_reducible apply State.endLease_kept | with_reducible apply State.grantLease_kept | with_reducible apply State.answerReq_kept | with_reducible refine State.Kept.of_fst (by assumption) ?_)
      | dsimp +zetaDelta only

theorem State.leaseExpires_kept (h : s.Kept p) (a1 a2) : (State.leaseExpires s a1 a2).Kept p := by
  unfold State.leaseExpires
  repeat' first
      | with_reducible assumption | extract_lets | intro _ _ _ | intro _ _
      | with_reducible apply State.belfFault_kept | with_reducible apply State.endLease_kept
      | with_reducible apply State.Kept.foldl | with_reducible refine State.Kept.of_fst (by assumption) ?_ | split
      | dsimp +zetaDelta only

theorem State.queueBeacon_kept (h : s.Kept p) (a1 a2) : (State.queueBeacon s a1 a2).Kept p := by
  unfold State.queueBeacon
  repeat' first
      | with_reducible assumption | extract_lets | intro _ _ _ | intro _ _
      | with_reducible apply State.spend_kept | with_reducible apply State.engineSend_kept
      | with_reducible apply State.Kept.foldl | with_reducible refine State.Kept.of_fst (by assumption) ?_
      | split | dsimp +zetaDelta only

theorem State.keepBeacon_kept (h : s.Kept p) (a1) : (State.keepBeacon s a1).Kept p := by
  unfold State.keepBeacon
  repeat' first
      | with_reducible assumption | extract_lets | intro _ _ _ | intro _ _
      | with_reducible apply State.queueBeacon_kept | with_reducible apply State.Kept.foldl
      | with_reducible refine State.Kept.of_fst (by assumption) ?_ | split | dsimp +zetaDelta only

theorem State.popAll_kept (h : s.Kept p) (a1 n) : (s.popAll a1 n).Kept p := by
  induction n generalizing s with
  | zero => exact h
  | succ k ih =>
    unfold State.popAll
    repeat' first
        | with_reducible assumption | extract_lets | intro _ _ _ | intro _ _ | with_reducible apply ih
        | with_reducible apply State.popPacket_kept | with_reducible apply State.Kept.putReg
        | with_reducible apply State.Kept.each | with_reducible apply State.Kept.foldl
        | with_reducible apply State.Kept.onCore | with_reducible apply State.Kept.setCore
        | with_reducible apply State.Kept.core | with_reducible exact Core.Sound.same (by assumption)
        | with_reducible exact Core.Sound.same (State.Kept.core (by assumption) _)
        | with_reducible refine State.Kept.of_fst (by assumption) ?_ | split | dsimp +zetaDelta only

theorem State.dropQueued_kept (h : s.Kept p) (a1) : (State.dropQueued s a1).Kept p := by
  unfold State.dropQueued
  repeat' first
      | with_reducible assumption | extract_lets | intro _ _ _ | intro _ _
      | with_reducible apply State.onPort_kept | with_reducible apply State.popAll_kept
      | with_reducible apply State.Kept.foldl | with_reducible refine State.Kept.of_fst (by assumption) ?_
      | split
      | (with_reducible refine State.Kept.record ?_; first | with_reducible assumption | split | with_reducible apply State.onPort_kept | with_reducible apply State.popAll_kept | with_reducible refine State.Kept.of_fst (by assumption) ?_)
      | dsimp +zetaDelta only

theorem State.dropBeacons_kept (h : s.Kept p) (a1) : (State.dropBeacons s a1).Kept p := by
  unfold State.dropBeacons
  repeat' first
      | with_reducible assumption | extract_lets | intro _ _ _ | intro _ _
      | with_reducible apply State.setBuf_kept | with_reducible apply State.dropQueued_kept
      | with_reducible apply State.Kept.foldl | with_reducible refine State.Kept.of_fst (by assumption) ?_
      | split | dsimp +zetaDelta only

theorem State.portFalls_kept (h : s.Kept p) (a1) : (State.portFalls s a1).Kept p := by
  unfold State.portFalls
  repeat' first
      | with_reducible assumption | extract_lets | intro _ _ _ | intro _ _ | with_reducible apply State.setLife_kept
      | with_reducible apply State.onPort_kept | with_reducible apply State.Kept.foldl
      | with_reducible refine State.Kept.of_fst (by assumption) ?_ | split | dsimp +zetaDelta only

theorem State.closePort_kept (h : s.Kept p) (a1) : (State.closePort s a1).Kept p := by
  unfold State.closePort
  repeat' first
      | with_reducible assumption | extract_lets | intro _ _ _ | intro _ _
      | with_reducible apply State.onPort_kept | with_reducible apply State.setNetState_kept
      | with_reducible apply State.queueBeacon_kept | with_reducible apply State.dropQueued_kept
      | with_reducible apply State.portFalls_kept | with_reducible apply State.Kept.foldl
      | with_reducible refine State.Kept.of_fst (by assumption) ?_ | split
      | (with_reducible refine State.Kept.record ?_; first | with_reducible assumption | split | with_reducible apply State.onPort_kept | with_reducible apply State.setNetState_kept | with_reducible apply State.queueBeacon_kept | with_reducible apply State.dropQueued_kept | with_reducible apply State.portFalls_kept | with_reducible refine State.Kept.of_fst (by assumption) ?_)
      | dsimp +zetaDelta only

theorem State.lastBeaconStart_kept (h : s.Kept p) : (State.lastBeaconStart s).Kept p := by
  unfold State.lastBeaconStart
  repeat' first
      | with_reducible assumption | extract_lets | intro _ _ _ | intro _ _
      | with_reducible apply State.closePort_kept | with_reducible apply State.Kept.foldl
      | with_reducible refine State.Kept.of_fst (by assumption) ?_ | split | dsimp +zetaDelta only

theorem State.nodeScans_kept (h : s.Kept p) (a1 a2) : (State.nodeScans s a1 a2).Kept p := by
  unfold State.nodeScans
  repeat' first
      | with_reducible assumption | extract_lets | intro _ _ _ | intro _ _ | with_reducible apply State.setFlag_kept
      | with_reducible apply State.setNetState_kept | with_reducible apply State.disableCell_kept
      | with_reducible apply State.onPort_kept | with_reducible apply State.Kept.each
      | with_reducible apply State.Kept.foldl | with_reducible refine State.Kept.of_fst (by assumption) ?_ | split
      | dsimp +zetaDelta only

theorem State.nodeOrphan_kept (h : s.Kept p) (a1) : (State.nodeOrphan s a1).Kept p := by
  unfold State.nodeOrphan
  repeat' first
      | with_reducible assumption | extract_lets | intro _ _ _ | intro _ _ | with_reducible apply State.setFlag_kept
      | with_reducible apply State.setNetState_kept | with_reducible apply State.onPort_kept
      | with_reducible apply State.setFld_kept | with_reducible apply State.Kept.foldl
      | with_reducible refine State.Kept.of_fst (by assumption) ?_ | split | dsimp +zetaDelta only

theorem State.nodeRequest_kept (h : s.Kept p) (a1 a2) : (State.nodeRequest s a1 a2).Kept p := by
  unfold State.nodeRequest
  repeat' first
      | with_reducible assumption | extract_lets | intro _ _ _ | intro _ _
      | with_reducible apply State.engineCommand_kept | with_reducible apply State.spend_kept
      | with_reducible apply State.onPort_kept | with_reducible apply State.Kept.foldl
      | with_reducible refine State.Kept.of_fst (by assumption) ?_ | split | dsimp +zetaDelta only

theorem State.requestFails_kept (h : s.Kept p) (a1) : (State.requestFails s a1).Kept p := by
  unfold State.requestFails
  repeat' first
      | with_reducible assumption | extract_lets | intro _ _ _ | intro _ _ | with_reducible apply State.onPort_kept
      | with_reducible apply State.nodeRequest_kept | with_reducible apply State.belfFault_kept
      | with_reducible apply State.nodeScans_kept | with_reducible apply State.Kept.foldl
      | with_reducible refine State.Kept.of_fst (by assumption) ?_ | split | dsimp +zetaDelta only

theorem State.startHopGen_kept (h : s.Kept p) (a1) : (State.startHopGen s a1).Kept p := by
  unfold State.startHopGen
  repeat' first
      | with_reducible assumption | extract_lets | intro _ _ _ | intro _ _ | with_reducible apply State.setFlag_kept
      | with_reducible apply State.Kept.foldl | with_reducible refine State.Kept.of_fst (by assumption) ?_ | split
      | dsimp +zetaDelta only

theorem State.epochStep_kept (o : State) (h : s.Kept p) : (o.epochStep s).Kept p := by
  unfold State.epochStep
  refine h.each _ fun s a h => ?_
  split
  · exact State.epochUp_kept h _
  · exact h

theorem State.nodeInstall_kept (h : s.Kept p) (a1 a2) : (State.nodeInstall s a1 a2).Kept p := by
  unfold State.nodeInstall
  repeat' first
      | with_reducible assumption | extract_lets | intro _ _ _ | intro _ _
      | with_reducible apply State.setFld_kept | with_reducible apply State.onPort_kept
      | with_reducible apply State.engineCell_kept | with_reducible apply State.startHopGen_kept
      | with_reducible apply State.epochStep_kept | with_reducible apply State.Kept.putReg
      | with_reducible apply State.Kept.each | with_reducible apply State.Kept.foldl
      | with_reducible refine State.Kept.of_fst (by assumption) ?_ | split
      | (with_reducible refine State.Kept.record ?_; first | with_reducible assumption | split | with_reducible apply State.setFld_kept | with_reducible apply State.onPort_kept | with_reducible apply State.engineCell_kept | with_reducible apply State.startHopGen_kept | with_reducible apply State.epochStep_kept | with_reducible apply State.Kept.each | with_reducible refine State.Kept.of_fst (by assumption) ?_)
      | dsimp +zetaDelta only

theorem State.nodeFollows_kept (h : s.Kept p) (a1 a2) : (State.nodeFollows s a1 a2).Kept p := by
  unfold State.nodeFollows
  repeat' first
      | with_reducible assumption | extract_lets | intro _ _ _ | intro _ _
      | with_reducible apply State.onPort_kept | with_reducible apply State.Kept.foldl
      | with_reducible refine State.Kept.of_fst (by assumption) ?_ | split
      | (with_reducible refine State.Kept.record ?_; first | with_reducible assumption | split | with_reducible apply State.onPort_kept | with_reducible refine State.Kept.of_fst (by assumption) ?_)
      | dsimp +zetaDelta only

theorem State.orphanHears_kept (h : s.Kept p) (a1) : (State.orphanHears s a1).Kept p := by
  unfold State.orphanHears
  repeat' first
      | with_reducible assumption | extract_lets | intro _ _ _ | intro _ _
      | with_reducible apply State.nodeRequest_kept | with_reducible apply State.Kept.foldl
      | with_reducible refine State.Kept.of_fst (by assumption) ?_ | split | dsimp +zetaDelta only

theorem State.nodeBeacon_kept (h : s.Kept p) (a1 a2 a3 a4 a5) : (State.nodeBeacon s a1 a2 a3 a4 a5).Kept p := by
  unfold State.nodeBeacon
  repeat' first
      | with_reducible assumption | extract_lets | intro _ _ _ | intro _ _
      | with_reducible apply State.setFld_kept | with_reducible apply State.setFlag_kept
      | with_reducible apply State.onPort_kept | with_reducible apply State.setNetState_kept
      | with_reducible apply State.nodeOrphan_kept | with_reducible apply State.nodeRequest_kept
      | with_reducible apply State.nodeInstall_kept | with_reducible apply State.nodeFollows_kept
      | with_reducible apply State.orphanHears_kept | with_reducible apply State.Kept.foldl
      | with_reducible refine State.Kept.of_fst (by assumption) ?_ | split
      | (with_reducible refine State.Kept.record ?_; first | with_reducible assumption | split | with_reducible apply State.setFld_kept | with_reducible apply State.setFlag_kept | with_reducible apply State.onPort_kept | with_reducible apply State.setNetState_kept | with_reducible apply State.nodeOrphan_kept | with_reducible apply State.nodeRequest_kept | with_reducible apply State.nodeInstall_kept | with_reducible apply State.nodeFollows_kept | with_reducible apply State.orphanHears_kept | with_reducible refine State.Kept.of_fst (by assumption) ?_)
      | dsimp +zetaDelta only

theorem State.assignCells_kept (h : s.Kept p) (a1 a2) : (State.assignCells s a1 a2).Kept p := by
  unfold State.assignCells
  repeat' first
      | with_reducible assumption | extract_lets | intro _ _ _ | intro _ _
      | with_reducible apply State.engineCell_kept | with_reducible apply State.disableCell_kept
      | with_reducible apply State.Kept.each | with_reducible apply State.Kept.foldl
      | with_reducible refine State.Kept.of_fst (by assumption) ?_ | split | dsimp +zetaDelta only

theorem State.requestRefused_kept (h : s.Kept p) (a1) : (State.requestRefused s a1).Kept p := by
  unfold State.requestRefused
  repeat' first
      | with_reducible assumption | extract_lets | intro _ _ _ | intro _ _
      | with_reducible apply State.onPort_kept | with_reducible apply State.nodeRequest_kept
      | with_reducible apply State.Kept.foldl | with_reducible refine State.Kept.of_fst (by assumption) ?_
      | split
      | (with_reducible refine State.Kept.record ?_; first | with_reducible assumption | split | with_reducible apply State.onPort_kept | with_reducible apply State.nodeRequest_kept | with_reducible refine State.Kept.of_fst (by assumption) ?_)
      | dsimp +zetaDelta only

theorem State.nodeCommand_kept (h : s.Kept p) (a1 a2 a3) : (State.nodeCommand s a1 a2 a3).Kept p := by
  unfold State.nodeCommand
  repeat' first
      | with_reducible assumption | extract_lets | intro _ _ _ | intro _ _
      | with_reducible apply State.setFld_kept | with_reducible apply State.onPort_kept
      | with_reducible apply State.setNetState_kept | with_reducible apply State.nodeScans_kept
      | with_reducible apply State.assignCells_kept | with_reducible apply State.requestRefused_kept
      | with_reducible apply State.Kept.foldl | with_reducible refine State.Kept.of_fst (by assumption) ?_
      | split
      | (with_reducible refine State.Kept.record ?_; first | with_reducible assumption | split | with_reducible apply State.setFld_kept | with_reducible apply State.onPort_kept | with_reducible apply State.setNetState_kept | with_reducible apply State.nodeScans_kept | with_reducible apply State.assignCells_kept | with_reducible apply State.requestRefused_kept | with_reducible refine State.Kept.of_fst (by assumption) ?_)
      | dsimp +zetaDelta only

theorem State.requestOutcome_kept (h : s.Kept p) (a1 a2 a3) : (State.requestOutcome s a1 a2 a3).Kept p := by
  unfold State.requestOutcome
  repeat' first
      | with_reducible assumption | extract_lets | intro _ _ _ | intro _ _ | with_reducible apply State.onPort_kept
      | with_reducible apply State.requestFails_kept | with_reducible apply State.Kept.foldl
      | with_reducible refine State.Kept.of_fst (by assumption) ?_ | split | dsimp +zetaDelta only

theorem State.demote_kept (h : s.Kept p) (a1 a2) : (State.demote s a1 a2).Kept p := by
  unfold State.demote
  repeat' first
      | with_reducible assumption | extract_lets | intro _ _ _ | intro _ _
      | with_reducible apply State.dropBeacons_kept | with_reducible apply State.setFlag_kept
      | with_reducible apply State.setFld_kept | with_reducible apply State.cFollows_kept
      | with_reducible apply State.nodeScans_kept | with_reducible apply State.Kept.foldl
      | with_reducible refine State.Kept.of_fst (by assumption) ?_ | split | dsimp +zetaDelta only

theorem State.coordBeacon_kept (h : s.Kept p) (a1 a2 a3 a4) : (State.coordBeacon s a1 a2 a3 a4).Kept p := by
  unfold State.coordBeacon
  repeat' first
      | with_reducible assumption | extract_lets | intro _ _ _ | intro _ _
      | with_reducible apply State.bump_kept | with_reducible apply State.spend_kept
      | with_reducible apply State.belfFault_kept | with_reducible apply State.demote_kept
      | with_reducible apply State.Kept.foldl | with_reducible refine State.Kept.of_fst (by assumption) ?_
      | split
      | (with_reducible refine State.Kept.record ?_; first | with_reducible assumption | split | with_reducible apply State.bump_kept | with_reducible apply State.spend_kept | with_reducible apply State.belfFault_kept | with_reducible apply State.demote_kept | with_reducible refine State.Kept.of_fst (by assumption) ?_)
      | dsimp +zetaDelta only

theorem State.floodIn_kept (h : s.Kept p) (a1 a2 a3 a4 a5 a6) : (State.floodIn s a1 a2 a3 a4 a5 a6).1.Kept p := by
  unfold State.floodIn
  repeat' first
      | with_reducible assumption | extract_lets | intro _ _ _ | intro _ _
      | with_reducible apply State.bump_kept | with_reducible apply State.spend_kept
      | with_reducible apply State.onRadio_kept | with_reducible apply State.enterSeen_kept
      | with_reducible apply State.Kept.each | with_reducible apply State.Kept.foldl
      | with_reducible refine State.Kept.of_fst (by assumption) ?_ | split
      | (with_reducible refine State.Kept.record ?_; first | with_reducible assumption | split | with_reducible apply State.bump_kept | with_reducible apply State.spend_kept | with_reducible apply State.onRadio_kept | with_reducible apply State.enterSeen_kept | with_reducible apply State.Kept.each | with_reducible refine State.Kept.of_fst (by assumption) ?_)
      | dsimp +zetaDelta only

theorem State.netSecond_kept (h : s.Kept p) : (State.netSecond s).Kept p := by
  unfold State.netSecond
  repeat' first
      | with_reducible assumption | extract_lets | intro _ _ _ | intro _ _
      | with_reducible apply State.bump_kept | with_reducible apply State.onRadio_kept
      | with_reducible apply State.onPort_kept | with_reducible apply State.nbrSecond_kept
      | with_reducible apply State.Kept.each | with_reducible apply State.Kept.foldl
      | with_reducible refine State.Kept.of_fst (by assumption) ?_ | split
      | (with_reducible refine State.Kept.record ?_; first | with_reducible assumption | split | with_reducible apply State.bump_kept | with_reducible apply State.onRadio_kept | with_reducible apply State.onPort_kept | with_reducible apply State.nbrSecond_kept | with_reducible apply State.Kept.each | with_reducible refine State.Kept.of_fst (by assumption) ?_)
      | dsimp +zetaDelta only

theorem State.applyCorr_kept (h : s.Kept p) (a1) : (State.applyCorr s a1).Kept p := by
  unfold State.applyCorr
  repeat' first
      | with_reducible assumption | extract_lets | intro _ _ _ | intro _ _ | with_reducible apply State.onPort_kept
      | with_reducible apply State.Kept.foldl | with_reducible refine State.Kept.of_fst (by assumption) ?_ | split
      | dsimp +zetaDelta only

theorem State.backoff_kept (h : s.Kept p) (a1) : (State.backoff s a1).Kept p := by
  unfold State.backoff
  repeat' first
      | with_reducible assumption | extract_lets | intro _ _ _ | intro _ _ | with_reducible apply State.spend_kept
      | with_reducible apply State.onPort_kept | with_reducible apply State.Kept.foldl
      | with_reducible refine State.Kept.of_fst (by assumption) ?_ | split | dsimp +zetaDelta only

theorem State.finishFrame_kept (h : s.Kept p) (a1 a2 a3 a4 a5) : (State.finishFrame s a1 a2 a3 a4 a5).Kept p := by
  unfold State.finishFrame
  repeat' first
      | with_reducible assumption | extract_lets | intro _ _ _ | intro _ _
      | with_reducible apply State.onPort_kept | with_reducible apply State.belfFault_kept
      | with_reducible apply State.adaptPower_kept | with_reducible apply State.setBuf_kept
      | with_reducible apply State.outcome_kept | with_reducible apply State.requestOutcome_kept
      | with_reducible apply State.Kept.foldl | with_reducible refine State.Kept.of_fst (by assumption) ?_
      | split
      | (with_reducible refine State.Kept.record ?_; first | with_reducible assumption | split | with_reducible apply State.onPort_kept | with_reducible apply State.belfFault_kept | with_reducible apply State.adaptPower_kept | with_reducible apply State.setBuf_kept | with_reducible apply State.outcome_kept | with_reducible apply State.requestOutcome_kept | with_reducible refine State.Kept.of_fst (by assumption) ?_)
      | dsimp +zetaDelta only

theorem State.goOnAir_kept (h : s.Kept p) (a1 a2 a3) : (State.goOnAir s a1 a2 a3).Kept p := by
  unfold State.goOnAir
  repeat' first
      | with_reducible assumption | extract_lets | intro _ _ _ | intro _ _ | with_reducible apply State.charge_kept
      | with_reducible apply State.onPort_kept | with_reducible apply State.setFlag_kept
      | with_reducible apply State.Kept.foldl | with_reducible refine State.Kept.of_fst (by assumption) ?_ | split
      | dsimp +zetaDelta only

theorem State.sendBuf_kept (h : s.Kept p) (a1 a2 a3 a4) : (State.sendBuf s a1 a2 a3 a4).Kept p := by
  unfold State.sendBuf
  repeat' first
      | with_reducible assumption | extract_lets | intro _ _ _ | intro _ _
      | with_reducible apply State.bump_kept | with_reducible apply State.belfFault_kept
      | with_reducible apply State.takeCounter_kept | with_reducible apply State.setBuf_kept
      | with_reducible apply State.finishFrame_kept | with_reducible apply State.goOnAir_kept
      | with_reducible apply State.Kept.foldl | with_reducible refine State.Kept.of_fst (by assumption) ?_
      | split
      | (with_reducible refine State.Kept.record ?_; first | with_reducible assumption | split | with_reducible apply State.bump_kept | with_reducible apply State.belfFault_kept | with_reducible apply State.takeCounter_kept | with_reducible apply State.setBuf_kept | with_reducible apply State.finishFrame_kept | with_reducible apply State.goOnAir_kept | with_reducible refine State.Kept.of_fst (by assumption) ?_)
      | dsimp +zetaDelta only

theorem State.sharedListens_kept (h : s.Kept p) (a1 a2) : (State.sharedListens s a1 a2).Kept p := by
  unfold State.sharedListens
  repeat' first
      | with_reducible assumption | extract_lets | intro _ _ _ | intro _ _
      | with_reducible apply State.setFlag_kept | with_reducible apply State.onPort_kept
      | with_reducible apply State.Kept.foldl | with_reducible refine State.Kept.of_fst (by assumption) ?_
      | split
      | (with_reducible refine State.Kept.record ?_; first | with_reducible assumption | split | with_reducible apply State.setFlag_kept | with_reducible apply State.onPort_kept | with_reducible refine State.Kept.of_fst (by assumption) ?_)
      | dsimp +zetaDelta only

theorem State.cutPort_kept (h : s.Kept p) (a1) : (State.cutPort s a1).Kept p := by
  unfold State.cutPort
  repeat' first
      | with_reducible assumption | extract_lets | intro _ _ _ | intro _ _
      | with_reducible apply State.setFlag_kept | with_reducible apply State.bump_kept
      | with_reducible apply State.onPort_kept | with_reducible apply State.belfFault_kept
      | with_reducible apply State.adaptPower_kept | with_reducible apply State.Kept.foldl
      | with_reducible refine State.Kept.of_fst (by assumption) ?_ | split
      | (with_reducible refine State.Kept.record ?_; first | with_reducible assumption | split | with_reducible apply State.setFlag_kept | with_reducible apply State.bump_kept | with_reducible apply State.onPort_kept | with_reducible apply State.belfFault_kept | with_reducible apply State.adaptPower_kept | with_reducible refine State.Kept.of_fst (by assumption) ?_)
      | dsimp +zetaDelta only

theorem State.radioPathLost_kept (h : s.Kept p) : (State.radioPathLost s).Kept p := by
  unfold State.radioPathLost
  repeat' first
      | with_reducible assumption | extract_lets | intro _ _ _ | intro _ _ | with_reducible apply State.cutPort_kept
      | with_reducible apply State.portFalls_kept | with_reducible apply State.Kept.each
      | with_reducible apply State.Kept.foldl | with_reducible refine State.Kept.of_fst (by assumption) ?_ | split
      | dsimp +zetaDelta only

theorem State.radioXhfLost_kept (h : s.Kept p) : (State.radioXhfLost s).Kept p := by
  unfold State.radioXhfLost
  repeat' first
      | with_reducible assumption | extract_lets | intro _ _ _ | intro _ _ | with_reducible apply State.onPort_kept
      | with_reducible apply State.setFlag_kept | with_reducible apply State.cutPort_kept
      | with_reducible apply State.Kept.each | with_reducible apply State.Kept.foldl
      | with_reducible refine State.Kept.of_fst (by assumption) ?_ | split | dsimp +zetaDelta only

theorem State.checkSecured_kept (h : s.Kept p) (a1 a2 a3 a4 a5) : (State.checkSecured s a1 a2 a3 a4 a5).1.Kept p := by
  unfold State.checkSecured
  repeat' first
      | with_reducible assumption | extract_lets | intro _ _ _ | intro _ _ | with_reducible apply State.bump_kept
      | with_reducible apply State.onNbr_kept | with_reducible apply State.Kept.foldl
      | with_reducible refine State.Kept.of_fst (by assumption) ?_ | split | dsimp +zetaDelta only

theorem State.correct_kept (h : s.Kept p) (a1 a2) : (State.correct s a1 a2).Kept p := by
  unfold State.correct
  repeat' first
      | with_reducible assumption | extract_lets | intro _ _ _ | intro _ _ | with_reducible apply State.onPort_kept
      | with_reducible apply State.setFld_kept | with_reducible apply State.Kept.foldl
      | with_reducible refine State.Kept.of_fst (by assumption) ?_ | split | dsimp +zetaDelta only

theorem State.syncFrom_kept (h : s.Kept p) (a1 a2 a3 a4) : (State.syncFrom s a1 a2 a3 a4).Kept p := by
  unfold State.syncFrom
  repeat' first
      | with_reducible assumption | extract_lets | intro _ _ _ | intro _ _ | with_reducible apply State.setFld_kept
      | with_reducible apply State.correct_kept | with_reducible apply State.onPort_kept
      | with_reducible apply State.setFlag_kept | with_reducible apply State.setAsn_kept
      | with_reducible apply State.Kept.foldl | with_reducible refine State.Kept.of_fst (by assumption) ?_ | split
      | dsimp +zetaDelta only

theorem State.oweAck_kept (h : s.Kept p) (a1 a2 a3) : (State.oweAck s a1 a2 a3).1.Kept p := by
  unfold State.oweAck
  repeat' first
      | with_reducible assumption | extract_lets | intro _ _ _ | intro _ _
      | with_reducible apply State.bump_kept | with_reducible apply State.onPort_kept
      | with_reducible apply State.Kept.foldl | with_reducible refine State.Kept.of_fst (by assumption) ?_
      | split
      | (with_reducible refine State.Kept.record ?_; first | with_reducible assumption | split | with_reducible apply State.bump_kept | with_reducible apply State.onPort_kept | with_reducible refine State.Kept.of_fst (by assumption) ?_)
      | dsimp +zetaDelta only

theorem State.engineTakes_kept (h : s.Kept p) (a1 a2 a3) : (State.engineTakes s a1 a2 a3).Kept p := by
  unfold State.engineTakes
  repeat' first
      | with_reducible assumption | extract_lets | intro _ _ _ | intro _ _ | with_reducible apply State.bump_kept
      | with_reducible apply State.coordCommand_kept | with_reducible apply State.nodeCommand_kept
      | with_reducible apply State.Kept.foldl | with_reducible refine State.Kept.of_fst (by assumption) ?_ | split
      | dsimp +zetaDelta only

theorem State.engineHears_kept (h : s.Kept p) (a1 a2 a3) : (State.engineHears s a1 a2 a3).Kept p := by
  unfold State.engineHears
  repeat' first
      | with_reducible assumption | extract_lets | intro _ _ _ | intro _ _
      | with_reducible apply State.orphanHears_kept | with_reducible apply State.nodeBeacon_kept
      | with_reducible apply State.coordBeacon_kept | with_reducible apply State.Kept.foldl
      | with_reducible refine State.Kept.of_fst (by assumption) ?_ | split
      | (with_reducible refine State.Kept.record ?_; first | with_reducible assumption | split | with_reducible apply State.orphanHears_kept | with_reducible apply State.nodeBeacon_kept | with_reducible apply State.coordBeacon_kept | with_reducible refine State.Kept.of_fst (by assumption) ?_)
      | dsimp +zetaDelta only

theorem State.deliver_kept (h : s.Kept p) (a1 a2) : (State.deliver s a1 a2).Kept p := by
  unfold State.deliver
  repeat' first
      | with_reducible assumption | extract_lets | intro _ _ _ | intro _ _ | with_reducible apply State.bump_kept
      | with_reducible apply State.sendQueue_kept | with_reducible apply State.Kept.foldl
      | with_reducible refine State.Kept.of_fst (by assumption) ?_ | split | dsimp +zetaDelta only

theorem State.accept_kept (h : s.Kept p) (a1 a2 a3 a4 a5) : (State.accept s a1 a2 a3 a4 a5).Kept p := by
  unfold State.accept
  repeat' first
      | with_reducible assumption | extract_lets | intro _ _ _ | intro _ _ | with_reducible apply State.oweAck_kept
      | with_reducible apply State.syncFrom_kept | with_reducible apply State.engineHears_kept
      | with_reducible apply State.deliver_kept | with_reducible apply State.engineTakes_kept
      | with_reducible apply State.floodIn_kept | with_reducible apply State.Kept.foldl
      | with_reducible refine State.Kept.of_fst (by assumption) ?_ | split | dsimp +zetaDelta only

theorem State.receive_kept (h : s.Kept p) (a1 a2 a3) : (State.receive s a1 a2 a3).Kept p := by
  unfold State.receive
  repeat' first
      | with_reducible assumption | extract_lets | intro _ _ _ | intro _ _
      | with_reducible apply State.bump_kept | with_reducible apply State.heardFrom_kept
      | with_reducible apply State.checkSecured_kept | with_reducible apply State.accept_kept
      | with_reducible apply State.Kept.foldl | with_reducible refine State.Kept.of_fst (by assumption) ?_
      | split
      | (with_reducible refine State.Kept.record ?_; first | with_reducible assumption | split | with_reducible apply State.bump_kept | with_reducible apply State.heardFrom_kept | with_reducible apply State.checkSecured_kept | with_reducible apply State.accept_kept | with_reducible refine State.Kept.of_fst (by assumption) ?_)
      | dsimp +zetaDelta only

theorem State.receiveAck_kept (h : s.Kept p) (a1 a2 a3) : (State.receiveAck s a1 a2 a3).Kept p := by
  unfold State.receiveAck
  repeat' first
      | with_reducible assumption | extract_lets | intro _ _ _ | intro _ _
      | with_reducible apply State.setFld_kept | with_reducible apply State.setFlag_kept
      | with_reducible apply State.onPort_kept | with_reducible apply State.heardFrom_kept
      | with_reducible apply State.finishFrame_kept | with_reducible apply State.checkSecured_kept
      | with_reducible apply State.correct_kept | with_reducible apply State.Kept.foldl
      | with_reducible refine State.Kept.of_fst (by assumption) ?_ | split
      | (with_reducible refine State.Kept.record ?_; first | with_reducible assumption | split | with_reducible apply State.setFld_kept | with_reducible apply State.setFlag_kept | with_reducible apply State.onPort_kept | with_reducible apply State.heardFrom_kept | with_reducible apply State.finishFrame_kept | with_reducible apply State.checkSecured_kept | with_reducible apply State.correct_kept | with_reducible refine State.Kept.of_fst (by assumption) ?_)
      | dsimp +zetaDelta only

theorem State.sealAck_kept {t : State} {x : List Octet} {a1} (e : s.sealAck a1 = some (t, x)) (h : s.Kept p) :
    t.Kept p := by
  unfold State.sealAck at e
  split at e
  · simp only [Option.some.injEq, Prod.mk.injEq] at e
    exact e.1 ▸ h
  · split at e
    · split at e
      · simp only [Option.some.injEq, Prod.mk.injEq] at e
        exact e.1 ▸ State.takeCounter_kept h _
      · cases e
    · cases e

theorem State.belfTake_kept (h : s.Kept p) (a1 a2 a3 a4) : (State.belfTake s a1 a2 a3 a4).Kept p := by
  unfold State.belfTake
  repeat' first
      | with_reducible assumption | extract_lets | intro _ _ _ | intro _ _
      | with_reducible apply State.onPort_kept | with_reducible apply State.loadBuf_kept
      | with_reducible apply State.keepBeacon_kept | with_reducible apply State.Kept.foldl
      | with_reducible refine State.Kept.of_fst (by assumption) ?_ | split
      | (with_reducible refine State.Kept.record ?_; first | with_reducible assumption | split | with_reducible apply State.onPort_kept | with_reducible apply State.loadBuf_kept | with_reducible apply State.keepBeacon_kept | with_reducible refine State.Kept.of_fst (by assumption) ?_)
      | dsimp +zetaDelta only

theorem State.portRisen_kept (h : s.Kept p) (a1) : (State.portRisen s a1).Kept p := by
  unfold State.portRisen
  repeat' first
      | with_reducible assumption | extract_lets | intro _ _ _ | intro _ _ | with_reducible apply State.setFlag_kept
      | with_reducible apply State.limitRestore_kept | with_reducible apply State.setLife_kept
      | with_reducible apply State.setNetState_kept | with_reducible apply State.nodeScans_kept
      | with_reducible apply State.Kept.foldl | with_reducible refine State.Kept.of_fst (by assumption) ?_ | split
      | dsimp +zetaDelta only

theorem State.portOff_kept (h : s.Kept p) (a1) : (State.portOff s a1).Kept p := by
  unfold State.portOff
  repeat' first
      | with_reducible assumption | extract_lets | intro _ _ _ | intro _ _ | with_reducible apply State.setBuf_kept
      | with_reducible apply State.outcome_kept | with_reducible apply State.setFlag_kept
      | with_reducible apply State.onPort_kept | with_reducible apply State.setNetState_kept
      | with_reducible apply State.xhfSync_kept | with_reducible apply State.unitOff_kept
      | with_reducible apply State.Kept.each | with_reducible apply State.Kept.foldl
      | with_reducible refine State.Kept.of_fst (by assumption) ?_ | split | dsimp +zetaDelta only

theorem State.belfryRecords_kept (h : s.Kept p) : (State.belfryRecords s).Kept p := by
  unfold State.belfryRecords
  repeat' first
      | with_reducible assumption | extract_lets | intro _ _ _ | intro _ _ | with_reducible apply State.onRadio_kept
      | with_reducible apply State.Kept.each | with_reducible apply State.Kept.foldl
      | with_reducible refine State.Kept.of_fst (by assumption) ?_ | split | dsimp +zetaDelta only

theorem State.belfryLost_kept (h : s.Kept p) : (State.belfryLost s).Kept p := by
  unfold State.belfryLost
  repeat' first
      | with_reducible assumption | extract_lets | intro _ _ _ | intro _ _ | with_reducible apply State.onRadio_kept
      | with_reducible apply State.Kept.foldl | with_reducible refine State.Kept.of_fst (by assumption) ?_ | split
      | dsimp +zetaDelta only

theorem State.belfryRisen_kept (h : s.Kept p) : (State.belfryRisen s).Kept p := by
  unfold State.belfryRisen
  repeat' first
      | with_reducible assumption | extract_lets | intro _ _ _ | intro _ _
      | with_reducible apply State.counterRise_kept | with_reducible apply State.spend_kept
      | with_reducible apply State.setNbr_kept | with_reducible apply State.belfFault_kept
      | with_reducible apply State.Kept.each | with_reducible apply State.Kept.foldl
      | with_reducible refine State.Kept.of_fst (by assumption) ?_ | split | dsimp +zetaDelta only

theorem State.storePctl_kept (h : s.Kept p) (a1 a2) : (State.storePctl s a1 a2).Kept p := by
  unfold State.storePctl
  repeat' first
      | with_reducible assumption | extract_lets | intro _ _ _ | intro _ _ | with_reducible apply State.setFlag_kept
      | with_reducible apply State.storeReg_kept | with_reducible apply State.xhfSync_kept
      | with_reducible apply State.enableActs_kept | with_reducible apply State.Kept.foldl
      | with_reducible refine State.Kept.of_fst (by assumption) ?_ | split | dsimp +zetaDelta only

theorem State.storeAsnHi_kept (h : s.Kept p) (a1 a2) : (State.storeAsnHi s a1 a2).Kept p := by
  unfold State.storeAsnHi
  repeat' first
      | with_reducible assumption | extract_lets | intro _ _ _ | intro _ _ | with_reducible apply State.onPort_kept
      | with_reducible apply State.Kept.foldl | with_reducible refine State.Kept.of_fst (by assumption) ?_ | split
      | dsimp +zetaDelta only

theorem State.storeAsnLo_kept (h : s.Kept p) (a1 a2) : (State.storeAsnLo s a1 a2).Kept p := by
  unfold State.storeAsnLo
  repeat' first
      | with_reducible assumption | extract_lets | intro _ _ _ | intro _ _ | with_reducible apply State.onPort_kept
      | with_reducible apply State.Kept.foldl | with_reducible refine State.Kept.of_fst (by assumption) ?_ | split
      | dsimp +zetaDelta only

theorem State.storeHop_kept (h : s.Kept p) (a1 a2) : (State.storeHop s a1 a2).Kept p := by
  unfold State.storeHop
  repeat' first
      | with_reducible assumption | extract_lets | intro _ _ _ | intro _ _ | with_reducible apply State.setFld_kept
      | with_reducible apply State.startHopGen_kept | with_reducible apply State.Kept.foldl
      | with_reducible refine State.Kept.of_fst (by assumption) ?_ | split | dsimp +zetaDelta only

theorem State.storeCell_kept (h : s.Kept p) (a1 a2 a3 a4) : (State.storeCell s a1 a2 a3 a4).Kept p := by
  unfold State.storeCell
  repeat' first
      | with_reducible assumption | extract_lets | intro _ _ _ | intro _ _ | with_reducible apply State.storeReg_kept
      | with_reducible apply State.Kept.putReg | with_reducible apply State.Kept.foldl
      | with_reducible refine State.Kept.of_fst (by assumption) ?_ | split | dsimp +zetaDelta only

theorem State.storePwr_kept (h : s.Kept p) (a1 a2) : (State.storePwr s a1 a2).Kept p := by
  unfold State.storePwr
  repeat' first
      | with_reducible assumption | extract_lets | intro _ _ _ | intro _ _ | with_reducible apply State.storeReg_kept
      | with_reducible apply State.setPower_kept | with_reducible apply State.Kept.foldl
      | with_reducible refine State.Kept.of_fst (by assumption) ?_ | split | dsimp +zetaDelta only

theorem State.loadBands_kept (h : s.Kept p) (a1 a2) : (State.loadBands s a1 a2).Kept p := by
  unfold State.loadBands
  repeat' first
      | with_reducible assumption | extract_lets | intro _ _ _ | intro _ _ | with_reducible apply State.Kept.putReg
      | with_reducible apply State.Kept.each | with_reducible apply State.Kept.foldl
      | with_reducible refine State.Kept.of_fst (by assumption) ?_ | split | dsimp +zetaDelta only

theorem State.storeLimcfg_kept (h : s.Kept p) (a1 a2) : (State.storeLimcfg s a1 a2).Kept p := by
  unfold State.storeLimcfg
  repeat' first
      | with_reducible assumption | extract_lets | intro _ _ _ | intro _ _ | with_reducible apply State.setFld_kept
      | with_reducible apply State.loadBands_kept | with_reducible apply State.Kept.foldl
      | with_reducible refine State.Kept.of_fst (by assumption) ?_ | split | dsimp +zetaDelta only

theorem State.storeNetctl_kept (h : s.Kept p) (a1 a2) : (State.storeNetctl s a1 a2).Kept p := by
  unfold State.storeNetctl
  repeat' first
      | with_reducible assumption | extract_lets | intro _ _ _ | intro _ _ | with_reducible apply State.storeReg_kept
      | with_reducible apply State.setFld_kept | with_reducible apply State.cFollows_kept
      | with_reducible apply State.Kept.foldl | with_reducible refine State.Kept.of_fst (by assumption) ?_ | split
      | dsimp +zetaDelta only

theorem State.nbrRead_kept (h : s.Kept p) : (State.nbrRead s).Kept p := by
  unfold State.nbrRead
  repeat' first
      | with_reducible assumption | extract_lets | intro _ _ _ | intro _ _ | with_reducible apply State.setFld_kept
      | with_reducible apply State.spend_kept | with_reducible apply State.Kept.putReg
      | with_reducible apply State.Kept.foldl | with_reducible refine State.Kept.of_fst (by assumption) ?_ | split
      | dsimp +zetaDelta only

theorem State.nbrWrite_kept (h : s.Kept p) : (State.nbrWrite s).Kept p := by
  unfold State.nbrWrite
  repeat' first
      | with_reducible assumption | extract_lets | intro _ _ _ | intro _ _
      | with_reducible apply State.setFld_kept | with_reducible apply State.setNbr_kept
      | with_reducible apply State.Kept.foldl | with_reducible refine State.Kept.of_fst (by assumption) ?_
      | split
      | (with_reducible refine State.Kept.record ?_; first | with_reducible assumption | split | with_reducible apply State.setFld_kept | with_reducible apply State.setNbr_kept | with_reducible refine State.Kept.of_fst (by assumption) ?_)
      | dsimp +zetaDelta only

theorem State.nbrDelete_kept (h : s.Kept p) : (State.nbrDelete s).Kept p := by
  unfold State.nbrDelete
  repeat' first
      | with_reducible assumption | extract_lets | intro _ _ _ | intro _ _ | with_reducible apply State.setFld_kept
      | with_reducible apply State.setNbr_kept | with_reducible apply State.endLease_kept
      | with_reducible apply State.Kept.foldl | with_reducible refine State.Kept.of_fst (by assumption) ?_ | split
      | dsimp +zetaDelta only

theorem State.storeNbrcmd_kept (h : s.Kept p) (a1) : (State.storeNbrcmd s a1).Kept p := by
  unfold State.storeNbrcmd
  repeat' first
      | with_reducible assumption | extract_lets | intro _ _ _ | intro _ _ | with_reducible apply State.nbrRead_kept
      | with_reducible apply State.nbrWrite_kept | with_reducible apply State.nbrDelete_kept
      | with_reducible apply State.Kept.foldl | with_reducible refine State.Kept.of_fst (by assumption) ?_ | split
      | dsimp +zetaDelta only

theorem State.loadNetstat_kept (h : s.Kept p) (a1) : (State.loadNetstat s a1).1.Kept p := by
  unfold State.loadNetstat
  repeat' first
      | with_reducible assumption | extract_lets | intro _ _ _ | intro _ _
      | with_reducible apply State.loadReg_kept | with_reducible apply State.Kept.foldl
      | with_reducible refine State.Kept.of_fst (by assumption) ?_ | split | dsimp +zetaDelta only

theorem State.holdAddr_kept (h : s.Kept p) (a1 a2 a3) : (State.holdAddr s a1 a2 a3).Kept p := by
  unfold State.holdAddr
  repeat' first
      | with_reducible assumption | extract_lets | intro _ _ _ | intro _ _
      | with_reducible apply State.Kept.foldl | with_reducible refine State.Kept.of_fst (by assumption) ?_
      | split
      | (with_reducible refine State.Kept.record ?_; first | with_reducible assumption | split | with_reducible refine State.Kept.of_fst (by assumption) ?_)
      | dsimp +zetaDelta only

theorem State.recvLife_kept (h : s.Kept p) (a1) : (State.recvLife s a1).Kept p := by
  unfold State.recvLife
  repeat' first
      | with_reducible assumption | extract_lets | intro _ _ _ | intro _ _ | with_reducible apply State.setFld_kept
      | with_reducible apply State.Kept.foldl | with_reducible refine State.Kept.of_fst (by assumption) ?_ | split
      | dsimp +zetaDelta only

theorem State.headerLeaves_kept (h : s.Kept p) (a1 a2 a3) : (State.headerLeaves s a1 a2 a3).Kept p := by
  unfold State.headerLeaves
  repeat' first
      | with_reducible assumption | extract_lets | intro _ _ _ | intro _ _
      | with_reducible apply State.headerTaken_kept | with_reducible apply State.Kept.foldl
      | with_reducible refine State.Kept.of_fst (by assumption) ?_ | split
      | (with_reducible refine State.Kept.record ?_; first | with_reducible assumption | split | with_reducible apply State.headerTaken_kept | with_reducible refine State.Kept.of_fst (by assumption) ?_)
      | dsimp +zetaDelta only

theorem State.recvWaddr_kept (h : s.Kept p) (a1 a2 a3) : (State.recvWaddr s a1 a2 a3).Kept p := by
  unfold State.recvWaddr
  repeat' first
      | with_reducible assumption | extract_lets | intro _ _ _ | intro _ _
      | with_reducible apply State.holdAddr_kept | with_reducible apply State.headerLeaves_kept
      | with_reducible apply State.Kept.foldl | with_reducible refine State.Kept.of_fst (by assumption) ?_
      | split | dsimp +zetaDelta only

theorem State.recvWdata_kept (h : s.Kept p) (a1 a2 a3 a4) : (State.recvWdata s a1 a2 a3 a4).Kept p := by
  unfold State.recvWdata
  repeat' first
      | with_reducible assumption | extract_lets | intro _ _ _ | intro _ _
      | with_reducible apply State.recvShot_kept | with_reducible apply State.recvHeader_kept
      | with_reducible apply State.recvGate_kept | with_reducible apply State.recvSummary_kept
      | with_reducible apply State.feedTake_kept | with_reducible apply State.Kept.foldl
      | with_reducible refine State.Kept.of_fst (by assumption) ?_ | split
      | (with_reducible refine State.Kept.record ?_; first | with_reducible assumption | split | with_reducible apply State.recvShot_kept | with_reducible apply State.recvHeader_kept | with_reducible apply State.recvGate_kept | with_reducible apply State.recvSummary_kept | with_reducible apply State.feedTake_kept | with_reducible refine State.Kept.of_fst (by assumption) ?_)
      | dsimp +zetaDelta only

theorem State.recvWord_kept (h : s.Kept p) (a1 a2 a3 a4) : (State.recvWord s a1 a2 a3 a4).Kept p := by
  unfold State.recvWord
  repeat' first
      | with_reducible assumption | extract_lets | intro _ _ _ | intro _ _
      | with_reducible apply State.recvQsel_kept | with_reducible apply State.recvQword_kept
      | with_reducible apply State.recvEvent_kept | with_reducible apply State.recvLag_kept
      | with_reducible apply State.recvReply_kept | with_reducible apply State.recvSample_kept
      | with_reducible apply State.verdictTaken_kept | with_reducible apply State.holdAddr_kept
      | with_reducible apply State.recvLife_kept | with_reducible apply State.recvWaddr_kept
      | with_reducible apply State.recvWdata_kept | with_reducible apply State.Kept.foldl
      | with_reducible refine State.Kept.of_fst (by assumption) ?_ | split
      | (with_reducible refine State.Kept.record ?_; first | with_reducible assumption | split | with_reducible apply State.recvQsel_kept | with_reducible apply State.recvQword_kept | with_reducible apply State.recvEvent_kept | with_reducible apply State.recvLag_kept | with_reducible apply State.recvReply_kept | with_reducible apply State.recvSample_kept | with_reducible apply State.verdictTaken_kept | with_reducible apply State.holdAddr_kept | with_reducible apply State.recvLife_kept | with_reducible apply State.recvWaddr_kept | with_reducible apply State.recvWdata_kept | with_reducible refine State.Kept.of_fst (by assumption) ?_)
      | dsimp +zetaDelta only

theorem State.portActive_kept (h : s.Kept p) (a1 a2) : (State.portActive s a1 a2).Kept p := by
  unfold State.portActive
  repeat' first
      | with_reducible assumption | extract_lets | intro _ _ _ | intro _ _ | with_reducible apply State.activity_kept
      | with_reducible apply State.Kept.foldl | with_reducible refine State.Kept.of_fst (by assumption) ?_ | split
      | dsimp +zetaDelta only

theorem State.takeFront_kept (h : s.Kept p) (a1 a2) : (State.takeFront s a1 a2).Kept p := by
  unfold State.takeFront
  repeat' first
      | with_reducible assumption | extract_lets | intro _ _ _ | intro _ _
      | with_reducible apply State.handshakeDone_kept | with_reducible apply State.recvWord_kept
      | with_reducible apply State.portActive_kept | with_reducible apply State.Kept.foldl
      | with_reducible refine State.Kept.of_fst (by assumption) ?_ | split
      | (with_reducible refine State.Kept.record ?_; first | with_reducible assumption | split | with_reducible apply State.handshakeDone_kept | with_reducible apply State.recvWord_kept | with_reducible apply State.portActive_kept | with_reducible refine State.Kept.of_fst (by assumption) ?_)
      | dsimp +zetaDelta only

theorem State.drainInbound_kept (h : s.Kept p) (a1) : (State.drainInbound s a1).Kept p := by
  unfold State.drainInbound
  repeat' first
      | with_reducible assumption | extract_lets | intro _ _ _ | intro _ _
      | with_reducible apply State.takeFront_kept | with_reducible apply State.Kept.each
      | with_reducible apply State.Kept.foldl | with_reducible refine State.Kept.of_fst (by assumption) ?_
      | split
      | (with_reducible refine State.Kept.record ?_; first | with_reducible assumption | split | with_reducible apply State.takeFront_kept | with_reducible apply State.Kept.each | with_reducible refine State.Kept.of_fst (by assumption) ?_)
      | dsimp +zetaDelta only

theorem State.drainOutbound_kept (h : s.Kept p) (a1) : (State.drainOutbound s a1).Kept p := by
  unfold State.drainOutbound
  repeat' first
      | with_reducible assumption | extract_lets | intro _ _ _ | intro _ _
      | with_reducible apply State.takeFront_kept | with_reducible apply State.Kept.each
      | with_reducible apply State.Kept.foldl | with_reducible refine State.Kept.of_fst (by assumption) ?_
      | split | dsimp +zetaDelta only

theorem State.eachInbound_kept (h : s.Kept p) (d : Domain) {f : State → Island → Island → State}
    (hf : ∀ s x y, State.Kept p s → (f s x y).Kept p) : (s.eachInbound d f).Kept p := by
  unfold State.eachInbound
  exact h.each _ fun _ y h => h.each _ fun s x h => hf s x y h

theorem State.setInbound_kept (h : s.Kept p) (a1 a2) : (s.setInbound a1 a2).Kept p :=
  State.eachInbound_kept h _ fun _ _ _ h => State.setStrait_kept h _ _ _

theorem State.closeInbound_kept (h : s.Kept p) (a1) : (s.closeInbound a1).Kept p :=
  State.eachInbound_kept h _ fun _ _ _ h => State.closeStrait_kept h _ _

theorem State.naveRecords_kept (h : s.Kept p) : (State.naveRecords s).Kept p := by
  unfold State.naveRecords
  repeat' first
      | with_reducible assumption | extract_lets | intro _ _ _ | intro _ _
      | with_reducible apply State.outRecords_kept | with_reducible apply State.belfryRecords_kept
      | with_reducible apply State.Kept.foldl | with_reducible refine State.Kept.of_fst (by assumption) ?_
      | split | dsimp +zetaDelta only

theorem State.deliveriesStop_kept (h : s.Kept p) (a1) : (State.deliveriesStop s a1).Kept p := by
  unfold State.deliveriesStop
  repeat' first
      | with_reducible assumption | extract_lets | intro _ _ _ | intro _ _
      | with_reducible apply State.breakOff_kept | with_reducible apply State.Kept.each
      | with_reducible apply State.Kept.foldl | with_reducible refine State.Kept.of_fst (by assumption) ?_
      | split | dsimp +zetaDelta only

theorem State.unitsFall_kept (h : s.Kept p) (a1) : (State.unitsFall s a1).Kept p := by
  unfold State.unitsFall
  repeat' first
      | with_reducible assumption | extract_lets | intro _ _ _ | intro _ _
      | with_reducible apply State.setLife_kept | with_reducible apply State.Kept.each
      | with_reducible apply State.Kept.foldl | with_reducible refine State.Kept.of_fst (by assumption) ?_
      | split | dsimp +zetaDelta only

theorem State.domainFalls_kept (h : s.Kept p) (a1) : (State.domainFalls s a1).Kept p := by
  unfold State.domainFalls
  repeat' first
      | with_reducible assumption | extract_lets | intro _ _ _ | intro _ _
      | with_reducible apply State.setDom_kept | with_reducible apply State.closeInbound_kept
      | with_reducible apply State.unitsFall_kept | with_reducible apply State.Kept.foldl
      | with_reducible refine State.Kept.of_fst (by assumption) ?_ | split | dsimp +zetaDelta only

theorem State.sharedFollows_kept (h : s.Kept p) : (State.sharedFollows s).Kept p := by
  unfold State.sharedFollows
  repeat' first
      | with_reducible assumption | extract_lets | intro _ _ _ | intro _ _
      | with_reducible apply State.queuesFall_kept | with_reducible apply State.domainFalls_kept
      | with_reducible apply State.Kept.foldl | with_reducible refine State.Kept.of_fst (by assumption) ?_
      | split | dsimp +zetaDelta only

theorem State.coreLost_kept (h : s.Kept p) (a1) : (State.coreLost s a1).Kept p := by
  unfold State.coreLost
  repeat' first
      | with_reducible assumption | extract_lets | intro _ _ _ | intro _ _ | with_reducible apply State.setFlag_kept
      | with_reducible apply State.clearWdog_kept | with_reducible apply State.Kept.setCore
      | with_reducible apply Core.Sound.afterReset | with_reducible apply State.Kept.core
      | with_reducible exact Core.Sound.same (by assumption)
      | with_reducible exact Core.Sound.same (State.Kept.core (by assumption) _)
      | with_reducible apply State.Kept.foldl | with_reducible refine State.Kept.of_fst (by assumption) ?_ | split
      | dsimp +zetaDelta only

theorem State.choirLost_kept (h : s.Kept p) : (State.choirLost s).Kept p := by
  unfold State.choirLost
  repeat' first
      | with_reducible assumption | extract_lets | intro _ _ _ | intro _ _ | with_reducible apply State.coreLost_kept
      | with_reducible apply State.qtyLost_kept | with_reducible apply State.streamsLost_kept
      | with_reducible apply State.islesLost_kept | with_reducible apply State.Kept.foldl
      | with_reducible refine State.Kept.of_fst (by assumption) ?_ | split | dsimp +zetaDelta only

theorem State.naveLost_kept (h : s.Kept p) : (State.naveLost s).Kept p := by
  unfold State.naveLost
  repeat' first
      | with_reducible assumption | extract_lets | intro _ _ _ | intro _ _ | with_reducible apply State.coreLost_kept
      | with_reducible apply State.belfryLost_kept | with_reducible apply State.outLost_kept
      | with_reducible apply State.Kept.foldl | with_reducible refine State.Kept.of_fst (by assumption) ?_ | split
      | (with_reducible refine State.Kept.record ?_; first | with_reducible assumption | split | with_reducible apply State.coreLost_kept | with_reducible apply State.belfryLost_kept | with_reducible apply State.outLost_kept | with_reducible refine State.Kept.of_fst (by assumption) ?_)
      | dsimp +zetaDelta only

theorem State.banksLost_kept (h : s.Kept p) : (State.banksLost s).Kept p := by
  unfold State.banksLost
  repeat' first
      | with_reducible assumption | extract_lets | intro _ _ _ | intro _ _ | with_reducible apply State.cimLost_kept
      | with_reducible apply State.Kept.foldl | with_reducible refine State.Kept.of_fst (by assumption) ?_ | split
      | (with_reducible refine State.Kept.record ?_; first | with_reducible assumption | split | with_reducible apply State.cimLost_kept | with_reducible refine State.Kept.of_fst (by assumption) ?_)
      | dsimp +zetaDelta only

theorem State.fallStart_kept (h : s.Kept p) (a1) : (State.fallStart s a1).Kept p := by
  unfold State.fallStart
  repeat' first
      | with_reducible assumption | extract_lets | intro _ _ _ | intro _ _
      | with_reducible apply State.onCrypt_kept | with_reducible apply State.feedRecall_kept
      | with_reducible apply State.deliveriesStop_kept | with_reducible apply State.domainFalls_kept
      | with_reducible apply State.sharedFollows_kept | with_reducible apply State.Kept.foldl
      | with_reducible refine State.Kept.of_fst (by assumption) ?_ | split
      | (with_reducible refine State.Kept.record ?_; first | with_reducible assumption | split | with_reducible apply State.onCrypt_kept | with_reducible apply State.feedRecall_kept | with_reducible apply State.deliveriesStop_kept | with_reducible apply State.domainFalls_kept | with_reducible apply State.sharedFollows_kept | with_reducible refine State.Kept.of_fst (by assumption) ?_)
      | dsimp +zetaDelta only

theorem State.mirrorOff_kept (h : s.Kept p) (a1) : (State.mirrorOff s a1).Kept p := by
  unfold State.mirrorOff
  repeat' first
      | with_reducible assumption | extract_lets | intro _ _ _ | intro _ _ | with_reducible apply State.setFld_kept
      | with_reducible apply State.Kept.each | with_reducible apply State.Kept.foldl
      | with_reducible refine State.Kept.of_fst (by assumption) ?_ | split | dsimp +zetaDelta only

theorem State.drain_kept (h : s.Kept p) (a1) : (State.drain s a1).Kept p := by
  unfold State.drain
  repeat' first
      | with_reducible assumption | extract_lets | intro _ _ _ | intro _ _
      | with_reducible apply State.drainInbound_kept | with_reducible apply State.drainOutbound_kept
      | with_reducible apply State.setInbound_kept | with_reducible apply State.naveRecords_kept
      | with_reducible apply State.Kept.foldl | with_reducible refine State.Kept.of_fst (by assumption) ?_
      | split
      | (with_reducible refine State.Kept.record ?_; first | with_reducible assumption | split | with_reducible apply State.drainInbound_kept | with_reducible apply State.drainOutbound_kept | with_reducible apply State.setInbound_kept | with_reducible apply State.naveRecords_kept | with_reducible refine State.Kept.of_fst (by assumption) ?_)
      | dsimp +zetaDelta only

theorem State.powerOff_kept (h : s.Kept p) (a1) : (s.powerOff a1).Kept p := by
  have h2 := State.setDom_kept (State.drain_kept h a1) a1 0
  have h3 : ∀ (w : List Wire) (x : List (Nat × Option WriteAddr)), State.Kept p
      { (s.drain a1).setDom a1 0 with wires := w, waddr := x, regs := tdrop (lostWith a1) ((s.drain a1).setDom a1 0).regs } :=
    fun w x => ⟨h2.queue, ⟨twf_tdrop _ h2.sound.regs, h2.sound.config, h2.sound.choir, h2.sound.nave⟩⟩
  unfold State.powerOff
  cases a1
  · exact State.mirrorOff_kept (h3 _ _) _
  · exact State.xhfSync_kept (State.queuesLose_kept (State.choirLost_kept (State.mirrorOff_kept (h3 _ _) _)) _)
  · exact State.xhfSync_kept (State.queuesLose_kept (State.naveLost_kept (State.mirrorOff_kept (h3 _ _) _)) _)
  · exact State.queuesOff_kept (State.banksLost_kept (State.mirrorOff_kept (h3 _ _) _))

theorem State.fallFinish_kept (h : s.Kept p) (a1) : (State.fallFinish s a1).Kept p := by
  unfold State.fallFinish
  repeat' first
      | with_reducible assumption | extract_lets | intro _ _ _ | intro _ _
      | with_reducible apply State.onCrypt_kept | with_reducible apply State.setDom_kept
      | with_reducible apply State.powerOff_kept | with_reducible apply State.Kept.foldl
      | with_reducible refine State.Kept.of_fst (by assumption) ?_ | split
      | (with_reducible refine State.Kept.record ?_; first | with_reducible assumption | split | with_reducible apply State.onCrypt_kept | with_reducible apply State.setDom_kept | with_reducible apply State.powerOff_kept | with_reducible refine State.Kept.of_fst (by assumption) ?_)
      | dsimp +zetaDelta only

theorem State.takeDown_kept (h : s.Kept p) (a1) : (State.takeDown s a1).Kept p := by
  unfold State.takeDown
  repeat' first
      | with_reducible assumption | extract_lets | intro _ _ _ | intro _ _ | with_reducible apply State.onCrypt_kept
      | with_reducible apply State.setDom_kept | with_reducible apply State.fallStart_kept
      | with_reducible apply State.fallFinish_kept | with_reducible apply State.Kept.foldl
      | with_reducible refine State.Kept.of_fst (by assumption) ?_ | split | dsimp +zetaDelta only

theorem State.takeAllDown_kept (h : s.Kept p) : (State.takeAllDown s).Kept p := by
  unfold State.takeAllDown
  repeat' first
      | with_reducible assumption | extract_lets | intro _ _ _ | intro _ _ | with_reducible apply State.takeDown_kept
      | with_reducible apply State.Kept.foldl | with_reducible refine State.Kept.of_fst (by assumption) ?_ | split
      | dsimp +zetaDelta only

theorem State.askRise_kept (h : s.Kept p) (a1) : (State.askRise s a1).Kept p := by
  unfold State.askRise
  repeat' first
      | with_reducible assumption | extract_lets | intro _ _ _ | intro _ _ | with_reducible apply State.setDom_kept
      | with_reducible apply State.onCrypt_kept | with_reducible apply State.Kept.foldl
      | with_reducible refine State.Kept.of_fst (by assumption) ?_ | split | dsimp +zetaDelta only

theorem State.startDomains_kept (h : s.Kept p) (a1 a2) : (State.startDomains s a1 a2).Kept p := by
  unfold State.startDomains
  repeat' first
      | with_reducible assumption | extract_lets | intro _ _ _ | intro _ _ | with_reducible apply State.setFld_kept
      | with_reducible apply State.onCrypt_kept | with_reducible apply State.askRise_kept
      | with_reducible apply State.Kept.foldl | with_reducible refine State.Kept.of_fst (by assumption) ?_ | split
      | dsimp +zetaDelta only

theorem State.wakeUp_kept (h : s.Kept p) (a1) : (State.wakeUp s a1).Kept p := by
  unfold State.wakeUp
  repeat' first
      | with_reducible assumption | extract_lets | intro _ _ _ | intro _ _
      | with_reducible apply State.startDomains_kept | with_reducible apply State.Kept.foldl
      | with_reducible refine State.Kept.of_fst (by assumption) ?_ | split | dsimp +zetaDelta only

theorem State.suspend_kept (h : s.Kept p) : (State.suspend s).Kept p := by
  unfold State.suspend
  repeat' first
      | with_reducible assumption | extract_lets | intro _ _ _ | intro _ _ | with_reducible apply State.setFlag_kept
      | with_reducible apply State.Kept.foldl | with_reducible refine State.Kept.of_fst (by assumption) ?_ | split
      | dsimp +zetaDelta only

theorem State.naveFollows_kept (h : s.Kept p) : (State.naveFollows s).Kept p := by
  unfold State.naveFollows
  repeat' first
      | with_reducible assumption | extract_lets | intro _ _ _ | intro _ _ | with_reducible apply State.setDom_kept
      | with_reducible apply State.onCrypt_kept | with_reducible apply State.Kept.foldl
      | with_reducible refine State.Kept.of_fst (by assumption) ?_ | split | dsimp +zetaDelta only

theorem State.setV_kept (h : s.Kept p) (a1) : (State.setV s a1).Kept p := by
  unfold State.setV
  repeat' first
      | with_reducible assumption | extract_lets | intro _ _ _ | intro _ _
      | with_reducible apply State.clearTests_kept | with_reducible apply State.naveFollows_kept
      | with_reducible apply State.suspend_kept | with_reducible apply State.setFlag_kept
      | with_reducible apply State.Kept.foldl | with_reducible refine State.Kept.of_fst (by assumption) ?_ | split
      | dsimp +zetaDelta only

theorem State.guardEnter_kept (h : s.Kept p) : (State.guardEnter s).Kept p := by
  unfold State.guardEnter
  repeat' first
      | with_reducible assumption | extract_lets | intro _ _ _ | intro _ _ | with_reducible apply State.suspend_kept
      | with_reducible apply State.setFlag_kept | with_reducible apply State.writeGuardWord_kept
      | with_reducible apply State.logEvent_kept | with_reducible apply State.raiseBoth_kept
      | with_reducible apply State.startCommit_kept | with_reducible apply State.qtyGuardEnter_kept
      | with_reducible apply State.lastBeaconStart_kept | with_reducible apply State.fallStart_kept
      | with_reducible apply State.Kept.foldl | with_reducible refine State.Kept.of_fst (by assumption) ?_ | split
      | dsimp +zetaDelta only

theorem State.guardExit_kept (h : s.Kept p) : (State.guardExit s).Kept p := by
  unfold State.guardExit
  repeat' first
      | with_reducible assumption | extract_lets | intro _ _ _ | intro _ _ | with_reducible apply State.suspend_kept
      | with_reducible apply State.setFlag_kept | with_reducible apply State.raiseBoth_kept
      | with_reducible apply State.logEvent_kept | with_reducible apply State.startCommit_kept
      | with_reducible apply State.setDom_kept | with_reducible apply State.onCrypt_kept
      | with_reducible apply State.Kept.foldl | with_reducible refine State.Kept.of_fst (by assumption) ?_ | split
      | dsimp +zetaDelta only

theorem State.guardSync_kept (h : s.Kept p) : (State.guardSync s).Kept p := by
  unfold State.guardSync
  repeat' first
      | with_reducible assumption | extract_lets | intro _ _ _ | intro _ _
      | with_reducible apply State.guardEnter_kept | with_reducible apply State.guardExit_kept
      | with_reducible apply State.Kept.foldl | with_reducible refine State.Kept.of_fst (by assumption) ?_ | split
      | dsimp +zetaDelta only

theorem State.portFallen_kept (h : s.Kept p) (a1) : (State.portFallen s a1).Kept p := by
  unfold State.portFallen
  repeat' first
      | with_reducible assumption | extract_lets | intro _ _ _ | intro _ _ | with_reducible apply State.portOff_kept
      | with_reducible apply State.fallStart_kept | with_reducible apply State.Kept.foldl
      | with_reducible refine State.Kept.of_fst (by assumption) ?_ | split | dsimp +zetaDelta only

theorem State.sealMirror_kept (h : s.Kept p) : (State.sealMirror s).Kept p := by
  unfold State.sealMirror
  repeat' first
      | with_reducible assumption | extract_lets | intro _ _ _ | intro _ _ | with_reducible apply State.setFld_kept
      | with_reducible apply State.Kept.foldl | with_reducible refine State.Kept.of_fst (by assumption) ?_ | split
      | dsimp +zetaDelta only

theorem State.flashPut_kept (h : s.Kept p) (u : FlashUnit) (a : Nat) (l : List Octet) : (s.flashPut u a l).Kept p :=
    by
  unfold State.flashPut
  cases u with
  | core c => exact h.onCore c fun k hk => hk.setBytes _ _
  | config =>
    have hc : ∀ (m : List Host.Cell) (a : Nat), twf (fun _ => (0xFF : Octet)) m = true →
        twf (fun _ => (0xFF : Octet)) (configPut m a l) = true := by
      induction l with
      | nil => exact fun _ _ h => h
      | cons v rest ih => exact fun _ _ h => ih _ _ (twf_tput h _ _)
    exact ⟨h.queue, { h.sound with config := hc _ _ h.sound.config }⟩

theorem State.setFlashOp_kept (h : s.Kept p) (a1 a2) : (State.setFlashOp s a1 a2).Kept p := by
  unfold State.setFlashOp
  repeat' first
      | with_reducible assumption | extract_lets | intro _ _ _ | intro _ _ | with_reducible apply State.Kept.onSacr
      | exact fun _ => rfl | with_reducible apply State.Kept.foldl
      | with_reducible refine State.Kept.of_fst (by assumption) ?_ | split | dsimp +zetaDelta only

theorem State.flashCommand_kept (h : s.Kept p) (a1 a2) : (State.flashCommand s a1 a2).Kept p := by
  unfold State.flashCommand
  repeat' first
      | with_reducible assumption | extract_lets | intro _ _ _ | intro _ _ | with_reducible apply State.setFld_kept
      | with_reducible apply State.setFlag_kept | with_reducible apply State.setFlashOp_kept
      | with_reducible apply State.logEvent_kept | with_reducible apply State.Kept.onSacr | exact fun _ => rfl
      | with_reducible apply State.Kept.foldl | with_reducible refine State.Kept.of_fst (by assumption) ?_ | split
      | dsimp +zetaDelta only

theorem State.flashDone_kept (h : s.Kept p) (a1 a2) : (State.flashDone s a1 a2).Kept p := by
  unfold State.flashDone
  repeat' first
      | with_reducible assumption | extract_lets | intro _ _ _ | intro _ _
      | with_reducible apply State.setFlashOp_kept | with_reducible apply State.setFlag_kept
      | with_reducible apply State.flashPut_kept | with_reducible apply State.setFld_kept
      | with_reducible apply State.spend_kept | with_reducible apply State.Kept.foldl
      | with_reducible refine State.Kept.of_fst (by assumption) ?_ | split | dsimp +zetaDelta only

theorem State.storeImgctl_kept (h : s.Kept p) (a1 a2) : (State.storeImgctl s a1 a2).Kept p := by
  unfold State.storeImgctl
  repeat' first
      | with_reducible assumption | extract_lets | intro _ _ _ | intro _ _
      | with_reducible apply State.flashCommand_kept | with_reducible apply State.Kept.foldl
      | with_reducible refine State.Kept.of_fst (by assumption) ?_ | split | dsimp +zetaDelta only

theorem State.storeCfgctl_kept (h : s.Kept p) (a1) : (State.storeCfgctl s a1).Kept p := by
  unfold State.storeCfgctl
  repeat' first
      | with_reducible assumption | extract_lets | intro _ _ _ | intro _ _
      | with_reducible apply State.flashCommand_kept | with_reducible apply State.logEvent_kept
      | with_reducible apply State.setFld_kept | with_reducible apply State.Kept.foldl
      | with_reducible refine State.Kept.of_fst (by assumption) ?_ | split | dsimp +zetaDelta only

theorem State.readCfgdata_kept (h : s.Kept p) : (State.readCfgdata s).1.Kept p := by
  unfold State.readCfgdata
  repeat' first
      | with_reducible assumption | extract_lets | intro _ _ _ | intro _ _ | with_reducible apply State.setFld_kept
      | with_reducible apply State.Kept.foldl | with_reducible refine State.Kept.of_fst (by assumption) ?_ | split
      | dsimp +zetaDelta only

theorem State.supplies_kept (h : s.Kept p) (a1 a2) : (State.supplies s a1 a2).Kept p := by
  unfold State.supplies
  repeat' first
      | with_reducible assumption | extract_lets | intro _ _ _ | intro _ _ | with_reducible apply State.onCrypt_kept
      | with_reducible apply State.setFlag_kept | with_reducible apply State.Kept.foldl
      | with_reducible refine State.Kept.of_fst (by assumption) ?_ | split | dsimp +zetaDelta only

theorem State.compareAgain_kept (h : s.Kept p) : (State.compareAgain s).Kept p := by
  unfold State.compareAgain
  repeat' first
      | with_reducible assumption | extract_lets | intro _ _ _ | intro _ _
      | with_reducible apply State.supplies_kept | with_reducible apply State.Kept.foldl
      | with_reducible refine State.Kept.of_fst (by assumption) ?_ | split | dsimp +zetaDelta only

theorem State.boostSync_kept (h : s.Kept p) : (State.boostSync s).Kept p := by
  unfold State.boostSync
  repeat' first
      | with_reducible assumption | extract_lets | intro _ _ _ | intro _ _ | with_reducible apply State.setFlag_kept
      | with_reducible apply State.Kept.foldl | with_reducible refine State.Kept.of_fst (by assumption) ?_ | split
      | dsimp +zetaDelta only

theorem State.bandSync_kept (h : s.Kept p) : (State.bandSync s).Kept p := by
  unfold State.bandSync
  repeat' first
      | with_reducible assumption | extract_lets | intro _ _ _ | intro _ _
      | with_reducible apply State.setFlag_kept | with_reducible apply State.Kept.foldl
      | with_reducible refine State.Kept.of_fst (by assumption) ?_ | split | dsimp +zetaDelta only

theorem State.storeVpulcfg_kept (h : s.Kept p) (a1) : (State.storeVpulcfg s a1).Kept p := by
  unfold State.storeVpulcfg
  repeat' first
      | with_reducible assumption | extract_lets | intro _ _ _ | intro _ _
      | with_reducible apply State.setFld_kept | with_reducible apply State.boostSync_kept
      | with_reducible apply State.bandSync_kept | with_reducible apply State.Kept.foldl
      | with_reducible refine State.Kept.of_fst (by assumption) ?_ | split | dsimp +zetaDelta only

theorem State.storeVpulstat_kept (h : s.Kept p) (a1) : (State.storeVpulstat s a1).Kept p := by
  unfold State.storeVpulstat
  repeat' first
      | with_reducible assumption | extract_lets | intro _ _ _ | intro _ _
      | with_reducible apply State.setFlag_kept | with_reducible apply State.boostSync_kept
      | with_reducible apply State.Kept.foldl | with_reducible refine State.Kept.of_fst (by assumption) ?_
      | split | dsimp +zetaDelta only

theorem State.boostFault_kept (h : s.Kept p) (a1) : (State.boostFault s a1).Kept p := by
  unfold State.boostFault
  repeat' first
      | with_reducible assumption | extract_lets | intro _ _ _ | intro _ _
      | with_reducible apply State.raiseBit_kept | with_reducible apply State.onCrypt_kept
      | with_reducible apply State.raiseEvent_kept | with_reducible apply State.boostSync_kept
      | with_reducible apply State.Kept.foldl | with_reducible refine State.Kept.of_fst (by assumption) ?_
      | split
      | (with_reducible refine State.Kept.record ?_; first | with_reducible assumption | split | with_reducible apply State.raiseBit_kept | with_reducible apply State.onCrypt_kept | with_reducible apply State.raiseEvent_kept | with_reducible apply State.boostSync_kept | with_reducible refine State.Kept.of_fst (by assumption) ?_)
      | dsimp +zetaDelta only

theorem State.measure_kept (h : s.Kept p) : (State.measure s).Kept p := by
  unfold State.measure
  repeat' first
      | with_reducible assumption | extract_lets | intro _ _ _ | intro _ _ | with_reducible apply State.spend_kept
      | with_reducible apply State.setFld_kept | with_reducible apply State.Kept.foldl
      | with_reducible refine State.Kept.of_fst (by assumption) ?_ | split | dsimp +zetaDelta only

theorem State.storePwrcfg_kept (h : s.Kept p) (a1) : (State.storePwrcfg s a1).Kept p := by
  unfold State.storePwrcfg
  repeat' first
      | with_reducible assumption | extract_lets | intro _ _ _ | intro _ _
      | with_reducible apply State.setFld_kept | with_reducible apply State.compareAgain_kept
      | with_reducible apply State.measure_kept | with_reducible apply State.Kept.foldl
      | with_reducible refine State.Kept.of_fst (by assumption) ?_ | split | dsimp +zetaDelta only

theorem State.enterHold_kept (h : s.Kept p) : (State.enterHold s).Kept p := by
  unfold State.enterHold
  repeat' first
      | with_reducible assumption | extract_lets | intro _ _ _ | intro _ _
      | with_reducible apply State.setFld_kept | with_reducible apply State.setFlag_kept
      | with_reducible apply State.onCrypt_kept | with_reducible apply State.takeAllDown_kept
      | with_reducible apply State.boostSync_kept | with_reducible apply State.Kept.foldl
      | with_reducible refine State.Kept.of_fst (by assumption) ?_ | split
      | (with_reducible refine State.Kept.record ?_; first | with_reducible assumption | split | with_reducible apply State.setFld_kept | with_reducible apply State.setFlag_kept | with_reducible apply State.onCrypt_kept | with_reducible apply State.takeAllDown_kept | with_reducible apply State.boostSync_kept | with_reducible refine State.Kept.of_fst (by assumption) ?_)
      | dsimp +zetaDelta only

theorem State.pathEvents_kept (h : s.Kept p) : (State.pathEvents s).Kept p := by
  unfold State.pathEvents
  repeat' first
      | with_reducible assumption | extract_lets | intro _ _ _ | intro _ _
      | with_reducible apply State.raiseBoth_kept | with_reducible apply State.Kept.foldl
      | with_reducible refine State.Kept.of_fst (by assumption) ?_ | split | dsimp +zetaDelta only

theorem State.toBackup_kept (h : s.Kept p) : (State.toBackup s).Kept p := by
  unfold State.toBackup
  repeat' first
      | with_reducible assumption | extract_lets | intro _ _ _ | intro _ _
      | with_reducible apply State.boostSync_kept | with_reducible apply State.bump_kept
      | with_reducible apply State.setFld_kept | with_reducible apply State.radioPathLost_kept
      | with_reducible apply State.pathEvents_kept | with_reducible apply State.guardSync_kept
      | with_reducible apply State.setFlag_kept | with_reducible apply State.Kept.foldl
      | with_reducible refine State.Kept.of_fst (by assumption) ?_ | split | dsimp +zetaDelta only

theorem State.toMain_kept (h : s.Kept p) : (State.toMain s).Kept p := by
  unfold State.toMain
  repeat' first
      | with_reducible assumption | extract_lets | intro _ _ _ | intro _ _
      | with_reducible apply State.pathEvents_kept | with_reducible apply State.boostSync_kept
      | with_reducible apply State.setFld_kept | with_reducible apply State.Kept.foldl
      | with_reducible refine State.Kept.of_fst (by assumption) ?_ | split | dsimp +zetaDelta only

theorem State.cryptReset_kept (h : s.Kept p) : s.cryptReset.Kept p := by
  have h1 := State.takeAllDown_kept h
  have h2 : ∀ (f : Nat → Bool) (c : Crypt) (q : Qty) (o : Outp) (r : Radio), State.Kept p
      { s.takeAllDown with regs := tdrop f s.takeAllDown.regs, crypt := c, qty := q, outp := o, radio := r } :=
    fun _ _ _ _ _ => ⟨h1.queue, ⟨twf_tdrop _ h1.sound.regs, h1.sound.config, h1.sound.choir, h1.sound.nave⟩⟩
  unfold State.cryptReset
  exact State.setFlag_kept (State.setFlag_kept (State.sealMirror_kept (State.setDom_kept
    (State.setDom_kept (State.setDom_kept (h2 _ _ _ _ _) _ _) _ _) _ _)) _ _) _ _

theorem State.cryptStarts_kept (h : s.Kept p) (a1 a2) : (State.cryptStarts s a1 a2).Kept p := by
  unfold State.cryptStarts
  repeat' first
      | with_reducible assumption | extract_lets | intro _ _ _ | intro _ _
      | with_reducible apply State.setFld_kept | with_reducible apply State.supplies_kept
      | with_reducible apply State.boostSync_kept | with_reducible apply State.cryptReset_kept
      | with_reducible apply State.Kept.foldl | with_reducible refine State.Kept.of_fst (by assumption) ?_
      | split | dsimp +zetaDelta only

theorem State.cryptUnpowered_kept (h : s.Kept p) (a1 a2) : (State.cryptUnpowered s a1 a2).Kept p := by
  unfold State.cryptUnpowered
  repeat' first
      | with_reducible assumption | extract_lets | intro _ _ _ | intro _ _
      | with_reducible apply State.onCrypt_kept | with_reducible apply State.setDom_kept
      | with_reducible apply State.cryptReset_kept | with_reducible apply State.Kept.foldl
      | with_reducible refine State.Kept.of_fst (by assumption) ?_ | split
      | (with_reducible refine State.Kept.record ?_; first | with_reducible assumption | split | with_reducible apply State.onCrypt_kept | with_reducible apply State.setDom_kept | with_reducible apply State.cryptReset_kept | with_reducible refine State.Kept.of_fst (by assumption) ?_)
      | dsimp +zetaDelta only

theorem State.commitStaged_kept (h : s.Kept p) : (State.commitStaged s).Kept p := by
  unfold State.commitStaged
  repeat' first
      | with_reducible assumption | extract_lets | intro _ _ _ | intro _ _ | with_reducible apply State.onCrypt_kept
      | with_reducible apply State.Kept.foldl | with_reducible refine State.Kept.of_fst (by assumption) ?_ | split
      | dsimp +zetaDelta only

theorem State.secondEdge_kept (h : s.Kept p) : (State.secondEdge s).Kept p := by
  unfold State.secondEdge
  repeat' first
      | with_reducible assumption | extract_lets | intro _ _ _ | intro _ _
      | with_reducible apply State.setFlag_kept | with_reducible apply State.onCrypt_kept
      | with_reducible apply State.logEvent_kept | with_reducible apply State.qtySecond_kept
      | with_reducible apply State.netSecond_kept | with_reducible apply State.wakeUp_kept
      | with_reducible apply State.Kept.putReg | with_reducible apply State.Kept.foldl
      | with_reducible refine State.Kept.of_fst (by assumption) ?_ | split
      | (with_reducible refine State.Kept.record ?_; first | with_reducible assumption | split | with_reducible apply State.setFlag_kept | with_reducible apply State.onCrypt_kept | with_reducible apply State.logEvent_kept | with_reducible apply State.qtySecond_kept | with_reducible apply State.netSecond_kept | with_reducible apply State.wakeUp_kept | with_reducible refine State.Kept.of_fst (by assumption) ?_)
      | dsimp +zetaDelta only

theorem State.wdogTicks_kept (h : s.Kept p) (a1 a2) : (State.wdogTicks s a1 a2).Kept p := by
  unfold State.wdogTicks
  repeat' first
      | with_reducible assumption | extract_lets | intro _ _ _ | intro _ _
      | with_reducible apply State.coreReset_kept | with_reducible apply State.onCrypt_kept
      | with_reducible apply State.Kept.foldl | with_reducible refine State.Kept.of_fst (by assumption) ?_ | split
      | dsimp +zetaDelta only

theorem State.moveTicks_kept (h : s.Kept p) (a1) : (State.moveTicks s a1).Kept p := by
  unfold State.moveTicks
  repeat' first
      | with_reducible assumption | extract_lets | intro _ _ _ | intro _ _
      | with_reducible apply State.endPeriod_kept | with_reducible apply State.onCrypt_kept
      | with_reducible apply State.Kept.foldl | with_reducible refine State.Kept.of_fst (by assumption) ?_
      | split
      | (with_reducible refine State.Kept.record ?_; first | with_reducible assumption | split | with_reducible apply State.endPeriod_kept | with_reducible apply State.onCrypt_kept | with_reducible refine State.Kept.of_fst (by assumption) ?_)
      | dsimp +zetaDelta only

theorem State.passTo_kept (h : s.Kept p) (a1) : (State.passTo s a1).Kept p := by
  unfold State.passTo
  repeat' first
      | with_reducible assumption | extract_lets | intro _ _ _ | intro _ _
      | with_reducible apply State.wakeDeadline_kept | with_reducible apply State.fireTimer_kept
      | with_reducible apply State.commitStaged_kept | with_reducible apply State.secondEdge_kept
      | with_reducible apply State.wdogTicks_kept | with_reducible apply State.moveTicks_kept
      | with_reducible apply State.Kept.each | with_reducible apply State.Kept.foldl
      | with_reducible refine State.Kept.of_fst (by assumption) ?_ | split | dsimp +zetaDelta only

theorem State.passTicks_kept (h : s.Kept p) (a1 n) : (State.passTicks s a1 n).Kept p := by
  induction n generalizing s a1 with
  | zero =>
    unfold State.passTicks
    repeat' first
        | with_reducible assumption | extract_lets | intro _ _ _ | intro _ _
        | with_reducible apply State.passTo_kept | with_reducible apply State.Kept.foldl
        | with_reducible refine State.Kept.of_fst (by assumption) ?_ | split | dsimp +zetaDelta only
  | succ k ih =>
    unfold State.passTicks
    repeat' first
        | with_reducible assumption | extract_lets | intro _ _ _ | intro _ _ | with_reducible apply ih
        | with_reducible apply State.passTo_kept | with_reducible apply State.Kept.foldl
        | with_reducible refine State.Kept.of_fst (by assumption) ?_ | split | dsimp +zetaDelta only

theorem State.advance_kept (h : s.Kept p) (a1) : (State.advance s a1).Kept p := by
  unfold State.advance
  repeat' first
      | with_reducible assumption | extract_lets | intro _ _ _ | intro _ _
      | with_reducible apply State.passTicks_kept | with_reducible apply State.Kept.foldl
      | with_reducible refine State.Kept.of_fst (by assumption) ?_ | split | dsimp +zetaDelta only

theorem State.storeTimeNew_kept (h : s.Kept p) (a1) : (State.storeTimeNew s a1).Kept p := by
  unfold State.storeTimeNew
  repeat' first
      | with_reducible assumption | extract_lets | intro _ _ _ | intro _ _ | with_reducible apply State.setFlag_kept
      | with_reducible apply State.onCrypt_kept | with_reducible apply State.Kept.foldl
      | with_reducible refine State.Kept.of_fst (by assumption) ?_ | split | dsimp +zetaDelta only

theorem State.setLatch_kept (h : s.Kept p) (a1 a2) : (State.setLatch s a1 a2).Kept p := by
  unfold State.setLatch
  repeat' first
      | with_reducible assumption | extract_lets | intro _ _ _ | intro _ _ | with_reducible apply State.onCrypt_kept
      | with_reducible apply State.Kept.foldl | with_reducible refine State.Kept.of_fst (by assumption) ?_ | split
      | dsimp +zetaDelta only

theorem State.readTimeSub_kept (h : s.Kept p) (a1) : (State.readTimeSub s a1).1.Kept p := by
  unfold State.readTimeSub
  repeat' first
      | with_reducible assumption | extract_lets | intro _ _ _ | intro _ _ | with_reducible apply State.setLatch_kept
      | with_reducible apply State.Kept.foldl | with_reducible refine State.Kept.of_fst (by assumption) ?_ | split
      | dsimp +zetaDelta only

theorem State.readTimeSec_kept (h : s.Kept p) (a1) : (State.readTimeSec s a1).1.Kept p := by
  unfold State.readTimeSec
  repeat' first
      | with_reducible assumption | extract_lets | intro _ _ _ | intro _ _ | with_reducible apply State.setLatch_kept
      | with_reducible apply State.Kept.foldl | with_reducible refine State.Kept.of_fst (by assumption) ?_ | split
      | dsimp +zetaDelta only

theorem State.storeSealctl_kept (h : s.Kept p) (a1) : (State.storeSealctl s a1).Kept p := by
  unfold State.storeSealctl
  repeat' first
      | with_reducible assumption | extract_lets | intro _ _ _ | intro _ _ | with_reducible apply State.setFlag_kept
      | with_reducible apply State.setFld_kept | with_reducible apply State.Kept.onSacr | exact fun _ => rfl
      | with_reducible apply State.Kept.foldl | with_reducible refine State.Kept.of_fst (by assumption) ?_ | split
      | dsimp +zetaDelta only

theorem State.endDebug_kept (h : s.Kept p) : (State.endDebug s).Kept p := by
  unfold State.endDebug
  repeat' first
      | with_reducible assumption | extract_lets | intro _ _ _ | intro _ _
      | with_reducible apply State.wakeDeadline_kept | with_reducible apply State.setFlag_kept
      | with_reducible apply State.Kept.onCore | with_reducible apply State.Kept.core
      | with_reducible exact Core.Sound.same (by assumption)
      | with_reducible exact Core.Sound.same (State.Kept.core (by assumption) _)
      | with_reducible apply State.Kept.foldl | with_reducible refine State.Kept.of_fst (by assumption) ?_ | split
      | dsimp +zetaDelta only

theorem State.tamper_kept (h : s.Kept p) (a1 a2 a3 a4 a5) : (State.tamper s a1 a2 a3 a4 a5).Kept p := by
  unfold State.tamper
  repeat' first
      | with_reducible assumption | extract_lets | intro _ _ _ | intro _ _
      | with_reducible apply State.setFlag_kept | with_reducible apply State.bump_kept
      | with_reducible apply State.raiseEvent_kept | with_reducible apply State.logEvent_kept
      | with_reducible apply State.wakeUp_kept | with_reducible apply State.Kept.foldl
      | with_reducible refine State.Kept.of_fst (by assumption) ?_ | split | dsimp +zetaDelta only

theorem State.tamperReport_kept (h : s.Kept p) : (State.tamperReport s).Kept p := by
  unfold State.tamperReport
  repeat' first
      | with_reducible assumption | extract_lets | intro _ _ _ | intro _ _ | with_reducible apply State.setFld_kept
      | with_reducible apply State.logEvent_kept | with_reducible apply State.Kept.foldl
      | with_reducible refine State.Kept.of_fst (by assumption) ?_ | split | dsimp +zetaDelta only

theorem State.logDebugRefusal_kept (h : s.Kept p) (a1 a2) : (State.logDebugRefusal s a1 a2).Kept p := by
  unfold State.logDebugRefusal
  repeat' first
      | with_reducible assumption | extract_lets | intro _ _ _ | intro _ _ | with_reducible apply State.logEvent_kept
      | with_reducible apply State.Kept.foldl | with_reducible refine State.Kept.of_fst (by assumption) ?_ | split
      | dsimp +zetaDelta only

theorem State.clearKbuf_kept (h : s.Kept p) (a1 a2) : (State.clearKbuf s a1 a2).Kept p := by
  unfold State.clearKbuf
  repeat' first
      | with_reducible assumption | extract_lets | intro _ _ _ | intro _ _ | with_reducible apply State.Kept.putReg
      | with_reducible apply State.Kept.each | with_reducible apply State.Kept.foldl
      | with_reducible refine State.Kept.of_fst (by assumption) ?_ | split | dsimp +zetaDelta only

theorem State.keyError_kept (h : s.Kept p) (a1) : (State.keyError s a1).Kept p := by
  unfold State.keyError
  repeat' first
      | with_reducible assumption | extract_lets | intro _ _ _ | intro _ _
      | with_reducible apply State.setFld_kept | with_reducible apply State.clearKbuf_kept
      | with_reducible apply State.Kept.foldl | with_reducible refine State.Kept.of_fst (by assumption) ?_
      | split | dsimp +zetaDelta only

theorem State.keyStart_kept (h : s.Kept p) (a1) : (State.keyStart s a1).Kept p := by
  unfold State.keyStart
  repeat' first
      | with_reducible assumption | extract_lets | intro _ _ _ | intro _ _
      | with_reducible apply State.setFld_kept | with_reducible apply State.setFlag_kept
      | with_reducible apply State.Kept.onSacr | exact fun _ => rfl | with_reducible apply State.Kept.foldl
      | with_reducible refine State.Kept.of_fst (by assumption) ?_ | split
      | (with_reducible refine State.Kept.record ?_; first | with_reducible assumption | split | with_reducible apply State.setFld_kept | with_reducible apply State.setFlag_kept | with_reducible refine State.Kept.of_fst (by assumption) ?_)
      | dsimp +zetaDelta only

theorem State.loadAes_kept (h : s.Kept p) (a1) : (State.loadAes s a1).Kept p := by
  unfold State.loadAes
  repeat' first
      | with_reducible assumption | extract_lets | intro _ _ _ | intro _ _ | with_reducible apply State.keyError_kept
      | with_reducible apply State.logEvent_kept | with_reducible apply State.keyStart_kept
      | with_reducible apply State.setAesKey_kept | with_reducible apply State.Kept.foldl
      | with_reducible refine State.Kept.of_fst (by assumption) ?_ | split | dsimp +zetaDelta only

theorem State.clearAes_kept (h : s.Kept p) (a1) : (State.clearAes s a1).Kept p := by
  unfold State.clearAes
  repeat' first
      | with_reducible assumption | extract_lets | intro _ _ _ | intro _ _ | with_reducible apply State.keyError_kept
      | with_reducible apply State.logEvent_kept | with_reducible apply State.keyStart_kept
      | with_reducible apply State.setAesKey_kept | with_reducible apply State.Kept.foldl
      | with_reducible refine State.Kept.of_fst (by assumption) ?_ | split | dsimp +zetaDelta only

theorem State.programVk_kept (h : s.Kept p) (a1 a2 a3) : (State.programVk s a1 a2 a3).Kept p := by
  unfold State.programVk
  repeat' first
      | with_reducible assumption | extract_lets | intro _ _ _ | intro _ _ | with_reducible apply State.setFld_kept
      | with_reducible apply State.logEvent_kept | with_reducible apply State.Kept.onSacr | exact fun _ => rfl
      | with_reducible apply State.Kept.foldl | with_reducible refine State.Kept.of_fst (by assumption) ?_ | split
      | dsimp +zetaDelta only

theorem State.loadVk_kept (h : s.Kept p) (a1) : (State.loadVk s a1).Kept p := by
  unfold State.loadVk
  repeat' first
      | with_reducible assumption | extract_lets | intro _ _ _ | intro _ _ | with_reducible apply State.keyError_kept
      | with_reducible apply State.keyStart_kept | with_reducible apply State.programVk_kept
      | with_reducible apply State.Kept.foldl | with_reducible refine State.Kept.of_fst (by assumption) ?_ | split
      | dsimp +zetaDelta only

theorem State.revokeVk_kept (h : s.Kept p) (a1) : (State.revokeVk s a1).Kept p := by
  unfold State.revokeVk
  repeat' first
      | with_reducible assumption | extract_lets | intro _ _ _ | intro _ _ | with_reducible apply State.keyError_kept
      | with_reducible apply State.setFld_kept | with_reducible apply State.logEvent_kept
      | with_reducible apply State.keyStart_kept | with_reducible apply State.Kept.foldl
      | with_reducible refine State.Kept.of_fst (by assumption) ?_ | split | dsimp +zetaDelta only

theorem State.storeKeycmd_kept (h : s.Kept p) (a1) : (State.storeKeycmd s a1).Kept p := by
  unfold State.storeKeycmd
  repeat' first
      | with_reducible assumption | extract_lets | intro _ _ _ | intro _ _ | with_reducible apply State.loadAes_kept
      | with_reducible apply State.clearAes_kept | with_reducible apply State.loadVk_kept
      | with_reducible apply State.revokeVk_kept | with_reducible apply State.Kept.foldl
      | with_reducible refine State.Kept.of_fst (by assumption) ?_ | split | dsimp +zetaDelta only

theorem State.loadNave_kept (h : s.Kept p) (a1) : (State.loadNave s a1).Kept p := by
  unfold State.loadNave
  repeat' first
      | with_reducible assumption | extract_lets | intro _ _ _ | intro _ _ | with_reducible apply State.setFlag_kept
      | with_reducible apply State.setFld_kept | with_reducible apply State.setAesKey_kept
      | with_reducible apply State.Kept.foldl | with_reducible refine State.Kept.of_fst (by assumption) ?_ | split
      | dsimp +zetaDelta only

theorem State.clearNave_kept (h : s.Kept p) (a1) : (State.clearNave s a1).Kept p := by
  unfold State.clearNave
  repeat' first
      | with_reducible assumption | extract_lets | intro _ _ _ | intro _ _ | with_reducible apply State.setFlag_kept
      | with_reducible apply State.setFld_kept | with_reducible apply State.setAesKey_kept
      | with_reducible apply State.Kept.foldl | with_reducible refine State.Kept.of_fst (by assumption) ?_ | split
      | dsimp +zetaDelta only

theorem State.storeNkeycmd_kept (h : s.Kept p) (a1) : (State.storeNkeycmd s a1).Kept p := by
  unfold State.storeNkeycmd
  repeat' first
      | with_reducible assumption | extract_lets | intro _ _ _ | intro _ _ | with_reducible apply State.loadNave_kept
      | with_reducible apply State.clearNave_kept | with_reducible apply State.Kept.foldl
      | with_reducible refine State.Kept.of_fst (by assumption) ?_ | split | dsimp +zetaDelta only

theorem State.macFinish_kept (h : s.Kept p) : (State.macFinish s).Kept p := by
  unfold State.macFinish
  repeat' first
      | with_reducible assumption | extract_lets | intro _ _ _ | intro _ _
      | with_reducible apply State.setFlag_kept | with_reducible apply State.Kept.onSacr | exact fun _ => rfl
      | with_reducible apply State.Kept.foldl | with_reducible refine State.Kept.of_fst (by assumption) ?_
      | split
      | (with_reducible refine State.Kept.record ?_; first | with_reducible assumption | split | with_reducible apply State.setFlag_kept | with_reducible refine State.Kept.of_fst (by assumption) ?_)
      | dsimp +zetaDelta only

theorem State.storeMacctl_kept (h : s.Kept p) (a1) : (State.storeMacctl s a1).Kept p := by
  unfold State.storeMacctl
  repeat' first
      | with_reducible assumption | extract_lets | intro _ _ _ | intro _ _
      | with_reducible apply State.setFld_kept | with_reducible apply State.setFlag_kept
      | with_reducible apply State.macFinish_kept | with_reducible apply State.Kept.onSacr
      | exact fun _ => rfl | with_reducible apply State.Kept.foldl
      | with_reducible refine State.Kept.of_fst (by assumption) ?_ | split
      | (with_reducible refine State.Kept.record ?_; first | with_reducible assumption | split | with_reducible apply State.setFld_kept | with_reducible apply State.setFlag_kept | with_reducible apply State.macFinish_kept | with_reducible refine State.Kept.of_fst (by assumption) ?_)
      | dsimp +zetaDelta only

theorem State.storeDin_kept (h : s.Kept p) (a1) : (State.storeDin s a1).Kept p := by
  unfold State.storeDin
  repeat' first
      | with_reducible assumption | extract_lets | intro _ _ _ | intro _ _ | with_reducible apply State.Kept.onSacr
      | exact fun _ => rfl | with_reducible apply State.Kept.foldl
      | with_reducible refine State.Kept.of_fst (by assumption) ?_ | split | dsimp +zetaDelta only

theorem State.imgCheck_kept (h : s.Kept p) : (State.imgCheck s).Kept p := by
  unfold State.imgCheck
  repeat' first
      | with_reducible assumption | extract_lets | intro _ _ _ | intro _ _ | with_reducible apply State.setFlag_kept
      | with_reducible apply State.Kept.onSacr | exact fun _ => rfl | with_reducible apply State.Kept.foldl
      | with_reducible refine State.Kept.of_fst (by assumption) ?_ | split | dsimp +zetaDelta only

theorem State.imgActivate_kept (h : s.Kept p) : (State.imgActivate s).Kept p := by
  unfold State.imgActivate
  repeat' first
      | with_reducible assumption | extract_lets | intro _ _ _ | intro _ _ | with_reducible apply State.logEvent_kept
      | with_reducible apply State.setFlag_kept | with_reducible apply State.askCommit_kept
      | with_reducible apply State.Kept.foldl | with_reducible refine State.Kept.of_fst (by assumption) ?_ | split
      | dsimp +zetaDelta only

theorem State.storeImgchk_kept (h : s.Kept p) (a1) : (State.storeImgchk s a1).Kept p := by
  unfold State.storeImgchk
  repeat' first
      | with_reducible assumption | extract_lets | intro _ _ _ | intro _ _ | with_reducible apply State.imgCheck_kept
      | with_reducible apply State.imgActivate_kept | with_reducible apply State.Kept.foldl
      | with_reducible refine State.Kept.of_fst (by assumption) ?_ | split | dsimp +zetaDelta only

theorem State.navePost_kept (h : s.Kept p) (a1 a2) : (State.navePost s a1 a2).1.Kept p := by
  unfold State.navePost
  repeat' first
      | with_reducible assumption | extract_lets | intro _ _ _ | intro _ _
      | with_reducible apply State.raiseEvent_kept | with_reducible apply State.setFld_kept
      | with_reducible apply State.bump_kept | with_reducible apply State.logEvent_kept
      | with_reducible apply State.Kept.onSacr | exact fun _ => rfl | with_reducible apply State.Kept.foldl
      | with_reducible refine State.Kept.of_fst (by assumption) ?_ | split | dsimp +zetaDelta only

theorem State.choirPost_kept (h : s.Kept p) (a1 a2) : (State.choirPost s a1 a2).1.Kept p := by
  unfold State.choirPost
  repeat' first
      | with_reducible assumption | extract_lets | intro _ _ _ | intro _ _
      | with_reducible apply State.raiseEvent_kept | with_reducible apply State.Kept.onSacr | exact fun _ => rfl
      | with_reducible apply State.Kept.foldl | with_reducible refine State.Kept.of_fst (by assumption) ?_ | split
      | dsimp +zetaDelta only

theorem State.mailTake_kept (h : s.Kept p) (a1) : (State.mailTake s a1).1.Kept p := by
  unfold State.mailTake
  repeat' first
      | with_reducible assumption | extract_lets | intro _ _ _ | intro _ _ | with_reducible apply State.Kept.onSacr
      | exact fun _ => rfl | with_reducible apply State.Kept.foldl
      | with_reducible refine State.Kept.of_fst (by assumption) ?_ | split | dsimp +zetaDelta only

theorem State.loadLive_kept (h : s.Kept p) (a1 a2 a3 a4) : (State.loadLive s a1 a2 a3 a4).1.Kept p := by
  unfold State.loadLive
  repeat' first
      | with_reducible assumption | extract_lets | intro _ _ _ | intro _ _ | with_reducible apply State.loadReg_kept
      | with_reducible apply State.Kept.foldl | with_reducible refine State.Kept.of_fst (by assumption) ?_ | split
      | dsimp +zetaDelta only

theorem State.loadQueueReg_kept (h : s.Kept p) (a1) : (State.loadQueueReg s a1).1.Kept p := by
  unfold State.loadQueueReg
  repeat' first
      | with_reducible assumption | extract_lets | intro _ _ _ | intro _ _
      | with_reducible apply State.setFld_kept | with_reducible apply State.loadReg_kept
      | with_reducible apply State.whole_kept | with_reducible apply State.Kept.foldl
      | with_reducible refine State.Kept.of_fst (by assumption) ?_ | split
      | (with_reducible refine State.Kept.record ?_; first | with_reducible assumption | split | with_reducible apply State.setFld_kept | with_reducible apply State.loadReg_kept | with_reducible apply State.whole_kept | with_reducible refine State.Kept.of_fst (by assumption) ?_)
      | dsimp +zetaDelta only

theorem State.loadQue_kept (h : s.Kept p) (a1) : (State.loadQue s a1).1.Kept p := by
  unfold State.loadQue
  repeat' first
      | with_reducible assumption | extract_lets | intro _ _ _ | intro _ _
      | with_reducible apply State.loadQueueReg_kept | with_reducible apply State.loadLive_kept
      | with_reducible apply State.loadReg_kept | with_reducible apply State.Kept.foldl
      | with_reducible refine State.Kept.of_fst (by assumption) ?_ | split | dsimp +zetaDelta only

theorem State.loadIsle_kept (h : s.Kept p) (a1) : (State.loadIsle s a1).1.Kept p := by
  unfold State.loadIsle
  repeat' first
      | with_reducible assumption | extract_lets | intro _ _ _ | intro _ _ | with_reducible apply State.loadReg_kept
      | with_reducible apply State.setFld_kept | with_reducible apply State.Kept.foldl
      | with_reducible refine State.Kept.of_fst (by assumption) ?_ | split | dsimp +zetaDelta only

theorem State.loadQty_kept (h : s.Kept p) (a1) : (State.loadQty s a1).1.Kept p := by
  unfold State.loadQty
  repeat' first
      | with_reducible assumption | extract_lets | intro _ _ _ | intro _ _
      | with_reducible apply State.loadReg_kept | with_reducible apply State.loadLive_kept
      | with_reducible apply State.Kept.foldl | with_reducible refine State.Kept.of_fst (by assumption) ?_
      | split
      | (with_reducible refine State.Kept.record ?_; first | with_reducible assumption | split | with_reducible apply State.loadReg_kept | with_reducible apply State.loadLive_kept | with_reducible refine State.Kept.of_fst (by assumption) ?_)
      | dsimp +zetaDelta only

theorem State.loadLogdata_kept (h : s.Kept p) (a1) : (State.loadLogdata s a1).1.Kept p := by
  unfold State.loadLogdata
  repeat' first
      | with_reducible assumption | extract_lets | intro _ _ _ | intro _ _ | with_reducible apply State.setFld_kept
      | with_reducible apply State.Kept.foldl | with_reducible refine State.Kept.of_fst (by assumption) ?_ | split
      | dsimp +zetaDelta only

theorem State.loadLedg_kept (h : s.Kept p) (a1) : (State.loadLedg s a1).1.Kept p := by
  unfold State.loadLedg
  repeat' first
      | with_reducible assumption | extract_lets | intro _ _ _ | intro _ _ | with_reducible apply State.loadReg_kept
      | with_reducible apply State.loadLogdata_kept | with_reducible apply State.Kept.foldl
      | with_reducible refine State.Kept.of_fst (by assumption) ?_ | split | dsimp +zetaDelta only

theorem State.loadRood_kept (h : s.Kept p) (a1) : (State.loadRood s a1).1.Kept p := by
  unfold State.loadRood
  repeat' first
      | with_reducible assumption | extract_lets | intro _ _ _ | intro _ _ | with_reducible apply State.setFld_kept
      | with_reducible apply State.loadReg_kept | with_reducible apply State.Kept.foldl
      | with_reducible refine State.Kept.of_fst (by assumption) ?_ | split | dsimp +zetaDelta only

theorem State.loadSacr_kept (h : s.Kept p) (a1) : (State.loadSacr s a1).1.Kept p := by
  unfold State.loadSacr
  repeat' first
      | with_reducible assumption | extract_lets | intro _ _ _ | intro _ _ | with_reducible apply State.loadReg_kept
      | with_reducible apply State.Kept.foldl | with_reducible refine State.Kept.of_fst (by assumption) ?_ | split
      | dsimp +zetaDelta only

theorem State.loadCrypt_kept (h : s.Kept p) (a1 a2) : (State.loadCrypt s a1 a2).1.Kept p := by
  unfold State.loadCrypt
  repeat' first
      | with_reducible assumption | extract_lets | intro _ _ _ | intro _ _
      | with_reducible apply State.loadReg_kept | with_reducible apply State.readTimeSub_kept
      | with_reducible apply State.readTimeSec_kept | with_reducible apply State.Kept.foldl
      | with_reducible refine State.Kept.of_fst (by assumption) ?_ | split
      | (with_reducible refine State.Kept.record ?_; first | with_reducible assumption | split | with_reducible apply State.loadReg_kept | with_reducible apply State.readTimeSub_kept | with_reducible apply State.readTimeSec_kept | with_reducible refine State.Kept.of_fst (by assumption) ?_)
      | dsimp +zetaDelta only

theorem State.loadOut_kept (h : s.Kept p) (a1) : (State.loadOut s a1).1.Kept p := by
  unfold State.loadOut
  repeat' first
      | with_reducible assumption | extract_lets | intro _ _ _ | intro _ _
      | with_reducible apply State.spend_kept | with_reducible apply State.loadReg_kept
      | with_reducible apply State.loadLpmeas_kept | with_reducible apply State.loadLive_kept
      | with_reducible apply State.Kept.foldl | with_reducible refine State.Kept.of_fst (by assumption) ?_
      | split | dsimp +zetaDelta only

theorem State.loadBelf_kept (h : s.Kept p) (a1) : (State.loadBelf s a1).1.Kept p := by
  unfold State.loadBelf
  repeat' first
      | with_reducible assumption | extract_lets | intro _ _ _ | intro _ _
      | with_reducible apply State.loadReg_kept | with_reducible apply State.loadNetstat_kept
      | with_reducible apply State.Kept.foldl | with_reducible refine State.Kept.of_fst (by assumption) ?_
      | split | dsimp +zetaDelta only

theorem State.loadBank_kept (h : s.Kept p) (a1 a2) : (State.loadBank s a1 a2).1.Kept p := by
  unfold State.loadBank
  repeat' first
      | with_reducible assumption | extract_lets | intro _ _ _ | intro _ _
      | with_reducible apply State.loadReg_kept | with_reducible apply State.readThr_kept
      | with_reducible apply State.bankStat_kept | with_reducible apply State.Kept.foldl
      | with_reducible refine State.Kept.of_fst (by assumption) ?_ | split | dsimp +zetaDelta only

theorem loaded_kept {r : State × Word} (h : r.1.Kept p) : (loaded r).1.Kept p := h

theorem State.loadWindow_kept (h : s.Kept p) (a1 a2) : (State.loadWindow s a1 a2).1.Kept p := by
  unfold State.loadWindow
  repeat' first
      | with_reducible assumption | extract_lets | intro _ _ _ | intro _ _
      | with_reducible apply State.loadGolden_kept | with_reducible apply State.Kept.foldl
      | with_reducible refine State.Kept.of_fst (by assumption) ?_ | split | dsimp +zetaDelta only

theorem State.loadAt_kept (h : s.Kept p) (c : CoreId) (a : Nat) (r : Region) : (s.loadAt c a r).1.Kept p := by
  cases r with
  | window b => exact State.loadWindow_kept h b a
  | sys =>
    show State.Kept p (if a = SYS.CFGDATA then s.readCfgdata else s.loadReg a).1
    split
    · exact State.readCfgdata_kept h
    · exact State.loadReg_kept h _
  | que => exact loaded_kept (State.loadQue_kept h _)
  | isle n => exact loaded_kept (State.loadIsle_kept h _)
  | tile t => exact loaded_kept (State.loadReg_kept h _)
  | bank b => exact loaded_kept (State.loadBank_kept h _ _)
  | qty => exact loaded_kept (State.loadQty_kept h _)
  | out => exact loaded_kept (State.loadOut_kept h _)
  | rood => exact loaded_kept (State.loadRood_kept h _)
  | sacr => exact loaded_kept (State.loadSacr_kept h _)
  | ledg => exact loaded_kept (State.loadLedg_kept h _)
  | crypt => exact loaded_kept (State.loadCrypt_kept h _ _)
  | belf => exact loaded_kept (State.loadBelf_kept h _)
  | svc => exact h

theorem State.storeWdog_kept (h : s.Kept p) (a1 a2) : (State.storeWdog s a1 a2).Kept p := by
  unfold State.storeWdog
  repeat' first
      | with_reducible assumption | extract_lets | intro _ _ _ | intro _ _ | with_reducible apply State.setFld_kept
      | with_reducible apply State.setFlag_kept | with_reducible apply State.clearWdog_kept
      | with_reducible apply State.Kept.foldl | with_reducible refine State.Kept.of_fst (by assumption) ?_ | split
      | dsimp +zetaDelta only

theorem State.domainReset_kept (h : s.Kept p) (a1) : (State.domainReset s a1).Kept p := by
  unfold State.domainReset
  repeat' first
      | with_reducible assumption | extract_lets | intro _ _ _ | intro _ _
      | with_reducible apply State.startDomains_kept | with_reducible apply State.takeAllDown_kept
      | with_reducible apply State.Kept.foldl | with_reducible refine State.Kept.of_fst (by assumption) ?_ | split
      | dsimp +zetaDelta only

theorem State.storeRstreq_kept (h : s.Kept p) (a1 a2) : (State.storeRstreq s a1 a2).Kept p := by
  unfold State.storeRstreq
  repeat' first
      | with_reducible assumption | extract_lets | intro _ _ _ | intro _ _
      | with_reducible apply State.coreReset_kept | with_reducible apply State.domainReset_kept
      | with_reducible apply State.Kept.foldl | with_reducible refine State.Kept.of_fst (by assumption) ?_ | split
      | dsimp +zetaDelta only

theorem State.storeMode_kept (h : s.Kept p) (a1) : (State.storeMode s a1).Kept p := by
  unfold State.storeMode
  repeat' first
      | with_reducible assumption | extract_lets | intro _ _ _ | intro _ _
      | with_reducible apply State.naveFollows_kept | with_reducible apply State.islesFollow_kept
      | with_reducible apply State.guardSync_kept | with_reducible apply State.storeReg_kept
      | with_reducible apply State.Kept.foldl | with_reducible refine State.Kept.of_fst (by assumption) ?_ | split
      | dsimp +zetaDelta only

theorem State.storeSys_kept (h : s.Kept p) (a1 a2 a3) : (State.storeSys s a1 a2 a3).Kept p := by
  unfold State.storeSys
  repeat' first
      | with_reducible assumption | extract_lets | intro _ _ _ | intro _ _
      | with_reducible apply State.storeMode_kept | with_reducible apply State.storeRstreq_kept
      | with_reducible apply State.storeWdog_kept | with_reducible apply State.storeCfgctl_kept
      | with_reducible apply State.storeImgctl_kept | with_reducible apply State.storeReg_kept
      | with_reducible apply State.Kept.foldl | with_reducible refine State.Kept.of_fst (by assumption) ?_ | split
      | dsimp +zetaDelta only

theorem State.storeQue_kept (h : s.Kept p) (a1 a2 a3) : (State.storeQue s a1 a2 a3).Kept p := by
  unfold State.storeQue
  repeat' first
      | with_reducible assumption | extract_lets | intro _ _ _ | intro _ _
      | with_reducible apply State.storeDesc_kept | with_reducible apply State.storeReg_kept
      | with_reducible apply State.Kept.foldl | with_reducible refine State.Kept.of_fst (by assumption) ?_ | split
      | dsimp +zetaDelta only

theorem State.storeIsle_kept (h : s.Kept p) (a1 a2 a3) : (State.storeIsle s a1 a2 a3).Kept p := by
  unfold State.storeIsle
  repeat' first
      | with_reducible assumption | extract_lets | intro _ _ _ | intro _ _
      | with_reducible apply State.storeDescriptor_kept | with_reducible apply State.storeReg_kept
      | with_reducible apply State.storeIsleCtl_kept | with_reducible apply State.storePortmode_kept
      | with_reducible apply State.Kept.foldl | with_reducible refine State.Kept.of_fst (by assumption) ?_ | split
      | dsimp +zetaDelta only

theorem State.storeBank_kept (h : s.Kept p) (a1 a2 a3 a4 a5) : (State.storeBank s a1 a2 a3 a4 a5).Kept p := by
  unfold State.storeBank
  repeat' first
      | with_reducible assumption | extract_lets | intro _ _ _ | intro _ _ | with_reducible apply State.writeThr_kept
      | with_reducible apply State.storeRefnow_kept | with_reducible apply State.storeBankCtl_kept
      | with_reducible apply State.storeReg_kept | with_reducible apply State.Kept.foldl
      | with_reducible refine State.Kept.of_fst (by assumption) ?_ | split | dsimp +zetaDelta only

theorem State.storeQty_kept (h : s.Kept p) (a1 a2 a3) : (State.storeQty s a1 a2 a3).Kept p := by
  unfold State.storeQty
  repeat' first
      | with_reducible assumption | extract_lets | intro _ _ _ | intro _ _
      | with_reducible apply State.storeQtyCtl_kept | with_reducible apply State.storeAuxadd_kept
      | with_reducible apply State.storeCalctl_kept | with_reducible apply State.storeCdcfg_kept
      | with_reducible apply State.storeClvote_kept | with_reducible apply State.storeReg_kept
      | with_reducible apply State.Kept.foldl | with_reducible refine State.Kept.of_fst (by assumption) ?_ | split
      | dsimp +zetaDelta only

theorem State.storeOut_kept (h : s.Kept p) (a1 a2 a3) : (State.storeOut s a1 a2 a3).Kept p := by
  unfold State.storeOut
  repeat' first
      | with_reducible assumption | extract_lets | intro _ _ _ | intro _ _
      | with_reducible apply State.storePinctl_kept | with_reducible apply State.storePinadd_kept
      | with_reducible apply State.storeReg_kept | with_reducible apply State.storeLpctl_kept
      | with_reducible apply State.storeLpstat_kept | with_reducible apply State.storeLoopReg_kept
      | with_reducible apply State.Kept.foldl | with_reducible refine State.Kept.of_fst (by assumption) ?_ | split
      | dsimp +zetaDelta only

theorem State.storeSacr_kept (h : s.Kept p) (a1 a2 a3) : (State.storeSacr s a1 a2 a3).Kept p := by
  unfold State.storeSacr
  repeat' first
      | with_reducible assumption | extract_lets | intro _ _ _ | intro _ _
      | with_reducible apply State.storeSealctl_kept | with_reducible apply State.storeKeycmd_kept
      | with_reducible apply State.storeNkeycmd_kept | with_reducible apply State.storeMacctl_kept
      | with_reducible apply State.storeDin_kept | with_reducible apply State.storeImgchk_kept
      | with_reducible apply State.storeReg_kept | with_reducible apply State.Kept.foldl
      | with_reducible refine State.Kept.of_fst (by assumption) ?_ | split | dsimp +zetaDelta only

theorem State.storeRetention_kept (h : s.Kept p) (a1 a2) : (State.storeRetention s a1 a2).Kept p := by
  unfold State.storeRetention
  repeat' first
      | with_reducible assumption | extract_lets | intro _ _ _ | intro _ _
      | with_reducible apply State.outRetentionStore_kept | with_reducible apply State.onRadio_kept
      | with_reducible apply State.Kept.putReg | with_reducible apply State.Kept.foldl
      | with_reducible refine State.Kept.of_fst (by assumption) ?_ | split
      | (with_reducible refine State.Kept.record ?_; first | with_reducible assumption | split | with_reducible apply State.outRetentionStore_kept | with_reducible apply State.onRadio_kept | with_reducible refine State.Kept.of_fst (by assumption) ?_)
      | dsimp +zetaDelta only

theorem State.storeCrypt_kept (h : s.Kept p) (a1 a2 a3) : (State.storeCrypt s a1 a2 a3).Kept p := by
  unfold State.storeCrypt
  repeat' first
      | with_reducible assumption | extract_lets | intro _ _ _ | intro _ _
      | with_reducible apply State.storeTimeNew_kept | with_reducible apply State.xhfSync_kept
      | with_reducible apply State.storeReg_kept | with_reducible apply State.storePwrcfg_kept
      | with_reducible apply State.storeVpulcfg_kept | with_reducible apply State.storeVpulstat_kept
      | with_reducible apply State.storeRetention_kept | with_reducible apply State.Kept.foldl
      | with_reducible refine State.Kept.of_fst (by assumption) ?_ | split | dsimp +zetaDelta only

theorem State.storePort_kept (h : s.Kept p) (a1 a2 a3) : (State.storePort s a1 a2 a3).Kept p := by
  unfold State.storePort
  repeat' first
      | with_reducible assumption | extract_lets | intro _ _ _ | intro _ _
      | with_reducible apply State.storePctl_kept | with_reducible apply State.storeAsnLo_kept
      | with_reducible apply State.storeAsnHi_kept | with_reducible apply State.storeHop_kept
      | with_reducible apply State.storePwr_kept | with_reducible apply State.storeLimcfg_kept
      | with_reducible apply State.storeReg_kept | with_reducible apply State.Kept.foldl
      | with_reducible refine State.Kept.of_fst (by assumption) ?_ | split | dsimp +zetaDelta only

theorem State.storeBelf_kept (h : s.Kept p) (a1 a2) : (State.storeBelf s a1 a2).Kept p := by
  unfold State.storeBelf
  repeat' first
      | with_reducible assumption | extract_lets | intro _ _ _ | intro _ _
      | with_reducible apply State.epochStep_kept | with_reducible apply State.storePort_kept
      | with_reducible apply State.storeCell_kept | with_reducible apply State.storeNetctl_kept
      | with_reducible apply State.storeNbrcmd_kept | with_reducible apply State.storeReg_kept
      | with_reducible apply State.Kept.foldl | with_reducible refine State.Kept.of_fst (by assumption) ?_ | split
      | dsimp +zetaDelta only

theorem State.storeAt_kept (h : s.Kept p) (a1 a2 a3 a4 a5) : (State.storeAt s a1 a2 a3 a4 a5).Kept p := by
  unfold State.storeAt
  repeat' first
      | with_reducible assumption | extract_lets | intro _ _ _ | intro _ _ | with_reducible apply State.storeSys_kept
      | with_reducible apply State.storeQue_kept | with_reducible apply State.storeIsle_kept
      | with_reducible apply State.storeTileCtl_kept | with_reducible apply State.storeReg_kept
      | with_reducible apply State.storeBank_kept | with_reducible apply State.storeQty_kept
      | with_reducible apply State.storeOut_kept | with_reducible apply State.storeSacr_kept
      | with_reducible apply State.storeCrypt_kept | with_reducible apply State.storeBelf_kept
      | with_reducible apply State.storeGolden_kept | with_reducible apply State.Kept.foldl
      | with_reducible refine State.Kept.of_fst (by assumption) ?_ | split | dsimp +zetaDelta only

theorem State.busLoad_kept (h : s.Kept p) (a1 a2) : (State.busLoad s a1 a2).1.Kept p := by
  unfold State.busLoad
  repeat' first
      | with_reducible assumption | extract_lets | intro _ _ _ | intro _ _
      | with_reducible apply State.loadAt_kept | with_reducible apply State.Kept.foldl
      | with_reducible refine State.Kept.of_fst (by assumption) ?_ | split
      | (with_reducible refine State.Kept.record ?_; first | with_reducible assumption | split | with_reducible apply State.loadAt_kept | with_reducible refine State.Kept.of_fst (by assumption) ?_)
      | dsimp +zetaDelta only

theorem State.busStoreWith_kept (h : s.Kept p) (a1 a2 a3 a4) : (State.busStoreWith s a1 a2 a3 a4).1.Kept p := by
  unfold State.busStoreWith
  repeat' first
      | with_reducible assumption | extract_lets | intro _ _ _ | intro _ _
      | with_reducible apply State.storeAt_kept | with_reducible apply State.Kept.foldl
      | with_reducible refine State.Kept.of_fst (by assumption) ?_ | split
      | (with_reducible refine State.Kept.record ?_; first | with_reducible assumption | split | with_reducible apply State.storeAt_kept | with_reducible refine State.Kept.of_fst (by assumption) ?_)
      | dsimp +zetaDelta only

theorem State.busStore_kept (h : s.Kept p) (a1 a2 a3) : (State.busStore s a1 a2 a3).1.Kept p := by
  unfold State.busStore
  repeat' first
      | with_reducible assumption | extract_lets | intro _ _ _ | intro _ _
      | with_reducible apply State.busStoreWith_kept | with_reducible apply State.Kept.foldl
      | with_reducible refine State.Kept.of_fst (by assumption) ?_ | split | dsimp +zetaDelta only

theorem State.refuseAccess_kept (h : s.Kept p) (a1 a2 a3 a4) : (State.refuseAccess s a1 a2 a3 a4).Kept p := by
  unfold State.refuseAccess
  repeat' first
      | with_reducible assumption | extract_lets | intro _ _ _ | intro _ _
      | with_reducible apply State.recordRefusal_kept | with_reducible apply State.fault_kept
      | with_reducible apply State.Kept.foldl | with_reducible refine State.Kept.of_fst (by assumption) ?_ | split
      | dsimp +zetaDelta only

theorem State.retireLive_kept (h : s.Kept p) (a1 a2) : (State.retireLive s a1 a2).Kept p := by
  unfold State.retireLive
  repeat' first
      | with_reducible assumption | extract_lets | intro _ _ _ | intro _ _ | with_reducible apply State.retire_kept
      | with_reducible apply State.Kept.foldl | with_reducible refine State.Kept.of_fst (by assumption) ?_ | split
      | dsimp +zetaDelta only

theorem State.readOwn_kept {t : State} {x : Nat} {a1 a2 a3} (e : (s.readOwn a1 a2 a3) = some (t, x)) (h : s.Kept p)
    : t.Kept p := by
  unfold State.readOwn at e
  extract_lets k at e
  split at e
  · cases e
  · simp only [Option.some.injEq, Prod.mk.injEq] at e
    rw [← e.1]
    split
    · exact h.onCore _ fun k hk => hk.countCorr _
    · exact h

theorem State.load_kept (h : s.Kept p) (a1 a2 a3 a4 a5 a6) : (State.load s a1 a2 a3 a4 a5 a6).Kept p := by
  unfold State.load
  repeat' first
      | with_reducible assumption | extract_lets | intro _ _ _ | intro _ _
      | with_reducible apply State.setReg_kept | with_reducible apply State.fault_kept
      | with_reducible apply State.refuse_kept | with_reducible apply State.memEcc_kept
      | with_reducible apply State.issue_kept | with_reducible apply State.retire_kept
      | with_reducible apply State.waitReply_kept | with_reducible apply State.waitRefuse_kept
      | with_reducible apply State.busLoad_kept | with_reducible apply State.retireLive_kept
      | refine State.readOwn_kept (by assumption) ?_ | with_reducible apply State.Kept.onCore
      | with_reducible apply State.Kept.setCore | with_reducible apply Core.Sound.setReg
      | with_reducible apply State.Kept.core | with_reducible exact Core.Sound.same (by assumption)
      | with_reducible exact Core.Sound.same (State.Kept.core (by assumption) _)
      | with_reducible apply State.Kept.foldl | with_reducible refine State.Kept.of_fst (by assumption) ?_
      | split
      | (with_reducible refine State.Kept.record ?_; first | with_reducible assumption | split | with_reducible apply State.setReg_kept | with_reducible apply State.fault_kept | with_reducible apply State.refuse_kept | with_reducible apply State.memEcc_kept | with_reducible apply State.issue_kept | with_reducible apply State.retire_kept | with_reducible apply State.waitReply_kept | with_reducible apply State.waitRefuse_kept | with_reducible apply State.busLoad_kept | with_reducible apply State.retireLive_kept | refine State.readOwn_kept (by assumption) ?_ | with_reducible refine State.Kept.of_fst (by assumption) ?_)
      | dsimp +zetaDelta only

theorem State.writeOwn_kept (h : s.Kept p) (c : CoreId) (a n : Nat) (v : Word) : (s.writeOwn c a n v).Kept p := by
  unfold State.writeOwn
  exact h.onCore c fun k hk => (hk.setBytes _ _).freshEcc _

theorem State.store_kept (h : s.Kept p) (a1 a2 a3 a4 a5) : (State.store s a1 a2 a3 a4 a5).Kept p := by
  unfold State.store
  repeat' first
      | with_reducible assumption | extract_lets | intro _ _ _ | intro _ _
      | with_reducible apply State.fault_kept | with_reducible apply State.refuse_kept
      | with_reducible apply State.memEcc_kept | with_reducible apply State.issue_kept
      | with_reducible apply State.retire_kept | with_reducible apply State.waitReply_kept
      | with_reducible apply State.waitRefuse_kept | with_reducible apply State.busStore_kept
      | refine State.readOwn_kept (by assumption) ?_ | with_reducible apply State.writeOwn_kept
      | with_reducible apply State.Kept.foldl | with_reducible refine State.Kept.of_fst (by assumption) ?_
      | split
      | (with_reducible refine State.Kept.record ?_; first | with_reducible assumption | split | with_reducible apply State.fault_kept | with_reducible apply State.refuse_kept | with_reducible apply State.memEcc_kept | with_reducible apply State.issue_kept | with_reducible apply State.retire_kept | with_reducible apply State.waitReply_kept | with_reducible apply State.waitRefuse_kept | with_reducible apply State.busStore_kept | refine State.readOwn_kept (by assumption) ?_ | with_reducible apply State.writeOwn_kept | with_reducible refine State.Kept.of_fst (by assumption) ?_)
      | dsimp +zetaDelta only

theorem State.stackFault_kept {t : State} {a1 a2 a3 a4} (e : (s.stackFault a1 a2 a3 a4) = some t) (h : s.Kept p) :
    t.Kept p := by
  unfold State.stackFault at e
  split at e
  · cases e; exact State.fault_kept h _ _ _
  · split at e
    · cases e; exact State.fault_kept h _ _ _
    · cases e; exact State.refuse_kept h _ _ _ _
    · cases e

theorem State.pushRegs_kept (h : s.Kept p) (a1 a2) (l : List Reg) : (s.pushRegs a1 a2 l).Kept p := by
  induction l generalizing s a2 with
  | nil => exact h
  | cons x rest ih =>
    unfold State.pushRegs
    repeat' first
        | with_reducible assumption | extract_lets | intro _ _ _ | intro _ _ | with_reducible apply ih
        | with_reducible apply State.writeOwn_kept | with_reducible apply State.Kept.putReg
        | with_reducible apply State.Kept.each | with_reducible apply State.Kept.foldl
        | with_reducible apply State.Kept.onCore | with_reducible apply State.Kept.setCore
        | with_reducible apply State.Kept.core | with_reducible exact Core.Sound.same (by assumption)
        | with_reducible exact Core.Sound.same (State.Kept.core (by assumption) _)
        | with_reducible refine State.Kept.of_fst (by assumption) ?_ | split | dsimp +zetaDelta only

theorem State.popRegs_kept (h : s.Kept p) (a1 a2) (l : List Reg) : (s.popRegs a1 a2 l).Kept p := by
  induction l generalizing s a2 with
  | nil => exact h
  | cons x rest ih =>
    unfold State.popRegs
    repeat' first
        | with_reducible assumption | extract_lets | intro _ _ _ | intro _ _ | with_reducible apply ih
        | with_reducible apply State.setReg_kept | with_reducible apply State.Kept.putReg
        | with_reducible apply State.Kept.each | with_reducible apply State.Kept.foldl
        | with_reducible apply State.Kept.onCore | with_reducible apply State.Kept.setCore
        | with_reducible apply State.Kept.core | with_reducible apply Core.Sound.countCorr
        | with_reducible exact Core.Sound.same (by assumption)
        | with_reducible exact Core.Sound.same (State.Kept.core (by assumption) _)
        | with_reducible refine State.Kept.of_fst (by assumption) ?_ | split | dsimp +zetaDelta only

theorem State.refuseRequest_kept (h : s.Kept p) (a1 a2 a3 a4) : (State.refuseRequest s a1 a2 a3 a4).Kept p := by
  unfold State.refuseRequest
  repeat' first
      | with_reducible assumption | extract_lets | intro _ _ _ | intro _ _
      | with_reducible apply State.refuse_kept | with_reducible apply State.waitRefuse_kept
      | with_reducible apply State.Kept.foldl | with_reducible refine State.Kept.of_fst (by assumption) ?_
      | split | dsimp +zetaDelta only

theorem State.toIsland_kept (h : s.Kept p) (c : CoreId) (i : Island) (a k : Nat) {body : State → State} (hb : ∀ s :
    State, s.Kept p → (body s).Kept p) : (s.toIsland c i a k body).Kept p := by
  unfold State.toIsland
  split
  · exact State.refuseRequest_kept h _ _ _ _
  · exact hb s h

theorem State.toReplying_kept (h : s.Kept p) (c : CoreId) (i : Island) (a k : Nat) {body : State → State} (hb : ∀ s :
    State, s.Kept p → (body s).Kept p) : (s.toReplying c i a k body).Kept p := by
  unfold State.toReplying
  refine State.toIsland_kept h _ _ _ _ fun s h => ?_
  split
  · exact State.refuseRequest_kept h _ _ _ _
  · exact hb s h

theorem State.choirOnly_kept (h : s.Kept p) (c : CoreId) (n : Nat) {body : State → State} (hb : ∀ s : State, s.Kept
    p → (body s).Kept p) : (s.choirOnly c n body).Kept p := by
  unfold State.choirOnly
  split
  · exact State.forbid_kept h _ _
  · exact hb s h

theorem State.deviceDone_kept (h : s.Kept p) (a1 a2 a3 a4) : (State.deviceDone s a1 a2 a3 a4).Kept p := by
  unfold State.deviceDone
  repeat' first
      | with_reducible assumption | extract_lets | intro _ _ _ | intro _ _ | with_reducible apply State.retire_kept
      | with_reducible apply State.setReg_kept | with_reducible apply State.waitFor_kept
      | with_reducible apply State.Kept.foldl | with_reducible refine State.Kept.of_fst (by assumption) ?_ | split
      | dsimp +zetaDelta only

theorem State.fire_kept (h : s.Kept p) (a1) : (State.fire s a1).Kept p := by
  unfold State.fire
  repeat' first
      | with_reducible assumption | extract_lets | intro _ _ _ | intro _ _ | with_reducible apply State.send_kept
      | with_reducible apply State.Kept.foldl | with_reducible refine State.Kept.of_fst (by assumption) ?_ | split
      | dsimp +zetaDelta only

theorem State.shot_kept (h : s.Kept p) (a1 a2 a3 a4 a5 a6) : (State.shot s a1 a2 a3 a4 a5 a6).Kept p := by
  unfold State.shot
  repeat' first
      | with_reducible assumption | extract_lets | intro _ _ _ | intro _ _ | with_reducible apply State.issue_kept
      | with_reducible apply State.choirOnly_kept | with_reducible apply State.retire_kept
      | with_reducible apply State.fire_kept | with_reducible apply State.Kept.foldl
      | with_reducible refine State.Kept.of_fst (by assumption) ?_ | split | dsimp +zetaDelta only

theorem State.coreDeselects_kept (h : s.Kept p) (a1 a2) : (State.coreDeselects s a1 a2).Kept p := by
  unfold State.coreDeselects
  repeat' first
      | with_reducible assumption | extract_lets | intro _ _ _ | intro _ _
      | with_reducible apply State.bump_kept | with_reducible apply State.select_kept
      | with_reducible apply State.Kept.foldl | with_reducible refine State.Kept.of_fst (by assumption) ?_
      | split | dsimp +zetaDelta only

theorem State.queueRequest_kept (h : s.Kept p) (c : CoreId) (n : Nat) (b : Bool) (k : Nat) {body : State → State}
    (hb : ∀ s : State, s.Kept p → (body s).Kept p) : (s.queueRequest c n b k body).Kept p := by
  unfold State.queueRequest
  split
  · exact State.toReplying_kept h _ _ _ _ fun s h => hb _ (State.select_kept h _ _)
  · split
    · exact State.refuse_kept h _ _ _ _
    · exact State.refuseRequest_kept (State.coreDeselects_kept h _ _) _ _ _ _

theorem State.queueReply_kept (h : s.Kept p) (c : CoreId) (rd : Reg) (w : Word) : (s.queueReply c rd w).Kept p := by
  unfold State.queueReply
  exact State.deviceDone_kept (h.onCore c fun k hk => hk.putQt _) _ _ _ _

theorem State.bankDenies_kept (h : s.Kept p) (a1 a2 a3 a4 a5) : (State.bankDenies s a1 a2 a3 a4 a5).Kept p := by
  unfold State.bankDenies
  repeat' first
      | with_reducible assumption | extract_lets | intro _ _ _ | intro _ _
      | with_reducible apply State.devFault_kept | with_reducible apply State.refuseRequest_kept
      | with_reducible apply State.Kept.foldl | with_reducible refine State.Kept.of_fst (by assumption) ?_
      | split | dsimp +zetaDelta only

theorem State.countCorrected_kept (h : s.Kept p) (a1 a2 a3) : (State.countCorrected s a1 a2 a3).Kept p := by
  unfold State.countCorrected
  repeat' first
      | with_reducible assumption | extract_lets | intro _ _ _ | intro _ _ | with_reducible apply State.Kept.each
      | with_reducible apply State.Kept.onCore | with_reducible apply Core.Sound.countCorr
      | with_reducible apply State.Kept.core | with_reducible exact Core.Sound.same (by assumption)
      | with_reducible exact Core.Sound.same (State.Kept.core (by assumption) _)
      | with_reducible apply State.Kept.foldl | with_reducible refine State.Kept.of_fst (by assumption) ?_ | split
      | dsimp +zetaDelta only

theorem State.copyRows_kept (h : s.Kept p) (a1 a2 a3 n) : (State.copyRows s a1 a2 a3 n).1.Kept p := by
  induction n generalizing s a1 a2 a3 with
  | zero =>
    unfold State.copyRows
    repeat' first
        | with_reducible assumption | extract_lets | intro _ _ _ | intro _ _
        | with_reducible apply State.loadRow_kept | with_reducible apply State.countCorrected_kept
        | with_reducible apply State.Kept.foldl | with_reducible refine State.Kept.of_fst (by assumption) ?_
        | split
        | (with_reducible refine State.Kept.record ?_; first | with_reducible assumption | split | with_reducible apply State.loadRow_kept | with_reducible apply State.countCorrected_kept | with_reducible refine State.Kept.of_fst (by assumption) ?_)
        | dsimp +zetaDelta only
  | succ k ih =>
    unfold State.copyRows
    repeat' first
        | with_reducible assumption | extract_lets | intro _ _ _ | intro _ _ | with_reducible apply ih
        | with_reducible apply State.loadRow_kept | with_reducible apply State.countCorrected_kept
        | with_reducible apply State.Kept.foldl | with_reducible refine State.Kept.of_fst (by assumption) ?_
        | split
        | (with_reducible refine State.Kept.record ?_; first | with_reducible assumption | split | with_reducible apply ih | with_reducible apply State.loadRow_kept | with_reducible apply State.countCorrected_kept | with_reducible refine State.Kept.of_fst (by assumption) ?_)
        | dsimp +zetaDelta only

theorem State.lease_kept (h : s.Kept p) (i : Issue) (rd ra rb : Reg) {f : State → CoreId → Nat → Nat → State × Word}
    (hf : ∀ s c a b, s.Kept p → (f s c a b).1.Kept p) : (s.lease i rd ra rb f).Kept p := by
  unfold State.lease
  exact State.issue_kept h _ _ fun s h => State.toReplying_kept h _ _ _ _ fun s h => State.deviceDone_kept (hf _ _ _ _ h) _ _ _ _

theorem State.writeValues_kept (h : s.Kept p) (a1 a2) (l : List Nat) : (s.writeValues a1 a2 l).Kept p := by
  induction l generalizing s a2 with
  | nil => exact h
  | cons x rest ih =>
    unfold State.writeValues
    repeat' first
        | with_reducible assumption | extract_lets | intro _ _ _ | intro _ _ | with_reducible apply ih
        | with_reducible apply State.writeOwn_kept | with_reducible apply State.Kept.putReg
        | with_reducible apply State.Kept.each | with_reducible apply State.Kept.foldl
        | with_reducible apply State.Kept.onCore | with_reducible apply State.Kept.setCore
        | with_reducible apply State.Kept.core | with_reducible exact Core.Sound.same (by assumption)
        | with_reducible exact Core.Sound.same (State.Kept.core (by assumption) _)
        | with_reducible refine State.Kept.of_fst (by assumption) ?_ | split | dsimp +zetaDelta only

theorem State.tallyRequest_kept (h : s.Kept p) (i : Issue) (rd ra rb : Reg) (names : Nat → Option (List Nat)) {f :
    State → List Nat → State × List Nat} (hf : ∀ s l, s.Kept p → (f s l).1.Kept p) (most : Nat) : (s.tallyRequest i
    rd ra rb names f most).Kept p := by
  unfold State.tallyRequest
  refine State.issue_kept h _ _ fun s h => State.choirOnly_kept h _ _ fun s h => ?_
  extract_lets
  split
  · exact State.devFault_kept h _ _ _
  · split
    · exact State.devFault_kept h _ _ _
    · exact State.toReplying_kept h _ _ _ _ fun s h => State.deviceDone_kept (State.writeValues_kept (hf _ _ h) _ _ _) _ _ _ _

theorem State.readIndices_kept (h : s.Kept p) (a1) : (State.readIndices s a1).1.Kept p := by
  unfold State.readIndices
  repeat' first
      | with_reducible assumption | extract_lets | intro _ _ _ | intro _ _ | with_reducible apply State.Kept.foldl
      | with_reducible refine State.Kept.of_fst (by assumption) ?_ | split | dsimp +zetaDelta only

theorem State.usync_kept (h : s.Kept p) (a1) : (State.usync s a1).1.Kept p := by
  unfold State.usync
  repeat' first
      | with_reducible assumption | extract_lets | intro _ _ _ | intro _ _ | with_reducible apply State.setFlag_kept
      | with_reducible apply State.setFld_kept | with_reducible apply State.Kept.foldl
      | with_reducible refine State.Kept.of_fst (by assumption) ?_ | split | dsimp +zetaDelta only

theorem State.storeUnsealed_kept (h : s.Kept p) (a1 a2 a3) : (State.storeUnsealed s a1 a2 a3).Kept p := by
  unfold State.storeUnsealed
  repeat' first
      | with_reducible assumption | extract_lets | intro _ _ _ | intro _ _ | with_reducible apply State.setFld_kept
      | with_reducible apply State.storeAt_kept | with_reducible apply State.Kept.foldl
      | with_reducible refine State.Kept.of_fst (by assumption) ?_ | split
      | (with_reducible refine State.Kept.record ?_; first | with_reducible assumption | split | with_reducible apply State.setFld_kept | with_reducible apply State.storeAt_kept | with_reducible refine State.Kept.of_fst (by assumption) ?_)
      | dsimp +zetaDelta only

theorem State.configEntry_kept (h : s.Kept p) (a1 a2) : (State.configEntry s a1 a2).Kept p := by
  unfold State.configEntry
  repeat' first
      | with_reducible assumption | extract_lets | intro _ _ _ | intro _ _ | with_reducible apply State.bump_kept
      | with_reducible apply State.storeUnsealed_kept | with_reducible apply State.storeAt_kept
      | with_reducible apply State.Kept.foldl | with_reducible refine State.Kept.of_fst (by assumption) ?_ | split
      | dsimp +zetaDelta only

theorem State.applyCopy_kept (h : s.Kept p) (a1) : (State.applyCopy s a1).Kept p := by
  unfold State.applyCopy
  repeat' first
      | with_reducible assumption | extract_lets | intro _ _ _ | intro _ _
      | with_reducible apply State.configEntry_kept | with_reducible apply State.Kept.each
      | with_reducible apply State.Kept.foldl | with_reducible refine State.Kept.of_fst (by assumption) ?_ | split
      | dsimp +zetaDelta only

theorem State.configure_kept (h : s.Kept p) : (State.configure s).Kept p := by
  unfold State.configure
  repeat' first
      | with_reducible assumption | extract_lets | intro _ _ _ | intro _ _ | with_reducible apply State.logEvent_kept
      | with_reducible apply State.setFlag_kept | with_reducible apply State.applyCopy_kept
      | with_reducible apply State.Kept.foldl | with_reducible refine State.Kept.of_fst (by assumption) ?_ | split
      | dsimp +zetaDelta only

theorem State.domainOn_kept (h : s.Kept p) (a1) : (State.domainOn s a1).Kept p := by
  unfold State.domainOn
  repeat' first
      | with_reducible assumption | extract_lets | intro _ _ _ | intro _ _
      | with_reducible apply State.setInbound_kept | with_reducible apply State.setDom_kept
      | with_reducible apply State.setEpoch_kept | with_reducible apply State.Kept.putReg
      | with_reducible apply State.Kept.each | with_reducible apply State.Kept.foldl
      | with_reducible refine State.Kept.of_fst (by assumption) ?_ | split | dsimp +zetaDelta only

theorem State.coreRises_kept (h : s.Kept p) (a1) : (State.coreRises s a1).Kept p := by
  unfold State.coreRises
  repeat' first
      | with_reducible assumption | extract_lets | intro _ _ _ | intro _ _ | with_reducible apply State.setRun_kept
      | with_reducible apply State.setFld_kept | with_reducible apply State.coreLost_kept
      | with_reducible apply State.Kept.foldl | with_reducible refine State.Kept.of_fst (by assumption) ?_ | split
      | dsimp +zetaDelta only

theorem State.choirRisen_kept (h : s.Kept p) : (State.choirRisen s).Kept p := by
  unfold State.choirRisen
  repeat' first
      | with_reducible assumption | extract_lets | intro _ _ _ | intro _ _
      | with_reducible apply State.configure_kept | with_reducible apply State.flushHeldLog_kept
      | with_reducible apply State.onCrypt_kept | with_reducible apply State.ledgerRestore_kept
      | with_reducible apply State.tamperReport_kept | with_reducible apply State.raiseEvent_kept
      | with_reducible apply State.xhfSync_kept | with_reducible apply State.setFlag_kept
      | with_reducible apply State.coreRises_kept | with_reducible apply State.Kept.foldl
      | with_reducible refine State.Kept.of_fst (by assumption) ?_ | split | dsimp +zetaDelta only

theorem State.naveRisen_kept (h : s.Kept p) : (State.naveRisen s).Kept p := by
  unfold State.naveRisen
  repeat' first
      | with_reducible assumption | extract_lets | intro _ _ _ | intro _ _
      | with_reducible apply State.coreRises_kept | with_reducible apply State.belfryRisen_kept
      | with_reducible apply State.outRestore_kept | with_reducible apply State.Kept.foldl
      | with_reducible refine State.Kept.of_fst (by assumption) ?_ | split | dsimp +zetaDelta only

theorem State.latchedDown_kept (h : s.Kept p) (a1) : (State.latchedDown s a1).Kept p := by
  unfold State.latchedDown
  repeat' first
      | with_reducible assumption | extract_lets | intro _ _ _ | intro _ _
      | with_reducible apply State.fallStart_kept | with_reducible apply State.onCrypt_kept
      | with_reducible apply State.Kept.foldl | with_reducible refine State.Kept.of_fst (by assumption) ?_ | split
      | dsimp +zetaDelta only

theorem State.domainsRise_kept (h : s.Kept p) : (State.domainsRise s).Kept p := by
  unfold State.domainsRise
  repeat' first
      | with_reducible assumption | extract_lets | intro _ _ _ | intro _ _
      | with_reducible apply State.queuesOn_kept | with_reducible apply State.feedReopen_kept
      | with_reducible apply State.powerOff_kept | with_reducible apply State.domainOn_kept
      | with_reducible apply State.choirRisen_kept | with_reducible apply State.naveRisen_kept
      | with_reducible apply State.latchedDown_kept | with_reducible apply State.Kept.foldl
      | with_reducible refine State.Kept.of_fst (by assumption) ?_ | split | dsimp +zetaDelta only

theorem State.identify_kept (h : s.Kept p) (a1) : (State.identify s a1).Kept p := by
  unfold State.identify
  repeat' first
      | with_reducible assumption | extract_lets | intro _ _ _ | intro _ _ | with_reducible apply State.setFld_kept
      | with_reducible apply State.logEvent_kept | with_reducible apply State.Kept.putReg
      | with_reducible apply State.Kept.onSacr | exact fun _ => rfl | with_reducible apply State.Kept.foldl
      | with_reducible refine State.Kept.of_fst (by assumption) ?_ | split | dsimp +zetaDelta only

theorem slotValid_aligned {c : CoreId} {b : Bool} (h : s.slotValid c b = true) :
    s.header c b 0x10 % 4 = 0 ∧ s.header c b 0x14 % 4 = 0 := by
  unfold State.slotValid at h
  simp only [Bool.and_eq_true, decide_eq_true_eq] at h
  obtain ⟨⟨⟨⟨⟨-, h1⟩, h2⟩, -⟩, -⟩, -⟩ := h
  exact ⟨h1.1, h2.1⟩

theorem State.bootSlot_kept (h : s.Kept p) (c : CoreId) (b : Bool) (ha : s.header c b 0x10 % 4 = 0 ∧ s.header c b
    0x14 % 4 = 0) :
    (s.bootSlot c b).Kept p := by
  have hb : slotBase c b % 4 = 0 := by cases c <;> cases b <;> rfl
  unfold State.bootSlot
  have h1 : State.Kept p ((s.setFlag (SYS.IMGCTL_SLOT (coreNum c)) b).onCore c (fun k =>
      { k with pc := BitVec.ofNat 32 (slotBase c b + s.header c b 0x10), fvec := BitVec.ofNat 32 (slotBase c b + s.header c b 0x14) })) :=
    (State.setFlag_kept h _ _).onCore c fun k hk =>
      { hk with pc := alignedWord_ofNat (by omega), fvec := alignedWord_ofNat (by omega) }
  extract_lets
  refine State.setRun_kept (State.logEvent_kept ?_ _ _ _) _ _
  cases c <;> dsimp +zetaDelta only <;> split
  · exact State.logEvent_kept (State.identify_kept h1 _) _ _ _
  · exact State.identify_kept h1 _
  · exact State.logEvent_kept h1 _ _ _
  · exact h1

theorem State.risenFollows_kept (h : s.Kept p) (a1) : (State.risenFollows s a1).Kept p := by
  unfold State.risenFollows
  repeat' first
      | with_reducible assumption | extract_lets | intro _ _ _ | intro _ _
      | with_reducible apply State.enableActs_kept | with_reducible apply State.Kept.foldl
      | with_reducible refine State.Kept.of_fst (by assumption) ?_ | split | dsimp +zetaDelta only

theorem State.masterLoad_kept (h : s.Kept p) (a1 a2) : (State.masterLoad s a1 a2).1.Kept p := by
  unfold State.masterLoad
  repeat' first
      | with_reducible assumption | extract_lets | intro _ _ _ | intro _ _
      | refine State.readOwn_kept (by assumption) ?_ | with_reducible apply State.busLoad_kept
      | with_reducible apply State.Kept.foldl | with_reducible refine State.Kept.of_fst (by assumption) ?_ | split
      | dsimp +zetaDelta only

theorem State.masterStore_kept (h : s.Kept p) (a1 a2) : (State.masterStore s a1 a2).1.Kept p := by
  unfold State.masterStore
  repeat' first
      | with_reducible assumption | extract_lets | intro _ _ _ | intro _ _ | with_reducible apply State.writeOwn_kept
      | with_reducible apply State.busStore_kept | with_reducible apply State.Kept.foldl
      | with_reducible refine State.Kept.of_fst (by assumption) ?_ | split | dsimp +zetaDelta only

theorem State.masterRefusal_kept (h : s.Kept p) (a1 a2 a3 a4) : (State.masterRefusal s a1 a2 a3 a4).Kept p := by
  unfold State.masterRefusal
  repeat' first
      | with_reducible assumption | extract_lets | intro _ _ _ | intro _ _
      | with_reducible apply State.logDebugRefusal_kept | with_reducible apply State.logEvent_kept
      | with_reducible apply State.Kept.foldl | with_reducible refine State.Kept.of_fst (by assumption) ?_ | split
      | dsimp +zetaDelta only

theorem State.masterAccess_kept (h : s.Kept p) (a1 a2 a3) : (State.masterAccess s a1 a2 a3).Kept p := by
  unfold State.masterAccess
  repeat' first
      | with_reducible assumption | extract_lets | intro _ _ _ | intro _ _
      | with_reducible apply State.masterLoad_kept | with_reducible apply State.masterStore_kept
      | with_reducible apply State.masterRefusal_kept | with_reducible apply State.Kept.foldl
      | with_reducible refine State.Kept.of_fst (by assumption) ?_ | split
      | (with_reducible refine State.Kept.record ?_; first | with_reducible assumption | split | with_reducible apply State.masterLoad_kept | with_reducible apply State.masterStore_kept | with_reducible apply State.masterRefusal_kept | with_reducible refine State.Kept.of_fst (by assumption) ?_)
      | dsimp +zetaDelta only

theorem State.recvRefused_kept (h : s.Kept p) (a1 a2 a3 a4 a5 a6) : (State.recvRefused s a1 a2 a3 a4 a5 a6).Kept p
    := by
  unfold State.recvRefused
  repeat' first
      | with_reducible assumption | extract_lets | intro _ _ _ | intro _ _ | with_reducible apply State.send_kept
      | with_reducible apply State.refuseAccess_kept | with_reducible apply State.Kept.foldl
      | with_reducible refine State.Kept.of_fst (by assumption) ?_ | split | dsimp +zetaDelta only

theorem State.recvWrite_kept (h : s.Kept p) (a1 a2 a3 a4 a5) : (State.recvWrite s a1 a2 a3 a4 a5).Kept p := by
  unfold State.recvWrite
  repeat' first
      | with_reducible assumption | extract_lets | intro _ _ _ | intro _ _ | with_reducible apply State.busStore_kept
      | with_reducible apply State.send_kept | with_reducible apply State.recvRefused_kept
      | with_reducible apply State.Kept.foldl | with_reducible refine State.Kept.of_fst (by assumption) ?_ | split
      | dsimp +zetaDelta only

theorem State.recvRead_kept (h : s.Kept p) (a1 a2 a3 a4) : (State.recvRead s a1 a2 a3 a4).Kept p := by
  unfold State.recvRead
  repeat' first
      | with_reducible assumption | extract_lets | intro _ _ _ | intro _ _ | with_reducible apply State.busLoad_kept
      | with_reducible apply State.send_kept | with_reducible apply State.recvRefused_kept
      | with_reducible apply State.Kept.foldl | with_reducible refine State.Kept.of_fst (by assumption) ?_ | split
      | dsimp +zetaDelta only

theorem State.handOver_kept (h : s.Kept p) (a1 a2 a3) : (State.handOver s a1 a2 a3).Kept p := by
  unfold State.handOver
  repeat' first
      | with_reducible assumption | extract_lets | intro _ _ _ | intro _ _
      | with_reducible apply State.popPacket_kept | with_reducible apply State.breakOff_kept
      | with_reducible apply State.onQty_kept | with_reducible apply State.belfTake_kept
      | with_reducible apply State.Kept.foldl | with_reducible refine State.Kept.of_fst (by assumption) ?_
      | split
      | (with_reducible refine State.Kept.record ?_; first | with_reducible assumption | split | with_reducible apply State.popPacket_kept | with_reducible apply State.breakOff_kept | with_reducible apply State.onQty_kept | with_reducible apply State.belfTake_kept | with_reducible refine State.Kept.of_fst (by assumption) ?_)
      | dsimp +zetaDelta only

theorem State.deliverWord_kept (h : s.Kept p) (a1) : (State.deliverWord s a1).1.Kept p := by
  unfold State.deliverWord
  repeat' first
      | with_reducible assumption | extract_lets | intro _ _ _ | intro _ _
      | with_reducible apply State.setQueue_kept | with_reducible apply State.checkWord_kept
      | with_reducible apply State.settled_kept | with_reducible apply State.handOver_kept
      | with_reducible apply State.Kept.foldl | with_reducible refine State.Kept.of_fst (by assumption) ?_
      | split
      | (with_reducible refine State.Kept.record ?_; first | with_reducible assumption | split | with_reducible apply State.setQueue_kept | with_reducible apply State.checkWord_kept | with_reducible apply State.settled_kept | with_reducible apply State.handOver_kept | with_reducible refine State.Kept.of_fst (by assumption) ?_)
      | dsimp +zetaDelta only

theorem State.deliverAll_kept (h : s.Kept p) (a1 n) : (State.deliverAll s a1 n).Kept p := by
  induction n generalizing s a1 with
  | zero =>
    unfold State.deliverAll
    repeat' first
        | with_reducible assumption | extract_lets | intro _ _ _ | intro _ _
        | with_reducible apply State.deliverWord_kept | with_reducible apply State.Kept.foldl
        | with_reducible refine State.Kept.of_fst (by assumption) ?_ | split | dsimp +zetaDelta only
  | succ k ih =>
    unfold State.deliverAll
    repeat' first
        | with_reducible assumption | extract_lets | intro _ _ _ | intro _ _ | with_reducible apply ih
        | with_reducible apply State.deliverWord_kept | with_reducible apply State.Kept.foldl
        | with_reducible refine State.Kept.of_fst (by assumption) ?_ | split | dsimp +zetaDelta only

theorem State.recvGood_kept (h : s.Kept p) (a1 a2 a3 a4) : (State.recvGood s a1 a2 a3 a4).Kept p := by
  unfold State.recvGood
  repeat' first
      | with_reducible assumption | extract_lets | intro _ _ _ | intro _ _
      | with_reducible apply State.holdAddr_kept | with_reducible apply State.recvWord_kept
      | with_reducible apply State.recvWrite_kept | with_reducible apply State.recvRead_kept
      | with_reducible apply State.Kept.foldl | with_reducible refine State.Kept.of_fst (by assumption) ?_
      | split
      | (with_reducible refine State.Kept.record ?_; first | with_reducible assumption | split | with_reducible apply State.holdAddr_kept | with_reducible apply State.recvWord_kept | with_reducible apply State.recvWrite_kept | with_reducible apply State.recvRead_kept | with_reducible refine State.Kept.of_fst (by assumption) ?_)
      | dsimp +zetaDelta only

theorem State.damagedPair_kept (h : s.Kept p) (a1 a2 a3) : (State.damagedPair s a1 a2 a3).Kept p := by
  unfold State.damagedPair
  repeat' first
      | with_reducible assumption | extract_lets | intro _ _ _ | intro _ _
      | with_reducible apply State.send_kept | with_reducible apply State.recvSummary_kept
      | with_reducible apply State.feedBad_kept | with_reducible apply State.recvRefused_kept
      | with_reducible apply State.Kept.foldl | with_reducible refine State.Kept.of_fst (by assumption) ?_
      | split
      | (with_reducible refine State.Kept.record ?_; first | with_reducible assumption | split | with_reducible apply State.send_kept | with_reducible apply State.recvSummary_kept | with_reducible apply State.feedBad_kept | with_reducible apply State.recvRefused_kept | with_reducible refine State.Kept.of_fst (by assumption) ?_)
      | dsimp +zetaDelta only

theorem State.badReply_kept (h : s.Kept p) (a1) : (State.badReply s a1).Kept p := by
  unfold State.badReply
  repeat' first
      | with_reducible assumption | extract_lets | intro _ _ _ | intro _ _
      | with_reducible apply State.refuseAccess_kept | with_reducible apply State.spend_kept
      | with_reducible apply State.Kept.foldl | with_reducible refine State.Kept.of_fst (by assumption) ?_ | split
      | dsimp +zetaDelta only

theorem State.badQword_kept (h : s.Kept p) (a1 a2 a3) : (State.badQword s a1 a2 a3).Kept p := by
  unfold State.badQword
  repeat' first
      | with_reducible assumption | extract_lets | intro _ _ _ | intro _ _
      | with_reducible apply State.breakOff_kept | with_reducible apply State.recvQwordBad_kept
      | with_reducible apply State.verdictTaken_kept | with_reducible apply State.Kept.foldl
      | with_reducible refine State.Kept.of_fst (by assumption) ?_ | split
      | (with_reducible refine State.Kept.record ?_; first | with_reducible assumption | split | with_reducible apply State.breakOff_kept | with_reducible apply State.recvQwordBad_kept | with_reducible apply State.verdictTaken_kept | with_reducible refine State.Kept.of_fst (by assumption) ?_)
      | dsimp +zetaDelta only

theorem State.recvBad_kept (h : s.Kept p) (a1 a2 a3 a4 a5) : (State.recvBad s a1 a2 a3 a4 a5).Kept p := by
  unfold State.recvBad
  repeat' first
      | with_reducible assumption | extract_lets | intro _ _ _ | intro _ _
      | with_reducible apply State.recvQselBad_kept | with_reducible apply State.recvLag_kept
      | with_reducible apply State.recvReply_kept | with_reducible apply State.recvSample_kept
      | with_reducible apply State.holdAddr_kept | with_reducible apply State.headerLeaves_kept
      | with_reducible apply State.recvRefused_kept | with_reducible apply State.damagedPair_kept
      | with_reducible apply State.badReply_kept | with_reducible apply State.badQword_kept
      | with_reducible apply State.Kept.foldl | with_reducible refine State.Kept.of_fst (by assumption) ?_
      | split
      | (with_reducible refine State.Kept.record ?_; first | with_reducible assumption | split | with_reducible apply State.recvQselBad_kept | with_reducible apply State.recvLag_kept | with_reducible apply State.recvReply_kept | with_reducible apply State.recvSample_kept | with_reducible apply State.holdAddr_kept | with_reducible apply State.headerLeaves_kept | with_reducible apply State.recvRefused_kept | with_reducible apply State.damagedPair_kept | with_reducible apply State.badReply_kept | with_reducible apply State.badQword_kept | with_reducible refine State.Kept.of_fst (by assumption) ?_)
      | dsimp +zetaDelta only

theorem State.recvAny_kept (h : s.Kept p) (a1 a2 a3 a4) : (State.recvAny s a1 a2 a3 a4).Kept p := by
  unfold State.recvAny
  repeat' first
      | with_reducible assumption | extract_lets | intro _ _ _ | intro _ _
      | with_reducible apply State.portActive_kept | with_reducible apply State.deliverWord_kept
      | with_reducible apply State.recvGood_kept | with_reducible apply State.Kept.foldl
      | with_reducible refine State.Kept.of_fst (by assumption) ?_ | split
      | (with_reducible refine State.Kept.record ?_; first | with_reducible assumption | split | with_reducible apply State.portActive_kept | with_reducible apply State.deliverWord_kept | with_reducible apply State.recvGood_kept | with_reducible refine State.Kept.of_fst (by assumption) ?_)
      | dsimp +zetaDelta only

theorem State.scrub_kept (h : s.Kept p) (a1 n) : (s.scrub a1 n).Kept p := by
  induction n generalizing s with
  | zero => exact h
  | succ k ih =>
    unfold State.scrub
    repeat' first
        | with_reducible assumption | extract_lets | intro _ _ _ | intro _ _ | with_reducible apply ih
        | with_reducible apply State.queueCorr_kept | with_reducible apply State.queueUe_kept
        | with_reducible apply State.Kept.putReg | with_reducible apply State.Kept.each
        | with_reducible apply State.Kept.foldl | with_reducible apply State.Kept.onCore
        | with_reducible apply State.Kept.setCore | with_reducible apply State.Kept.core
        | with_reducible exact Core.Sound.same (by assumption)
        | with_reducible exact Core.Sound.same (State.Kept.core (by assumption) _)
        | with_reducible refine State.Kept.of_fst (by assumption) ?_ | split | dsimp +zetaDelta only

theorem State.eventIf_kept (h : s.Kept p) (b : Bool) {f : State → State} (hb : ∀ s : State, s.Kept p → (f s).Kept p)
    : (s.eventIf b f).Kept p := by
  unfold State.eventIf
  split
  · exact hb s h
  · exact h

theorem State.repeatBank_kept (h : s.Kept p) (a1) : (State.repeatBank s a1).Kept p := by
  unfold State.repeatBank
  repeat' first
      | with_reducible assumption | extract_lets | intro _ _ _ | intro _ _ | with_reducible apply State.eventIf_kept
      | with_reducible apply State.cimEvent_kept | with_reducible apply State.raiseEvent_kept
      | with_reducible apply State.Kept.foldl | with_reducible refine State.Kept.of_fst (by assumption) ?_ | split
      | dsimp +zetaDelta only

theorem State.repeatChoir_kept (h : s.Kept p) : (State.repeatChoir s).Kept p := by
  unfold State.repeatChoir
  repeat' first
      | with_reducible assumption | extract_lets | intro _ _ _ | intro _ _ | with_reducible apply State.eventIf_kept
      | with_reducible apply State.raiseEvent_kept | with_reducible apply State.qtyEvent_kept
      | with_reducible apply State.Kept.each | with_reducible apply State.Kept.foldl
      | with_reducible refine State.Kept.of_fst (by assumption) ?_ | split | dsimp +zetaDelta only

theorem State.repeatNave_kept (h : s.Kept p) : (State.repeatNave s).Kept p := by
  unfold State.repeatNave
  repeat' first
      | with_reducible assumption | extract_lets | intro _ _ _ | intro _ _ | with_reducible apply State.eventIf_kept
      | with_reducible apply State.belfEvent_kept | with_reducible apply State.outEvent_kept
      | with_reducible apply State.Kept.foldl | with_reducible refine State.Kept.of_fst (by assumption) ?_ | split
      | dsimp +zetaDelta only

theorem State.repeatCrypt_kept (h : s.Kept p) : (State.repeatCrypt s).Kept p := by
  unfold State.repeatCrypt
  repeat' first
      | with_reducible assumption | extract_lets | intro _ _ _ | intro _ _ | with_reducible apply State.eventIf_kept
      | with_reducible apply State.raiseEvent_kept | with_reducible apply State.raiseBoth_kept
      | with_reducible apply State.Kept.foldl | with_reducible refine State.Kept.of_fst (by assumption) ?_ | split
      | dsimp +zetaDelta only

theorem State.accessFault_kept (h : s.Kept p) (a1 a2 a3) : (State.accessFault s a1 a2 a3).Kept p := by
  unfold State.accessFault
  repeat' first
      | with_reducible assumption | extract_lets | intro _ _ _ | intro _ _ | with_reducible apply State.fault_kept
      | with_reducible apply State.Kept.foldl | with_reducible refine State.Kept.of_fst (by assumption) ?_ | split
      | dsimp +zetaDelta only

theorem State.commandStoreWith_kept (h : s.Kept p) (a1 a2 a3 a4) : (State.commandStoreWith s a1 a2 a3 a4).Kept p := by
  unfold State.commandStoreWith
  repeat' first
      | with_reducible assumption | extract_lets | intro _ _ _ | intro _ _
      | with_reducible apply State.accessFault_kept | with_reducible apply State.writeOwn_kept
      | with_reducible apply State.busStoreWith_kept | with_reducible apply State.refuseAccess_kept
      | with_reducible apply State.Kept.foldl | with_reducible refine State.Kept.of_fst (by assumption) ?_ | split
      | dsimp +zetaDelta only

theorem State.commandStore_kept (h : s.Kept p) (a1 a2 a3) : (State.commandStore s a1 a2 a3).Kept p := by
  unfold State.commandStore
  repeat' first
      | with_reducible assumption | extract_lets | intro _ _ _ | intro _ _
      | with_reducible apply State.commandStoreWith_kept | with_reducible apply State.Kept.foldl
      | with_reducible refine State.Kept.of_fst (by assumption) ?_ | split | dsimp +zetaDelta only

theorem State.commandLoad_kept (h : s.Kept p) (a1 a2) : (State.commandLoad s a1 a2).Kept p := by
  unfold State.commandLoad
  repeat' first
      | with_reducible assumption | extract_lets | intro _ _ _ | intro _ _
      | with_reducible apply State.memEcc_kept | with_reducible apply State.busLoad_kept
      | with_reducible apply State.refuseAccess_kept | refine State.readOwn_kept (by assumption) ?_
      | with_reducible apply State.accessFault_kept | with_reducible apply State.Kept.foldl
      | with_reducible refine State.Kept.of_fst (by assumption) ?_ | split
      | (with_reducible refine State.Kept.record ?_; first | with_reducible assumption | split | with_reducible apply State.memEcc_kept | with_reducible apply State.busLoad_kept | with_reducible apply State.refuseAccess_kept | refine State.readOwn_kept (by assumption) ?_ | with_reducible apply State.accessFault_kept | with_reducible refine State.Kept.of_fst (by assumption) ?_)
      | dsimp +zetaDelta only

theorem State.poke_kept (h : s.Kept p) (a1 a2 a3) : (State.poke s a1 a2 a3).Kept p := by
  unfold State.poke
  repeat' first
      | with_reducible assumption | extract_lets | intro _ _ _ | intro _ _
      | with_reducible apply State.commandStore_kept | with_reducible apply State.Kept.foldl
      | with_reducible refine State.Kept.of_fst (by assumption) ?_ | split | dsimp +zetaDelta only

theorem State.peek_kept (h : s.Kept p) (a1 a2) : (State.peek s a1 a2).Kept p := by
  unfold State.peek
  repeat' first
      | with_reducible assumption | extract_lets | intro _ _ _ | intro _ _
      | with_reducible apply State.commandLoad_kept | with_reducible apply State.Kept.foldl
      | with_reducible refine State.Kept.of_fst (by assumption) ?_ | split | dsimp +zetaDelta only

end Sys2Proof.Machine
end

