-- ==== Sys2Proof/WellFormed.lean ====
section
/-! DEFINITION. The well-formed commands: operands that the hardware can present. exec is total and does not need them:
an ill-formed command has no effect, or the effect that its register gives any word. -/
namespace Sys2Proof

/-- What a command's operands may fail. -/
inductive Ill where
  /-- a register address that is not a multiple of 4 (R126) -/
  | unaligned
  /-- a weight-window address outside the window (R33) -/
  | outsideWindow
  /-- no strait joins the two islands (R22) -/
  | noStrait
  /-- crossing times that do not rise, or more than 4096 samples (R191, R246) -/
  | samples
  /-- a PSDU without FCS longer than 253 octets (R361) -/
  | frameLength
  /-- a key slot that the command's register does not have (R344 to R346) -/
  | keySlot
  /-- a cell, or a row, of a tile outside the bank (R207) -/
  | outsideBank
  /-- an upset word beyond a queue's longest length (R85) -/
  | outsideQueue
  deriving DecidableEq, Repr

/-- The address of a word register (R126). -/
def wordAligned (a : Word) : Bool := decide (a.toNat % 4 = 0)

/-- An address of the weight windows (R33). -/
def inWeightWindow (a : Word) : Bool := decide (0x60000000 ≤ a.toNat) && decide (a.toNat < 0x60040000)

/-- Crossing times, in 1/128 DCO ticks after burst start, rise strictly (R246). -/
def crossingsRise : List Nat → Bool
  | a :: b :: rest => decide (a < b) && crossingsRise (b :: rest)
  | _ => true

/-- Cells, or rows, that lie in the tiles of a bank (R207). -/
def cellsInBank (l : List CellAt) (b : Nat) : Bool := l.all (fun p => decide (p.tile.val / 8 = b))
def rowsInBank (l : List RowAt) (b : Nat) : Bool := l.all (fun p => decide (p.tile.val / 8 = b))

/-- A refusal by name where a check fails. -/
def need (ok : Bool) (e : Ill) : Option Ill := if ok then none else some e

/-- The first check that a command fails; none for a well-formed one. -/
def Instr.ill : Instr → Option Ill
  | .registerWrite _ a _ => need (wordAligned a) .unaligned
  | .rzRead _ a => need (wordAligned a) .unaligned
  | .weightWindowLoad _ a => (need (wordAligned a) .unaligned).or (need (inWeightWindow a) .outsideWindow)
  | .weightWindowStore _ a _ => (need (wordAligned a) .unaligned).or (need (inWeightWindow a) .outsideWindow)
  | .straitWordReceive x y _ _ _ => need (decide (x ≠ y)) .noStrait
  | .straitReopen x y => need (decide (x ≠ y)) .noStrait
  | .windowOpen _ l _ => need (decide (l.length = 32)) .samples
  | .windowClose _ l x _ => need (decide (l.length ≤ 4096) && crossingsRise x) .samples
  | .frameReceive _ f => need (decide (f.octets.length ≤ 253)) .frameLength
  | .loadaes _ k => need (decide (k.toNat < 8)) .keySlot
  | .clear _ k => need (decide (k.toNat < 8)) .keySlot
  | .loadvk _ k => need (decide (k.toNat < 4)) .keySlot
  | .revokevk _ k => need (decide (k.toNat < 4)) .keySlot
  | .nkeyLoad _ k => need (decide (8 ≤ k.toNat)) .keySlot
  | .nkeyClear _ k => need (decide (8 ≤ k.toNat)) .keySlot
  | .digitalEval bk x d y => need (cellsInBank (x ++ y) bk.val && rowsInBank d bk.val) .outsideBank
  | .replicaScanDue bk r => need (rowsInBank r bk.val) .outsideBank
  | .refnow _ bk _ r => need (rowsInBank r bk.val) .outsideBank
  | .cloisterScrub _ l => need (l.all (fun e => decide (e.1 < 2 ^ 19))) .outsideQueue
  | _ => none

/-- Well-formed commands. -/
def Instr.wellFormed (i : Instr) : Bool := i.ill.isNone

end Sys2Proof
end

