-- ==== Sys2Proof/Tests/Slice0.lean ====
section
/-! SUPPORT. The model's own tests: the well-formedness smoke test, single commands with the results that the spec states,
and for every statement a witness that its hypotheses can hold. -/
set_option Elab.async false
namespace Sys2Proof.Tests
open Sys2Proof Sys2Proof.Machine

/-! ### States for the tests -/

/-- After reset, with both cores executing. -/
def base : State :=
  { State.reset with choir := { State.reset.choir with run := .running }, nave := { State.reset.nave with run := .running } }

/-- base with one core changed. -/
def ran (c : CoreId) (f : Core → Core) : State := base.onCore c f

/-- base with w1 and w2 of a core set. -/
def regs2 (c : CoreId) (a b : Word) : State := (base.setReg c 1 a).setReg c 2 b

/-- A core within a fault handler. -/
def inHandler (c : CoreId) : State := ran c (fun k => { k with psr := 1, fvec := 0x104, epc := 0x200, epsr := 0xF8000001 })

/-- An issue on a core with zero reserved fields. -/
def onChoir : Issue := ⟨.choir, true⟩
/-- The same on the nave core. -/
def onNave : Issue := ⟨.nave, true⟩

/-- The sound core states, as a Boolean. -/
def soundCore (k : Core) : Bool :=
  k.memWf && k.w[0] == 0 && k.pc.toNat % 4 == 0 && k.epc.toNat % 4 == 0 && k.fvec.toNat % 4 == 0 &&
    k.splim.toNat % 4 == 0 && k.psr &&& 0x00FFFFFE == 0 && k.epsr &&& 0x00FFFFFE == 0

/-- The sound states, as a Boolean. -/
def sound (s : State) : Bool :=
  twf regReset s.regs && twf (fun _ => (0xFF : Octet)) s.sacr.config && soundCore s.choir && soundCore s.nave

/-- The Boolean says what Core.Sound says. -/
theorem core_sound_of (k : Core) (h : soundCore k = true) : k.Sound := by
  simp only [soundCore, Bool.and_eq_true, beq_iff_eq] at h
  obtain ⟨⟨⟨⟨⟨⟨⟨h1, h2⟩, h3⟩, h4⟩, h5⟩, h6⟩, h7⟩, h8⟩ := h
  exact ⟨h1, h2, h3, h4, h5, h6, h7, h8⟩

/-- The Boolean says what State.Sound says. -/
theorem sound_of (s : State) (h : sound s = true) : s.Sound := by
  simp only [sound, Bool.and_eq_true] at h
  obtain ⟨⟨⟨h1, h2⟩, h3⟩, h4⟩ := h
  exact ⟨h1, h2, core_sound_of _ h3, core_sound_of _ h4⟩

/-- The same for several states at once. -/
theorem sound_all (l : List State) (h : l.all sound = true) : ∀ s ∈ l, s.Sound := fun s hs =>
  sound_of s (List.all_eq_true.mp h s hs)

/-- The state that an outcome answers; base where it stops. -/
def after (o : Out) : State := match o with
  | .next t => t
  | .fault _ => base
  | .refused _ => base

/-! ### Witnesses: the core's own instructions -/

theorem witness_InstructionWordsDecodeToTheirInstructions :
    ((Instr.push onNave 0x4002).issue? = some ⟨.nave, true⟩ ∧ encodeProlu (.push onNave 0x4002) = some 0x48004002) ∧
    (decodeProlu .choir 0).issue? = some ⟨.choir, true⟩ ∧
    ((0x78000000 : Word).extractLsb' 26 6 = BitVec.ofNat 6 (0x1E : Fin 64).val ∧
      (0xFFFFFFFF : Word).extractLsb' 26 6 = BitVec.ofNat 6 (0x3F : Fin 64).val) := by decide +kernel

theorem witness_ExecKeepsTheQueue :
    ∃ t, exec (.evset onChoir 1) { base with pending := [.sealingDone] } = .next t ∧ t.pending = [.sealingDone] := ⟨_, rfl, by decide +kernel⟩

theorem witness_EveryStepKeepsTheStateSound : sound (regs2 .nave 5 7) = true ∧
    answers (step { regs2 .nave 5 7 with pending := [.add onNave 3 1 2] }) = true := by decide +kernel

theorem witness_AddAndSubtractSetResultAndFlags :
    (regs2 .choir 0x7FFFFFFF 1).ready onChoir = true ∧ (regs2 .nave 0x80000000 0xFFFFFFFF).ready onNave = true := by decide +kernel

theorem witness_LogicMultiplyAndUnaryResults :
    (regs2 .choir 0xF0F0 0xFFFF).ready onChoir = true ∧ (regs2 .nave 0 0x80000000).ready onNave = true := by decide +kernel

theorem witness_ShiftsAndTheirCarry :
    (regs2 .choir 0x80000001 32).ready onChoir = true ∧ (regs2 .nave 1 33).ready onNave = true := by decide +kernel

theorem witness_DivisionsAndDivideByZero :
    ((regs2 .choir 0x80000000 0xFFFFFFFF).ready onChoir = true ∧ (regs2 .choir 0x80000000 0xFFFFFFFF).reg .choir 2 ≠ 0) ∧
    ((regs2 .choir 5 0).ready onChoir = true ∧ (regs2 .choir 5 0).reg .choir 2 = 0 ∧
      (regs2 .choir 5 0).outsideHandler .choir = true) ∧
    ((inHandler .choir).ready onChoir = true ∧ (inHandler .choir).reg .choir 2 = 0 ∧
      (inHandler .choir).outsideHandler .choir = false) := by decide +kernel

theorem witness_ConstantsAndNopRetire : base.ready onChoir = true ∧ base.ready onNave = true := by decide +kernel

theorem witness_NonZeroReservedFieldIsIllegal :
    (Instr.nop ⟨.choir, false⟩).issue? = some ⟨.choir, false⟩ ∧ base.fetches .choir = true ∧
      base.outsideHandler .choir = true ∧ (Instr.shot ⟨.nave, false⟩ 1 0 false).issue? = some ⟨.nave, false⟩ ∧
      base.fetches .nave = true ∧ base.outsideHandler .nave = true := by decide +kernel

theorem witness_CoreThatDoesNotExecuteIsUnchanged :
    (Instr.nop onChoir).issue? = some onChoir ∧ State.reset.executes .choir = false ∧
      (base.setDom .nave 0).executes .nave = false := by decide +kernel

theorem witness_BranchesAndJumpsGoToTheirTargets :
    (regs2 .choir 0x20000100 0).ready onChoir = true ∧ (regs2 .choir 0x20000100 0).reg .choir 1 % 4 = 0 ∧
    ((regs2 .nave 0x101 0).ready onNave = true ∧ ((regs2 .nave 0x101 0).reg .nave 1).toNat % 4 ≠ 0 ∧
      (regs2 .nave 0x101 0).outsideHandler .nave = true) := by decide +kernel

theorem witness_BreakAndReturnFromFault :
    (base.ready onChoir = true ∧ base.outsideHandler .choir = true ∧ base.flag SACR.SEAL_DBG = false) ∧
    ((base.setFlag SACR.SEAL_DBG true).ready onChoir = true ∧ (base.setFlag SACR.SEAL_DBG true).flag SACR.SEAL_DBG = true) ∧
    ((inHandler .nave).ready onNave = true ∧ (inHandler .nave).outsideHandler .nave = false) ∧
    ((inHandler .choir).ready onChoir = true ∧ (inHandler .choir).outsideHandler .choir = false) := by decide +kernel

/-! ### Witnesses: events, special registers and own memory -/

/-- A core asleep on a mask, with a deadline. -/
def sleeper (c : CoreId) (mask : Word) (d : BitVec 40) : State :=
  ran c (fun k => { k with run := .asleep 3 mask (some d), pc := 0x100 })

/-- A core whose SRAM holds a few octets at 0x2000_0100. -/
def loaded (c : CoreId) : State :=
  (ran c (fun k => k.setBytes 0x20000100 [0x80, 0x91, 0xA2, 0xF3, 0x14, 0x25, 0x36, 0x47])).setReg c 2 0x20000102

/-- A core with its stack pointer at 0x2000_1000. -/
def stacked (c : CoreId) : State :=
  (((loaded c).setReg c 15 0x20001000).setReg c 1 0x11111111).setReg c 14 0xEEEEEEEE

theorem witness_EventInstructionsAndEvwait_pending :
    (regs2 .choir 0x81FF0001 0).ready onChoir = true ∧ (regs2 .nave 0xFFFFFFFF 0).ready onNave = true := by decide +kernel

theorem witness_EventInstructionsAndEvwait_wait :
    (let s := regs2 .choir 0 0x10000000
     s.ready onChoir = true ∧ s.reg .choir 1 = 0 ∧ (s.reg .choir 2).toNat % 2 ^ 28 = 0 ∧ s.outsideHandler .choir = true) ∧
    (let s := (regs2 .nave 0x11 0).onCore .nave (fun k => { k with evpend := 0x10 })
     s.ready onNave = true ∧ s.evpend .nave &&& s.reg .nave 1 ≠ 0) ∧
    (let s := regs2 .choir 0x10 100
     s.ready onChoir = true ∧ s.evpend .choir &&& s.reg .choir 1 = 0 ∧ ¬(s.reg .choir 1 = 0 ∧ (s.reg .choir 2).toNat % 2 ^ 28 = 0)) := by
  decide +kernel

theorem calm_of (s : State) (c : CoreId) (hc : s.domOn .crypt = true) (hp : s.period = Period.empty)
    (h : ([CoreId.choir, .nave].all fun d => !s.flag (SYS.WDOG_EN (coreNum d)) &&
    (d == c || (!(s.core d).timer.getLsbD 31 && match (s.core d).run with
      | .asleep _ _ _ => false
      | .off => true
      | .booting => true
      | .loader => true
      | .running => true))) = true) : calmBut s c := by
  refine ⟨hc, hp, fun d => ?_⟩
  have hd : _ := List.all_eq_true.mp h d (by cases d <;> simp)
  simp only [Bool.and_eq_true, Bool.not_eq_true', Bool.or_eq_true, beq_iff_eq] at hd
  refine ⟨hd.1, fun hne => ?_⟩
  obtain he | ⟨ht, hr⟩ := hd.2
  · exact absurd he hne
  · refine ⟨ht, fun r m e he => ?_⟩
    rw [he] at hr
    simp at hr

theorem witness_DeadlineWakesAndTimerRaisesEvent :
    (calmBut (sleeper .nave 0x10 500) .nave ∧ calmBut (ran .choir (fun k => { k with timer := 0x80000010 })) .choir) ∧
    (let s := sleeper .nave 0x10 500
     s.nave.run = .asleep 3 0x10 (some 500) ∧ s.nave.halted = false ∧ s.nave.timer.getLsbD 31 = false ∧
       s.evpend .nave &&& 0x10 = 0 ∧ s.crypt.ticks ≤ 500 ∧
       s.crypt.ticks.toNat % 32768 + ((500 : BitVec 40).toNat - s.crypt.ticks.toNat) < 32766) ∧
    (let s := ran .choir (fun k => { k with timer := 0x80000010 })
     let d := (s.choir.timer.toNat % 2 ^ 28 + 2 ^ 28 - s.crypt.ticks.toNat % 2 ^ 28) % 2 ^ 28
     s.choir.run = .running ∧ s.choir.timer.getLsbD 31 = true ∧
       s.crypt.ticks.toNat % 32768 + (if 2 ^ 27 < d then 1 else d) < 32766) :=
  ⟨⟨calm_of _ _ (by decide +kernel) rfl (by decide +kernel), calm_of _ _ (by decide +kernel) rfl (by decide +kernel)⟩, by decide +kernel,
    by decide +kernel⟩

theorem witness_MfsAndMtsAccessSpecialRegisters_mfs : base.ready onChoir = true ∧ base.ready onNave = true ∧
    base.outsideHandler .choir = true ∧ 0x0C ≤ (0x0F : BitVec 8).toNat ∧ ((0x0F : BitVec 8).toNat < 0x10 ∨ 0x18 ≤ (0x0F : BitVec 8).toNat) ∧
    0x18 ≤ (0x18 : BitVec 8).toNat ∧ (0x17 : BitVec 8).toNat = 0x10 + (7 : Fin 8).val := by decide +kernel

theorem witness_MfsAndMtsAccessSpecialRegisters_mts : (regs2 .choir 0xFFFFFFFF 0).ready onChoir = true ∧
    (regs2 .choir 0xFFFFFFFF 0).outsideHandler .choir = true ∧ 0x0C ≤ (0x0C : BitVec 8).toNat ∧ (0x0C : BitVec 8).toNat < 0x10 ∧
    (0x10 : BitVec 8).toNat = 0x10 + (0 : Fin 8).val := by decide +kernel

theorem witness_LoadsReadOwnMemory :
    (let s := loaded .choir
     s.ready onChoir = true ∧ inSram .choir (s.reg .choir 2 + (2 : BitVec 18).signExtend 32).toNat = true ∧
       s.choir.isDouble (s.reg .choir 2 + (2 : BitVec 18).signExtend 32).toNat = false ∧
       (s.reg .choir 2 + (2 : BitVec 18).signExtend 32).toNat % 4 = 0) ∧
    (let s := loaded .nave
     s.ready onNave = true ∧ inFlash .nave (s.reg .nave 1 + (2 : BitVec 18).signExtend 32).toNat = true ∧
       s.nave.isDouble 2 = false ∧ (s.reg .nave 1 + (2 : BitVec 18).signExtend 32).toNat % 2 = 0) := by decide +kernel

theorem witness_StoresWriteOwnSram :
    (let s := loaded .choir
     s.ready onChoir = true ∧ inSram .choir (s.reg .choir 2 + (2 : BitVec 18).signExtend 32).toNat = true ∧
       s.choir.isDouble (s.reg .choir 2 + (2 : BitVec 18).signExtend 32).toNat = false ∧
       (s.reg .choir 2 + (2 : BitVec 18).signExtend 32).toNat % 4 = 0) := by decide +kernel

theorem stack_of (s : State) (c : CoreId) (a n : Nat) (h : a % 4 = 0 ∧ ((List.range n).all fun j =>
    decide ((s.core c).splim.toNat ≤ a + 4 * j) && inSram c (a + 4 * j)) = true) : stackRange s c a n := by
  refine ⟨h.1, fun j hj => ?_⟩
  have hj' := List.all_eq_true.mp h.2 j (List.mem_range.mpr hj)
  simp only [Bool.and_eq_true, decide_eq_true_eq] at hj'
  exact hj'

theorem witness_PushAndPopMoveTheMaskedRegisters_push :
    ((stacked .choir).ready onChoir = true ∧ (0x4002 : BitVec 16).getLsbD 0 = false ∧ (0x4002 : BitVec 16).getLsbD 15 = false) ∧
    stackRange (stacked .choir) .choir
      ((stacked .choir).reg .choir 15 - BitVec.ofNat 32 (4 * maskCount 0x4002)).toNat (maskCount 0x4002) :=
  ⟨by decide +kernel, stack_of _ _ _ _ (by decide +kernel)⟩

theorem witness_PushAndPopMoveTheMaskedRegisters_pop :
    ((stacked .nave).ready onNave = true ∧ (0x4002 : BitVec 16).getLsbD 0 = false ∧ (0x4002 : BitVec 16).getLsbD 15 = false ∧
      ∀ j < maskCount 0x4002, (stacked .nave).nave.isDouble (((stacked .nave).reg .nave 15).toNat + 4 * j) = false) ∧
    stackRange (stacked .nave) .nave ((stacked .nave).reg .nave 15).toNat (maskCount 0x4002) :=
  ⟨by decide +kernel, stack_of _ _ _ _ (by decide +kernel)⟩

theorem witness_MisalignedAndStackAccessesFault :
    (let s := loaded .choir
     s.ready onChoir = true ∧ s.outsideHandler .choir = true ∧ (s.reg .choir 2 + (1 : BitVec 18).signExtend 32).toNat % 4 ≠ 0) ∧
    (let s := regs2 .choir 0 0x40000000
     s.ready onChoir = true ∧ s.outsideHandler .choir = true ∧ 0x40000000 ≤ (s.reg .choir 2).toNat ∧ (s.reg .choir 2).toNat < 0x400C0000) ∧
    (let s := base.setReg .nave 15 0x1FFFFFFC
     s.ready onNave = true ∧ s.outsideHandler .nave = true ∧ (s.reg .nave 15 + (0 : BitVec 18).signExtend 32).toNat % 4 = 0 ∧
       s.reg .nave 15 + (0 : BitVec 18).signExtend 32 < s.nave.splim) := by decide +kernel

/-! ### Witnesses: device instructions -/

/-- A queue that is ON and holds one packet; its words carry the given error. -/
def queued (c : CoreId) (n : Nat) (e : Ecc) : State :=
  (((base.setFld (QUE.STAT_LIFE n) 2).setFld (QUE.DESC_DEPTH n) 64).setQueue n { Queue.empty with
    packets := [⟨[⟨0x80001234, .good, .head⟩, ⟨0xC0005678, e, .head⟩], false, false⟩] }).setReg c 1 (BitVec.ofNat 32 n)

/-- A core that names bank b in w1 and isle 5 in w2, with the lease of the bank at a holder. -/
def leased (c : CoreId) (b holder : Nat) : State :=
  (regs2 c (BitVec.ofNat 32 b) 5).setFld (CIM.LEASE_HOLDER b) holder

/-- A core with an operand at 0x2000_0100 in w1, its descriptor in w2, holding bank 0. -/
def weights (c : CoreId) (d : Word) : State :=
  (((loaded c).setReg c 1 0x20000100).setReg c 2 d).setFld (CIM.LEASE_HOLDER 0) (match c with | .choir => 1 | .nave => 3)

theorem witness_ShotsGoToTheLeadIsle : (regs2 .choir 9 0).ready onChoir = true ∧ (regs2 .nave 9 0).ready onNave = true := by
  decide +kernel

theorem witness_QueueInstructionsMoveWords :
    (let r := (regs2 .choir 5 0).issued .choir [1]
     let m := r.select .choirCore 5
     (regs2 .choir 5 0).ready onChoir = true ∧ queueReader .choir ((r.reg .choir 1).toNat % 256) = true ∧
       r.serves .choir .queue = true ∧ m.fld (QUE.DESC_CONSUMER 5) = 0 ∧ m.hasWord 5 = false) ∧
    (let r := ((regs2 .choir 5 0).setFld (QUE.DESC_CONSUMER 5) 1).issued .choir [1]
     r.serves .choir .queue = true ∧ (r.select .choirCore 5).fld (QUE.DESC_CONSUMER 5) ≠ 0) ∧
    (let r := (queued .nave 112 .single).issued .nave [1]
     let m := r.select .naveCore 112
     (queued .nave 112 .single).ready onNave = true ∧ queueReader .nave ((r.reg .nave 1).toNat % 256) = true ∧
       r.serves .nave .queue = true ∧ m.hasWord 112 = true ∧
       (m.queue 112).words = ⟨0x80001234, .good, .head⟩ :: [⟨0xC0005678, .single, .head⟩]) ∧
    (let m := ((queued .nave 112 .double).setQueue 112 { (queued .nave 112 .double).queue 112 with
       packets := [⟨[⟨0xC0005678, .double, .head⟩], false, false⟩] }).issued .nave [1]
     m.hasWord 112 = true ∧ (m.queue 112).words = [⟨0xC0005678, .double, .head⟩] ∧
       (((m.queueUe 112 0).settled 112).queue 112).words = [⟨0xE0010001, .good, .head⟩]) ∧
    (let m := ((queued .choir 111 .good).issued .choir [1, 2]).select .choirCore 111
     queueReader .choir ((m.reg .choir 1).toNat % 256) = true ∧ queueWriter .choir ((m.reg .choir 1).toNat % 256) = true ∧
       ((queued .choir 111 .good).issued .choir [1, 2]).serves .choir .queue = true ∧
       ((m.queue 111).words[(m.reg .choir 2).toNat % 2 ^ 20]?).map (fun w => w.ecc) ≠ some .double) := by decide +kernel

theorem witness_LeaseInstructionsChangeTheHolder :
    (let s := leased .choir 3 0
     s.ready onChoir = true ∧ (s.issued .choir [1, 2]).serves .choir (bankIsland 3) = true ∧ s.fld (CIM.LEASE_HOLDER 3) = 0 ∧
       s.fld (CIM.LEASE_LASTDOM 3) ≠ 2 ∧ (s.setFld (CIM.LEASE_LASTDOM 3) 2).fld (CIM.LEASE_LASTDOM 3) = 2 ∧
       (leased .choir 3 1).fld (CIM.LEASE_HOLDER 3) = 1 ∧ (leased .choir 3 3).fld (CIM.LEASE_HOLDER 3) = 3 ∧
       (leased .choir 3 4).fld (CIM.LEASE_HOLDER 3) = 4) ∧
    (let s := leased .choir 0 2
     s.fld (CIM.LEASE_HOLDER 0) = 2 ∧ s.flag (CIM.LEASE_PEND 0) = false ∧ s.streams 0 = [] ∧
       (s.setFlag (CIM.LEASE_PEND 0) true).flag (CIM.LEASE_PEND 0) = true) ∧
    (let s := leased .nave 1 0
     s.ready onNave = true ∧ (s.issued .nave [1, 2]).serves .nave (bankIsland 1) = true ∧
       (s.setFlag (CIM.LEASE_NAVEOK 1) false).flag (CIM.LEASE_NAVEOK 1) = false ∧
       ((s.setFlag (CIM.LEASE_NAVEOK 1) true).setFld (CIM.LEASE_LASTDOM 1) 1).flag (CIM.LEASE_NAVEOK 1) = true ∧
       ((s.setFlag (CIM.LEASE_NAVEOK 1) true).setFld (CIM.LEASE_LASTDOM 1) 1).fld (CIM.LEASE_LASTDOM 1) = 1) := by decide +kernel

theorem witness_CimInstructionsLoadAndEvaluate :
    (let m := (weights .choir 0x2003).issued .choir [1, 2]
     (weights .choir 0x2003).ready onChoir = true ∧ bitsOf (m.reg .choir 2) 21 13 = 1 ∧ bitsOf (m.reg .choir 2) 12 5 + 1 ≤ 256 ∧
       sramOperand .choir (m.reg .choir 1) 32 = true ∧ (∀ j < 8, m.choir.isDouble (0x20000100 + 4 * j) = false) ∧
       m.dark .choir (bankIsland 0) = false ∧ m.fld (CIM.LEASE_HOLDER 0) = 1) ∧
    (let m := (weights .nave 0x404).issued .nave [1, 2]
     (weights .nave 0x404).ready onNave = true ∧ bitsOf (m.reg .nave 2) 9 2 ≠ 0 ∧ bitsOf (m.reg .nave 2) 1 0 = 0 ∧
       sramOperand .nave (m.reg .nave 1) 32 = true ∧ (∀ j < 8, m.nave.isDouble (0x20000100 + 4 * j) = false) ∧
       m.dark .nave (bankIsland 0) = false ∧ m.fld (CIM.LEASE_HOLDER 0) = 3) := by decide +kernel

theorem witness_TallyAndLedgerInstructions :
    (let s := regs2 .choir 411 0x20000100
     let m := s.issued .choir [1, 2]
     s.ready onChoir = true ∧ (m.reg .choir 1).toNat < 412 ∧ sramOperand .choir (m.reg .choir 2) 96 = true ∧
       m.serves .choir .quantity = true ∧ m.serves .choir .ledger = true ∧ (s.issued .choir []).serves .choir .ledger = true) ∧
    ((regs2 .choir 391 0x20000100).issued .choir [1, 2]).reg .choir 1 < 392 := by decide +kernel

theorem witness_ClockMirrorAndMailboxInstructions :
    (base.ready onChoir = true ∧ base.ready onNave = true ∧ ¬((3 : Reg) = 2 ∧ (3 : Reg) ≠ 0) ∧
      (base.issued .choir []).serves .choir .queue = true ∧ (base.issued .nave []).serves .nave .crypt = true ∧ base.sacr.mailCmd = none) ∧
    (((regs2 .nave 66 0).issued .nave [1]).reg .nave 1 = 66 ∧ ((regs2 .nave 66 0).issued .nave [1]).serves .nave .crypt = true) ∧
    (let m := (regs2 .nave 0x01000000 0).issued .nave [1, 2]
     m.serves .nave .queue = true ∧ m.sacr.mailCmd = none ∧
       (((regs2 .nave 0 0).issued .nave [1, 2]).roodCause 0 0 ≠ 0)) ∧
    ((regs2 .nave 0x01000000 0).setFld ROOD.MBCFG_ALLOW 0xFF).roodCause 0x01000000 0 = 0 ∧
    (let m := { base with sacr := { base.sacr with mailCmd := some (1, 2), mailReply := some (3, 4) } }
     m.sacr.mailCmd ≠ none ∧ m.domOn .nave = true ∧ m.sacr.mailReply ≠ none ∧ (m.setDom .nave 0).domOn .nave = false) := by decide +kernel

theorem witness_DeviceInstructionsFaultByName :
    base.ready onChoir = true ∧ base.ready onNave = true ∧ queueReader .choir 112 = false ∧ queueReader .nave 111 = false ∧
    queueWriter .choir 128 = false ∧ queueWriter .nave 127 = false ∧
    ((regs2 .choir 112 0).issued .choir [1]).dark .choir .queue = false ∧
    (let s := (regs2 .choir 5 0).setStrait .choirCore .queue (.closing false)
     s.ready onChoir = true ∧ queueReader .choir 5 = true ∧ queueWriter .choir 5 = true ∧
       (s.issued .choir [1]).dark .choir .queue = true ∧ (s.issued .choir [1, 2]).dark .choir .queue = true) ∧
    67 ≤ (((regs2 .choir 67 0).issued .choir [1, 2]).reg .choir 1).toNat % 256 ∧
    412 ≤ (((regs2 .choir 412 0).issued .choir [1, 2]).reg .choir 1).toNat ∧
    bitsOf (((regs2 .choir 0 0xFFFFFC03).issued .choir [1, 2]).reg .choir 2) 9 2 = 0 := by decide +kernel

/-! ### Witnesses: supplies, domains, modes and resets -/

/-- base on a power path, with both OK flags as given. -/
def onPath (p : Nat) (mainOk bakOk : Bool) : State :=
  ((base.setFld CRYPT.PWRSTAT_PATH p).setFlag CRYPT.PWRSTAT_MAINOK mainOk).setFlag CRYPT.PWRSTAT_BAKOK bakOk

/-- base with both core domains in a state. -/
def domains (choir nave : Nat) : State := (base.setDom .choir choir).setDom .nave nave

/-- Standby with the alarm set for a second. -/
def alarmAt (sec : Word) : State :=
  ((base.onCrypt (fun k => { k with standby := true, ticks := 32760 })).setFlag CRYPT.WAKECFG_ALARM true).putReg CRYPT.WAKEAT sec

theorem witness_SupplyMonitorHasHysteresis : (onPath 0 true false).Sound := sound_of _ (by decide +kernel)

theorem witness_PowerPathFollowsTheSupplies :
    base.domOn .crypt = true ∧
    (let u := (onPath 0 true true).supplies 2300 3000
     u.path = 0 ∧ 2300 < 2400 + 20 * u.fld CRYPT.PWRCFG_MAINLO ∧ u.flag CRYPT.PWRSTAT_BAKOK = true) ∧
    (let u := (onPath 0 true true).supplies 2300 1700
     u.path = 0 ∧ 2300 < 2400 + 20 * u.fld CRYPT.PWRCFG_MAINLO ∧ u.flag CRYPT.PWRSTAT_BAKOK = false) ∧
    (let low := (onPath 1 false true).supplies 0 1799
     low.path = 1 ∧ 1799 < 1800 + 50 * low.fld CRYPT.PWRCFG_BAKLO) ∧
    (let main := (onPath 1 false true).supplies 3100 0
     main.path = 1 ∧ 2500 + 20 * main.fld CRYPT.PWRCFG_MAINLO ≤ 3100) ∧
    (let u := (onPath 2 false false).supplies 3100 0
     u.path = 2 ∧ 2500 + 20 * u.fld CRYPT.PWRCFG_MAINLO ≤ 3100) ∧
    (onPath 2 false false).path = 2 ∧ cryptLevel ≤ max 1800 0 ∧ max 1599 0 < cryptLevel := by
  refine ⟨by decide +kernel, by decide +kernel, by decide +kernel, by decide +kernel, by decide +kernel, by decide +kernel,
    by decide +kernel, ?_⟩
  have h : 1600 ≤ cryptLevel ∧ cryptLevel ≤ 1800 := ⟨by unfold cryptLevel; omega, by unfold cryptLevel; omega⟩
  omega

theorem witness_BoostFollowsItsTargetAndFaults : (∀ s ∈ [base.setFlag CRYPT.VPULSTAT_ON true], s.Sound) ∧
    (let s := base.setFlag CRYPT.VPULSTAT_ON true
     let target := 5000 + 125 * s.fld CRYPT.VPULCFG_LEVEL
     s.flag CRYPT.VPULSTAT_ON = true ∧ base.flag CRYPT.VPULSTAT_ON = false ∧ 10 * 0 < 9 * target ∧
       (s.raiseBit CRYPT.VPULSTAT_FAULT).allows .choir CRYPT.VPULSTAT true = true ∧
       ((s.raiseBit CRYPT.VPULSTAT_FAULT).setNow CRYPT.VPULSTAT).getLsbD 2 = true ∧ (s.setNow CRYPT.VPULSTAT).getLsbD 2 = false ∧
       s.allows .choir CRYPT.VPULCFG true = true ∧ s.allows .choir CRYPT.VPULSTAT true = true ∧ (4 : Word).getLsbD 2 = true) :=
  ⟨sound_all _ (by decide +kernel), by decide +kernel⟩

theorem witness_MeasurementsStayWithinTwentyMillivolts : base.Sound ∧
    (base.domOn .crypt = true ∧ base.allows .choir CRYPT.PWRCFG true = true ∧ (0x10000 : Word).getLsbD 16 = true) :=
  ⟨sound_of _ (by decide +kernel), by decide +kernel⟩

theorem witness_DomainsFallAndRise :
    (base.dom .choir = 2 ∧ base.dom .nave = 2 ∧ base.domOn .crypt = true) ∧ ((domains 1 1).dom .choir = 1 ∧ (domains 1 1).dom .nave = 1) ∧
    ((domains 3 3).dom .choir = 3 ∧ (domains 3 3).dom .nave = 3) ∧
    (let u := ((domains 1 0).onCrypt (fun k => { k with afterCryptReset := false })).supplies 3000 0
     u.crypt.nrst = false ∧ u.path ≠ 2 ∧ (u.crypt.afterCryptReset → u.dom .choir = 1) ∧ u.dom .choir = 1) ∧
    (let u := (domains 0 0).supplies 3100 0
     u.crypt.nrst = false ∧ u.path ≠ 2 ∧ u.crypt.afterCryptReset = true ∧ u.dom .choir = 0 ∧
       2500 + 20 * u.fld CRYPT.PWRCFG_MAINLO ≤ 3100) ∧
    (let u := base.supplies 3000 0
     u.crypt.nrst = false ∧ u.path ≠ 2 ∧ u.crypt.afterCryptReset = true ∧ u.dom .choir = 2) := by decide +kernel

theorem witness_ModesStandbyAndGuardFollow :
    base.allows .choir SYS.MODE true = true ∧
    (let s := base.onCrypt (fun k => { k with vmain := 3100 })
     s.domOn .crypt = true ∧ s.path = 0 ∧ 2500 + 20 * s.fld CRYPT.PWRCFG_MAINLO ≤ s.crypt.vmain) ∧
    ((base.setFlag SYS.MODE_G true).flag SYS.MODE_G = true ∧ (base.setFlag SYS.MODE_G true).dom .nave = 2) ∧
    (let s := ((base.setFlag SYS.MODE_M false).setFlag SYS.MODE_C false).onCore .choir (fun k => { k with run := .asleep 0 1 none })
     s.domOn .choir = true ∧ runLife s.choir.run = 2 ∧ s.nave.run ≠ .loader ∧ s.flag SYS.MODE_M = false ∧
       s.flag SYS.MODE_V = false ∧ s.flag SYS.MODE_G = false ∧ s.flag SYS.MODE_C = false) ∧
    ((alarmAt 0).crypt.standby = true ∧ (alarmAt 0).flag CRYPT.WAKECFG_ALARM = true ∧
      (alarmAt 0).getReg CRYPT.WAKEAT = (alarmAt 0).timeSec) ∧
    (let s := alarmAt 1
     s.crypt.standby = true ∧ s.flag CRYPT.WAKECFG_ALARM = true ∧ s.getReg CRYPT.WAKEAT ≠ s.timeSec) := by decide +kernel

theorem witness_ResetsReachTheirDomains :
    ((alarmAt 9).crypt.standby = true ∧ (alarmAt 9).domOn .crypt = true) ∧
    (let s := base.onCrypt (fun k => { k with afterCryptReset := false })
     s.domOn .crypt = true ∧ s.crypt.standby = false ∧ s.path ≠ 2 ∧ ¬(s.crypt.afterCryptReset = true ∧ s.dom .choir = 0)) ∧
    (let s := (domains 0 0).onCrypt (fun k => { k with nrst := true, afterCryptReset := false })
     s.crypt.nrst = true ∧ s.dom .choir = 0 ∧ s.path ≠ 2 ∧ s.crypt.standby = false ∧ s.crypt.afterCryptReset = false) ∧
    (base.allows .choir SYS.RSTREQ true = true ∧ base.domOn .nave = true ∧ base.allows .choir (SYS.WDOG 0) true = true ∧
      base.allows .nave (SYS.WDOG 1) true = true) ∧
    (let s := (base.setFlag (SYS.WDOG_EN 0) true).setFld (SYS.WDOG_PERIOD 0) 2
     s.flag (SYS.WDOG_EN (coreNum .choir)) = true ∧ s.choir.halted = false ∧ s.domOn .crypt = true ∧ s.period = Period.empty ∧
       s.choir.timer.getLsbD 31 = false ∧ s.nave.timer.getLsbD 31 = false ∧ s.choir.run = .running ∧ s.nave.run = .running ∧
       s.flag (SYS.WDOG_EN (coreNum .nave)) = false ∧
       s.crypt.ticks.toNat % 32768 + (1024 * s.fld (SYS.WDOG_PERIOD 0) - s.crypt.wdogChoir) < 32766) := by decide +kernel

/-! ### Witnesses: the isles and the banks -/

/-- A path descriptor of port 16 and port 24 (isles 2 and 3), of an echo, and of an RTD on isle 2. -/
def pairCtl : Word := 0x80101800
def echoCtl : Word := 0xA0100000
def rtdCtl : Word := 0xC0100000

/-- A set under way with a descriptor, in a phase. -/
def setOf (ctl : Word) (p : Phase) : ShotSet where
  cmd := ⟨9, 7, false, false⟩
  ctl := ctl
  burst := 0x00042064
  win := 0x08000000
  gains := 0x00843210
  gain := 50
  bank := some 0
  second := false
  phase := p
  tokenWait := false
  claimWait := false
  delayed := false
  drvsub := false
  time := 0
  arrival := none
  centred := false
  window := Window.empty
  shot := 0
  setPeak := none
  setClip := false

/-- Isles 2 and 3 ON, XHF stable, bank 0 ON and lent to isle 2. -/
def isles : State :=
  let s := ((base.setLife 4 2).setLife 5 2).setLife 18 2
  let s := (s.setFlag CRYPT.CLKSTAT_XHFON true).setFlag CRYPT.CLKSTAT_XHFOK true
  let s := (s.setFld (CIM.LEASE_HOLDER 0) 2).setFld (CIM.LEASE_ISLES 0) 0xC
  (s.setFld (ISLE.PORTMODE_MODES 2) 1).setFld (ISLE.PORTMODE_MODES 3) 1

/-- isles with a latched command on isle 2 whose descriptor is ctl. -/
def commanded (ctl : Word) : State :=
  (isles.putReg (ISLE0.PDCTL 9) ctl).setIsle 2 { Isle.empty with cmds := [⟨9, 7, false, false⟩] }

/-- isles with a set under way on isle 2. -/
def shooting (x : ShotSet) : State := isles.setIsle 2 { Isle.empty with cur := some x }

/-- A quiet sample, and a loud one. -/
def quiet : Sample := ⟨3, false⟩
def loud : Sample := ⟨2047, true⟩

theorem witness_ShotSetsStartAndFire :
    (let s := commanded pairCtl
     (s.isle 2).cmds = [⟨9, 7, false, false⟩] ∧ s.fld (ISLE.STAT_LIFE 2) = 2 ∧ (s.isle 2).cur = none ∧
       s.flag (ISLE.STAT_CLAIMED 2) = false ∧ (s.isle 3).cur = none ∧ s.flag CRYPT.CLKSTAT_XHFOK = true ∧
       s.startRefusal 2 ⟨9, 7, false, false⟩ = none) ∧
    (commanded 0).startRefusal 2 ⟨9, 7, false, false⟩ = some reasonPdoff ∧
    (let s := shooting (setOf echoCtl .lead)
     (s.isle 2).cur = some (setOf echoCtl .lead) ∧ ctlKind echoCtl < 2 ∧ s.flag (ISLE.STAT_RECOV 2) = false ∧
       s.flag CRYPT.CLKSTAT_XHFOK = true) ∧
    ((shooting (setOf echoCtl .burst)).isle 2).cur = some (setOf echoCtl .burst) ∧
    ((shooting (setOf echoCtl .clamp)).isle 2).cur = some (setOf echoCtl .clamp) ∧
    bitsOf (setOf echoCtl .clamp).burst 21 18 ≠ 0 := by decide +kernel

theorem witness_TokensAndClaimsAreGranted :
    (let s := isles.setIsle 3 { Isle.empty with cur := some { setOf pairCtl .lead with claimWait := true } }
     (s.isle (twinOf 2)).cur = some { setOf pairCtl .lead with claimWait := true } ∧ s.fld (ISLE.STAT_LIFE 2) = 2 ∧
       (s.isle 2).cur = none ∧ s.flag (ISLE.STAT_CLAIMED 2) = false) ∧
    (let x := { setOf pairCtl .lead with tokenWait := true }
     let s := { shooting x with isles := { (shooting x).isles with requests := [(15, 2)] } }
     tget (fun _ => none) s.isles.tokens 15 = none ∧
       s.isles.requests.find? (fun r => decide (r.1 = 15)) = some (15, 2) ∧ (s.isle 2).cur = some x ∧ x.phase = .lead) ∧
    (let s := { isles with isles := { isles.isles with tokens := [(1, some (2, .ended))] } }
     tget (fun _ => none) s.isles.tokens 1 = some (2, .ended)) ∧
    (let x := { setOf pairCtl .lead with tokenWait := true }
     ((shooting x).isle 2).cur = some x ∧ x.phase = .lead ∧ (x.tokenWait = true ∨ x.claimWait = true)) := by decide +kernel

theorem witness_WindowsStreamAndClose :
    (let x := setOf pairCtl .listen
     ((shooting x).isle 2).cur = some x ∧ x.phase = .listen ∧ (List.replicate 32 quiet).length = 32 ∧ x.bank = some 0 ∧
       (shooting x).sampleOpen 0 2 = true ∧ (base.sampleOpen 0 2) = false) ∧
    (let x := setOf pairCtl .window
     ((shooting x).isle 2).cur = some x ∧ (List.replicate 96 quiet).length + 32 = 64 * 2 ^ bitsOf x.win 29 27 ∧
       risingTimes [100, 200] = true) := by decide +kernel

theorem witness_ShotsEndWithoutTheirBank :
    ((shooting (setOf pairCtl .lag)).isle 2).cur = some (setOf pairCtl .lag) ∧ (setOf pairCtl .lag).phase = .lag ∧
    (isles.setIsle 2 { Isle.empty with cur := some (setOf pairCtl .written), awaits := some 4 }).isle 2 =
      { Isle.empty with cur := some (setOf pairCtl .written), awaits := some 4 } := by decide +kernel

theorem witness_ConversionsEndWithTheirRecord :
    (let x := setOf rtdCtl .lead
     ((shooting x).isle 2).cur = some x ∧ 2 ≤ ctlKind x.ctl ∧ x.phase = .lead ∧
       (shooting x).flag CRYPT.CLKSTAT_XHFOK = true) ∧
    (let x := setOf rtdCtl .discharge
     ((shooting x).isle 2).cur = some x ∧ 2 ≤ ctlKind x.ctl ∧ x.phase = .discharge ∧
       tget (fun _ => none) (shooting x).isles.expected 9 = none ∧ 283648 ≤ 4 * 70963200) := by decide +kernel

theorem witness_IsleRegistersAndXhfLoss : (∀ s ∈ [isles, shooting (setOf pairCtl .lead), isles.setFlag CRYPT.XHFREQ_CHOIR true], s.Sound) ∧
    (isles.allows .choir (ISLE.PORTMODE 2) true = true ∧ (isles.isle 2).cur = none ∧
      (shooting (setOf pairCtl .lead)).allows .choir (ISLE.PORTMODE 2) true = true ∧
      ((shooting (setOf pairCtl .lead)).isle 2).cur = some (setOf pairCtl .lead)) ∧
    (isles.allows .choir (ISLE0.PDCTL 127 + 4 * 3) true = true ∧ isles.allows .choir (ISLE0.PDCTL 0) true = true ∧
      isles.allows .choir (ISLE.CTL 15) true = true ∧
      ctlKind ((isles.storeReg .choir (ISLE0.PDCTL 0) echoCtl).getReg (ISLE0.PDCTL 0)) ≠ 0 ∧
      ctlKind ((isles.storeReg .choir (ISLE0.PDCTL 0) 0).getReg (ISLE0.PDCTL 0)) = 0 ∧
      ctlPortB ((isles.storeReg .choir (ISLE0.PDCTL 0) 0).getReg (ISLE0.PDCTL 0)) =
        ctlPortA ((isles.storeReg .choir (ISLE0.PDCTL 0) 0).getReg (ISLE0.PDCTL 0))) ∧
    (let s := isles.setFlag CRYPT.XHFREQ_CHOIR true
     s.xhfHeld = true ∧ s.flag CRYPT.CLKSTAT_XHFON = true) :=
  ⟨sound_all _ (by decide +kernel), by decide +kernel⟩

/-- A stream of 64 samples that bank 0 has taken. -/
def streamOf (lagged : Bool) (rows : List Nat) : Stream :=
  ⟨2, 2, 0, 40, 40, 64, 64, rows, false, lagged, none, none, none⟩

/-- An evaluation of that stream, with or without a reason that ends it. -/
def evalOf (digital : Bool) (reason : Option Nat) : Eval := ⟨2, 0, digital, 0, 1, [], reason⟩

/-- Bank 0 ON with tile 0 ON and not empty, and a stream. -/
def streaming (lagged : Bool) : State :=
  let s := ((isles.setLife 22 2).setFlag (CIM.TSTAT_EMPTY 0) false).setFld (CIM.CFG_SHOTTILES 0) 1
  s.setStreams 0 [streamOf lagged [3, 1]]

/-- Bank 0 with a running evaluation of its stream. -/
def evaluating (digital : Bool) (reason : Option Nat) : State :=
  (streaming digital).setEval 0 (some (evalOf digital reason))

theorem witness_BanksEvaluateAndScan :
    (let s := streaming false
     s.evalOf 0 = none ∧ 2 ≤ s.fld (CIM.STAT_LIFE 0) ∧ s.scansOf 0 = [] ∧
       (s.streams 0).find? (fun x => decide (x.len ≤ x.count) && !x.lagged && x.reason.isNone) = some (streamOf false [3, 1])) ∧
    (let s := streaming true
     s.evalOf 0 = none ∧ 2 ≤ s.fld (CIM.STAT_LIFE 0) ∧ s.scansOf 0 = [] ∧
       (s.streams 0).find? (fun x => decide (x.len ≤ x.count) && !x.lagged && x.reason.isNone) = none ∧
       (s.streams 0).find? (fun x => x.lagged && x.digital.isNone && x.reason.isNone) = some (streamOf true [3, 1])) ∧
    ([false, true].all fun digital => [none, some 0xC1].all fun reason =>
      let s := evaluating digital reason
      s.evalOf 0 == some (evalOf digital reason) && s.streamOf 0 (evalOf digital reason) == some (streamOf digital [3, 1]) &&
        (evalOf digital reason).digital == digital && (evalOf digital reason).reason == reason &&
        (s.evalOf 0).isSome) = true ∧
    (isles.fld (CIM.STAT_LIFE 0) = 2 ∧ isles.allows .choir (CIM.REFNOW 0) true = true ∧ isles.evalOf 0 = none ∧
      isles.scansOf 0 = [] ∧ nextStream (isles.streams 0) = none) ∧
    (let u := (streaming false).copyPending 0
     ((maskTiles 0 1).filter (fun k => u.fld (CIM.TSTAT_LIFE k) == 2)) ≠ [] ∧
       (⟨1, true, [⟨0, 5⟩], 0⟩ : Scan).drifted.any (fun d => (maskTiles 0 1).elem d.tile.val) = true) := by decide +kernel

theorem witness_BankWeightsThresholdsAndWipes :
    (∀ s ∈ [leased .choir 0 1, leased .choir 0 4, { leased .choir 0 1 with cim := { Cim.reset with single := [0], double := [9] } }], s.Sound) ∧
    ((0x60000000 : Word).toNat = 0x60000000 + 0x2000 * (0 : Fin 32).val + 32 * (0 : Fin 256).val + 4 * (0 : Fin 8).val ∧
      (0x6003FFFC : Word).toNat = 0x60000000 + 0x2000 * (31 : Fin 32).val + 32 * (255 : Fin 256).val + 4 * (7 : Fin 8).val ∧
      (leased .choir 0 1).allows .choir 0x60000000 false = true ∧ (leased .choir 0 1).allows .choir 0x60000000 true = true ∧
      0 ∉ (leased .choir 0 1).cim.double ∧ 0 ∉ (leased .choir 0 1).cim.single) ∧
    (let s := { leased .choir 0 1 with cim := { Cim.reset with single := [0], double := [9] } }
     s.allows .choir 0x60000000 false = true ∧ 0 ∈ s.cim.single ∧ 0 ∉ s.cim.double ∧ 9 ∈ s.cim.double) ∧
    ((leased .choir 0 1).allows .choir (CIM.THRDATA 0) false = true ∧ (leased .choir 0 1).allows .choir (CIM.THRDATA 0) true = true ∧
      (leased .choir 0 4).fld (CIM.LEASE_HOLDER 0) = 4 ∧ (leased .choir 0 1).allows .choir (CIM.CTL 0) true = true ∧
      (leased .choir 0 1).allows .choir (CIM.TCTL 0) true = true) :=
  ⟨sound_all _ (by decide +kernel), by decide +kernel⟩

/-! ### Witnesses: quantities, outputs and the seal -/

/-- Conduit 3 in a set, the quantity unit ON. -/
def inSet : State := (base.setLife 54 2).setFlag (QTY.CDSTAT_INSET 3) true

/-- A packet taken from queue 5. -/
def packet (l : List Word) : State := (base.setLife 54 2).onQty (fun q => { q with taken := some (5, l) })

/-- A commit under way, which has begun to write its bank. -/
def committing : State := base.onQty (fun q => { q with commit := some ⟨base.image 0, false, []⟩ })

/-- A pin ON in a mode with a debt. -/
def pin (n mode debt : Nat) : State :=
  ((base.setLife (57 + n) 2).setFld (OUT.PINCTL_MODE n) mode).setFld (OUT.PINDEBT_DEBT n) debt

/-- A seal state, with VERIFY at a level. -/
def sealState (st : Nat) (v : Bool) : State := (base.setFld SACR.SEAL_STATE st).setFlag SACR.SEAL_VERIFY v

theorem witness_QuantitiesTakePacketsAndClose : (∀ s ∈ [packet [0], inSet], s.Sound) ∧
    ((packet [0]).qty.taken = some (5, [0]) ∧ (packet [0]).fld QTY.STAT_LIFE = 2) ∧
    (inSet.flag (QTY.CDSTAT_INSET 3) = true ∧ inSet.fld QTY.STAT_LIFE ≠ 0) ∧
    ((base.setFld (QTY.CLVOTE_AGE 3) 1).fld (QTY.CLVOTE_AGE 3) ≠ 0 ∧ base.allows .choir (QTY.CLVOTE 3) true = true ∧
      base.allows .choir (QTY.AUXADD 7) true = true ∧ tget (fun _ => 0) base.qty.indices 391 < 2 ^ 64 ∧
      base.allows .choir QTY.CALCTL true = true ∧ (0x80000000 : Word).getLsbD 31 = true ∧ (0x0507 : Word).toNat % 8 = 7 ∧
      ((inSet.setFlag (QTY.CDCFG_EN 3) true).takeCfg 3).qty.conduits ≠ inSet.qty.conduits) :=
  ⟨sound_all _ (by decide +kernel), by decide +kernel⟩

theorem witness_CommitsKeepTheNewestImage :
    (base.domOn .choir = true ∧ (base.setFld LEDG.CFG_PERIOD 5).domOn .choir = true ∧
      (base.setFld LEDG.CFG_PERIOD 5).fld LEDG.CFG_PERIOD ≠ 0 ∧ (base.setFld LEDG.CFG_PERIOD 5).qty.commit = none) ∧
    (committing.domOn .choir = true ∧ (committing.setFld LEDG.CFG_PERIOD 5).fld LEDG.CFG_PERIOD ≠ 0 ∧
      (committing.setFld LEDG.CFG_PERIOD 5).qty.commit ≠ none ∧ committing.qty.commit = some ⟨base.image 0, false, []⟩) := by decide +kernel

theorem witness_PinsEmitCountAndLock :
    (base.domOn .choir = true ∧ base.strait .quantity .outputs = .isOpen) ∧
    ((pin 3 0 1).fld (OUT.PINSTAT_LIFE 3) = 2 ∧ (pin 3 0 1).fld (OUT.PINCTL_MODE 3) = 0 ∧
      (pin 3 0 1).flag (OUT.PINSTAT_ACTIVE 3) = false ∧ 0 < (pin 3 0 1).fld (OUT.PINDEBT_DEBT 3)) ∧
    ((pin 3 0 1).setFlag (OUT.PINSTAT_ACTIVE 3) true).flag (OUT.PINSTAT_ACTIVE 3) = true ∧
    (pin 7 2 0).fld (OUT.PINCTL_MODE 7) = 2 ∧
    (let s := (pin 0 1 0xFFFFFF).setFlag OUT.FEEDSTAT_V true
     s.allows .nave (OUT.PINADD 0) true = true ∧ s.outLocked .nave (OUT.PINADD 0) = false ∧
       s.fld (OUT.PINCTL_MODE 0) = 1 ∧ s.flag OUT.FEEDSTAT_V = true ∧ s.allows .nave (OUT.PINCTL 0) true = true ∧
       s.outLocked .nave (OUT.PINCTL 0) = false) ∧
    (let s := base.setFld OUT.LOCK_PIN 1
     s.allows .nave (OUT.PINCTL 0) true = true ∧ bitAt (s.fld OUT.LOCK_PIN) 0 = true ∧
       s.allows .choir OUT.LOCK true = true) := by decide +kernel

theorem witness_LoopsFailAndRecover :
    (let s := (base.setLife 66 2).setFld (OUT.LPCTL_SRC 1) 1
     (s.fld (OUT.LPSTAT_LIFE 1) == 2) = true ∧ s.fld (OUT.LPCTL_SRC 1) ≠ 0 ∧
       (s.setFlag (OUT.LPSTAT_LOWNOW 1) true).flag (OUT.LPSTAT_LOWNOW 1) = true ∧
       s.flag (OUT.LPSTAT_LOWNOW 1) = false ∧ s.allows .nave (OUT.LPMEAS 1) false = true ∧
       60 ≤ (s.setFld (OUT.LPCMD_CMD 1) 8000).fld (OUT.LPCMD_CMD 1) ∧ (s.setFld (OUT.LPCMD_CMD 1) 8000).fld (OUT.LPCMD_CMD 1) ≤ 65475 ∧
       s.allows .nave (OUT.LPCTL 1) true = true ∧ s.outLocked .nave (OUT.LPCTL 1) = false ∧
       bitAt ((s.setFld OUT.LOCK_LOOP 2).fld OUT.LOCK_LOOP) 1 = true) := by decide +kernel

theorem witness_SealAndTamperInputs :
    (∀ s ∈ [sealState 0 false, sealState 1 false, sealState 2 true], s.Sound) ∧
    ((sealState 0 false).allows .choir SACR.SEALCTL true = true ∧ (0x5EA10001 : Word).getLsbD 0 = true ∧
      bitsOf (0x5EA10001 : Word) 31 16 = 0x5EA1) ∧
    ({ base with sacr := { base.sacr with sealing := true } }.sacr.sealing = true ∧ base.domOn .crypt = true) ∧
    ((sealState 1 false).fld SACR.SEAL_STATE = 1 ∧ (sealState 1 false).logFull = false ∧
      (sealState 2 true).fld SACR.SEAL_STATE = 2 ∧ (sealState 0 false).fld SACR.SEAL_STATE = 0 ∧
      (sealState 0 false).flag SACR.SEAL_CASE ≠ true ∧ (sealState 0 false).flag SACR.SEAL_MAGNET ≠ true) :=
  ⟨sound_all _ (by decide +kernel), by decide +kernel⟩

/-- base with a full log, but for one entry where one is false. -/
def fullLog (full : Bool) : State :=
  { base with log := List.replicate (if full then 1792 else 1791) ⟨0, 0x70, 0, 0, 0⟩ }

theorem witness_fullLog : (fullLog true).logFull = true ∧ ((fullLog true).setFld SACR.SEAL_STATE 1).fld SACR.SEAL_STATE = 1 := by
  decide +kernel

theorem witness_KeyCommandsAndMacRuns : (∀ s ∈ [sealState 0 false, sealState 1 false, sealState 2 true,
      base.setFlag SACR.KEYSTAT_BUSY true, base.setFlag SACR.NKEYSTAT_BUSY true], s.Sound) ∧
    ((sealState 0 false).allows .choir SACR.KEYCMD true = true ∧ (sealState 0 false).flag SACR.KEYSTAT_BUSY = false ∧
      8 ≤ (8 : BitVec 4).toNat ∧ (7 : BitVec 4).toNat < 8 ∧ 4 ≤ (4 : BitVec 4).toNat ∧ (3 : BitVec 4).toNat < 4 ∧
      bitAt ((sealState 0 false).fld SACR.KEYMAP_VKSET) 3 = false ∧
      bitAt (((sealState 0 false).setFld SACR.KEYMAP_VKSET 8).fld SACR.KEYMAP_VKSET) 3 = true) ∧
    ((sealState 1 false).allows .choir SACR.KEYCMD true = true ∧ (sealState 1 false).fld SACR.SEAL_STATE ≠ 0 ∧
      ¬((sealState 1 false).fld SACR.SEAL_STATE = 0 ∨ (sealState 1 false).fld SACR.SEAL_STATE = 2)) ∧
    (base.allows .nave SACR.NKEYCMD true = true ∧ base.flag SACR.NKEYSTAT_BUSY = false ∧
      (base.setFlag SACR.KEYSTAT_BUSY true).flag SACR.KEYSTAT_BUSY = true ∧ base.sacr.sealing = false ∧
      (base.setFlag SACR.NKEYSTAT_BUSY true).flag SACR.NKEYSTAT_BUSY = true) ∧
    (base.allows .choir SACR.MACCTL true = true ∧ base.flag SACR.MACCTL_BUSY = false ∧ (0x40000010 : Word).getLsbD 30 = true ∧
      (0x40000010 : Word).getLsbD 29 = false) ∧
    (let s := base.setFlag SACR.MACCTL_BUSY true
     s.allows .choir SACR.DIN true = true ∧ s.allows .choir SACR.MACCTL true = true ∧ s.flag SACR.MACCTL_BUSY = true ∧
       s.sacr.macTag = none ∧ (0x20000000 : Word).getLsbD 29 = true) ∧
    ({ base with sacr := { base.sacr with macTag := some 5 } }.sacr.macTag = some 5 ∧
      { base with sacr := { base.sacr with keyRuns := true } }.sacr.keyRuns = true) :=
  ⟨sound_all _ (by decide +kernel), by decide +kernel⟩

theorem witness_DebugMastersSlotCheckAndLog :
    (∀ s ∈ [sealState 0 false, sealState 1 false, base.setFlag SACR.SEAL_DBG true, base.setFlag SACR.IMGCHK_BUSY true], s.Sound) ∧
    ((sealState 0 false).domOn .choir = true ∧ (sealState 0 false).domOn .crypt = true ∧ (sealState 0 false).pathMain = true ∧
      (sealState 0 false).fld SACR.SEAL_STATE = 0 ∧ base.silentAt 0x400A0000 = false ∧
      ¬((sealState 1 false).fld SACR.SEAL_STATE = 0 ∨ (sealState 1 false).fld SACR.SEAL_STATE = 2) ∧
      (base.setFlag SACR.SEAL_DBG true).flag SACR.SEAL_DBG = true ∧
      ((base.setFlag SACR.SEAL_DBG true).onCore .choir (fun k => { k with halted := true })).choir.halted = true) ∧
    (base.domOn .nave = true ∧ (0x400A0000 : Word).toNat % 4 = 0 ∧ (inFlash .nave 0x400A0000 || inSram .nave 0x400A0000) = false ∧
      base.reach .nave 0x400A0000 false = none ∧ regionOf 0x400A0000 = some .belf ∧
      (base.loadAt .nave 0x400A0000 .belf).2.toOption = some (base.loadReg 0x400A0000).2 ∧ base.reach .nave 0x400A0000 true = none ∧
      base.reach .nave 0x40070000 false = some causeScreen ∧ base.flag SACR.SEAL_DBG = false ∧ inSram .nave 0x20000100 = true) ∧
    (base.allows .choir SACR.IMGCHK true = true ∧ base.flag SACR.IMGCHK_BUSY = false ∧
      (base.setFlag SACR.IMGCHK_BUSY true).flag SACR.IMGCHK_BUSY = true ∧ base.allows .choir (LEDG.LOGDATA 3) false = true) :=
  ⟨sound_all _ (by decide +kernel), by decide +kernel⟩

/-! ### Witnesses: the belfry -/

/-- Port 0 ON with XHF stable, its queues and address set. -/
def radio : State :=
  let s := ((base.setLife 55 2).setFlag CRYPT.CLKSTAT_XHFON true).setFlag CRYPT.CLKSTAT_XHFOK true
  let s := (s.setFld (BELF.QUEUES_RXQ 0) 130).setFld (BELF.QUEUES_TXSTATQ 0) 131
  let s := (s.setFld (BELF.ADDR_SHORT 0) 0x1234).setFld (BELF.ADDR_PANID 0) 0xABCD
  (s.setFld (BELF.HOP_HOPLEN 0) 2).putReg (hopSeq 0 1) 7

/-- A data frame from 0x0042 to 0x1234, with or without AR. -/
def dataFrame (ar : Bool) : List Octet :=
  [if ar then 0x61 else 0x41, 0x88, 7, 0xCD, 0xAB, 0x34, 0x12, 0x42, 0x00, 0x55, 0x66, 0x77]

/-- Its header as the belfry reads it. -/
def dataMhr (ar : Bool) : Option Mhr := parseMhr (dataFrame ar)

/-- A received frame on channel 5, on time. -/
def heard (ar good : Bool) : RxFrame := ⟨dataFrame ar, good, 200, 100, 5, 0⟩

/-- A secured data frame (level 5, key index 1), with room for its MIC. -/
def secureDataFrame : List Octet :=
  [0x69, 0xA8, 7, 0xCD, 0xAB, 0x34, 0x12, 0x42, 0x00, 0x0D, 0, 0, 0, 0, 1, 0x55, 0x66, 0x77, 0, 0, 0, 0]

/-- A buffered packet with its header word. -/
def buffered (ar : Bool) (hdr : Word) : RetryBuf := ⟨hdr, dataFrame ar, 0, false⟩

/-- Port 0 about to send queue 130's frame. -/
def sending (ar : Bool) : State :=
  radio.onPort 0 (fun y => { y with act := .send 1 130, bufs := [(130, some (buffered ar 3))] })

/-- Port 0 about to send a secured frame; key slot 8 is loaded and its counter lies below its mark. -/
def sendingSecure : State :=
  ((radio.setAesKey 8 (some 5)).setFld (BELF.NMARK_MARK 0) 65536).onPort 0 (fun y => { y with
    act := .send 1 130, bufs := [(130, some ⟨0x103, secureDataFrame, 0, false⟩)] })

/-- Port 0 listening on channel 5. -/
def listening : State := radio.onPort 0 (fun y => { y with act := .listen false true, channel := 5 })

/-- Port 0 with some radio state changed. -/
def port0 (f : Port → Port) : State := radio.onPort 0 f

/-- A node on port 0 in a state of the engine. -/
def node (st : Nat) (f : Port → Port) : State :=
  ((port0 f).setFld (BELF.NETCTL_ROLE 0) 1).setNetState 0 st

/-- A coordinator on port 0. -/
def coordinator (st : Nat) : State := (radio.setFld (BELF.NETCTL_ROLE 0) 2).setNetState 0 st

/-- A neighbour entry with an EUI-64. -/
def friend : Nbr := Nbr.new (some 0x1122334455667788) 0x42 0 ⟨0, 0⟩

theorem witness_SlotsSendReceiveAndAcknowledge :
    (∀ s ∈ [radio, sending true, listening, port0 (fun y => { y with lastDone := true })], s.Sound) ∧
    (radio.portOn 0 = true ∧ radio.flag CRYPT.CLKSTAT_XHFOK = true ∧ (radio.port 0).air = none ∧ (radio.port 0).awaits = none ∧
      (radio.port 0).ack = none ∧ (radio.port 0).lastDone = false ∧ (radio.port 0).install = none ∧
      ((port0 (fun y => { y with lastDone := true })).port 0).lastDone = true) ∧
    (let s := radio.setFlag (BELF.PSTAT_SYNCED 0) true
     s.testing 0 = false ∧ s.scanning 0 = false ∧ s.flag (BELF.PSTAT_SYNCED 0) = true ∧ s.fld (BELF.HOP_HOPLEN 0) ≠ 0 ∧
       ¬(s.role 0 = 2 ∧ s.netState 0 = 5)) ∧
    (let s := sending true
     s.portLive 0 = true ∧ (s.port 0).act = .send 1 130 ∧ (s.port 0).buf 130 = some (buffered true 3) ∧ s.pathMain = true ∧
       s.badFrame 0 3 (some (dataFrame true)) true = 0 ∧ s.testing 0 = false ∧ s.fits 0 12 true = true ∧ s.limitAllows 0 (s.port 0).channel (s.airtime 0 14) = true ∧
       hdrSecure 3 = false) ∧
    (let s := sendingSecure
     s.badFrame 0 0x103 (some secureDataFrame) true = 0 ∧ s.fits 0 22 true = true ∧ s.limitAllows 0 (s.port 0).channel (s.airtime 0 24) = true ∧
       hdrSecure 0x103 = true ∧ s.counterReady 8 = true ∧ (parseMhr secureDataFrame).isSome = true ∧ s.aesKey 8 = some 5) ∧
    (let s := listening
     (heard false true).channel.toNat = (s.port 0).channel ∧ (s.port 0).awaits = none ∧ (s.port 0).act = .listen false true ∧
       (heard false false).fcsGood = false ∧ (dataMhr false).isSome = true ∧ (dataMhr true).isSome = true ∧
       ∀ h ∈ dataMhr true, h.type = macData ∧ h.version < 2 ∧ h.secured = false ∧ h.ar = true ∧ s.passesFilter 0 h = true ∧
         s.toPort 0 h.dst = true ∧ h.dst ≠ .short 0xFFFF ∧
         (s.heardFrom 0 h.src 200).1.fromSource 0 h (s.heardFrom 0 h.src 200).2 = false) ∧
    ((port0 (fun y => { y with air := some ⟨some 130, false, true, [], 0⟩ })).port 0).air = some ⟨some 130, false, true, [], 0⟩ ∧
    ((port0 (fun y => { y with ack := some ⟨[2, 0, 7], none⟩ })).port 0).ack = some ⟨[2, 0, 7], none⟩ ∧
    ((sending true).onPort 0 (fun y => { y with awaits := some (130, false) })).port 0 =
      { (sending true).port 0 with awaits := some (130, false) } ∧
    (let s := (radio.setFlag (BELF.PSTAT_SYNCED 0) true).setFlag (BELF.PCTL_TIMESRC 0) true
     s.flag (BELF.PSTAT_SYNCED 0) = true ∧ s.flag (BELF.PCTL_TIMESRC 0) = true) ∧
    (let s := radio.setLife 55 3
     s.fld (BELF.PSTAT_LIFE 0) = 3 ∧ s.flag SYS.MODE_G = false ∧ (s.port 0).bufs = []) :=
  ⟨sound_all _ (by decide +kernel), by decide +kernel⟩

/-- Port 0 OFF with legal queues. -/
def portOff : State := radio.setLife 55 0

theorem witness_BelfryRegistersActOnPorts :
    (∀ s ∈ [portOff, radio, coordinator 6, radio.setFlag (BELF.HOP_BUSY 0) true, radio.setNbr 3 (some friend)], s.Sound) ∧
    (portOff.allows .nave (BELF.PCTL 0) true = true ∧ portOff.fld (BELF.PSTAT_LIFE 0) = 0 ∧ (0x80000000 : Word).getLsbD 31 = true ∧
      128 ≤ portOff.fld (BELF.QUEUES_RXQ 0) ∧ 128 ≤ portOff.fld (BELF.QUEUES_TXSTATQ 0) ∧ portOff.role 0 = 0 ∧
      planChannels 0 (bitsOf (0x80000000 : Word) 14 12) ≠ 0) ∧
    (radio.allows .nave (BELF.PCTL 0) true = true ∧ radio.fld (BELF.PSTAT_LIFE 0) = 2 ∧ radio.role 0 ≠ 2 ∧
      (coordinator 6).fld (BELF.PSTAT_LIFE 0) = 2 ∧ (coordinator 6).role 0 = 2 ∧ (coordinator 6).netState 0 ≠ 7 ∧
      bitsOf ((coordinator 6).getReg (BELF.PCTL 0)) 30 30 = 0) ∧
    (radio.allows .nave (BELF.ASNHI 0) true = true ∧ radio.flag (BELF.PCTL_TIMESRC 0) = false ∧
      (radio.setFlag (BELF.PCTL_TIMESRC 0) true).flag (BELF.PCTL_TIMESRC 0) = true ∧
      radio.allows .nave (BELF.HOP 0) true = true ∧ (radio.setFlag (BELF.HOP_BUSY 0) true).flag (BELF.HOP_BUSY 0) = true ∧
      radio.allows .nave (BELF.LIMCFG 0) true = true ∧ radio.allows .nave (BELF.LIMCFG 1) true = true) ∧
    (radio.allows .nave BELF.NBRCMD true = true ∧ radio.nbr (radio.fld BELF.NBRIDX_INDEX) = none ∧
      (radio.setNbr 0 (some friend)).nbr 0 = some friend ∧ radio.freeNbr = some 0) ∧
    (radio.fld (BELF.NMARK_MARK 7) = 0 ∧ ((radio.setFld (BELF.NMARK_MARK 7) 4096).fld (BELF.NMARK_MARK 7) - 4096 ≤ 0)) :=
  ⟨sound_all _ (by decide +kernel), by decide +kernel⟩

/-- A table whose entries are all pinned. -/
def fullTable : State := base.onRadio (fun r => { r with
  nbrs := (List.range 256).map (fun k => (k, some { friend with eui := some (k + 9), short := k, pinned := true })) })

theorem witness_NeighbourWrites :
    (∀ s ∈ [fullTable, radio.setNbr 3 (some friend), radio.setNbr 3 (some { friend with eui := none })], s.Sound) ∧
    (fullTable.freeNbr = none ∧ fullTable.nbrOfEui 5 = none ∧ 128 ≤ fullTable.pinnedCount) ∧
    (let s := (((radio.setNbr 3 (some friend)).putReg BELF.NBRD0 5).setFld BELF.NBRD2_SHORT 0x42)
     s.nbr 3 = some friend ∧ s.findNbr (fun m =>
       m.port == 0 && m.short == 0x42 && (0x42 : Nat) != 0xFFFF && m.eui.isSome && m.eui != some 5) = some 3) ∧
    (let s := radio.setNbr 3 (some { friend with eui := none })
     s.findNbr (fun m => m.port == 0 && m.short == 0x42 && (0x42 : Nat) != 0xFFFF && m.eui.isSome && m.eui != some 5) = none ∧
       (s.nbrOfEui 5).orElse (fun _ => s.freeNbr) = some 0) ∧
    (base.setFlag BELF.NBRD2_PINNED true).flag BELF.NBRD2_PINNED = true :=
  ⟨sound_all _ (by decide +kernel), by decide +kernel⟩

/-- A relay that waits on port 0 with copies heard. -/
def relay (copies : Nat) : Relay := ⟨1, 2, 1, 0, 9, dataFrame false, none, copies⟩

/-- Two keys in the seen cache of port 0; the second is the older. -/
def seenKeys : State := base.onRadio (fun r => { r with seen := [⟨1, 2, 0, ⟨0, 9⟩⟩, ⟨3, 4, 0, ⟨0, 5⟩⟩] })

theorem witness_NetworkEngineRunsItsCommands :
    (∀ s ∈ [coordinator 0, node 2 (fun y => { y with asking := 2, fails := 2 }), (node 3 (fun y => { y with lease := some (5, 60) })).setNbr 0 (some friend)], s.Sound) ∧
    ((coordinator 0).role 0 = 2 ∧ (coordinator 0).portOn 0 = true ∧ (coordinator 0).netState 0 = 0 ∧ (coordinator 5).netState 0 = 5) ∧
    (let s := node 2 (fun y => { y with asking := 2, fails := 2 })
     s.role 0 = 1 ∧ (s.port 0).asking = 2 ∧ 2 ≤ (s.port 0).fails ∧ s.netState 0 = 2) ∧
    (let s := node 4 (fun y => { y with asking := 2, fails := 1 })
     s.role 0 = 1 ∧ (s.port 0).asking = 2 ∧ (s.port 0).fails < 2 ∧ s.netState 0 = 4) ∧
    (let s := (node 3 (fun y => { y with lease := some (5, 60) })).setNbr 0 (some friend)
     s.role 0 = 1 ∧ s.netState 0 = 3 ∧ (s.port 0).asking = 0 ∧ s.nbr (s.fld (BELF.NETSTAT_PARENT 0)) = some friend ∧
       (s.port 0).lease = some (5, 60)) ∧
    (let s := (coordinator 6).setNbr 2 (some { friend with leased := true, lidx := 127 })
     s.role 0 ≠ 1 ∧ s.leaseHolder 0 127 = some 2 ∧ s.nbr 2 = some { friend with leased := true, lidx := 127 }) ∧
    (let s := (coordinator 6).setFlag (BELF.PCTL_EN 0) false
     s.role 0 = 2 ∧ s.portOn 0 = true ∧ s.flag (BELF.PCTL_EN 0) = false ∧ s.netState 0 ≠ 7 ∧ s.pathMain = true ∧
       s.fld (QUE.STAT_LIFE (s.fld (BELF.NETQS_BCNQ 0))) ≠ 2 ∧
       (let v := s.setFld (QUE.STAT_LIFE (s.fld (BELF.NETQS_BCNQ 0))) 2
        v.fld (QUE.STAT_LIFE (v.fld (BELF.NETQS_BCNQ 0))) = 2) ∧
       (s.setFld CRYPT.PWRSTAT_PATH 1).pathMain = false) ∧
    (let s := (radio.onRadio (fun r => { r with relays := [relay 3] })).setFld (BELF.FLOODCFG_SUPK 0) 3
     s.dueRelay 0 = some (relay 3) ∧ s.fld (BELF.FLOODCFG_SUPK 0) ≠ 0 ∧ s.fld (BELF.FLOODCFG_SUPK 0) ≤ (relay 3).copies ∧
       (relay 2).copies < s.fld (BELF.FLOODCFG_SUPK 0)) ∧
    (base.radio.seen = [] ∧ seenKeys.dueKey = some ⟨1, 2, 0, ⟨0, 9⟩⟩ ∧ seenKeys.radio.seen ≠ []) :=
  ⟨sound_all _ (by decide +kernel), by decide +kernel⟩

/-! ### Witnesses: straits, boot, time and registers -/

/-- base with one word on a strait, with its right parity line. -/
def onWire (src dst : Island) (tag : BitVec 4) (w : Word) : State :=
  { base with wires := [⟨src, dst, tag, w, parityLine tag w⟩] }

theorem witness_StraitsCarryWordsByTheirTags :
    (∀ s ∈ [base, queued .choir 5 .good, base.holdAddr .choirCore .crypt (some (.good 0x40000000)), onWire .naveCore .queue tagQword 5], s.Sound) ∧
    (straitExists .choirCore .queue = true ∧ base.carries .choirCore .queue = true ∧
      base.blocks .choirCore .queue tagQword 5 = false ∧ (base.setStrait .choirCore .queue .closed).carries .choirCore .queue = false ∧
      (onWire .naveCore .queue tagQword 5).frontWire .naveCore .queue = some ⟨.naveCore, .queue, tagQword, 5, parityLine tagQword 5⟩ ∧
      0xC ≤ (0xC : BitVec 4).toNat) ∧
    (base.selected .choirCore = 256 ∧
      (let v := (queued .choir 5 .good).select .choirCore 5
       v.selected .choirCore = 5 ∧ v.fld (QUE.STAT_LIFE 5) = 2 ∧ (v.queue 5).dropping = false ∧
         (v.queue 5).count + 2 ≤ (v.queue 5).capacity) ∧
      (let v := ((((queued .choir 5 .good).setFld (QUE.DESC_DEPTH 5) 0).select .choirCore 5).setQueue 5
         { Queue.empty with packets := [⟨List.replicate 15 ⟨0, .good, .head⟩, false, false⟩] })
       v.selected .choirCore = 5 ∧ (v.queue 5).capacity < (v.queue 5).count + 2 ∧ v.blockLimit 5 ≤ (v.queue 5).held) ∧
      (base.select .choirCore 7).selected .choirCore = 7 ∧ (base.select .choirCore 7).fld (QUE.STAT_LIFE 7) ≠ 2 ∧
      base.mayWrite .choirCore 5 = true ∧ base.mayWrite .naveCore 5 = false ∧
      (let v := ((queued .choir 5 .good).select .choirCore 5).setQueue 5 { Queue.empty with
         openPk := some ⟨[⟨0x80000000, .good, .tail⟩], false, false⟩, source := some .choirCore }
       v.selected .choirCore = 5 ∧ (v.queue 5).openPk.isSome = true ∧ (v.queue 5).source = some .choirCore ∧
         (v.queue 5).dropping = false)) ∧
    (straitExists .naveCore .outputs = true ∧ base.reach .nave 0x40070000 false = some causeScreen ∧
      base.reach .choir 0x40000000 false = none ∧ regionOf 0x40000000 = some .sys ∧
      (base.loadAt .choir 0x40000000 .sys).2.toOption.isSome = true ∧ base.silentAt 0x40000000 = false ∧
      (base.holdAddr .choirCore .crypt (some (.good 0x40000000))).heldAddr .choirCore .crypt = some (.good 0x40000000) ∧
      (base.holdAddr .choirCore .crypt (some (.damaged 5))).heldAddr .choirCore .crypt = some (.damaged 5) ∧
      base.reach .choir 0x40000008 true = none) ∧
    (straitExists .crypt .naveCore = true ∧ base.nave.run = .running ∧ base.carries .crypt .naveCore = true ∧
      bitsOf (31 : Word) 4 0 = 31 ∧ bitsOf (11 : Word) 4 0 < 12 ∧ bitsOf (66 : Word) 7 0 < 67 ∧ base.carries .outputs .crypt = true ∧
      straitExists .outputs .crypt = true) ∧
    (straitExists .quantity .outputs = true ∧ base.domOn (islandDomain .outputs) = true ∧
      (base.setStrait .quantity .outputs .closed).strait .quantity .outputs ≠ .isOpen ∧
      base.strait .quantity .outputs = .isOpen) :=
  ⟨sound_all _ (by decide +kernel), by decide +kernel⟩

/-- A queue ON with a consumer and one packet of two words, the first with the given check. -/
def handing (n consumer : Nat) (e : Ecc) : State :=
  ((queued .choir n .good).setQueue n { Queue.empty with
    packets := [⟨[⟨0x80001234, e, .head⟩, ⟨0xC0005678, .good, .head⟩], false, false⟩] }).setFld (QUE.DESC_CONSUMER n) consumer

/-- Queue 5 with twelve words, four of them in a block of the cloister, the second of these with the given check. -/
def damaged (e : Ecc) : State :=
  let w : Place → QWord := fun p => ⟨0x80000001, .good, p⟩
  let l := List.replicate 8 (w .head) ++ [w (.block 0), ⟨0x80000001, e, .block 0⟩, w (.block 0), ⟨0xC0000002, .good, .block 0⟩]
  (base.setFld (QUE.STAT_LIFE 5) 2).setQueue 5 { Queue.empty with packets := [⟨l, false, false⟩], blocks := [0] }

theorem witness_QueuesDeliverScrubRiseAndFall :
    (∀ s ∈ [base, handing 5 1 .good, handing 130 3 .good, damaged .good], s.Sound) ∧
    (let s := (handing 5 1 .good).setLife 54 2
     s.deliverable 5 = true ∧ (s.queue 5).given < 2 ∧ s.domOn .choir = true ∧ s.strait .queue .quantity = .isOpen) ∧
    ((handing 130 3 .good).deliverable 130 = true ∧ (handing 130 3 .good).domOn .nave = true ∧
      (handing 130 3 .good).strait .queue .service = .isOpen) ∧
    (let s := ((handing 130 2 .good).setLife 55 2).writeCell 0 2 (cellWord 2 0 0) 130
     s.bufTaker 130 = some 0 ∧ s.deliverable 130 = true) ∧
    (let s := (handing 5 1 .double).setLife 54 2
     s.deliverable 5 = true ∧ consumerIsland (s.fld (QUE.DESC_CONSUMER 5)) = some .quantity ∧
       (s.queue 5).words[(s.queue 5).given]? = some ⟨0x80001234, .double, .head⟩) ∧
    (base.domOn .shared = true ∧ (base.queue 5).packets = [] ∧ (base.queue 5).firstUpset = none) ∧
    (let s := damaged .good
     (s.queue 5).inCloister 9 = true ∧ 9 < (s.queue 5).count ∧ (s.queue 5).firstUpset = none ∧
       ((damaged .single).queue 5).firstUpset = some (9, .single) ∧ (((damaged .single).queueCorr 5 9).queue 5).firstUpset = none ∧
       ((damaged .double).queue 5).firstUpset = some (9, .double) ∧ (((damaged .double).queueUe 5 9).queue 5).firstUpset = none) ∧
    (base.allows .choir (QUE.DESC 5) true = true ∧ base.fld (QUE.DESC_QUOTA 5) < 9 ∧ base.allows .choir QUE.POOL true = true ∧
      (base.setFld (QUE.STAT_LIFE 5) 1).fld (QUE.STAT_LIFE 5) = 1 ∧ (base.setFld (QUE.STAT_LIFE 5) 3).fld (QUE.STAT_LIFE 5) = 3) ∧
    ((base.setFlag CRYPT.CLKSTAT_XTFAIL true).flag CRYPT.CLKSTAT_XTFAIL = true ∧ base.sacr.mailCmd = none ∧ base.sacr.mailReply = none ∧
      ∀ k < 67, base.flag (SYS.UNITSTATE_STALE k) = false) :=
  ⟨sound_all _ (by decide +kernel), by decide +kernel⟩

/-- The octets of a nave image for slot A with eight zero code octets: header, digest, r, s, reserved octets, code. The key
below verifies it. -/
def naveImage : List Octet :=
  let z := 0x53e18620e048ad0befb85f7885baf99846a31cd19a5592fb2d622db5ac01dc6e
  leOctets 4 0x53484B02 ++ leOctets 4 1 ++ leOctets 4 5 ++ leOctets 4 8 ++ leOctets 4 0x100 ++ leOctets 4 0x104 ++ leOctets 4 2 ++
    leOctets 4 0 ++ (leOctets 32 z).reverse ++ (leOctets 32 z).reverse ++ (leOctets 32 z).reverse ++ List.replicate 136 0

/-- The nave core before its boot check, with that image in slot A and its verify key as key 2. -/
def bootable : State :=
  { base with
    nave := { base.nave.setBytes 0 naveImage with run := .booting }
    sacr := { base.sacr with vks := [(2, some (0xfe08718a442efee46520840d5726d3c283424820bff455695996c76fcef0b503,
      0x914b5a1f4da7d67f0da1a3f789eacb7bba0e2cac53d95ad11e6cbebf5cef7759))] } }

theorem witness_validImage : bootable.slotValid .nave false = true ∧ bootable.slotValid .nave true = false ∧ bootable.Sound :=
  ⟨by decide +kernel, by decide +kernel, sound_of _ (by decide +kernel)⟩

/-- A choir flash command for an address of slot B, or slot A. -/
def flashAt (a : Word) : State := base.putReg (SYS.IMGADDR 0) a

/-- A core in the loader. -/
def inLoader (c : CoreId) : State := ran c (fun k => { k with run := .loader })

theorem witness_BootFlashAndUnitsComplete :
    (∀ s ∈ [State.reset, flashAt 0x20000, inLoader .nave, base.setLife 4 1, base.setLife 66 3], s.Sound) ∧
    (State.reset.domOn (coreDomain .choir) = true ∧ State.reset.choir.run = .booting ∧ (ran .choir (fun k => { k with run := .off })).choir.run = .off ∧ State.reset.slotValid .choir false = false ∧
      State.reset.slotValid .choir true = false ∧ bootable.domOn (coreDomain .nave) = true ∧ bootable.nave.run = .booting) ∧
    (let b := BitVec.ofNat 32 (slotBase .choir true)
     base.allows .choir (SYS.IMGCTL 0) true = true ∧ (flashAt b).flag (SYS.IMGCTL_BUSY 0) = false ∧
       (flashAt b).flashCheck (.core .choir) true = 0 ∧ (flashAt b).flashCheck (.core .choir) false = 0 ∧
       (flashAt 0).flashCheck (.core .choir) true = 1 ∧ (flashAt (b + 8)).flashCheck (.core .choir) true = 2 ∧
       (flashAt 0xFFFFFFF8).flashCheck (.core .choir) false = 3 ∧
       ((flashAt b).setFlag (SYS.IMGCTL_BUSY 0) true).flag (SYS.IMGCTL_BUSY 0) = true) ∧
    (base.allows .choir SYS.CFGCTL true = true ∧ base.sealOpen = true ∧ (sealState 1 false).sealOpen = false ∧
      (base.putReg SYS.CFGADDR 0x2000).flashCheck .config true = 0 ∧ base.allows .nave SYS.CFGDATA false = true) ∧
    (let s := base.setFlashOp .config (some (.program 8 1 2))
     (s.setFlag SYS.CFGCTL_BUSY true).flag (flashBusy .config) = true ∧ s.flashOp .config = some (.program 8 1 2) ∧
       (s.setFlashOp .config (some (.erase 4096))).flashOp .config = some (.erase 4096)) ∧
    (let b := slotBase .nave (!(inLoader .nave).flag (SYS.IMGCTL_SLOT 1))
     (inLoader .nave).domOn (coreDomain .nave) = true ∧ (inLoader .nave).nave.run = .loader ∧ b % 8 = 0 ∧
       (inLoader .choir).fld SACR.SEAL_STATE = 0 ∧ bitAt ((inLoader .choir).fld SACR.KEYMAP_VKSET) 3 = false) ∧
    ((base.setLife 4 1).life 4 = 1 ∧ (base.setLife 4 1).domOn (unitDomain 4) = true ∧ (base.setLife 66 1).life 66 = 1 ∧
      ((base.setLife 18 2).setLife 22 1).life 18 = 2 ∧ ((base.setLife 18 2).setLife 22 1).life 22 = 1 ∧
      base.pathMain = true ∧ (base.setLife 22 3).tileBusy 0 = false ∧ (base.setLife 22 3).life 22 = 3 ∧
      (base.setLife 4 3).life 4 = 3 ∧ (base.setLife 4 3).isleIdle 2 = true ∧ (base.setLife 18 3).bankIdle 0 = true ∧
      (base.setLife 53 3).life 53 = 3 ∧ (base.setLife 54 3).life 54 = 3 ∧ (base.setLife 56 3).life 56 = 3) :=
  ⟨sound_all _ (by decide +kernel), by decide +kernel⟩

theorem witness_TimeOfDayRisesAndTakesStagedValues :
    (∀ s ∈ [base, base.onCrypt (fun k => { k with committed := some 5 }), base.onCrypt (fun k => { k with staged := some 7 })], s.Sound) ∧
    (base.crypt.committed = none ∧ (base.onCrypt (fun k => { k with committed := some 5 })).crypt.committed = some 5 ∧
      (base.onCrypt (fun k => { k with committed := some 5 })).logFull = false ∧ base.dom .choir ≠ 0 ∧
      (base.onCrypt (fun k => { k with staged := some 7 })).crypt.staged = some 7) ∧
    (base.allows .choir CRYPT.TIME_SUB false = true ∧ base.allows .nave CRYPT.TIME_SEC false = true ∧
      base.ready onNave = true ∧ ¬((3 : Reg) = 4 ∧ (3 : Reg) ≠ 0) ∧
      base.allows .choir CRYPT.TIME_NEW true = true ∧ base.crypt.ticks.toNat % 32768 < 32766) :=
  ⟨sound_all _ (by decide +kernel), by decide +kernel⟩

theorem witness_ClocksStartTrimAndFail :
    (∀ s ∈ [base, base.setFlag CRYPT.XHFREQ_CHOIR true, base.onCrypt (fun k => { k with xhfLinger := true, xhfTries := 3 }),
      base.setFld CRYPT.RTCTRIM_TRIM 5], s.Sound) ∧
    (let s := (base.setFlag CRYPT.XHFREQ_CHOIR true).onCrypt (fun k => { k with xhfTries := 3 })
     s.xhfHeld = true ∧ s.crypt.xhfTries ≠ 4 ∧ s.path ≠ 2 ∧ s.flag CRYPT.CLKSTAT_XHFOK = false ∧ s.crypt.xhfTries = 3) ∧
    (let s := base.onCrypt (fun k => { k with xhfLinger := true })
     s.crypt.xhfLinger = true ∧ s.xhfHeld = false) ∧
    (base.allows .choir CRYPT.XHFREQ true = true ∧ (base.setFlag CRYPT.CLKSTAT_XT32K true).flag CRYPT.CLKSTAT_XT32K = true ∧
      0 < (base.setFld CRYPT.RTCTRIM_TRIM 5).sfld CRYPT.RTCTRIM_TRIM ∧ base.sfld CRYPT.RTCTRIM_TRIM ≤ 0) ∧
    (calmBut base .choir ∧ base.choir.timer.getLsbD 31 = false ∧ (∀ r m e, base.choir.run ≠ .asleep r m e) ∧ base.pending = [] ∧
      1 + base.crypt.ticks.toNat % 32768 < 32766) :=
  ⟨sound_all _ (by decide +kernel), by decide +kernel, by decide +kernel, by decide +kernel,
    calm_of _ _ (by decide +kernel) rfl (by decide +kernel), by decide +kernel, fun _ _ _ h => (by cases h), by decide +kernel, by decide +kernel⟩

theorem witness_RegistersFollowTheirAccessCodes :
    (∀ s ∈ [base, inHandler .nave], s.Sound) ∧
    ((regFind 0x40000000).isSome = true ∧ (regFind CRYPT.PWRCFG).isSome = true ∧
      (∀ x ∈ regFind CRYPT.PWRCFG, ∃ f ∈ x.1.fields, f.choirOnly = false ∧ f.acc = .rw) ∧
      (∀ x ∈ regFind CRYPT.PWRCFG, ∀ g ∈ x.1.fields, g.acc = .sl → CRYPT.PWRCFG ≠ LEDG.LOGSTAT)) ∧
    (base.domOn (coreDomain .choir) = true ∧ (0x40000008 : Word).toNat % 4 = 0 ∧ base.reach .choir 0x40000008 true = none ∧
      regionOf 0x40000008 = some .sys ∧ base.reach .choir 0x40000008 false = none ∧
      (base.loadAt .choir 0x40000008 .sys).2.toOption.isSome = true) ∧
    ((0x40000002 : Word).toNat % 4 ≠ 0 ∧ base.executes .choir = true ∧ base.outsideHandler .choir = true) ∧
    (base.reach .nave 0x40070000 true = some causeScreen ∧ base.logFull = false ∧ base.dom .choir ≠ 0 ∧
      regionOf 0x40FFFFFC = none ∧ inFlash .nave 0x40FFFFFC = false ∧ inSram .nave 0x40FFFFFC = false ∧
      (base.setStrait .choirCore .outputs .closed).reach .choir 0x40050000 true = some 4) ∧
    (regionOf 0x60000000 = some (.window 0) ∧ screened .choir 0x60000000 true (.window 0) = false ∧
      regionBank (.window 0) = some 0 ∧ base.bankCore 0 ≠ some .choir ∧ leaseExempt .choir 0x60000000 true (.window 0) = false) ∧
    (fhOf (inHandler .nave).nave.psr = true ∧ (inHandler .nave).logFull = false ∧ (inHandler .nave).dom .choir ≠ 0) :=
  ⟨sound_all _ (by decide +kernel), by decide +kernel⟩

/-! ### The well-formedness smoke test: every check refuses a term -/

theorem test_ill_unaligned : (Instr.registerWrite .choir 0x40000002 0).ill = some .unaligned := by decide
theorem test_ill_outside_window : (Instr.weightWindowLoad .choir 0x60040000).ill = some .outsideWindow := by decide
theorem test_ill_no_strait : (Instr.straitReopen .queue .queue).ill = some .noStrait := by decide
theorem test_ill_samples : (Instr.windowOpen 0 [quiet] []).ill = some .samples := by decide
theorem test_ill_crossings : (Instr.windowClose 0 [] [5, 5] []).ill = some .samples := by decide
theorem test_ill_frame_length : (Instr.frameReceive 0 ⟨List.replicate 254 0, true, 0, 0, 0, 0⟩).ill = some .frameLength := by decide +kernel
theorem test_ill_key_slot : (Instr.loadvk .choir 4).ill = some .keySlot ∧ (Instr.nkeyLoad .nave 7).ill = some .keySlot := by decide
theorem test_ill_outside_bank : (Instr.refnow .choir 1 0 [⟨7, 0⟩]).ill = some .outsideBank := by decide
theorem test_ill_outside_queue : (Instr.cloisterScrub 0 [(524288, true)]).ill = some .outsideQueue := by decide
theorem test_well_formed : (Instr.registerWrite .nave 0x400A0100 1).wellFormed = true ∧ (Instr.loadaes .choir 7).wellFormed = true := by decide

/-! ### Instruction words, written out bit by bit from the tables of R115 to R119, R124 and R147 -/

/-- Format T: opcode 0x00 and 0x01, rd, ra, rb, ten reserved bits, fn. -/
theorem test_words_alu_ext :
    decodeProlu .choir 0b000000_0011_0001_0010_0000000000_0001#32 = .sub onChoir 3 1 2 ∧
    decodeProlu .nave 0b000001_0011_0001_0010_0000000000_0011#32 = .remu onNave 3 1 2 ∧
    decodeProlu .choir 0b000001_0011_0001_0000_0000000000_0100#32 = .clz onChoir 3 1 ∧
    decodeProlu .choir 0b000001_0011_0001_0010_0000000000_0100#32 = .clz ⟨.choir, false⟩ 3 1 ∧
    decodeProlu .choir 0 = .add onChoir 0 0 0 := by decide +kernel
/-- Formats I and M: opcode, rd, ra, eighteen bits. -/
theorem test_words_immediates_and_memory :
    decodeProlu .choir 0b000010_0011_0001_111111111111111111#32 = .addi onChoir 3 1 0x3FFFF ∧
    decodeProlu .choir 0b000110_0011_0001_00000000000_10_11111#32 = .sari onChoir 3 1 31 ∧
    decodeProlu .nave 0b001100_0011_0001_000000000000000110#32 = .ldhs onNave 3 1 6 ∧
    decodeProlu .choir 0b001111_0011_0001_000000000000001000#32 = .stw onChoir 3 1 8 ∧
    decodeProlu .choir 0b010010_0000_0000_00_0100000000000010#32 = .push onChoir 0x4002 := by decide +kernel
/-- Formats U, B and J. -/
theorem test_words_branches :
    decodeProlu .choir 0b001000_0011_1000000000000000000001#32 = .ldi onChoir 3 0x200001 ∧
    decodeProlu .choir 0b010101_1011_1111111111111111111111#32 = .bcc onChoir 11 0x3FFFFF ∧
    decodeProlu .nave 0b011010_0001_0000000000000000000010#32 = .cbnz onNave 1 2 ∧
    decodeProlu .choir 0b010111_10000000000000000000000000#32 = .jal onChoir 0x2000000 ∧
    decodeProlu .choir 0b011000_0000_1110_0000_0000000000_0000#32 = .jalr onChoir 0 14 := by decide +kernel
/-- The SYS group, the special registers and evwait. -/
theorem test_words_system :
    decodeProlu .choir 0b011011_0000_0000_00000000000011_0001#32 = .brk onChoir 3 ∧
    decodeProlu .choir 0b011011_0011_0001_00000000000000_0101#32 = .evpoll onChoir 3 1 ∧
    decodeProlu .nave 0b011100_0011_0000_0000000000_00001010#32 = .mfs onNave 3 0x0A ∧
    decodeProlu .choir 0b101101_0011_0001_0010_0000000000_0000#32 = .evwait onChoir 3 1 2 ∧
    decodeProlu .choir 0b011011_0000_0000_00000000000000_0110#32 = illegalWord .choir := by decide +kernel
/-- Device instructions. -/
theorem test_words_device :
    decodeProlu .choir 0b100001_0000_0001_000000000_1_01000000#32 = .shot2 onChoir 1 0x40 true ∧
    decodeProlu .nave 0b100011_0011_0001_0010_0000000000_0000#32 = .qput onNave 3 1 2 ∧
    decodeProlu .choir 0b100111_0011_0001_0010_0000000000_0001#32 = .leaseGive onChoir 3 1 2 ∧
    decodeProlu .choir 0b101000_0011_0001_0010_0000000000_0010#32 = .tallyConduit onChoir 3 1 2 ∧
    decodeProlu .nave 0b101100_0011_0001_0000_0000000000_0001#32 = .roodTake onNave 3 1 := by decide +kernel
/-- Reserved opcodes and functions, and erased flash (R116). -/
theorem test_words_illegal :
    decodeProlu .choir 0b011110_00000000000000000000000000#32 = illegalWord .choir ∧
    decodeProlu .nave 0b101110_00000000000000000000000000#32 = illegalWord .nave ∧
    decodeProlu .choir 0xFFFFFFFF = illegalWord .choir ∧
    decodeProlu .choir 0b000000_0000_0000_0000_0000000000_1111#32 = illegalWord .choir ∧
    decodeProlu .choir 0b000001_0000_0000_0000_0000000000_1000#32 = illegalWord .choir := by decide +kernel

/-! ### Core instructions: results worked by hand from R117 to R124 -/

/-- A register of a core after a command. -/
def result (o : Out) (c : CoreId) (r : Reg) : Word := (after o).reg c r

/-- N, Z, C, V of a core after a command. -/
def nzcv (o : Out) (c : CoreId) : Nat := bitsOf ((after o).core c).psr 31 28

theorem test_add_overflows : (let o := exec (.add onChoir 3 1 2) (regs2 .choir 0x7FFFFFFF 1)
    result o .choir 3 = 0x80000000 ∧ nzcv o .choir = 0b1001) := by decide +kernel
theorem test_sub_borrows : (let o := exec (.sub onChoir 3 1 2) (regs2 .choir 1 2)
    result o .choir 3 = 0xFFFFFFFF ∧ nzcv o .choir = 0b1000) := by decide +kernel
theorem test_sub_same_register : (let o := exec (.sub onNave 1 1 1) (regs2 .nave 7 0)
    result o .nave 1 = 0 ∧ nzcv o .nave = 0b0110) := by decide +kernel
theorem test_w0_stays_zero : result (exec (.add onChoir 0 1 2) (regs2 .choir 3 4)) .choir 0 = 0 := by decide +kernel
theorem test_mulh_signed : result (exec (.mulh onChoir 3 1 2) (regs2 .choir 0xFFFFFFFF 2)) .choir 3 = 0xFFFFFFFF ∧
    result (exec (.mulhu onChoir 3 1 2) (regs2 .choir 0xFFFFFFFF 2)) .choir 3 = 1 := by decide +kernel
/-- R122. -/
theorem test_div_overflow : (let o := exec (.div onChoir 3 1 2) (regs2 .choir 0x80000000 0xFFFFFFFF)
    result o .choir 3 = 0x80000000 ∧ nzcv o .choir = 0b1001) := by decide +kernel
theorem test_rem_takes_sign_of_dividend :
    result (exec (.rem onChoir 3 1 2) (regs2 .choir 0xFFFFFFF9 2)) .choir 3 = 0xFFFFFFFF := by decide +kernel
theorem test_div_by_zero_faults : (let t := (after (exec (.divu onNave 3 1 2) (regs2 .nave 5 0))).nave
    t.fcause = BitVec.ofNat 32 faultDivzero ∧ t.psr = 1 ∧ t.w[3] = 0) := by decide +kernel
/-- R121. -/
theorem test_shift_by_32 : (let o := exec (.shl onChoir 3 1 2) (regs2 .choir 1 32)
    result o .choir 3 = 0 ∧ nzcv o .choir = 0b0110) := by decide +kernel
theorem test_sar_by_200 : (let o := exec (.sar onChoir 3 1 2) (regs2 .choir 0x80000000 200)
    result o .choir 3 = 0xFFFFFFFF ∧ nzcv o .choir = 0b1010) := by decide +kernel
theorem test_clz_rev_sxb : result (exec (.clz onChoir 3 2) (regs2 .choir 1 0)) .choir 3 = 32 ∧
    result (exec (.rev onChoir 3 1) (regs2 .choir 0x11223344 0)) .choir 3 = 0x44332211 ∧
    result (exec (.sxb onChoir 3 1) (regs2 .choir 0x80 0)) .choir 3 = 0xFFFFFF80 := by decide +kernel
theorem test_branch_back : ((after (exec (.cbnz onChoir 1 0x3FFFFF) ((regs2 .choir 1 0).onCore .choir (fun k => { k with pc := 0x100 })))).choir.pc) =
    0xFC := by decide +kernel
theorem test_jal_links : (let t := (after (exec (.jal onNave 3) base)).nave
    t.pc = 12 ∧ t.w[14] = 4) := by decide +kernel
/-- R116: a reserved field that is not 0. -/
theorem test_reserved_is_illegal : (after (exec (.nop ⟨.choir, false⟩) base)).choir.fcause = BitVec.ofNat 32 faultIllegal := by decide +kernel
/-- R142: a fault in a handler resets the core. -/
theorem test_double_fault : (let t := after (exec (.div onChoir 3 1 0) (inHandler .choir))
    t.choir.run = .off ∧ t.choir.psr = 0 ∧ t.fld SYS.RESETCAUSE_CHOIR = 1) := by decide +kernel
theorem test_rfe : (let t := (after (exec (.rfe onNave) (inHandler .nave))).nave
    t.pc = 0x200 ∧ t.psr = 0xF8000000) := by decide +kernel
/-- R130: least significant octet at the lowest address. -/
theorem test_ldw_little_endian : result (exec (.ldw onChoir 3 2 2) (loaded .choir)) .choir 3 = 0x47362514 := by decide +kernel
theorem test_ldhs_extends : result (exec (.ldhs onChoir 3 2 0x3FFFE) (loaded .choir)) .choir 3 = 0xFFFF9180 := by decide +kernel
theorem test_ldw_misaligned : (let t := (after (exec (.ldw onChoir 3 2 0) (loaded .choir))).choir
    t.fcause = BitVec.ofNat 32 faultAlign ∧ t.faddr = 0x20000102) := by decide +kernel
/-- R129: the highest register at the highest address. -/
theorem test_push : (let t := (after (exec (.push onChoir 0x4002) (stacked .choir))).choir
    t.w[15] = 0x20000FF8 ∧ t.word 0x20000FF8 = 0x11111111 ∧ t.word 0x20000FFC = 0xEEEEEEEE) := by decide +kernel
theorem test_pop_restores : (let t := after (exec (.push onChoir 0x4002) (stacked .choir))
    let u := (after (exec (.pop onChoir 0x4002) ((t.setReg .choir 1 0).setReg .choir 14 0))).choir
    u.w[1] = 0x11111111 ∧ u.w[14] = 0xEEEEEEEE ∧ u.w[15] = 0x20001000) := by decide +kernel
theorem test_mts_keeps_fh : ((after (exec (.mts onChoir 0 1) ((inHandler .choir).setReg .choir 1 0xF0000000))).choir.psr) = 0xF0000001 := by decide +kernel
theorem test_mfs_coreid : result (exec (.mfs onNave 3 0x0A) base) .nave 3 = 0x00006001 := by decide +kernel

/-! ### Device instructions -/

/-- The worked case of the volume tally: 250,000,000 units of conduit 5 read as 0x0EE6_B280, and the tally restarts. -/
theorem test_tally_worked_case :
    (let s := (regs2 .choir 60 0x20000100).onQty (fun q => { q with indices := [(60, 250000000)] })
     let t := after (exec (.tallyRead onChoir 3 1 2) s)
     t.choir.word 0x20000100 = 0x0EE6B280 ∧ t.choir.word 0x20000104 = 0 ∧ t.tally 60 = 0 ∧ t.index 60 = 250000000) := by decide +kernel
/-- The worked case of shot2: the command of word 0x8404_0040 has sequence 0x40 from port A to port B. -/
theorem test_shot2_worked_case : cmdOfWord (cmdWord ⟨6, 0x40, false, true⟩) = ⟨6, 0x40, false, true⟩ := by decide +kernel
theorem test_qget_takes_a_word : (let t := after (exec (.qget onNave 3 1) (queued .nave 112 .good))
    t.reg .nave 3 = 0x80001234 ∧ bitsOf t.nave.psr 27 24 = 8 ∧ ((t.queue 112).words.map (fun w => w.word)) = [0xC0005678]) := by decide +kernel
theorem test_lease_take : (let t := after (exec (.leaseTake onChoir 3 1 2) (leased .choir 3 0))
    t.fld (CIM.LEASE_HOLDER 3) = 1 ∧ t.reg .choir 3 = 0) := by decide +kernel
/-- R29, the worked case of the gap marker: 3 packets and 0x56 words. -/
theorem test_gap_marker : (markerPacket 3 0x56 .head).words.map (fun w => w.word) = [0xE0030056] := by decide +kernel

/-! ### Arithmetic of the units, from the worked cases -/

/-- A weight in S4: columns 20 to 23 hold 1, 0, 1, 1. -/
theorem test_weight_s4 : weightOf 2 ((1 : BitVec 272) <<< 20 ||| (1 : BitVec 272) <<< 22 ||| (1 : BitVec 272) <<< 23) 5 = -3 := by decide +kernel
/-- One residue check: 100, 200 and 256 ones, residues 100, 200 and 1. -/
theorem test_residue : (let row := fun (n r : Nat) => BitVec.ofNat 272 ((2 ^ n - 1) + r * 2 ^ 256)
    residueOk (0, [row 100 100, row 200 200, row 256 1]) = true ∧ residueOk (0, [row 99 100, row 200 200, row 256 1]) = false) := by decide +kernel
/-- A weak turnout: a peak of 300 asks for 21 steps, limited to 12. -/
theorem test_agc_step : agcStep 300 false = 12 ∧ agcStep 512 false = 0 ∧ agcStep 1844 false = -6 ∧ agcStep 5 true = -12 := by decide +kernel
/-- The brackish well: fresh water at 24.0 °C carries sound at 1,494.02 m/s. -/
theorem test_fresh_speed : 149401 ≤ 100 * freshSpeed 24 ∧ 100 * freshSpeed 24 ≤ 149403 := by decide +kernel
/-- The nursery supply RTD: a Pt1000 has 1,174.70 Ω at 45 °C. -/
theorem test_platinum : 117470 ≤ 100000 * platinum 45 ∧ 100000 * platinum 45 ≤ 117471 := by decide +kernel
/-- The canal area: 1.530 m between (1,500 mm, 8.700 m²) and (1,600 mm, 9.320 m²) gives 8.886 m². -/
theorem test_canal_area : tableArea [(1500, 8700000), (1600, 9320000)] 1530 = some (8886000, false) := by decide +kernel
/-- The head-gate loop: 4.443 m³/s of 20 m³/s commands 15,109 half microamperes. -/
theorem test_loop_command : (base.setFld (OUT.LPHI_HI 0) 20000000).loopCommand 0 4443000 = 15109 := by decide +kernel
/-- The nonce of the first uplink. -/
theorem test_nonce : ccmNonce 0x02A471C300000107 0x1A2B 5 = [0x02, 0xA4, 0x71, 0xC3, 0, 0, 1, 7, 0, 0, 0x1A, 0x2B, 5] := by decide +kernel

/-! ### The functions that the spec takes from standards: FIPS 180-4, FIPS 197, RFC 4493 -/

theorem test_sha256_abc : ofBe (sha256 [0x61, 0x62, 0x63]) = 0xba7816bf8f01cfea414140de5dae2223b00361a396177a9cb410ff61f20015ad := by decide +kernel
theorem test_aes_fips197 : aesEncrypt (List.range 16) ((List.range 16).map (fun k => 17 * k)) =
    [0x69, 0xc4, 0xe0, 0xd8, 0x6a, 0x7b, 0x04, 0x30, 0xd8, 0xcd, 0xb7, 0x80, 0x70, 0xb4, 0xc5, 0x5a] := by decide +kernel
theorem test_cmac_rfc4493 : cmac [0x2b, 0x7e, 0x15, 0x16, 0x28, 0xae, 0xd2, 0xa6, 0xab, 0xf7, 0x15, 0x88, 0x09, 0xcf, 0x4f, 0x3c] [] =
    [0xbb, 0x1d, 0x69, 0x29, 0xe9, 0x59, 0x37, 0x28, 0x7f, 0xa3, 0x7d, 0x12, 0x9b, 0x75, 0x67, 0x46] := by decide +kernel

/-! ### Events and registers -/

/-- R52: MAINOK clears below 2.40 V and sets again at 2.50 V (MAINLO = 0). -/
theorem test_mainok_hysteresis : (let s := (onPath 0 true true).setFld CRYPT.PWRCFG_MAINLO 0
    (s.supplies 2399 3000).flag CRYPT.PWRSTAT_MAINOK = false ∧ (s.supplies 2400 3000).flag CRYPT.PWRSTAT_MAINOK = true ∧
      ((s.supplies 2399 3000).supplies 2499 3000).flag CRYPT.PWRSTAT_MAINOK = false ∧
      ((s.supplies 2399 3000).supplies 2500 3000).flag CRYPT.PWRSTAT_MAINOK = true) := by decide +kernel
theorem test_domain_fall : (after (exec (.domainFall .nave) base)).dom .nave = 3 := by decide +kernel
theorem test_register_write_clamps : (after (exec (.registerWrite .choir (BitVec.ofNat 32 CRYPT.PWRCFG) 0x3F) base)).fld CRYPT.PWRCFG_MAINLO = 30 := by
  decide +kernel
theorem test_screen_refuses_nave : (let t := after (exec (.rzRead .nave 0x40070000) base)
    t.getReg (SYS.REFADDR 1) = 0x40070000 ∧ t.fld (SYS.REFINFO_CAUSE 1) = 2 ∧ t.nave.fcause = 3 ∧ t.log.length = 1) := by decide +kernel
theorem test_core_without_image_enters_loader : (after (exec (.coreBoot .choir) State.reset)).choir.run = .loader := by decide +kernel
theorem test_image_starts_at_its_entry : (let t := (bootable.bootSlot .nave false).nave
    t.run = .running ∧ t.pc = 0x100 ∧ t.fvec = 0x104) := by decide +kernel
theorem test_time_takes_staged_value :
    (let s := (base.onCrypt (fun k => { k with committed := some 1000 })).secondEdge
     s.timeSec = 1000 ∧ s.log = [⟨1000, 0x0050, 0, 1, 1000⟩]) := by decide +kernel
theorem test_vote_restarts_its_age : ((after (exec (.clvoteWrite .choir 3 0x0503) base)).fld (QTY.CLVOTE_AGE 3) = 5) := by decide +kernel
theorem test_idle_step_is_one_tick : (after (step base)).crypt.ticks = 1 := by decide +kernel
theorem test_step_runs_the_front : (after (step { base with pending := [.nop onChoir, .sealingDone] })).pending = [.sealingDone] := by decide +kernel
theorem test_no_word_spells_a_command : decodeTableWord 32 0x84040040 = none := by decide


end Sys2Proof.Tests
end

section
/-! O5: every command keeps a sound state sound and the queue of commands as it stands. One law for each command whose
meaning is more than one call of a function of the machine, in the order of the machine's files; `exec_kept` then goes
through the opcode table. -/
namespace Sys2Proof.Machine

variable {p : List Instr} {s : State}

/-- An outcome is a next state that is sound and whose queue is p. -/
inductive OutKept (p : List Instr) : Out → Prop
  | next {t : State} (h : t.Kept p) : OutKept p (.next t)

/-- Both branches of a conditional are sound. -/
theorem State.Kept.ite {t u : State} {c : Prop} [Decidable c] (ht : t.Kept p) (hu : u.Kept p) :
    (if c then t else u).Kept p := by
  split
  · exact ht
  · exact hu

open State

/-! ### Instructions of the cores -/

/-- An issued instruction whose body keeps the state sound. -/
theorem OutKept.issue (h : s.Kept p) (i : Issue) (l : List Reg) {body : State → State}
    (hb : ∀ s : State, s.Kept p → (body s).Kept p) : OutKept p (.next (s.issue i l body)) := .next (issue_kept h i l hb)

theorem execBcc_kept (h : s.Kept p) (i : Issue) (cond : BitVec 4) (off : BitVec 22) : OutKept p (execBcc i cond off s) :=
  .issue h _ _ fun _ h => branch_kept h _ _ (alignedWord_shl2 _)

theorem execB_kept (h : s.Kept p) (i : Issue) (off : BitVec 26) : OutKept p (execB i off s) :=
  .issue h _ _ fun _ h => branch_kept h _ _ (alignedWord_shl2 _)

theorem execJal_kept (h : s.Kept p) (i : Issue) (off : BitVec 26) : OutKept p (execJal i off s) :=
  .issue h _ _ fun _ h => jump_kept (setReg_kept h _ _ _) _ (alignedWord_add (h.core _).pc (alignedWord_shl2 _)) _

theorem execJalr_kept (h : s.Kept p) (i : Issue) (rd ra : Reg) : OutKept p (execJalr i rd ra s) := by
  refine .issue h _ _ fun s h => ?_
  dsimp only
  split
  · exact fault_kept h _ _ _
  · next hal => exact jump_kept (setReg_kept h _ _ _) _ (alignedWord_of_and3 (Classical.not_not.mp hal)) _

theorem execCbz_kept (h : s.Kept p) (i : Issue) (ra : Reg) (off : BitVec 22) : OutKept p (execCbz i ra off s) :=
  .issue h _ _ fun _ h => branch_kept h _ _ (alignedWord_shl2 _)

theorem execCbnz_kept (h : s.Kept p) (i : Issue) (ra : Reg) (off : BitVec 22) : OutKept p (execCbnz i ra off s) :=
  .issue h _ _ fun _ h => branch_kept h _ _ (alignedWord_shl2 _)

theorem execBrk_kept (h : s.Kept p) (i : Issue) (code : BitVec 14) : OutKept p (execBrk i code s) :=
  .issue h _ _ fun _ h => .ite (retire_kept (h.onCore _ fun _ hk => hk.same) _ _) (fault_kept h _ _ _)

theorem execRfe_kept (h : s.Kept p) (i : Issue) : OutKept p (execRfe i s) :=
  .issue h _ _ fun _ h => .ite (h.setCore (h.core _).leaveFault.same _) (fault_kept h _ _ _)

theorem execEvset_kept (h : s.Kept p) (i : Issue) (ra : Reg) : OutKept p (execEvset i ra s) :=
  .issue h _ _ fun _ h => retire_kept (h.onCore _ fun _ hk => hk.same) _ _

theorem execMfs_kept (h : s.Kept p) (i : Issue) (rd : Reg) (sreg : BitVec 8) : OutKept p (execMfs i rd sreg s) := by
  refine .issue h _ _ fun s h => ?_
  split
  · next e => exact finishPlain_kept (readSpecial_kept e h) _ _ _ _
  · exact fault_kept h _ _ _

theorem execMts_kept (h : s.Kept p) (i : Issue) (sreg : BitVec 8) (ra : Reg) : OutKept p (execMts i sreg ra s) := by
  refine .issue h _ _ fun s h => ?_
  split
  · next e => exact retire_kept (writeSpecial_kept e h) _ _
  · exact fault_kept h _ _ _

theorem execEvwait_kept (h : s.Kept p) (i : Issue) (rd ra rb : Reg) : OutKept p (execEvwait i rd ra rb s) :=
  .issue h _ _ fun _ h => .ite (fault_kept h _ _ _)
    (.ite (finishPlain_kept (clearEvents_kept h _ _) _ _ _ _) (setRun_kept h _ _))

theorem execPush_kept (h : s.Kept p) (i : Issue) (mask : BitVec 16) : OutKept p (execPush i mask s) := by
  refine .issue h _ _ fun s h => .ite (fault_kept h _ _ _) ?_
  dsimp only
  split
  · next e => exact stackFault_kept e h
  · exact retire_kept (setReg_kept (pushRegs_kept h _ _ _) _ _ _) _ _

theorem execPop_kept (h : s.Kept p) (i : Issue) (mask : BitVec 16) : OutKept p (execPop i mask s) := by
  refine .issue h _ _ fun s h => .ite (fault_kept h _ _ _) ?_
  dsimp only
  split
  · next e => exact stackFault_kept e h
  · split
    · exact memEcc_kept h _ _
    · exact retire_kept (setReg_kept (popRegs_kept h _ _ _) _ _ _) _ _

/-! ### Device instructions -/

theorem execQget_kept (h : s.Kept p) (i : Issue) (rd ra : Reg) : OutKept p (execQget i rd ra s) :=
  .issue h _ _ fun _ h => queueRequest_kept h _ _ _ _ fun _ h => queueReply_kept (takeWord_kept h _) _ _ _

theorem execQput_kept (h : s.Kept p) (i : Issue) (rd ra rb : Reg) : OutKept p (execQput i rd ra rb s) :=
  .issue h _ _ fun _ h => queueRequest_kept h _ _ _ _ fun _ h => deviceDone_kept (offer_kept h _ _ _) _ _ _ _

theorem execQpeek_kept (h : s.Kept p) (i : Issue) (rd ra rb : Reg) : OutKept p (execQpeek i rd ra rb s) :=
  .issue h _ _ fun _ h => queueRequest_kept h _ _ _ _ fun _ h => queueReply_kept (peekWord_kept h _ _) _ _ _

theorem execCimld_kept (h : s.Kept p) (i : Issue) (rd ra rb : Reg) : OutKept p (execCimld i rd ra rb s) := by
  refine .issue h _ _ fun s h => .ite (forbid_kept h _ _) (.ite (devFault_kept h _ _ _) (.ite (devFault_kept h _ _ _)
    (toIsland_kept h _ _ _ _ fun s h => .ite ?_ (bankDenies_kept h _ _ _ _ _))))
  dsimp only
  split
  · exact memEcc_kept (copyRows_kept h _ _ _ _) _ _
  · exact deviceDone_kept (copyRows_kept h _ _ _ _) _ _ _ _

theorem execCimev_kept (h : s.Kept p) (i : Issue) (rd ra rb : Reg) : OutKept p (execCimev i rd ra rb s) := by
  refine .issue h _ _ fun s h => .ite (devFault_kept h _ _ _) (.ite (devFault_kept h _ _ _) ?_)
  dsimp only
  have hc := countCorrected_kept h i.core (s.reg i.core ra).toNat 8
  split
  · exact memEcc_kept hc _ _
  · exact toIsland_kept hc _ _ _ _ fun _ h => .ite (deviceDone_kept (cimev_kept h _ _ _ _) _ _ _ _) (bankDenies_kept h _ _ _ _ _)

theorem execLedgCommit_kept (h : s.Kept p) (i : Issue) (rd : Reg) : OutKept p (execLedgCommit i rd s) :=
  .issue h _ _ fun _ h => choirOnly_kept h _ _ fun _ h => toReplying_kept h _ _ _ _ fun _ h =>
    deviceDone_kept (startCommit_kept h _) _ _ _ _

theorem execLedgLog_kept (h : s.Kept p) (i : Issue) (rd ra rb : Reg) : OutKept p (execLedgLog i rd ra rb s) :=
  .issue h _ _ fun _ h => choirOnly_kept h _ _ fun _ h => toReplying_kept h _ _ _ _ fun _ h =>
    deviceDone_kept (logEvent_kept h _ _ _) _ _ _ _

theorem execLdtmSplit_kept (h : s.Kept p) (i : Issue) (rd ra : Reg) : OutKept p (execLdtmSplit i rd ra s) :=
  .issue h _ _ fun _ h => .ite (devFault_kept h _ _ _)
    (toReplying_kept h _ _ _ _ fun _ h => deviceDone_kept (setReg_kept h _ _ _) _ _ _ _)

theorem execLdtmTicks_kept (h : s.Kept p) (i : Issue) (rd : Reg) : OutKept p (execLdtmTicks i rd s) :=
  .issue h _ _ fun _ h => toReplying_kept h _ _ _ _ fun _ h => deviceDone_kept h _ _ _ _

theorem execUsync_kept (h : s.Kept p) (i : Issue) (rd ra : Reg) : OutKept p (execUsync i rd ra s) :=
  .issue h _ _ fun _ h => .ite (devFault_kept h _ _ _)
    (toReplying_kept h _ _ _ _ fun _ h => deviceDone_kept (usync_kept h _) _ _ _ _)

theorem execRoodPost_kept (h : s.Kept p) (i : Issue) (rd ra rb : Reg) : OutKept p (execRoodPost i rd ra rb s) := by
  refine .issue h _ _ fun s h => toReplying_kept h _ _ _ _ fun s h => deviceDone_kept ?_ _ _ _ _
  cases i.core
  · exact choirPost_kept h _ _
  · exact navePost_kept h _ _

theorem execRoodTake_kept (h : s.Kept p) (i : Issue) (rd ra : Reg) : OutKept p (execRoodTake i rd ra s) :=
  .issue h _ _ fun _ h => .ite (devFault_kept h _ _ _)
    (toReplying_kept h _ _ _ _ fun _ h => deviceDone_kept (setReg_kept (mailTake_kept h _) _ _ _) _ _ _ _)

/-! ### The acoustic isles -/

theorem execIsleCommandStart_kept (h : s.Kept p) (n : Fin 16) : OutKept p (execIsleCommandStart n s) := by
  refine .next ?_
  split
  · refine .ite ?_ h
    extract_lets ctl t kind gains lim gain t1 group twin x t2
    have ht : t.Kept p := setIsle_kept h _ _
    have h1 : t1.Kept p := .ite (spend_kept (setFld_kept ht _ _)) ht
    have h2 : t2.Kept p := .ite h1 (onIsles_kept h1 _)
    split
    · exact isleRun_kept (refuseShots_kept ht _ _ _ _) _
    · exact isleSync_kept (setFlag_kept (setIsle_kept h2 _ _) _ _) _
  · exact h

theorem execTwinClaimGrant_kept (h : s.Kept p) (n : Fin 16) (late : Bool) : OutKept p (execTwinClaimGrant n late s) := by
  refine .next ?_
  split
  · exact .ite (isleSync_kept (setFlag_kept (countDelay_kept (setCur_kept h _ _) _ _ _) _ _) _) h
  · exact h

theorem execExclusionGrant_kept (h : s.Kept p) (g : Fin 16) (late : Bool) : OutKept p (execExclusionGrant g late s) := by
  refine .next ?_
  split
  · extract_lets t
    have ht : t.Kept p := onIsles_kept (withdraw_kept h _) _
    split
    · exact countDelay_kept (setCur_kept ht _ _) _ _ _
    · exact ht
  · exact h

theorem execExclusionRelease_kept (h : s.Kept p) (g : Fin 16) : OutKept p (execExclusionRelease g s) := by
  refine .next ?_
  split
  · exact tokenSync_kept (onIsles_kept h _)
  · exact h

theorem execExwait_kept (h : s.Kept p) (n : Fin 16) : OutKept p (execExwait n s) := by
  refine .next ?_
  split
  · exact .ite (isleRun_kept (isleFault_kept (failShot_kept (countDelay_kept h _ _ _) _ _ _ _ _ _) _ _ _) _) h
  · exact h

theorem execBurstStart_kept (h : s.Kept p) (n : Fin 16) (clast : Nat) : OutKept p (execBurstStart n clast s) := by
  refine .next ?_
  split
  · refine .ite (.ite ?_ (.ite ?_ ?_)) h
    · exact isleRun_kept (isleFault_kept (failPair_kept h _ _ _ _) _ _ _) _
    · exact isleRun_kept (isleFault_kept (failPair_kept (setFld_kept h _ _) _ _ _ _) _ _ _) _
    · exact tokenHeld_kept (setCur_kept (setFld_kept h _ _) _ _) _
  · exact h

theorem execShort_kept (h : s.Kept p) (n : Fin 16) : OutKept p (execShort n s) := by
  refine .next ?_
  split
  · exact .ite (isleRun_kept (isleFault_kept (failPair_kept h _ _ _ _) _ _ _) _) h
  · exact h

theorem execWindowOpen_kept (h : s.Kept p) (n : Fin 16) (first : List Sample) (o : List (BitVec 3)) :
    OutKept p (execWindowOpen n first o s) := by
  refine .next ?_
  split
  · refine .ite ?_ h
    extract_lets r g0 noise t1 g1 t2 t3 overs t4 streamed w t5 t6
    have h3 : t3.Kept p := setFld_kept (setFld_kept (spend_kept (spend_kept h)) _ _) _ _
    have h5 : t5.Kept p := setCur_kept (overloads_kept h3 _ _) _ _
    split
    · exact sendItem_kept (sendAll_kept (sendItem_kept (onIsles_kept h5 _) _ _ _ _) _ _ _ _) _ _ _ _
    · exact h5
  · exact h

theorem execWindowClose_kept (h : s.Kept p) (n : Fin 16) (rest : List Sample) (crossings : List Nat)
    (o : List (BitVec 3)) : OutKept p (execWindowClose n rest crossings o s) := by
  refine .next ?_
  split
  · refine .ite ?_ h
    extract_lets r overs t1 src w t2 t3
    have h2 : t2.Kept p := setCur_kept (overloads_kept h _ _) _ _
    have h3 : t3.Kept p := .ite (tokenDone_kept h2 _) h2
    split
    · exact sendAll_kept h3 _ _ _ _
    · exact h3
  · exact h

theorem execLagTimeout_kept (h : s.Kept p) (n : Fin 16) : OutKept p (execLagTimeout n s) := by
  refine .next ?_
  split
  · exact .ite (finishShot_kept (ignoreReplies_kept h _ _) _ _ _ _ _) h
  · exact h

theorem execNoverdict_kept (h : s.Kept p) (n : Fin 16) : OutKept p (execNoverdict n s) := by
  refine .next ?_
  split
  · exact isleRun_kept (sendQueue_kept (setIsle_kept (ignoreReplies_kept h _ _) _ _) _ _ _) _
  · exact h

theorem execRtdChargeDone_kept (h : s.Kept p) (n : Fin 16) (chargeNs : Nat) :
    OutKept p (execRtdChargeDone n chargeNs s) := by
  refine .next ?_
  split
  · exact .ite (.ite (rtdRecord_kept (isleFault_kept h _ _ _) _ _ _ _ _ _ _) (.ite (setCur_kept h _ _) h)) h
  · exact h

theorem execRtdCrossing_kept (h : s.Kept p) (n : Fin 16) (taps : Nat) : OutKept p (execRtdCrossing n taps s) := by
  refine .next ?_
  split
  · exact .ite h (.ite (rtdRecord_kept (isleFault_kept h _ _ _) _ _ _ _ _ _ _)
      (rtdRecord_kept (onIsles_kept h _) _ _ _ _ _ _ _))
  · exact h

theorem execRtdopen_kept (h : s.Kept p) (n : Fin 16) : OutKept p (execRtdopen n s) := by
  refine .next ?_
  split
  · exact rtdRecord_kept (isleFault_kept h _ _ _) _ _ _ _ _ _ _
  · exact h

theorem execCapshort_kept (h : s.Kept p) (n : Fin 16) : OutKept p (execCapshort n s) := by
  refine .next ?_
  split
  · exact rtdRecord_kept (isleFault_kept h _ _ _) _ _ _ _ _ _ _
  · exact h

/-! ### The CIM banks -/

theorem execBankWipeDone_kept (h : s.Kept p) (bk : Fin 4) : OutKept p (execBankWipeDone bk s) :=
  .next (.ite (leaseApplies_kept (pendSync_kept ((onCim_kept h _).each _ fun _ _ h => tileSync_kept h _) _) _) h)

theorem execTimeDomainEval_kept (h : s.Kept p) (bk : Fin 4) : OutKept p (execTimeDomainEval bk s) := by
  refine .next ?_
  have he := evalEnds_kept h bk false
  split
  · split
    · exact evalOver_kept (settleAll_kept (sendLag_kept (setStream_kept he _ _) _ _ _) _) _
    · exact evalOver_kept (sendLag_kept (setStream_kept (spend_kept (bump_kept (touchTiles_kept he _) _ _)) _ _) _ _ _) _
  · exact he

theorem execDigitalEval_kept (h : s.Kept p) (bk : Fin 4) (bad1 : List CellAt) (drifted : List RowAt) (bad2 : List CellAt) :
    OutKept p (execDigitalEval bk bad1 drifted bad2 s) := by
  refine .next ?_
  have he := evalEnds_kept h bk true
  split
  · split
    · exact evalOver_kept (settleAll_kept (setStream_kept he _ _) _) _
    · exact evalOver_kept (settleAll_kept (setStream_kept (digitalRun_kept he _ _ _ _ _) _ _) _) _
  · exact he

theorem execThrdataAccess_kept (h : s.Kept p) (c : CoreId) (bk : Fin 4) (write : Option Word) :
    OutKept p (execThrdataAccess c bk write s) := by
  cases write with
  | some val => exact .next (poke_kept h _ _ _)
  | none => exact .next (peek_kept h _ _)

/-! ### Outputs -/

theorem execPulseStart_kept (h : s.Kept p) (n : Fin 8) : OutKept p (execPulseStart n s) :=
  .next (.ite (activity_kept (setFlag_kept (setFld_kept h _ _) _ _) _) h)

theorem execLoopLow_kept (h : s.Kept p) (j : Fin 2) (vdev meas : BitVec 16) : OutKept p (execLoopLow j vdev meas s) :=
  .next (.ite (outEvent_kept (setFlag_kept (setFlag_kept (loopMeas_kept h _ _ _) _ _) _ _)) h)

theorem execLownowClear_kept (h : s.Kept p) (j : Fin 2) (vdev meas : BitVec 16) :
    OutKept p (execLownowClear j vdev meas s) :=
  have hm := setFlag_kept (loopMeas_kept h j vdev meas) (OUT.LPSTAT_LOWNOW j) false
  .next (.ite (loopSync_kept (.ite (setFlag_kept hm _ _) hm) _) h)

/-! ### Quantities and the ledger -/

theorem execQtyTakePacket_kept (h : s.Kept p) : OutKept p (execQtyTakePacket s) := by
  refine .next ?_
  split
  · refine .ite ?_ h
    extract_lets t
    have ht : t.Kept p := onQty_kept h _
    refine .ite (breakHalf_kept ht _) ?_
    split
    · exact .ite (takeTransit_kept ht _ _ _) (takeSingle_kept (breakHalf_kept ht _) _ _)
    · exact rejectPacket_kept ht _
  · exact h

theorem execCommitComplete_kept (h : s.Kept p) (readsBack : Bool) : OutKept p (execCommitComplete readsBack s) := by
  refine .next ?_
  split
  · refine .ite ?_ h
    extract_lets b t0 t1 t2 t3 t4 t5 t6
    have h0 : t0.Kept p := onQty_kept h _
    have h2 : t2.Kept p := setFlag_kept (.putReg (.putReg (onQty_kept h0 _) _ _) _ _) _ _
    have h3 : t3.Kept p := setFlag_kept (setFld_kept h2 _ _) _ _
    have h5 : t5.Kept p := followUp_kept (guardCommitted_kept (raiseEvent_kept h3 _ _ _) _)
    have h6 : t6.Kept p := logEvent_kept (bump_kept (setFlag_kept h0 _ _) _ _) _ _ _
    exact .ite (.ite (coreReset_kept h5 _ _) h5) (followUp_kept (raiseEvent_kept h6 _ _ _))
  · exact h

/-! ### The belfry -/

theorem execCoordinatorStart_kept (h : s.Kept p) (q : Fin 2) : OutKept p (execCoordinatorStart q s) :=
  .next (.ite (queueBeacon_kept (setNetState_kept (engineCell_kept (engineCell_kept h _ _ _ _ _ _) _ _ _ _ _ _) _ _) _ _) h)

theorem execSynclost_kept (h : s.Kept p) (q : Fin 2) : OutKept p (execSynclost q s) :=
  have hf := belfFault_kept (setFlag_kept h (BELF.PSTAT_SYNCED q) false) (BELF.FAULTS_SYNCLOST q)
  .next (.ite (.ite (nodeOrphan_kept hf _) hf) h)

theorem execFloodRelay_kept (h : s.Kept p) (q : Fin 2) : OutKept p (execFloodRelay q s) := by
  refine .next ?_
  split
  · exact h
  · exact .ite (bump_kept (onRadio_kept h _) _ _) (bump_kept (engineSend_kept (onRadio_kept h _) _ _ _ _) _ _)

theorem execSeenCacheExpiry_kept (h : s.Kept p) : OutKept p (execSeenCacheExpiry s) := by
  refine .next ?_
  split
  · exact onRadio_kept h _
  · exact h

theorem execSlotStart_kept (h : s.Kept p) (q : Fin 2) : OutKept p (execSlotStart q s) := by
  refine .next (.ite (.ite (portFalls_kept h _) ?_) h)
  extract_lets t1 t2 t3 t4 r skip
  have h1 : t1.Kept p := by
    unfold t1
    split
    · exact onPort_kept (setFlag_kept (setAsn_kept h _ _) _ _) _ _
    · exact setAsn_kept h _ _
  have h3 : t3.Kept p := by
    unfold t3
    split
    · exact nodeInstall_kept (applyCorr_kept h1 _) _ _
    · exact applyCorr_kept h1 _
  exact onPort_kept (setFlag_kept (keepBeacon_kept h3 _) _ _) _ _

theorem execFrameTransmit_kept (h : s.Kept p) (q : Fin 2) (energy : BitVec 8) : OutKept p (execFrameTransmit q energy s) := by
  refine .next ?_
  split
  · split
    · refine .ite ?_ h
      extract_lets last t1 t2
      have h1 : t1.Kept p := onPort_kept h _ _
      have h2 : t2.Kept p := .ite h1 (.ite (backoff_kept h1 _) (sendBuf_kept h1 _ _ _ _))
      exact sharedListens_kept h2 _ _
    · exact h
  · exact h

theorem execFrameTransmitEnd_kept (h : s.Kept p) (q : Fin 2) : OutKept p (execFrameTransmitEnd q s) := by
  refine .next ?_
  split
  · extract_lets t
    have ht : t.Kept p := onPort_kept (setFlag_kept h _ _) _ _
    split
    · exact ht
    · refine .ite (onPort_kept (setFlag_kept ht _ _) _ _) ?_
      split
      · exact finishFrame_kept ht _ _ _ _ _
      · exact ht
  · exact h

theorem execAckTimeout_kept (h : s.Kept p) (q : Fin 2) : OutKept p (execAckTimeout q s) := by
  refine .next ?_
  split
  · extract_lets t1 t2 t3
    have h2 : t2.Kept p := adaptPower_kept (onPort_kept (setFlag_kept h _ _) _ _) _ _
    have h3 : t3.Kept p := .ite (backoff_kept h2 _) h2
    split
    · exact .ite (finishFrame_kept h3 _ _ _ _ _) h3
    · exact h3
  · exact h

theorem execFrameReceive_kept (h : s.Kept p) (q : Fin 2) (f : RxFrame) : OutKept p (execFrameReceive q f s) := by
  refine .next (.ite h ?_)
  split
  · exact .ite (receiveAck_kept h _ _ _) h
  · split
    · exact .ite h (.ite (bump_kept h _ _) (receive_kept h _ _ _))
    · exact h

theorem execAckTransmit_kept (h : s.Kept p) (q : Fin 2) : OutKept p (execAckTransmit q s) := by
  refine .next ?_
  split
  · extract_lets t
    have ht : t.Kept p := onPort_kept h _ _
    refine .ite ht (.ite (bump_kept ht _ _) ?_)
    split
    · exact bump_kept ht _ _
    · next e => exact goOnAir_kept (setFlag_kept (sealAck_kept e ht) _ _) _ _ _
  · exact h

theorem execHopGenDone_kept (h : s.Kept p) (q : Fin 2) : OutKept p (execHopGenDone q s) :=
  .next (.ite (setFlag_kept (setFld_kept (h.foldl _ fun _ _ h => h.putReg _ _) _ _) _ _) h)

/-! ### Supplies and time -/

theorem execVmainLoss_kept (h : s.Kept p) (vmain vbak : Nat) : OutKept p (execVmainLoss vmain vbak s) :=
  have hv := supplies_kept h vmain vbak
  .next (.ite (.ite (.ite (toBackup_kept hv) (enterHold_kept hv)) hv) h)

theorem execReturnToMain_kept (h : s.Kept p) (vmain : Nat) : OutKept p (execReturnToMain vmain s) :=
  have hv := supplies_kept h vmain s.crypt.vbak
  .next (.ite (.ite (guardSync_kept (setFlag_kept (toMain_kept hv) _ _)) hv) h)

theorem execVbakLow_kept (h : s.Kept p) (vbak : Nat) : OutKept p (execVbakLow vbak s) :=
  have hv := supplies_kept h s.crypt.vmain vbak
  .next (.ite (.ite (enterHold_kept hv) hv) h)

theorem execHoldSurvival_kept (h : s.Kept p) (vmain vbak : Nat) : OutKept p (execHoldSurvival vmain vbak s) :=
  have hv := supplies_kept h vmain vbak
  have hm := bump_kept (toMain_kept hv) CRYPT.PWRSTAT_HOLDS 1
  .next (.ite (.ite (.ite hm (startDomains_kept hm _ _)) hv) h)

theorem execHoldExpiryCryptReset_kept (h : s.Kept p) (vmain vbak : Nat) : OutKept p (execHoldExpiryCryptReset vmain vbak s) :=
  .next (.ite (.ite (cryptStarts_kept h _ _) (cryptUnpowered_kept h _ _)) h)

theorem execEvwaitTimeout_kept (h : s.Kept p) (c : CoreId) : OutKept p (execEvwaitTimeout c s) := by
  refine .next ?_
  split
  · exact .ite (advance_kept h _) (wakeDeadline_kept h _)
  · exact h

theorem execXtfail_kept (h : s.Kept p) (gap : Nat) : OutKept p (execXtfail gap s) :=
  .next (.ite (advance_kept (raiseEvent_kept (raiseBit_kept (setFlag_kept h _ _) _) _ _ _) _) h)

theorem execXhfStart_kept (h : s.Kept p) : OutKept p (execXhfStart s) :=
  .next (.ite (onCrypt_kept (setFlag_kept (setFlag_kept h _ _) _ _) _) h)

theorem execXhfLingerEnd_kept (h : s.Kept p) : OutKept p (execXhfLingerEnd s) :=
  .next (.ite (onCrypt_kept (setFlag_kept (setFlag_kept h _ _) _ _) _) h)

theorem execXhfStartTimeout_kept (h : s.Kept p) : OutKept p (execXhfStartTimeout s) :=
  .next (.ite (.ite (onCrypt_kept h _)
    (.ite (raiseEvent_kept (onCrypt_kept (setFlag_kept (raiseBit_kept h _) _ _) _) _ _ _) h)) h)

theorem execXhflost_kept (h : s.Kept p) : OutKept p (execXhflost s) :=
  .next (.ite (radioXhfLost_kept (islesXhfLost_kept (raiseEvent_kept (onCrypt_kept
    (setFlag_kept (setFlag_kept h _ _) _ _) _) _ _ _))) h)

/-! ### The seal, keys and debug sessions -/

theorem execSealingDone_kept (h : s.Kept p) : OutKept p (execSealingDone s) := by
  refine .next (.ite ?_ h)
  exact startCommit_kept (endDebug_kept (setV_kept (raiseBoth_kept (logEvent_kept (setFlag_kept (setFld_kept
    (h.onSacr (by intro; rfl)) _ _) _ _) _ _ _) _ _) _)) _

theorem execVerifyOpen_kept (h : s.Kept p) : OutKept p (execVerifyOpen s) :=
  have hv := setFlag_kept h SACR.SEAL_VERIFY true
  .next (.ite (.ite (wakeUp_kept (setV_kept (raiseBoth_kept (logEvent_kept (setFld_kept hv _ _) _ _ _) _ _) _) _)
    (.ite (wakeUp_kept (setV_kept hv _) _) hv)) h)

theorem execVerifyClose_kept (h : s.Kept p) : OutKept p (execVerifyClose s) :=
  have hv := setFlag_kept h SACR.SEAL_VERIFY false
  .next (.ite (.ite (startCommit_kept (endDebug_kept (setV_kept (raiseBoth_kept
    (logEvent_kept (setFld_kept hv _ _) _ _ _) _ _) _)) _) (setV_kept hv _)) h)

theorem execDebugAttach_kept (h : s.Kept p) : OutKept p (execDebugAttach s) :=
  .next (.ite h (.ite (.ite (logEvent_kept (setFlag_kept h _ _) _ _ _) h) (logDebugRefusal_kept h _ _)))

theorem execDebugHalt_kept (h : s.Kept p) : OutKept p (execDebugHalt s) :=
  .next (.ite (h.onCore _ fun _ hk => hk.same) h)

theorem execDebugResume_kept (h : s.Kept p) (singleStep : Bool) : OutKept p (execDebugResume singleStep s) :=
  .next (.ite (wakeDeadline_kept (h.onCore _ fun _ hk => hk.same) _) h)

theorem execKeyCommandDone_kept (h : s.Kept p) (half : SacrHalf) : OutKept p (execKeyCommandDone half s) := by
  refine .next ?_
  cases half with
  | choir => exact .ite (raiseEvent_kept (clearKbuf_kept (setFlag_kept (h.onSacr (by intro; rfl)) _ _) _ _) _ _ _) h
  | nave => exact .ite (raiseEvent_kept (clearKbuf_kept (setFlag_kept h _ _) _ _) _ _ _) h

theorem execMacTagReady_kept (h : s.Kept p) : OutKept p (execMacTagReady s) := by
  refine .next ?_
  split
  · next tag _ =>
    have ht := h.each (List.range 4) (f := fun s j => s.putReg (SACR.TAG j) (tag.extractLsb' (32 * j) 32))
      fun _ _ h => h.putReg _ _
    exact raiseEvent_kept (.onSacr (setFlag_kept (setFlag_kept (ht.putReg _ _) _ _) _ _) (by intro; rfl)) _ _ _
  · exact h

theorem execImgchkDone_kept (h : s.Kept p) : OutKept p (execImgchkDone s) :=
  .next (.ite (raiseEvent_kept (.onSacr (setFlag_kept (setFlag_kept (setFlag_kept h _ _) _ _) _ _) (by intro; rfl)) _ _ _) h)

/-! ### Start-up, units and resets -/

theorem execDomainPowerUp_kept (h : s.Kept p) (vmain : Nat) : OutKept p (execDomainPowerUp vmain s) := by
  have hv := supplies_kept h vmain s.crypt.vbak
  refine .next (.ite (.ite hv (.ite (.ite ?_ hv) (.ite ?_ (domainsRise_kept hv)))) h)
  · exact domainsRise_kept (startDomains_kept (.ite hv (toMain_kept hv)) _ _)
  · exact .ite (naveRisen_kept (choirRisen_kept hv)) (choirRisen_kept hv)

theorem State.header_setFlag (f : Fld) (x : Bool) (c : CoreId) (b : Bool) (off : Nat) :
    (s.setFlag f x).header c b off = s.header c b off := by
  unfold State.header
  rw [setFlag_core]

/-- The slot that a core boots from, of two of which not both are invalid, holds a valid image (R173). -/
theorem State.slotValid_booted (c : CoreId) (newer : Bool)
    (hv : ¬(!s.slotValid c false && !s.slotValid c true) = true) :
    s.slotValid c (s.slotValid c true && (!s.slotValid c false || newer)) = true := by
  cases ha : s.slotValid c false <;> cases hb : s.slotValid c true <;> cases newer <;> simp_all

/-- An image that boots is valid, so its entry and its fault vector are word addresses (R173). -/
theorem execCoreBoot_kept (h : s.Kept p) (c : CoreId) : OutKept p (execCoreBoot c s) := by
  refine .next (.ite ?_ h)
  extract_lets u a b t
  have ht : t.Kept p := setFlag_kept (setFlag_kept (setRun_kept h _ _) _ _) _ _
  split
  · exact setRun_kept (logEvent_kept ht _ _ _) _ _
  · next hv =>
    refine bootSlot_kept ht _ _ ?_
    simp only [t, header_setFlag]
    exact slotValid_aligned (slotValid_booted c _ hv)

theorem execServiceLoaderFrame_kept (h : s.Kept p) (c : CoreId) (f : LoaderFrame) :
    OutKept p (execServiceLoaderFrame c f s) := by
  refine .next (.ite ?_ h)
  cases f with
  | image addr lo hi =>
    have hp := flashPut_kept h (.core c) addr.toNat (octetsOfWord lo ++ octetsOfWord hi)
    exact .ite (.ite (hp.onSacr (by intro; rfl)) hp) h
  | verifyKey key x y => exact .ite (programVk_kept h _ _ _) h

theorem execUnitRiseDone_kept (h : s.Kept p) (u : Fin 67) : OutKept p (execUnitRiseDone u s) := by
  have hu := setLife_kept h u 2
  refine .next (.ite h (.ite ?isle (.ite ?bank (.ite ?tile (.ite (risenFollows_kept hu _) (.ite ?port
    (.ite (risenFollows_kept hu _) ?loop)))))))
  case isle => exact isleFollow_kept (isleRisen_kept hu _) _
  case bank => exact bankFalls_kept (risenFollows_kept (bankRisen_kept hu _) _) _
  case tile => exact .ite (risenFollows_kept (tileRisen_kept hu _) _) h
  case port => exact xhfSync_kept (risenFollows_kept (portRisen_kept h _) _)
  case loop => exact risenFollows_kept (loopRisen_kept hu _) _

theorem execUnitFallDone_kept (h : s.Kept p) (u : Fin 67) : OutKept p (execUnitFallDone u s) := by
  have hu := unitOff_kept h u
  refine .next (.ite h (.ite ?isle (.ite (.ite hu h) (.ite ?tile (.ite hu (.ite (portFallen_kept h _) hu))))))
  case isle => exact .ite (isleRun_kept hu _) h
  case tile => exact .ite h (unitOff_kept (tileLost_kept h _) _)

theorem execNrstReset_kept (h : s.Kept p) : OutKept p (execNrstReset s) := by
  unfold execNrstReset
  extract_lets t
  have ht : t.Kept p := onCrypt_kept h _
  exact .next (.ite ht (.ite (wakeUp_kept ht _) (.ite ht (takeAllDown_kept ht))))

/-! ### Straits and queues -/

theorem execStraitWordReceive_kept (h : s.Kept p) (src dst : Island) (tag : BitVec 4) (word : Word) (parity : Bool) :
    OutKept p (execStraitWordReceive src dst tag word parity s) := by
  refine .next (.ite h ?_)
  extract_lets good t1 t2 t3
  have h1 : t1.Kept p := .record h
  have h2 : t2.Kept p := .ite h1 (tally32_kept h1 _ _)
  have h3 : t3.Kept p := .ite (tally32_kept h2 _ _) (.ite (recvAny_kept h2 _ _ _ _) (recvBad_kept h2 _ _ _ _ _))
  exact handshakeDone_kept h3 _ _

theorem execStraitReopen_kept (h : s.Kept p) (src dst : Island) : OutKept p (execStraitReopen src dst s) :=
  have ho := setStrait_kept h src dst .isOpen
  .next (.ite (.ite (feedReopen_kept ho) ho) h)

theorem execQueueDeliver_kept (h : s.Kept p) (q : Fin 256) : OutKept p (execQueueDeliver q s) := by
  refine .next ?_
  split
  · exact .ite (deliverAll_kept h _ _) h
  · exact h

theorem execCloisterScrub_kept (h : s.Kept p) (q : Fin 256) (errors : List (Nat × Bool)) :
    OutKept p (execCloisterScrub q errors s) :=
  .next (.ite (settled_kept (scrub_kept (h.each _ fun _ _ h => .ite (setQueue_kept h _ _) h) _ _) _) h)

theorem execQueueRiseDone_kept (h : s.Kept p) (q : Fin 256) : OutKept p (execQueueRiseDone q s) :=
  have hr := queueRises_kept h q
  .next (.ite (.ite hr (queueFalls_kept hr _)) h)

theorem execQueueFallDone_kept (h : s.Kept p) (q : Fin 256) : OutKept p (execQueueFallDone q s) :=
  have hf := setQueueLife_kept (setBlocks_kept h q []) q 0
  .next (.ite (.ite (setQueueLife_kept (setFlag_kept hf _ _) _ _) hf) h)

theorem execEventRepeat_kept (h : s.Kept p) : OutKept p (execEventRepeat s) := by
  unfold execEventRepeat
  extract_lets t1 t2 t3
  have h1 : t1.Kept p := repeatCrypt_kept h
  have h2 : t2.Kept p := .ite (h1.each _ fun _ _ h => repeatBank_kept h _) h1
  have h3 : t3.Kept p := .ite (repeatChoir_kept h2) h2
  exact .next (.ite (repeatNave_kept h3) h3)

/-! ### The opcode table -/

/-- Every command keeps a sound state sound and the queue of commands as it stands. -/
theorem exec_kept (h : s.Kept p) (i : Instr) : OutKept p (exec i s) :=
  match i with
  | .registerWrite .. | .weightWindowStore .. => .next (commandStore_kept h _ _ _)
  | .rzRead .. | .weightWindowLoad .. => .next (commandLoad_kept h _ _)
  | .straitWordReceive .. => execStraitWordReceive_kept h _ _ _ _ _
  | .straitReopen .. => execStraitReopen_kept h _ _
  | .domainFall .. => .next (fallStart_kept h _)
  | .domainOff .. => .next (fallFinish_kept h _)
  | .vmainLoss .. => execVmainLoss_kept h _ _
  | .returnToMain .. => execReturnToMain_kept h _
  | .vbakLow .. => execVbakLow_kept h _
  | .holdSurvival .. => execHoldSurvival_kept h _ _
  | .holdExpiryCryptReset .. => execHoldExpiryCryptReset_kept h _ _
  | .cryptPowerOn .. => .next (.ite (cryptStarts_kept h _ _) h)
  | .measnow .. | .vpulLevelWrite .. | .vpulFaultClear .. | .queueDescWrite .. | .navecapWrite .. | .imgErase ..
    | .imgProgram .. | .portmodeWrite .. | .descriptorWrite .. | .isleEnableWrite .. | .bankEnableWrite ..
    | .tileEnableWrite .. | .calStart .. | .clvoteWrite .. | .auxaddWrite .. | .debtaddWrite .. | .pinEnableWrite ..
    | .loopEnableWrite .. | .outLockWrite .. | .seal .. | .loadaes .. | .clear .. | .loadvk .. | .revokevk ..
    | .nkeyLoad .. | .nkeyClear .. | .macStart .. | .macDin .. | .macFinish .. | .imgchkCheck .. | .imgchkActivate ..
    | .hopGen .. | .limcfgPresetWrite .. | .portEnableWrite .. | .radioTest .. | .nbrRead .. | .nbrWrite ..
    | .nbrDelete .. | .xhfreqWrite .. | .timeNewWrite .. | .modeWrite .. | .cfgErase .. | .cfgProgram ..
    | .rstreqChoircore .. | .rstreqNavecore .. | .rstreqDomains .. | .wdogKick .. => .next (poke_kept h _ _ _)
  | .vmeasPeriodic .. => .next (.ite (measure_kept h) h)
  | .vpulInBand .. => .next (bandSync_kept (onCrypt_kept h _))
  | .vpulUndervoltFault .. | .vpulCurrentLimitFault .. => .next (.ite (boostFault_kept h _) h)
  | .queueDeliver .. => execQueueDeliver_kept h _
  | .cloisterScrub .. => execCloisterScrub_kept h _ _
  | .queueRiseDone .. => execQueueRiseDone_kept h _
  | .queueFallDone .. => execQueueFallDone_kept h _
  | .add .. | .sub .. | .adc .. | .sbc .. | .and .. | .or .. | .xor .. | .andn .. | .shl .. | .shr .. | .sar .. | .ror ..
    | .mul .. | .mulh .. | .mulhu .. | .clz .. | .rev .. | .sxb .. | .sxh .. | .addi .. | .andi .. | .ori .. | .xori ..
    | .shli .. | .shri .. | .sari .. | .rori .. | .cmpi .. => .next (alu_kept h _ _ _ _ _ _ _)
  | .div .. | .divu .. | .rem .. | .remu .. => .next (divide_kept h _ _ _ _ _)
  | .ldi .. | .lui .. | .adr .. => .issue h _ _ fun _ h => finishPlain_kept h _ _ _ _
  | .ldw .. | .ldh .. | .ldhs .. | .ldb .. | .ldbs .. => .next (load_kept h _ _ _ _ _ _)
  | .stw .. | .sth .. | .stb .. => .next (store_kept h _ _ _ _ _)
  | .push .. => execPush_kept h _ _
  | .pop .. => execPop_kept h _ _
  | .bcc .. => execBcc_kept h _ _ _
  | .b .. => execB_kept h _ _
  | .jal .. => execJal_kept h _ _
  | .jalr .. => execJalr_kept h _ _ _
  | .cbz .. => execCbz_kept h _ _ _
  | .cbnz .. => execCbnz_kept h _ _ _
  | .nop .. => .issue h _ _ fun _ h => retire_kept h _ _
  | .brk .. => execBrk_kept h _ _
  | .rfe .. => execRfe_kept h _
  | .evset .. => execEvset_kept h _ _
  | .evclr .. => .issue h _ _ fun _ h => retire_kept (clearEvents_kept h _ _) _ _
  | .evpoll .. => .issue h _ _ fun _ h => finishPlain_kept (clearEvents_kept h _ _) _ _ _ _
  | .mfs .. => execMfs_kept h _ _ _
  | .mts .. => execMts_kept h _ _ _
  | .evwait .. => execEvwait_kept h _ _ _ _
  | .evwaitTimeout .. => execEvwaitTimeout_kept h _
  | .eventRepeat .. => execEventRepeat_kept h
  | .timerExpiry .. | .rtcTrim .. | .timeSet .. | .wdogExpiry .. => .next (.ite (advance_kept h _) h)
  | .shot .. | .shot2 .. => .next (shot_kept h _ _ _ _ _ _)
  | .qget .. => execQget_kept h _ _ _
  | .qput .. => execQput_kept h _ _ _ _
  | .qpeek .. => execQpeek_kept h _ _ _ _
  | .cimld .. => execCimld_kept h _ _ _ _
  | .cimev .. => execCimev_kept h _ _ _ _
  | .leaseTake .. => .next (lease_kept h _ _ _ _ fun _ _ _ _ h => leaseTake_kept h _ _)
  | .leaseGive .. => .next (lease_kept h _ _ _ _ fun _ _ _ _ h => leaseGive_kept h _ _ _)
  | .leaseRelease .. => .next (lease_kept h _ _ _ _ fun _ _ _ _ h => leaseRelease_kept h _ _)
  | .tallyRead .. | .tallyConduit .. => .next (tallyRequest_kept h _ _ _ _ _ (fun _ _ h => readTallies_kept h _) _)
  | .tallyIndex .. | .tallyCondix .. => .next (tallyRequest_kept h _ _ _ _ _ (fun _ _ h => readIndices_kept h _) _)
  | .ledgCommit .. => execLedgCommit_kept h _ _
  | .ledgLog .. => execLedgLog_kept h _ _ _ _
  | .ldtmSplit .. => execLdtmSplit_kept h _ _ _
  | .ldtmTicks .. => execLdtmTicks_kept h _ _
  | .usync .. => execUsync_kept h _ _ _
  | .roodPost .. => execRoodPost_kept h _ _ _ _
  | .roodTake .. => execRoodTake_kept h _ _ _
  | .coreBoot .. => execCoreBoot_kept h _
  | .flashOpDone .. => .next (flashDone_kept h _ _)
  | .serviceLoaderFrame .. => execServiceLoaderFrame_kept h _ _
  | .isleCommandStart .. => execIsleCommandStart_kept h _
  | .twinClaimGrant .. => execTwinClaimGrant_kept h _ _
  | .exclusionGrant .. => execExclusionGrant_kept h _ _
  | .exclusionRelease .. => execExclusionRelease_kept h _
  | .exwait .. => execExwait_kept h _
  | .burstStart .. => execBurstStart_kept h _ _
  | .short .. => execShort_kept h _
  | .burstEnd .. | .clampEnd .. => .next (phaseStep_kept h _ _ _)
  | .windowOpen .. => execWindowOpen_kept h _ _ _
  | .windowClose .. => execWindowClose_kept h _ _ _ _
  | .recoveryEnd .. => .next (setFlag_kept h _ _)
  | .timeDomainEval .. => execTimeDomainEval_kept h _
  | .digitalEval .. => execDigitalEval_kept h _ _ _ _
  | .replicaScanDue .. => .next (.ite (scanDue_kept h _ _ _ _) h)
  | .refnow .. => .next (commandStoreWith_kept h _ _ _ _)
  | .thrdataAccess .. => execThrdataAccess_kept h _ _ _
  | .bankWipeDone .. => execBankWipeDone_kept h _
  | .lagTimeout .. => execLagTimeout_kept h _
  | .noverdict .. => execNoverdict_kept h _
  | .xhflost .. => execXhflost_kept h
  | .rtdChargeDone .. => execRtdChargeDone_kept h _ _
  | .rtdCrossing .. => execRtdCrossing_kept h _ _
  | .rtdopen .. => execRtdopen_kept h _
  | .capshort .. => execCapshort_kept h _
  | .qtyTakePacket .. => execQtyTakePacket_kept h
  | .setWindowExpiry .. => .next (.ite (.ite (closeSet_kept h _) (dropSet_kept h _)) h)
  | .voteAgeExpiry .. => .next (.ite (setConduit_kept h _ _) h)
  | .commitPeriodicDue .. => .next (.ite h (startCommit_kept h _))
  | .commitComplete .. => execCommitComplete_kept h _
  | .heartbeatSend .. => .next (.ite (feedPair_kept h _ _) h)
  | .pulseStart .. => execPulseStart_kept h _
  | .pulseEnd .. => .next (.ite (bumpWrap_kept (setFlag_kept h _ _) _ _) h)
  | .inputPulseCount .. => .next (.ite (activity_kept (bumpWrap_kept h _ _) _) h)
  | .loopStale .. => .next (.ite (loopSync_kept (setFlag_kept h _ _) _) h)
  | .loopLow .. => execLoopLow_kept h _ _ _
  | .lownowClear .. => execLownowClear_kept h _ _ _
  | .verifyOpen .. => execVerifyOpen_kept h
  | .verifyClose .. => execVerifyClose_kept h
  | .case .. | .magnet .. => .next (tamper_kept h _ _ _ _ _)
  | .debugAttach .. => execDebugAttach_kept h
  | .keyCommandDone .. => execKeyCommandDone_kept h _
  | .imgchkDone .. => execImgchkDone_kept h
  | .logdataRead .. | .timeSubRead .. | .timeSecRead .. | .cfgdataRead .. => .next (peek_kept h _ _)
  | .slotStart .. => execSlotStart_kept h _
  | .frameTransmit .. => execFrameTransmit_kept h _ _
  | .frameReceive .. => execFrameReceive_kept h _ _
  | .ackTransmit .. => execAckTransmit_kept h _
  | .ackTimeout .. => execAckTimeout_kept h _
  | .synclost .. => execSynclost_kept h _
  | .asnLoad .. => .next (poke_kept (poke_kept h _ _ _) _ _ _)
  | .limitBucketAdvance .. => .next (onPort_kept h _ _)
  | .portFallDone .. => .next (.ite (portFallen_kept h _) h)
  | .coordinatorStart .. => execCoordinatorStart_kept h _
  | .startWindowEnd .. => .next (.ite (setNetState_kept h _ _) h)
  | .assocResponseTimeout .. => .next (.ite (requestFails_kept h _) h)
  | .leaseRenewDue .. => .next (.ite (nodeRequest_kept h _ _) h)
  | .leaseExpiry .. => .next (.ite (nodeScans_kept h _ _) (leaseExpires_kept h _ _))
  | .quarantineEnd .. => .next (setQuarantine_kept h _ _ _)
  | .orphanTimeout .. => .next (.ite (nodeScans_kept h _ _) h)
  | .lastBeacon .. => .next (.ite (closePort_kept h _) h)
  | .floodRelay .. => execFloodRelay_kept h _
  | .seenCacheExpiry .. => execSeenCacheExpiry_kept h
  | .xhfStart .. => execXhfStart_kept h
  | .xhfLingerEnd .. => execXhfLingerEnd_kept h
  | .xhfStartTimeout .. => execXhfStartTimeout_kept h
  | .xt32kSwitch .. => .next (.ite (setFlag_kept h _ _) h)
  | .xtfail .. => execXtfail_kept h _
  | .guardNaveFallTimeout .. => .next (.ite (fallStart_kept h _) h)
  | .standbyEntry .. => .next (.ite (onCrypt_kept (takeAllDown_kept h) _) h)
  | .wakeAlarm .. => .next (.ite (.ite (wakeUp_kept h _) (advance_kept h _)) h)
  | .domainPowerUp .. => execDomainPowerUp_kept h _
  | .unitRiseDone .. => execUnitRiseDone_kept h _
  | .unitFallDone .. => execUnitFallDone_kept h _
  | .nrstReset .. => execNrstReset_kept h
  | .gautoClear .. => .next (.ite (guardSync_kept (setFlag_kept h _ _)) h)
  | .nrstRelease .. => .next (.ite (startDomains_kept (onCrypt_kept h _) _ _) (onCrypt_kept h _))
  | .secondEdge .. => .next (advance_kept h _)
  | .debugPortAccess .. | .spiTargetAccess .. => .next (masterAccess_kept h _ _ _)
  | .debugHalt .. => execDebugHalt_kept h
  | .debugResume .. => execDebugResume_kept h _
  | .sealingDone .. => execSealingDone_kept h
  | .macTagReady .. => execMacTagReady_kept h
  | .frameTransmitEnd .. => execFrameTransmitEnd_kept h _
  | .hopGenDone .. => execHopGenDone_kept h _
  | .counterMarkDone .. => .next (.ite (setFld_kept h _ _) h)

theorem State.Sound.step_sound {t : State} (h : s.Sound) (e : step s = .next t) : t.Sound := by
  unfold step at e
  split at e
  · next c rest _ =>
    have hk : State.Kept rest { s with pending := rest } := ⟨rfl, h.regs, h.config, h.choir, h.nave⟩
    have ho := exec_kept hk c
    rw [e] at ho
    cases ho with
    | next ht => exact ht.sound
  · cases e
    exact (advance_kept (p := s.pending) ⟨rfl, h⟩ 1).sound

end Sys2Proof.Machine
end

/-- Settles O5: a step is exec of the front command on the queue's rest, which every command keeps sound, or one tick. -/
theorem everyStepKeepsTheStateSound : Obligations.EveryStepKeepsTheStateSound := by
  unfold Obligations.EveryStepKeepsTheStateSound
  intro s t h e
  exact h.step_sound e

section
/-! Laws of register fields and of stores that reach their register, for the statements about registers. -/
namespace Sys2Proof.Machine

variable {s : State}

/-! ### Fields of one register -/

theorem State.twf_setFld (h : twf regReset s.regs = true) (f : Fld) (v : Nat) : twf regReset (s.setFld f v).regs = true :=
  twf_tput h _ _

theorem State.twf_setFlag (h : twf regReset s.regs = true) (f : Fld) (b : Bool) : twf regReset (s.setFlag f b).regs = true :=
  twf_tput h _ _

/-- Two fields of one register that share no bit. -/
abbrev Fld.Apart (f g : Fld) : Prop :=
  g.addr = f.addr ∧ g.hi < 32 ∧ f.lo ≤ f.hi ∧ g.lo ≤ g.hi ∧ (g.hi < f.lo ∨ f.hi < g.lo)

/-- A field reads what it read after a store to another field of its register. -/
theorem State.fld_setFld_apart (h : twf regReset s.regs = true) {f g : Fld} (v : Nat) (hfg : f.Apart g) :
    (s.setFld f v).fld g = s.fld g := by
  obtain ⟨ha, hg, hlf, hlg, hd⟩ := hfg
  unfold State.fld State.setFld
  rw [ha, State.getReg_putReg_self h, bitsOf_bitsPut_ne _ _ hg hlf hlg hd]

theorem State.flag_setFlag_apart (h : twf regReset s.regs = true) {f g : Fld} (b : Bool) (hfg : f.Apart g) :
    (s.setFlag f b).flag g = s.flag g := by
  unfold State.flag State.setFlag
  rw [State.fld_setFld_apart h _ hfg]

theorem State.flag_setFlag_self (h : twf regReset s.regs = true) (f : Fld) (b : Bool) (hf : f.hi < 32) (hl : f.lo ≤ f.hi) :
    (s.setFlag f b).flag f = b := by
  have hw : 2 ≤ 2 ^ (f.hi + 1 - f.lo) := Nat.le_self_pow (by omega) 2
  have hb : natOfBool b < 2 := by cases b <;> decide
  unfold State.flag State.setFlag
  rw [State.fld_setFld_self h _ _ hf hl, Nat.mod_eq_of_lt (by omega)]
  cases b <;> rfl

theorem bitsOf_low (w : Word) {hi : Nat} (h : hi < 32) : bitsOf w hi 0 = w.toNat % 2 ^ (hi + 1) := by
  have hm : 2 ^ (hi + 1) - 1 < 2 ^ 32 := by
    have := Nat.pow_le_pow_right (show 0 < 2 by decide) (show hi + 1 ≤ 32 by omega)
    omega
  unfold bitsOf lowMask
  rw [BitVec.ushiftRight_zero, BitVec.toNat_and, BitVec.toNat_ofNat, Nat.sub_zero, Nat.mod_eq_of_lt hm,
    Nat.and_two_pow_sub_one_eq_mod]

/-- A field of one bit is 1 where the bit is set. -/
theorem bitsOf_bit (w : Word) (i : Nat) (h : i < 32) : bitsOf w i i = natOfBool (w.getLsbD i) := by
  apply Nat.eq_of_testBit_eq
  intro j
  rw [bitsOf_testBit _ _ _ _ h (Nat.le_refl i), show i + 1 - i = 1 by omega]
  cases j with
  | zero => cases w.getLsbD i <;> simp [natOfBool]
  | succ j => cases w.getLsbD i <;> simp [natOfBool, Nat.testBit_succ]

/-! ### Accesses that reach their register -/

/-- A store that nothing refuses, at a word address above own memory, is the store of its region (R34, R37, R39, R40). -/
theorem State.commandStore_eq_storeAt {c : CoreId} {addr : Word} (val : Word) {g : Region}
    (hd : s.domOn (coreDomain c) = true) (ha : addr.toNat % 4 = 0) (hm : inSram c addr.toNat = false)
    (hr : s.reach c addr.toNat true = none) (hs : s.silentAt addr.toNat = false) (hg : regionOf addr.toNat = some g) :
    s.commandStore c addr val = s.storeAt c addr.toNat val [] g := by
  unfold State.commandStore State.commandStoreWith State.busStoreWith
  simp [hd, ha, hm, hr, hs, hg]

/-- The same for a command that names its register. -/
theorem State.poke_eq_storeAt {c : CoreId} {a : Nat} (val : Word) {g : Region} (h : s.allows c a true = true)
    (ha : a % 4 = 0) (hlt : a < 2 ^ 32) (hm : inSram c a = false) (hg : regionOf a = some g) :
    s.poke c a val = s.storeAt c a val [] g := by
  unfold State.allows at h
  simp only [Bool.and_eq_true, Option.isNone_iff_eq_none, Bool.not_eq_true'] at h
  obtain ⟨⟨hd, hr⟩, hs⟩ := h
  have hn : (BitVec.ofNat 32 a).toNat = a := by rw [BitVec.toNat_ofNat, Nat.mod_eq_of_lt hlt]
  unfold State.poke
  rw [State.commandStore_eq_storeAt (g := g) val hd] <;> rw [hn] <;> assumption

end Sys2Proof.Machine
end

section
/-! O32: the VPUL boost (R61 to R63). -/
namespace Sys2Proof.Machine

variable {s : State}

theorem State.flag_onCrypt (k : Crypt → Crypt) (f : Fld) : (s.onCrypt k).flag f = s.flag f := rfl

theorem State.bandSync_onCrypt_vpul (vpul : Nat) (h : s.flag CRYPT.VPULSTAT_ON = true) :
    (s.onCrypt (fun k => { k with vpul := vpul })).bandSync = (s.onCrypt (fun k => { k with vpul := vpul })).setFlag
      CRYPT.VPULSTAT_OK (decide (20 * vpul ≤ 21 * s.vpulTarget ∧ 19 * s.vpulTarget ≤ 20 * vpul)) := if_pos h

/-- A boost whose FAULT is set does not run (R61). -/
theorem State.boostSync_of_fault (h : s.flag CRYPT.VPULSTAT_FAULT = true) :
    s.boostSync = ((s.setFlag CRYPT.VPULSTAT_ON false).setFlag CRYPT.VPULSTAT_INHIBIT (s.path != 0)).setFlag
      CRYPT.VPULSTAT_OK false := by
  unfold State.boostSync
  simp [h]

theorem State.flag_raiseBit_fault (h : twf regReset s.regs = true) :
    (s.raiseBit CRYPT.VPULSTAT_FAULT).flag CRYPT.VPULSTAT_FAULT = true :=
  State.flag_setFlag_self h CRYPT.VPULSTAT_FAULT true (by decide) (by decide)

/-- A boost that faults stops (R63). -/
theorem State.boostSync_raiseBit_fault (h : twf regReset s.regs = true) :
    (s.raiseBit CRYPT.VPULSTAT_FAULT).boostSync = (((s.raiseBit CRYPT.VPULSTAT_FAULT).setFlag CRYPT.VPULSTAT_ON
      false).setFlag CRYPT.VPULSTAT_INHIBIT (s.path != 0)).setFlag CRYPT.VPULSTAT_OK false := by
  have hp : (s.raiseBit CRYPT.VPULSTAT_FAULT).path = s.path := s.fld_setFld_ne _ (by decide)
  rw [State.boostSync_of_fault (State.flag_raiseBit_fault h), hp]

theorem State.boostFault_eq (h : twf regReset s.regs = true) (vpul : Nat) :
    s.boostFault vpul = (((((s.onCrypt (fun k => { k with vpul := vpul })).raiseBit CRYPT.VPULSTAT_FAULT).setFlag
      CRYPT.VPULSTAT_ON false).setFlag CRYPT.VPULSTAT_INHIBIT (s.path != 0)).setFlag CRYPT.VPULSTAT_OK false).raiseEvent
        .crypt .choir 2 :=
  congrArg (fun t : State => t.raiseEvent .crypt .choir 2)
    (State.boostSync_raiseBit_fault (s := s.onCrypt (fun k => { k with vpul := vpul })) h)

/-- The state of a faulted boost: FAULT set, ON and OK clear (R63). -/
theorem State.flags_of_faulted {u : State} (h : twf regReset u.regs = true) (hf : u.flag CRYPT.VPULSTAT_FAULT = true) (b : Bool) :
    let t := ((u.setFlag CRYPT.VPULSTAT_ON false).setFlag CRYPT.VPULSTAT_INHIBIT b).setFlag CRYPT.VPULSTAT_OK false
    t.flag CRYPT.VPULSTAT_FAULT = true ∧ t.flag CRYPT.VPULSTAT_ON = false ∧ t.flag CRYPT.VPULSTAT_OK = false := by
  have h1 := State.twf_setFlag h CRYPT.VPULSTAT_ON false
  have h2 := State.twf_setFlag h1 CRYPT.VPULSTAT_INHIBIT b
  refine ⟨?fault, ?on, State.flag_setFlag_self h2 _ _ (by decide) (by decide)⟩
  case fault =>
    rw [State.flag_setFlag_apart h2 _ (by decide), State.flag_setFlag_apart h1 _ (by decide),
      State.flag_setFlag_apart h _ (by decide), hf]
  case on =>
    rw [State.flag_setFlag_apart h2 _ (by decide), State.flag_setFlag_apart h1 _ (by decide),
      State.flag_setFlag_self h _ _ (by decide) (by decide)]

/-- The target in force after a store to VPULCFG is that of the stored level, held to 56 (R11, R62). -/
theorem State.vpulTarget_stored (h : twf regReset s.regs = true) (n en : Nat) :
    ((s.setFld CRYPT.VPULCFG_LEVEL (min 56 n)).setFld CRYPT.VPULCFG_EN en).vpulTarget = 5000 + 125 * min 56 n := by
  unfold State.vpulTarget
  rw [State.fld_setFld_apart (State.twf_setFld h _ _) _ (by decide),
    State.fld_setFld_self h _ _ (by decide) (by decide)]
  simp only [CRYPT.VPULCFG_LEVEL]
  omega

theorem State.storeVpulcfg_eq (h : twf regReset s.regs = true) (val : Word) :
    let u := (s.setFld CRYPT.VPULCFG_LEVEL (min 56 (val.toNat % 64))).setFld CRYPT.VPULCFG_EN (bitsOf val 8 8)
    let now := 5000 + 125 * min 56 (val.toNat % 64)
    s.storeVpulcfg val = (if u.flag CRYPT.VPULSTAT_ON then u.setFlag CRYPT.VPULSTAT_OK
      (decide (20 * u.crypt.vpul ≤ 21 * now ∧ 19 * now ≤ 20 * u.crypt.vpul)) else u).boostSync := by
  unfold State.storeVpulcfg State.bandSync State.inBand
  rw [bitsOf_low val (show 5 < 32 by decide)]
  simp only [State.vpulTarget_stored h] <;> rfl

theorem State.storeVpulstat_eq (val : Word) (h : val.getLsbD 2 = true) :
    s.storeVpulstat val = if (s.setNow CRYPT.VPULSTAT).getLsbD 2 then s else (s.setFlag CRYPT.VPULSTAT_FAULT false).boostSync := by
  unfold State.storeVpulstat
  rw [bitsOf_bit _ _ (by decide), bitsOf_bit _ _ (by decide), h]
  cases (s.setNow CRYPT.VPULSTAT).getLsbD 2 <;> rfl

theorem inSram_vpul (c : CoreId) : inSram c CRYPT.VPULCFG = false ∧ inSram c CRYPT.VPULSTAT = false := by
  cases c <;> decide

end Sys2Proof.Machine
end

open Sys2Proof Sys2Proof.Machine in
/-- Settles O32, from what the boost does at each voltage, at a fault and at the stores to its two registers. -/
theorem boostFollowsItsTargetAndFaults : Obligations.BoostFollowsItsTargetAndFaults := by
  unfold Obligations.BoostFollowsItsTargetAndFaults
  intro s c val vpul h target seen fault
  have hcfg : s.allows c CRYPT.VPULCFG true → s.poke c CRYPT.VPULCFG val = s.storeVpulcfg val := fun ha =>
    s.poke_eq_storeAt val ha (by decide) (by decide) (inSram_vpul c).1 (g := .crypt) (by decide)
  have hstat : s.allows c CRYPT.VPULSTAT true → s.poke c CRYPT.VPULSTAT val = s.storeVpulstat val := fun ha =>
    s.poke_eq_storeAt val ha (by decide) (by decide) (inSram_vpul c).2 (g := .crypt) (by decide)
  refine ⟨fun hon => ?_, fun hoff => ?_, fun hon hlow => ?_, fun hon => ?_, ?_, fun ha => ?_, fun ha hv hn => ?_, fun ha hv hn => ?_⟩
  · exact congrArg _ (State.bandSync_onCrypt_vpul vpul hon)
  · exact congrArg _ (if_neg (by rw [State.flag_onCrypt, hoff]; decide))
  · exact congrArg _ ((if_pos ⟨hon, hlow⟩).trans (State.boostFault_eq h.regs vpul))
  · exact congrArg _ ((if_pos hon).trans (State.boostFault_eq h.regs vpul))
  · exact State.flags_of_faulted (u := seen.raiseBit _) (State.twf_setFlag (s := seen) h.regs _ _)
      (State.flag_raiseBit_fault (s := seen) h.regs) _
  · exact congrArg _ ((hcfg ha).trans (State.storeVpulcfg_eq h.regs val))
  · exact congrArg _ ((hstat ha).trans ((State.storeVpulstat_eq val hv).trans (if_pos hn)))
  · exact congrArg _ ((hstat ha).trans ((State.storeVpulstat_eq val hv).trans (if_neg (by rw [hn]; decide))))

section
/-! Laws of register accesses by access code (R5 to R11): the table's fields lie apart, so a store and a load are field by
field. -/
namespace Sys2Proof.Machine

variable {s : State}

theorem bitsOf_lt (w : Word) (hi lo : Nat) : bitsOf w hi lo < 2 ^ (hi + 1 - lo) := by
  have hp := Nat.two_pow_pos (hi + 1 - lo)
  have hm : (lowMask (hi + 1 - lo)).toNat ≤ 2 ^ (hi + 1 - lo) - 1 := BitVec.toNat_ofNat _ _ ▸ Nat.mod_le _ _
  have hb : bitsOf w hi lo ≤ (lowMask (hi + 1 - lo)).toNat := by
    unfold bitsOf
    rw [BitVec.toNat_and]
    exact Nat.and_le_right
  omega

/-! ### The fields of the register table -/

/-- Two fields of a register word that share no bit. -/
abbrev FieldSpec.Apart (f g : FieldSpec) : Prop :=
  (f.lo ≤ f.hi ∧ f.hi < 32 ∧ g.lo ≤ g.hi ∧ g.hi < 32) ∧ (f.hi < g.lo ∨ g.hi < f.lo)

/-- A field has bits, and an unsigned one that takes stores holds every value of its stated range. -/
abbrev FieldSpec.Fits (f : FieldSpec) : Prop :=
  f.lo ≤ f.hi ∧ f.hi < 32 ∧ (f.acc = .rw ∨ f.acc = .wo ∨ f.acc = .sl → f.signed = false →
    f.rangeLo ≤ f.rangeHi ∧ f.rangeHi < 2 ^ (f.hi + 1 - f.lo))

theorem regTable_fits : ∀ r ∈ regTable, (∀ f ∈ r.fields, f.Fits) ∧ r.fields.Pairwise FieldSpec.Apart := by decide +kernel

theorem regFind_fits {a k : Nat} {r : RegSpec} (h : regFind a = some (r, k)) :
    (∀ f ∈ r.fields, f.Fits) ∧ r.fields.Pairwise FieldSpec.Apart := by
  unfold regFind at h
  split at h
  · next q hq =>
    cases h
    exact regTable_fits _ (List.mem_of_find?_eq_some hq)
  · cases h

theorem FieldSpec.Apart.symm {f g : FieldSpec} (h : f.Apart g) : g.Apart f :=
  ⟨⟨h.1.2.2.1, h.1.2.2.2, h.1.1, h.1.2.1⟩, h.2.symm⟩

theorem apart_of_ne {l : List FieldSpec} (hl : l.Pairwise FieldSpec.Apart) {f g : FieldSpec} (hf : f ∈ l) (hg : g ∈ l)
    (hne : f ≠ g) : f.Apart g := by
  induction l with
  | nil => exact absurd hf List.not_mem_nil
  | cons x l ih =>
    obtain ⟨hx, hl⟩ := List.pairwise_cons.mp hl
    rcases List.mem_cons.mp hf with hfx | hf <;> rcases List.mem_cons.mp hg with hgx | hg
    · exact absurd (hfx.trans hgx.symm) hne
    · exact hfx ▸ hx g hg
    · exact hgx ▸ (hx f hf).symm
    · exact ih hl hf hg

/-- A field of a word. -/
abbrev FieldSpec.of (f : FieldSpec) (w : Word) : Nat := bitsOf w f.hi f.lo

theorem FieldSpec.of_bitsPut_apart {f g : FieldSpec} (h : g.Apart f) (w : Word) (v : Nat) :
    f.of (bitsPut w g.hi g.lo v) = f.of w :=
  bitsOf_bitsPut_ne w v h.1.2.2.2 h.1.1 h.1.2.2.1 h.2.symm

theorem FieldSpec.of_bitsPut_self {f : FieldSpec} (h : f.Fits) (w : Word) (v : Nat) :
    f.of (bitsPut w f.hi f.lo v) = v % 2 ^ (f.hi + 1 - f.lo) := bitsOf_bitsPut w v h.2.1 h.1

/-- A pass over fields that lie apart from f, each step of which changes its own field of a word alone, leaves f as it
is. P holds all along the pass. -/
theorem foldl_fields_apart {β : Type} (P : β → Prop) (view : β → Word) (op : β → FieldSpec → β) {f : FieldSpec}
    (hP : ∀ b g, P b → P (op b g)) (hop : ∀ b g, P b → g.Apart f → f.of (view (op b g)) = f.of (view b))
    (l : List FieldSpec) (hl : ∀ g ∈ l, g.Apart f) {b : β} (hb : P b) :
    P (l.foldl op b) ∧ f.of (view (l.foldl op b)) = f.of (view b) := by
  induction l generalizing b with
  | nil => exact ⟨hb, rfl⟩
  | cons g l ih =>
    obtain ⟨hg, hl⟩ := List.forall_mem_cons.mp hl
    obtain ⟨h1, h2⟩ := ih hl (hP b g hb)
    exact ⟨h1, h2.trans (hop b g hb hg)⟩

/-- What a pass over the fields of a register does to one field is what the step of that field does to it. -/
theorem foldl_fields {β : Type} (P : β → Prop) (view : β → Word) (op : β → FieldSpec → β) {f : FieldSpec}
    (hP : ∀ b g, P b → P (op b g)) (hop : ∀ b g, P b → g.Apart f → f.of (view (op b g)) = f.of (view b))
    {l : List FieldSpec} (hl : l.Pairwise FieldSpec.Apart) (hf : f ∈ l) {b : β} (hb : P b) :
    ∃ u, P u ∧ f.of (view u) = f.of (view b) ∧ f.of (view (l.foldl op b)) = f.of (view (op u f)) := by
  obtain ⟨l1, l2, rfl⟩ := List.append_of_mem hf
  obtain ⟨-, h2, h12⟩ := List.pairwise_append.mp hl
  obtain ⟨hu, h1⟩ := foldl_fields_apart P view op hP hop l1 (fun g hg => h12 g hg f List.mem_cons_self) hb
  refine ⟨l1.foldl op b, hu, h1, ?_⟩
  rw [List.foldl_append, List.foldl_cons]
  exact (foldl_fields_apart P view op hP hop l2 (fun g hg => (List.rel_of_pairwise_cons h2 hg).symm) (hP _ f hu)).2

/-! ### Loads -/

theorem of_loadField_apart {f g : FieldSpec} (h : g.Apart f) (w acc : Word) : f.of (loadField w acc g) = f.of acc := by
  unfold loadField
  split
  · rfl
  · exact FieldSpec.of_bitsPut_apart h _ _

/-- A load returns each field, 0 of a write-only one (R5). -/
theorem State.of_loadReg {a k : Nat} {r : RegSpec} {f : FieldSpec} (hr : regFind a = some (r, k)) (hf : f ∈ r.fields) :
    f.of (s.loadReg a).2 = if f.acc = .wo then 0 else f.of (s.getReg a) := by
  obtain ⟨hfit, hpair⟩ := regFind_fits hr
  obtain ⟨u, -, hu, hload⟩ := foldl_fields (fun _ => True) id (loadField (s.getReg a)) (fun _ _ _ => trivial)
    (fun acc g _ hg => of_loadField_apart hg _ acc) hpair hf (b := 0) trivial
  have hz : f.of 0 = 0 := by simp [FieldSpec.of, bitsOf]
  unfold State.loadReg
  simp only [hr, id] at hu hload ⊢
  rw [hload]
  unfold loadField
  split
  · rw [hu, hz]
  · rw [FieldSpec.of_bitsPut_self (hfit f hf)]
    exact Nat.mod_eq_of_lt (bitsOf_lt _ _ _)

/-- Reserved bits read 0 (R9). -/
theorem State.loadReg_reserved {a k j : Nat} {r : RegSpec} (hr : regFind a = some (r, k))
    (hj : ∀ f ∈ r.fields, j < f.lo ∨ f.hi < j) : (s.loadReg a).2.getLsbD j = false := by
  by_cases hlt : j < 32
  · obtain ⟨hfit, -⟩ := regFind_fits hr
    have pass : ∀ (l : List FieldSpec) (acc : Word), (∀ f ∈ l, f ∈ r.fields) → acc.getLsbD j = false →
        (l.foldl (fun acc f => loadField (s.getReg a) acc f) acc).getLsbD j = false := by
      intro l
      induction l with
      | nil => exact fun _ _ h => h
      | cons f l ih =>
        intro acc hl hacc
        obtain ⟨hf, hl⟩ := List.forall_mem_cons.mp hl
        refine ih _ hl ?_
        show (loadField (s.getReg a) acc f).getLsbD j = false
        unfold loadField
        split
        · exact hacc
        · rw [bitsPut_getLsbD _ _ _ hlt (hfit f hf).1, if_neg (by have := hj f hf; omega), hacc]
    unfold State.loadReg
    simp only [hr]
    exact pass _ 0 (fun _ h => h) (by simp)
  · exact BitVec.getLsbD_of_ge _ _ (by omega)

/-- After a load the RZ fields are 0 and the others stand (R7). -/
theorem State.of_loadReg_after (h : twf regReset s.regs = true) {a k : Nat} {r : RegSpec} {f : FieldSpec}
    (hr : regFind a = some (r, k)) (hf : f ∈ r.fields) :
    f.of ((s.loadReg a).1.getReg a) = if f.acc = .rz then 0 else f.of (s.getReg a) := by
  obtain ⟨hfit, hpair⟩ := regFind_fits hr
  unfold State.loadReg
  simp only [hr]
  by_cases hz : f.acc = .rz
  · have hm : f ∈ r.fields.filter (fun f => decide (f.acc = .rz)) := List.mem_filter.mpr ⟨hf, by simp [hz]⟩
    rw [if_neg (by rw [List.isEmpty_iff]; exact List.ne_nil_of_mem hm), State.getReg_putReg_self h, if_pos hz]
    obtain ⟨u, -, -, hrz⟩ := foldl_fields (fun _ => True) id (fun x f => bitsPut x f.hi f.lo 0) (fun _ _ _ => trivial)
      (fun x g _ hg => FieldSpec.of_bitsPut_apart hg x 0) (hpair.filter _) hm (b := s.getReg a) trivial
    exact hrz.trans ((FieldSpec.of_bitsPut_self (hfit f hf) _ _).trans (Nat.zero_mod _))
  · rw [if_neg hz]
    split
    · rfl
    · rw [State.getReg_putReg_self h]
      refine (foldl_fields_apart (fun _ => True) id (fun x f => bitsPut x f.hi f.lo 0) (fun _ _ _ => trivial)
        (fun x g _ hg => FieldSpec.of_bitsPut_apart hg x 0) _ (fun g hg => ?_) (b := s.getReg a) trivial).2
      obtain ⟨hg, hgz⟩ := List.mem_filter.mp hg
      refine apart_of_ne hpair hg hf ?_
      rintro rfl
      exact hz (of_decide_eq_true hgz)

/-! ### Stores -/

/-- A state that a pass of stores to one register has reached: that register alone may have changed. -/
structure State.StoredAt (a : Nat) (s t : State) : Prop where
  rest : t = { s with regs := t.regs }
  other : ∀ b, b ≠ a → t.getReg b = s.getReg b
  wf : twf regReset t.regs = true

theorem State.StoredAt.putReg {a : Nat} {t : State} (h : s.StoredAt a t) (w : Word) : s.StoredAt a (t.putReg a w) where
  rest := congrArg (fun u : State => u.putReg a w) h.rest
  other b hb := (t.getReg_putReg_ne w hb).trans (h.other b hb)
  wf := twf_tput h.wf _ _

theorem State.StoredAt.storeField {a : Nat} {t : State} (h : s.StoredAt a t) (c : CoreId) (val : Word) (f : FieldSpec) :
    s.StoredAt a (t.storeField c a val f) := by
  unfold State.storeField
  dsimp only
  repeat' split
  all_goals first | exact h | exact h.putReg _

theorem State.StoredAt.setNow_eq {a b : Nat} {t : State} (h : s.StoredAt a t) : t.setNow b = s.setNow b := by
  rw [h.rest]; rfl

theorem State.StoredAt.logFull_eq {a : Nat} {t : State} (h : s.StoredAt a t) : t.logFull = s.logFull := by
  rw [h.rest]; rfl

/-- Stores to a register other than SEAL leave the seal as it is. -/
theorem State.StoredAt.sealOpen_eq {a : Nat} {t : State} (h : s.StoredAt a t) (ha : a ≠ SACR.SEAL) :
    t.sealOpen = s.sealOpen := by
  unfold State.sealOpen State.fld
  rw [h.other SACR.SEAL_STATE.addr (Ne.symm ha)]

/-- A store to one field leaves the others of its register as they are. -/
theorem State.of_storeField_apart (h : twf regReset s.regs = true) (c : CoreId) (a : Nat) (val : Word) {f g : FieldSpec}
    (hg : g.Apart f) : f.of ((s.storeField c a val g).getReg a) = f.of (s.getReg a) := by
  have hput : ∀ x, f.of ((s.putReg a (bitsPut (s.getReg a) g.hi g.lo x)).getReg a) = f.of (s.getReg a) := fun x => by
    rw [State.getReg_putReg_self h]
    exact FieldSpec.of_bitsPut_apart hg _ _
  unfold State.storeField
  dsimp only
  repeat' split
  all_goals first | rfl | exact hput _

theorem State.getReg_logEvent_ne {b : Nat} (h : b ≠ LEDG.LOGSTAT) (kind : Nat) (x y : Word) :
    (s.logEvent kind x y).getReg b = s.getReg b := by
  have hb : (s.bump LEDG.LOGSTAT_LOST 1).getReg b = s.getReg b := s.getReg_putReg_ne _ h
  unfold State.logEvent State.ledgerWrite
  dsimp only
  repeat' split
  all_goals first | exact hb | rfl

/-- What a store does to one field of its register is what it does to that field in a state that only stores to the
same register have reached, and in which the field stands (R5). A store that is logged leaves LOGSTAT out (R353). -/
theorem State.of_storeReg (h : twf regReset s.regs = true) (c : CoreId) {a k : Nat} (val : Word) {r : RegSpec}
    {f : FieldSpec} (hr : regFind a = some (r, k)) (hf : f ∈ r.fields)
    (hl : ∀ g ∈ r.fields, g.acc = .sl → a ≠ LEDG.LOGSTAT) :
    ∃ u, s.StoredAt a u ∧ f.of (u.getReg a) = f.of (s.getReg a) ∧
      f.of ((s.storeReg c a val).getReg a) = f.of ((u.storeField c a val f).getReg a) := by
  obtain ⟨-, hpair⟩ := regFind_fits hr
  obtain ⟨u, hu, hkeep, hstore⟩ := foldl_fields (s.StoredAt a) (fun t => t.getReg a)
    (fun t f => t.storeField c a val f) (fun _ g ht => ht.storeField c val g)
    (fun _ _ ht hg => State.of_storeField_apart ht.wf c a val hg) hpair hf (b := s) ⟨rfl, fun _ _ => rfl, h⟩
  refine ⟨u, hu, hkeep, ?_⟩
  rw [← hstore]
  unfold State.storeReg
  simp only [hr]
  by_cases hs : hasSl r = true
  · obtain ⟨g, hg, hgs⟩ := List.any_eq_true.mp hs
    have ha := hl g hg (of_decide_eq_true hgs)
    rw [if_pos hs]
    repeat' split
    all_goals first | rfl | exact congrArg f.of (State.getReg_logEvent_ne ha _ _ _)
  · rw [if_neg hs]

/-- SEAL holds no field whose stores wait for the seal. -/
theorem ne_seal_of_sl {a k : Nat} {r : RegSpec} {f : FieldSpec} (hr : regFind a = some (r, k)) (hf : f ∈ r.fields)
    (hs : f.acc = .sl) : a ≠ SACR.SEAL := by
  have hseal : ∀ x ∈ regFind SACR.SEAL, ∀ g ∈ x.1.fields, g.acc ≠ .sl := by decide +kernel
  rintro rfl
  exact hseal (r, k) hr f hf hs

/-- An access by a core that may write the field. -/
abbrev FieldSpec.WrittenBy (f : FieldSpec) (c : CoreId) : Prop := f.choirOnly = false ∨ c = .choir

theorem FieldSpec.WrittenBy.not_kept {f : FieldSpec} {c : CoreId} (h : f.WrittenBy c) :
    ¬(f.choirOnly && decide (c = .nave)) = true := by
  rcases h with h | rfl <;> simp [*]

theorem State.storeField_of_readOnly {c : CoreId} {a : Nat} {val : Word} {f : FieldSpec} (h : f.acc = .ro ∨ f.acc = .rz) :
    s.storeField c a val f = s := by
  unfold State.storeField
  dsimp only
  rcases h with h | h <;> rw [h] <;> exact ite_self s

/-- A W1C field keeps the bits that the write does not clear, or that hardware has set in the present cycle (R6). -/
theorem State.of_storeField_w1c (h : twf regReset s.regs = true) {c : CoreId} {a : Nat} {val : Word} {f : FieldSpec}
    (hfit : f.Fits) (hc : f.WrittenBy c) (hacc : f.acc = .w1c) :
    f.of ((s.storeField c a val f).getReg a) = f.of (s.getReg a &&& ~~~(val &&& ~~~s.setNow a)) := by
  unfold State.storeField
  dsimp only
  rw [if_neg hc.not_kept, hacc]
  dsimp only
  rw [State.getReg_putReg_self h, FieldSpec.of_bitsPut_self hfit]
  exact Nat.mod_eq_of_lt (bitsOf_lt _ _ _)

/-- An SL field keeps its value while the seal is closed or the log is full (R8, R355). -/
theorem State.storeField_sl_refused {c : CoreId} {a : Nat} {val : Word} {f : FieldSpec} (hacc : f.acc = .sl)
    (h : s.slStores = false) : s.storeField c a val f = s := by
  unfold State.storeField
  dsimp only
  rw [hacc]
  dsimp only
  rw [h]
  exact ite_self s

/-- A field whose store takes effect takes the value of R10 and R11, if there is one. -/
theorem State.of_storeField_taken (h : twf regReset s.regs = true) {c : CoreId} {a : Nat} {val : Word} {f : FieldSpec}
    (hfit : f.Fits) (hc : f.WrittenBy c) (hacc : f.acc = .rw ∨ f.acc = .wo ∨ f.acc = .sl ∧ s.slStores = true) :
    f.of ((s.storeField c a val f).getReg a) =
      (storedVal f (f.of val)).elim (f.of (s.getReg a)) (· % 2 ^ (f.hi + 1 - f.lo)) := by
  have htake : s.storeField c a val f = (storedVal f (f.of val)).elim s
      (fun x => s.putReg a (bitsPut (s.getReg a) f.hi f.lo x)) := by
    unfold State.storeField
    dsimp only
    rw [if_neg hc.not_kept]
    rcases hacc with hacc | hacc | ⟨hacc, hs⟩ <;> rw [hacc]
    · cases storedVal f (bitsOf val f.hi f.lo) <;> rfl
    · cases storedVal f (bitsOf val f.hi f.lo) <;> rfl
    · refine (if_pos hs).trans ?_
      cases storedVal f (bitsOf val f.hi f.lo) <;> rfl
  rw [htake]
  cases storedVal f (f.of val) with
  | some x => exact (congrArg f.of (State.getReg_putReg_self h _ _)).trans (FieldSpec.of_bitsPut_self hfit _ _)
  | none => rfl

/-- The value of an unsigned field's range fits the field (R11). -/
theorem clampInt_mod {f : FieldSpec} (hfit : f.Fits) (hacc : f.acc = .rw ∨ f.acc = .wo ∨ f.acc = .sl)
    (hs : f.signed = false) (v : Int) :
    (clampInt f.rangeLo f.rangeHi v).toNat % 2 ^ (f.hi + 1 - f.lo) = (clampInt f.rangeLo f.rangeHi v).toNat := by
  obtain ⟨hlo, hhi⟩ := hfit.2.2 hacc hs
  apply Nat.mod_eq_of_lt
  have hc : clampInt f.rangeLo f.rangeHi v ≤ f.rangeHi := by
    unfold clampInt
    repeat' split
    all_goals omega
  have hp : (0 : Nat) < 2 ^ (f.hi + 1 - f.lo) := Nat.two_pow_pos _
  have hcast : ((2 ^ (f.hi + 1 - f.lo) : Nat) : Int) = 2 ^ (f.hi + 1 - f.lo) := by push_cast; rfl
  omega

/-- A field that stands in two words stands in what the same mask leaves of them. -/
theorem FieldSpec.of_and {f : FieldSpec} (hfit : f.Fits) {v w : Word} (h : f.of v = f.of w) (m : Word) :
    f.of (v &&& m) = f.of (w &&& m) := by
  apply Nat.eq_of_testBit_eq
  intro i
  have hi := congrArg (fun n => n.testBit i) h
  simp only [FieldSpec.of, bitsOf_testBit _ _ _ _ hfit.2.1 hfit.1, BitVec.getLsbD_and] at hi ⊢
  rw [← Bool.and_assoc, hi, Bool.and_assoc]

end Sys2Proof.Machine
end

section
/-! O60: stores and loads by access code, refused accesses, and the faults that they raise (R5 to R11, R38 to R41, R125,
R142). -/
namespace Sys2Proof.Machine

variable {s : State}

/-! ### One field of a store -/

theorem State.of_storeReg_readOnly (h : twf regReset s.regs = true) (c : CoreId) {a k : Nat} (val : Word) {r : RegSpec}
    {f : FieldSpec} (hr : regFind a = some (r, k)) (hf : f ∈ r.fields) (hl : ∀ g ∈ r.fields, g.acc = .sl → a ≠ LEDG.LOGSTAT)
    (hacc : f.acc = .ro ∨ f.acc = .rz) : f.of ((s.storeReg c a val).getReg a) = f.of (s.getReg a) := by
  obtain ⟨u, -, hkeep, hstore⟩ := State.of_storeReg h c val hr hf hl
  rw [hstore, State.storeField_of_readOnly hacc, hkeep]

theorem State.of_storeReg_w1c (h : twf regReset s.regs = true) {c : CoreId} {a k : Nat} (val : Word) {r : RegSpec}
    {f : FieldSpec} (hr : regFind a = some (r, k)) (hf : f ∈ r.fields) (hl : ∀ g ∈ r.fields, g.acc = .sl → a ≠ LEDG.LOGSTAT)
    (hc : f.WrittenBy c) (hacc : f.acc = .w1c) :
    f.of ((s.storeReg c a val).getReg a) = f.of (s.getReg a &&& ~~~(val &&& ~~~s.setNow a)) := by
  have hfit := (regFind_fits hr).1 f hf
  obtain ⟨u, hu, hkeep, hstore⟩ := State.of_storeReg h c val hr hf hl
  rw [hstore, State.of_storeField_w1c hu.wf hfit hc hacc, hu.setNow_eq, FieldSpec.of_and hfit hkeep]

/-- Whether SL stores take effect does not change during a store to a register that holds an SL field. -/
theorem State.StoredAt.slStores_eq {a k : Nat} {u : State} (hu : s.StoredAt a u) {r : RegSpec} {f : FieldSpec}
    (hr : regFind a = some (r, k)) (hf : f ∈ r.fields) (hs : f.acc = .sl) : u.slStores = s.slStores := by
  unfold State.slStores
  rw [hu.sealOpen_eq (ne_seal_of_sl hr hf hs), hu.logFull_eq]

theorem State.of_storeReg_slRefused (h : twf regReset s.regs = true) (c : CoreId) {a k : Nat} (val : Word) {r : RegSpec}
    {f : FieldSpec} (hr : regFind a = some (r, k)) (hf : f ∈ r.fields) (hl : ∀ g ∈ r.fields, g.acc = .sl → a ≠ LEDG.LOGSTAT)
    (hacc : f.acc = .sl) (hs : s.slStores = false) : f.of ((s.storeReg c a val).getReg a) = f.of (s.getReg a) := by
  obtain ⟨u, hu, hkeep, hstore⟩ := State.of_storeReg h c val hr hf hl
  rw [hstore, State.storeField_sl_refused hacc ((hu.slStores_eq hr hf hacc).trans hs), hkeep]

theorem State.of_storeReg_taken (h : twf regReset s.regs = true) {c : CoreId} {a k : Nat} (val : Word) {r : RegSpec}
    {f : FieldSpec} (hr : regFind a = some (r, k)) (hf : f ∈ r.fields) (hl : ∀ g ∈ r.fields, g.acc = .sl → a ≠ LEDG.LOGSTAT)
    (hc : f.WrittenBy c) (hacc : f.acc = .rw ∨ f.acc = .wo ∨ f.acc = .sl ∧ s.slStores = true) :
    f.of ((s.storeReg c a val).getReg a) =
      (storedVal f (f.of val)).elim (f.of (s.getReg a)) (· % 2 ^ (f.hi + 1 - f.lo)) := by
  obtain ⟨u, hu, hkeep, hstore⟩ := State.of_storeReg h c val hr hf hl
  have hu' : f.acc = .rw ∨ f.acc = .wo ∨ f.acc = .sl ∧ u.slStores = true := by
    rcases hacc with h | h | ⟨h, hs⟩
    · exact .inl h
    · exact .inr (.inl h)
    · exact .inr (.inr ⟨h, (hu.slStores_eq hr hf h).trans hs⟩)
  rw [hstore, State.of_storeField_taken hu.wf ((regFind_fits hr).1 f hf) hc hu', hkeep]

/-! ### Accesses from 0x40000000 on -/

theorem not_ownMemory {c : CoreId} {a : Nat} (h : 0x40000000 ≤ a) : inFlash c a = false ∧ inSram c a = false := by
  cases c <;> exact ⟨decide_eq_false (by simp only [flashSize]; omega), decide_eq_false (by simp only [sramBase, sramSize]; omega)⟩

theorem State.flashStall_of_register (c : CoreId) {a : Nat} (h : 0x40000000 ≤ a) : s.flashStall c a = false := by
  unfold State.flashStall
  rw [(not_ownMemory h).1, Bool.and_false, Bool.false_and]

/-- A word store above own memory that the bus refuses is recorded (R38). -/
theorem State.commandStore_of_bus {c : CoreId} {addr : Word} (val : Word) {t : State} {cause : Nat}
    (hd : s.domOn (coreDomain c) = true) (ha : addr.toNat % 4 = 0) (hm : 0x40000000 ≤ addr.toNat)
    (hb : s.busStoreWith c addr.toNat val [] = (t, some cause)) :
    s.commandStore c addr val = t.refuseAccess c addr cause 1 := by
  unfold State.commandStore State.commandStoreWith
  simp [hd, ha, (not_ownMemory hm).2, hb]

/-- The same for a word load. -/
theorem State.commandLoad_of_bus {c : CoreId} {addr : Word} {t : State} {cause : Nat}
    (hd : s.domOn (coreDomain c) = true) (ha : addr.toNat % 4 = 0) (hm : 0x40000000 ≤ addr.toNat)
    (hb : s.busLoad c addr.toNat = (t, .error cause)) : s.commandLoad c addr = t.refuseAccess c addr cause 0 := by
  unfold State.commandLoad
  simp [hd, ha, not_ownMemory hm, State.flashStall_of_register c hm, hb]

/-- A store that the reach refuses is recorded with the reach's cause (R38, R40). -/
theorem State.commandStore_refused {c : CoreId} {addr : Word} (val : Word) {cause : Nat} (hd : s.domOn (coreDomain c) = true)
    (ha : addr.toNat % 4 = 0) (hm : 0x40000000 ≤ addr.toNat) (hr : s.reach c addr.toNat true = some cause) :
    s.commandStore c addr val = s.refuseAccess c addr cause 1 :=
  State.commandStore_of_bus (t := s) val hd ha hm (by simp only [State.busStoreWith, hr])

theorem State.commandLoad_refused {c : CoreId} {addr : Word} {cause : Nat} (hd : s.domOn (coreDomain c) = true)
    (ha : addr.toNat % 4 = 0) (hm : 0x40000000 ≤ addr.toNat) (hr : s.reach c addr.toNat false = some cause) :
    s.commandLoad c addr = s.refuseAccess c addr cause 0 :=
  State.commandLoad_of_bus (t := s) hd ha hm (by simp only [State.busLoad, hr])

/-- A store to an island that never answers is refused TIMEOUT (R39). -/
theorem State.commandStore_silent {c : CoreId} {addr : Word} (val : Word) {g : Region} (hd : s.domOn (coreDomain c) = true)
    (ha : addr.toNat % 4 = 0) (hm : 0x40000000 ≤ addr.toNat) (hr : s.reach c addr.toNat true = none)
    (hs : s.silentAt addr.toNat = true) (hg : regionOf addr.toNat = some g) :
    s.commandStore c addr val = s.refuseAccess c addr causeTimeout 1 :=
  State.commandStore_of_bus (t := s) val hd ha hm (by simp only [State.busStoreWith, hr, hg, hs, if_true])

/-- A load that nothing refuses replies, unless its island never answers (R39). -/
theorem State.commandLoad_reached {c : CoreId} {addr w : Word} {g : Region} {t : State} (hd : s.domOn (coreDomain c) = true)
    (ha : addr.toNat % 4 = 0) (hm : 0x40000000 ≤ addr.toNat) (hr : s.reach c addr.toNat false = none)
    (hg : regionOf addr.toNat = some g) (hl : s.loadAt c addr.toNat g = (t, .ok w)) :
    s.commandLoad c addr = if s.silentAt addr.toNat then s.refuseAccess c addr causeTimeout 0 else { t with reply := w } := by
  have hb : s.busLoad c addr.toNat = if s.silentAt addr.toNat then (s, .error causeTimeout) else (t, .ok w) := by
    simp only [State.busLoad, hr, hg, hl]
  split
  · next hs => exact State.commandLoad_of_bus hd ha hm (hb.trans (if_pos hs))
  · next hs =>
    rw [if_neg hs] at hb
    unfold State.commandLoad
    simp [hd, ha, not_ownMemory hm, State.flashStall_of_register c hm, hb]

/-! ### Faults -/

theorem fhOf_eq (psr : Word) : fhOf psr = psr.getLsbD 0 := by
  unfold fhOf
  rw [bitsOf_bit _ _ (by decide)]
  cases psr.getLsbD 0 <;> rfl

/-- Outside a handler a fault enters the core's (R139). -/
theorem State.fault_outside {c : CoreId} (h : s.outsideHandler c = true) (cause : Nat) (addr : Word) :
    s.fault c cause addr = s.setCore c ((s.core c).enterFault cause addr) := by
  unfold State.outsideHandler at h
  exact if_neg (by rw [fhOf_eq]; simpa using h)

/-- A misaligned access raises ALIGN and makes no access (R125). -/
theorem State.access_misaligned {c : CoreId} {addr : Word} (val : Word) (hd : s.domOn (coreDomain c) = true)
    (ha : addr.toNat % 4 ≠ 0) (he : s.executes c = true) (ho : s.outsideHandler c = true) :
    s.commandStore c addr val = s.setCore c ((s.core c).enterFault faultAlign addr) ∧
      s.commandLoad c addr = s.setCore c ((s.core c).enterFault faultAlign addr) := by
  unfold State.commandStore State.commandStoreWith State.commandLoad State.accessFault
  simp [hd, ha, he, State.fault_outside ho]

/-- A log that is not full, in a ledger that is not OFF, takes an entry, and nothing else changes (R354). -/
theorem State.logEvent_eq (hl : s.logFull = false) (hd : s.dom .choir ≠ 0) (kind : Nat) (x y : Word) :
    s.logEvent kind x y = { s with log := logPush s.log ⟨s.timeSec, kind, 0, x, y⟩ } := by
  unfold State.logEvent State.ledgerWrite
  simp [hl, hd]

theorem State.logEvent_if_eq (hl : s.logFull = false) (hd : s.dom .choir ≠ 0) {c : Prop} [Decidable c] (kind : Nat) (x y : Word) :
    (if c then s.logEvent kind x y else s) =
      { s with log := if c then logPush s.log ⟨s.timeSec, kind, 0, x, y⟩ else s.log } := by
  split
  · exact State.logEvent_eq hl hd kind x y
  · rfl

theorem State.announce_core (u : Nat) (c : CoreId) : (s.announce u).core c = s.core c := by
  unfold State.announce State.setEpoch State.send
  cases c <;> dsimp only <;> split <;> rfl

/-- A core reset leaves the core as R466 gives it. -/
theorem State.coreReset_core (c : CoreId) (cause : Nat) : (s.coreReset c cause).core c = (s.core c).afterReset c := by
  unfold State.coreReset State.clearWdog
  dsimp only
  rw [State.setFld_core, State.setFlag_core, State.onCrypt_core, State.setFlag_core]
  split
  · exact State.core_setCore_self _ _ _
  · rw [State.announce_core, State.core_setCore_self]

/-! ### The record of a refused access (R38, R41, R43) -/

/-- The registers of a refused access, before its log entry. -/
def State.refusalNoted (s : State) (c : CoreId) (addr : Word) (cause kind : Nat) : State :=
  (((((s.putReg (SYS.REFADDR (coreNum c)) addr).tally32 (SYS.REFINFO_COUNT (coreNum c)) 1).setFld
    (SYS.REFINFO_CAUSE (coreNum c)) cause).setFlag (SYS.REFINFO_WRITE (coreNum c)) (bitAt kind 0)).setFlag
    (SYS.REFINFO_FETCH (coreNum c)) (bitAt kind 1))

theorem State.tally32_log (f : Fld) (k : Nat) : (s.tally32 f k).log = s.log := rfl

theorem State.tally32_core (f : Fld) (k : Nat) (c : CoreId) : (s.tally32 f k).core c = s.core c := by cases c <;> rfl

theorem State.refusalNoted_log (c : CoreId) (addr : Word) (cause kind : Nat) :
    (s.refusalNoted c addr cause kind).log = s.log := by
  unfold State.refusalNoted
  rw [State.setFlag_log, State.setFlag_log, State.setFld_log, State.tally32_log, State.putReg_log]

theorem State.refusalNoted_core (c d : CoreId) (addr : Word) (cause kind : Nat) :
    (s.refusalNoted c addr cause kind).core d = s.core d := by
  unfold State.refusalNoted
  rw [State.setFlag_core, State.setFlag_core, State.setFld_core, State.tally32_core, State.putReg_core]

theorem State.getReg_setFld_ne {f : Fld} {b : Nat} (v : Nat) (h : b ≠ f.addr) : (s.setFld f v).getReg b = s.getReg b :=
  s.getReg_putReg_ne _ h

theorem State.getReg_setFlag_ne {f : Fld} {b : Nat} (v : Bool) (h : b ≠ f.addr) : (s.setFlag f v).getReg b = s.getReg b :=
  s.getReg_putReg_ne _ h

theorem State.getReg_refusalNoted (c : CoreId) (addr : Word) (cause kind : Nat) {b : Nat} (h1 : b ≠ SYS.REFADDR (coreNum c))
    (h2 : b ≠ SYS.REFINFO (coreNum c)) : (s.refusalNoted c addr cause kind).getReg b = s.getReg b := by
  unfold State.refusalNoted
  rw [State.getReg_setFlag_ne (f := SYS.REFINFO_FETCH _) _ h2, State.getReg_setFlag_ne (f := SYS.REFINFO_WRITE _) _ h2,
    State.getReg_setFld_ne (f := SYS.REFINFO_CAUSE _) _ h2]
  exact State.getReg_putReg_ne _ _ h1

theorem domField_ne_refusal (d : Domain) (c : CoreId) :
    (domField d).addr ≠ SYS.REFADDR (coreNum c) ∧ (domField d).addr ≠ SYS.REFINFO (coreNum c) := by
  cases d <;> cases c <;> decide

theorem State.dom_refusalNoted (c : CoreId) (addr : Word) (cause kind : Nat) (d : Domain) :
    (s.refusalNoted c addr cause kind).dom d = s.dom d := by
  unfold State.dom State.fld
  rw [State.getReg_refusalNoted c addr cause kind (domField_ne_refusal d c).1 (domField_ne_refusal d c).2]

theorem State.timeSec_refusalNoted (c : CoreId) (addr : Word) (cause kind : Nat) :
    (s.refusalNoted c addr cause kind).timeSec = s.timeSec :=
  State.getReg_refusalNoted c addr cause kind (by cases c <;> decide) (by cases c <;> decide)

/-- REFADDR takes the address, REFINFO the cause and the kind of the access. -/
theorem State.refusalNoted_fields (h : twf regReset s.regs = true) (c : CoreId) (addr : Word) {cause : Nat} (kind : Nat)
    (hc : cause < 16) :
    let t := s.refusalNoted c addr cause kind
    t.getReg (SYS.REFADDR (coreNum c)) = addr ∧ t.fld (SYS.REFINFO_CAUSE (coreNum c)) = cause ∧
      t.flag (SYS.REFINFO_WRITE (coreNum c)) = bitAt kind 0 ∧ t.flag (SYS.REFINFO_FETCH (coreNum c)) = bitAt kind 1 := by
  have hne : SYS.REFADDR (coreNum c) ≠ SYS.REFINFO (coreNum c) := by cases c <;> decide
  have h1 : twf regReset ((s.putReg (SYS.REFADDR (coreNum c)) addr).tally32 (SYS.REFINFO_COUNT (coreNum c)) 1).regs = true :=
    twf_tput h _ _
  have h2 := State.twf_setFld h1 (SYS.REFINFO_CAUSE (coreNum c)) cause
  have h3 := State.twf_setFlag h2 (SYS.REFINFO_WRITE (coreNum c)) (bitAt kind 0)
  dsimp only [State.refusalNoted]
  refine ⟨?addr, ?cause, ?write, State.flag_setFlag_self h3 _ _ (by cases c <;> decide) (by cases c <;> decide)⟩
  case addr =>
    rw [State.getReg_setFlag_ne (f := SYS.REFINFO_FETCH _) _ hne, State.getReg_setFlag_ne (f := SYS.REFINFO_WRITE _) _ hne,
      State.getReg_setFld_ne (f := SYS.REFINFO_CAUSE _) _ hne]
    exact State.getReg_putReg_self h _ _
  case cause =>
    unfold State.setFlag at h3 ⊢
    rw [State.fld_setFld_apart h3 _ (by cases c <;> decide), State.fld_setFld_apart h2 _ (by cases c <;> decide),
      State.fld_setFld_self h1 _ _ (by cases c <;> decide) (by cases c <;> decide)]
    exact Nat.mod_eq_of_lt hc
  case write =>
    rw [State.flag_setFlag_apart h3 _ (by cases c <;> decide),
      State.flag_setFlag_self h2 _ _ (by cases c <;> decide) (by cases c <;> decide)]

/-- A refused access changes its two registers, and the log where it is a SCREEN refusal of the nave core. -/
theorem State.recordRefusal_eq (hl : s.logFull = false) (hd : s.dom .choir ≠ 0) (c : CoreId) (addr : Word) (cause kind : Nat) :
    s.recordRefusal c addr cause kind = { s.refusalNoted c addr cause kind with
      log := if c = .nave ∧ cause = causeScreen then
        logPush s.log ⟨s.timeSec, logScreenViol, 0, addr, BitVec.ofNat 32 kind⟩ else s.log } := by
  have hn : s.recordRefusal c addr cause kind = if c = .nave ∧ cause = causeScreen then
      (s.refusalNoted c addr cause kind).logEvent logScreenViol addr (BitVec.ofNat 32 kind)
      else s.refusalNoted c addr cause kind := by
    unfold State.recordRefusal State.refusalNoted
    rfl
  have hd' : (s.refusalNoted c addr cause kind).dom .choir ≠ 0 := by rwa [State.dom_refusalNoted]
  have hl' : (s.refusalNoted c addr cause kind).logFull = false := by
    unfold State.logFull
    rw [State.refusalNoted_log]
    exact hl
  rw [hn, State.logEvent_if_eq hl' hd', State.timeSec_refusalNoted, State.refusalNoted_log]

theorem State.core_withLog (l : List LogEntry) (c : CoreId) : ({ s with log := l } : State).core c = s.core c := by
  cases c <;> rfl

theorem State.setCore_core_self (c : CoreId) : s.setCore c (s.core c) = s := by cases c <;> rfl

/-- Outside a handler a refused access is recorded, and a core that executes takes the fault REFUSED (R38). -/
theorem State.refuseAccess_outside (hl : s.logFull = false) (hd : s.dom .choir ≠ 0) {c : CoreId}
    (ho : s.outsideHandler c = true) (addr : Word) (cause kind : Nat) :
    s.refuseAccess c addr cause kind = (s.recordRefusal c addr cause kind).setCore c
      (if s.executes c then (s.core c).enterFault faultRefused addr else s.core c) := by
  have hk : (s.recordRefusal c addr cause kind).core c = s.core c := by
    rw [State.recordRefusal_eq hl hd, State.core_withLog, State.refusalNoted_core]
  unfold State.refuseAccess
  dsimp only
  split
  · rw [State.fault_outside (by unfold State.outsideHandler at ho ⊢; rwa [hk]), hk]
  · rw [← hk, State.setCore_core_self]

/-- What a refused access changes, outside a handler. -/
theorem State.refuseAccess_record (h : twf regReset s.regs = true) (hl : s.logFull = false) (hd : s.dom .choir ≠ 0)
    {c : CoreId} (ho : s.outsideHandler c = true) (addr : Word) {cause : Nat} (hc : cause < 16) (write : Bool) :
    let i := coreNum c
    let t := s.refuseAccess c addr cause (natOfBool write)
    (t.log = (if c = .nave ∧ cause = causeScreen then
      logPush s.log ⟨s.timeSec, logScreenViol, 0, addr, BitVec.ofNat 32 (natOfBool write)⟩ else s.log)) ∧
    t.getReg (SYS.REFADDR i) = addr ∧ t.fld (SYS.REFINFO_CAUSE i) = cause ∧ t.flag (SYS.REFINFO_WRITE i) = write ∧
      t.flag (SYS.REFINFO_FETCH i) = false ∧
      (∀ b, b ≠ SYS.REFADDR i → b ≠ SYS.REFINFO i → t.getReg b = s.getReg b) ∧
      t.period = (s.tally32 (SYS.REFINFO_COUNT i) 1).period ∧
      t.core c = (if s.executes c then (s.core c).enterFault 3 addr else s.core c) := by
  intro i t
  have ht := State.refuseAccess_outside hl hd ho addr cause (natOfBool write)
  have hreg : ∀ b, t.getReg b = (s.refusalNoted c addr cause (natOfBool write)).getReg b := fun b => by
    unfold State.getReg
    rw [show t = _ from ht, State.setCore_regs, State.recordRefusal_eq hl hd]
  obtain ⟨haddr, hcause, hwrite, hfetch⟩ := State.refusalNoted_fields h c addr (natOfBool write) hc
  have hw : bitAt (natOfBool write) 0 = write ∧ bitAt (natOfBool write) 1 = false := by cases write <;> decide
  refine ⟨?hlog, (hreg _).trans haddr, ?hcause, ?hwrite, ?hfetch, fun b h1 h2 => ?hother, ?hperiod, ?hcore⟩
  case hlog => rw [show t = _ from ht, State.setCore_log, State.recordRefusal_eq hl hd]
  case hcause => rw [← hcause]; exact congrArg (fun w => bitsOf w 3 0) (hreg _)
  case hwrite => rw [← hw.1, ← hwrite]; exact congrArg (fun w => bitsOf w 4 4 == 1) (hreg _)
  case hfetch => rw [← hw.2, ← hfetch]; exact congrArg (fun w => bitsOf w 5 5 == 1) (hreg _)
  case hother => exact (hreg b).trans (State.getReg_refusalNoted c addr cause _ h1 h2)
  case hperiod =>
    rw [show t = _ from ht, State.setCore_period, State.recordRefusal_eq hl hd]
    rfl
  case hcore => rw [show t = _ from ht, State.core_setCore_self]; rfl

/-! ### Counts and bits raised in the present period (R6, R7, R26) -/

/-- A count raised in a period shows after it (R7, R26). -/
theorem State.tally32_refinfo (h : twf regReset s.regs = true) (hp : s.period = Period.empty) (c : CoreId) :
    let f := SYS.REFINFO_COUNT (coreNum c)
    (s.tally32 f 1).fld f = s.fld f ∧
      (s.tally32 f 1).endPeriod.fld f = satAdd (2 ^ (f.hi + 1 - f.lo) - 1) (s.fld f) 1 := by
  intro f
  refine ⟨rfl, ?_⟩
  have hcounts : (s.tally32 f 1).period.counts = [(f.addr, 0x01000000)] := by
    have hw : bitsPut 0 f.hi f.lo (satAdd (2 ^ (f.hi + 1 - f.lo) - 1) (bitsOf 0 f.hi f.lo) 1) = 0x01000000 := by
      show bitsPut 0 31 24 (satAdd 255 (bitsOf 0 31 24) 1) = 0x01000000
      decide
    unfold State.tally32
    rw [hp]
    dsimp only [Period.empty, tget]
    rw [hw]
    rfl
  have hjoin : (s.tally32 f 1).joinCounts = (s.tally32 f 1).bump f 1 := by
    have hrz : (regFind f.addr).map (fun x => x.1.fields.filter (fun f => decide (f.acc = .rz))) =
        some [⟨31, 24, .rz, 0, 0, 255, false, [], false⟩] := by cases c <;> decide +kernel
    obtain ⟨⟨r, k⟩, hr, hfields⟩ := Option.map_eq_some_iff.mp hrz
    have hone : bitsOf 0x01000000 31 24 = 1 := by decide
    unfold State.joinCounts
    simp only [hcounts, List.foldl_cons, List.foldl_nil, hr, hfields, hone]
    rfl
  have hsat : satAdd (2 ^ (f.hi + 1 - f.lo) - 1) (s.fld f) 1 < 2 ^ (f.hi + 1 - f.lo) := by
    show satAdd (2 ^ 8 - 1) _ 1 < 2 ^ 8
    unfold satAdd
    split <;> omega
  show (s.tally32 f 1).joinCounts.fld f = _
  rw [hjoin]
  exact (State.fld_setFld_self (s := s.tally32 f 1) h f _ (by cases c <;> decide)
    (by cases c <;> decide)).trans (Nat.mod_eq_of_lt hsat)

/-- A W1C bit that hardware raises is marked for the period, whatever the mark held (R6). -/
theorem State.setNow_raiseBit (f : Fld) (hf : f.hi < 32) (hl : f.lo ≤ f.hi) :
    (s.raiseBit f).setNow f.addr = bitsPut (s.setNow f.addr) f.hi f.lo 1 := by
  refine tget_tput_of_ne_default _ _ fun h0 => ?_
  have h1 := congrArg (fun w => bitsOf w f.hi f.lo) h0
  have hw : 2 ≤ 2 ^ (f.hi + 1 - f.lo) := Nat.le_self_pow (by omega) 2
  simp only [bitsOf_bitsPut _ _ hf hl, Nat.mod_eq_of_lt (show 1 < 2 ^ (f.hi + 1 - f.lo) by omega)] at h1
  simp [bitsOf] at h1

/-! ### The first cause that applies (R40) -/

theorem State.reach_of_region {c : CoreId} {a : Nat} (write : Bool) (hf : inFlash c a = false) (hs : inSram c a = false) :
    (regionOf a = none → s.reach c a write = some causeUnmapped) ∧
    (∀ g, regionOf a = some g → screened c a write g = true → s.reach c a write = some causeScreen) ∧
    (∀ g b, regionOf a = some g → screened c a write g = false → regionBank g = some b → s.bankCore b ≠ some c →
      leaseExempt c a write g = false → s.reach c a write = some causeLease) ∧
    (∀ g isle, regionOf a = some g → screened c a write g = false → regionBank g = none → regionIsland a g = some isle →
      s.dark c isle = true → s.reach c a write = some causeDark) := by
  unfold State.reach
  refine ⟨fun hg => ?_, fun g hg hsc => ?_, fun g b hg hsc hb hc he => ?_, fun g isle hg hsc hb hi hd => ?_⟩
  · simp [hf, hs, hg]
  · simp [hf, hs, hg, hsc]
  · simp [hf, hs, hg, hsc, hb, hc, he]
  · simp [hf, hs, hg, hsc, hb, hi, hd]

/-! ### The statements put together -/

/-- Whether SL stores take effect: the seal is open and the log is not full (R8, R355). -/
theorem State.slStores_eq_false (h : s.sealOpen = false ∨ s.logFull = true) : s.slStores = false := by
  unfold State.slStores
  rcases h with h | h <;> simp [h]

/-- A field that takes stores: a reserved code leaves it (R10), another value is held to its range (R11). -/
theorem State.of_storeReg_value (h : twf regReset s.regs = true) {c : CoreId} {a k : Nat} (val : Word) {r : RegSpec}
    {f : FieldSpec} (hr : regFind a = some (r, k)) (hf : f ∈ r.fields) (hl : ∀ g ∈ r.fields, g.acc = .sl → a ≠ LEDG.LOGSTAT)
    (hc : f.WrittenBy c) (hacc : f.acc = .rw ∨ f.acc = .wo ∨ f.acc = .sl ∧ s.sealOpen = true ∧ s.logFull = false) :
    let v := f.of val
    let now := f.of ((s.storeReg c a val).getReg a)
    (f.reserved.elem v = true → now = f.of (s.getReg a)) ∧
    (f.reserved.elem v = false → f.signed = false → now = (clampInt f.rangeLo f.rangeHi v).toNat) ∧
    (f.reserved.elem v = false → f.signed = true →
      now = codeOf (f.hi + 1 - f.lo) (clampInt f.rangeLo f.rangeHi (signedOf (f.hi + 1 - f.lo) v)) % 2 ^ (f.hi + 1 - f.lo)) := by
  intro v now
  have hacc' : f.acc = .rw ∨ f.acc = .wo ∨ f.acc = .sl ∧ s.slStores = true :=
    hacc.imp_right (Or.imp_right fun ⟨h1, h2, h3⟩ => ⟨h1, by simp [State.slStores, h2, h3]⟩)
  have htaken : now = (storedVal f v).elim (f.of (s.getReg a)) (· % 2 ^ (f.hi + 1 - f.lo)) :=
    State.of_storeReg_taken h val hr hf hl hc hacc'
  rw [htaken]
  refine ⟨fun hv => ?_, fun hv hs => ?_, fun hv hs => ?_⟩
  · simp only [storedVal, hv, if_true, Option.elim]
  · simp only [storedVal, hv, hs, Bool.false_eq_true, if_false, Option.elim]
    exact clampInt_mod ((regFind_fits hr).1 f hf) (hacc.imp_right (Or.imp_right And.left)) hs v
  · simp only [storedVal, hv, hs, Bool.false_eq_true, if_false, if_true, Option.elim]

/-- An access that the reach refuses, as the commands make it: some state follows, and outside a handler it is the record. -/
theorem State.refused_record {c : CoreId} {addr : Word} (val : Word) {cause : Nat} {write : Bool}
    (hd : s.domOn (coreDomain c) = true) (ha : addr.toNat % 4 = 0) (hm : 0x40000000 ≤ addr.toNat)
    (hr : s.reach c addr.toNat write = some cause) :
    (if write then exec (.registerWrite c addr val) s else exec (.rzRead c addr) s) =
      .next (s.refuseAccess c addr cause (natOfBool write)) := by
  cases write with
  | true => exact congrArg Host.Outcome.next (State.commandStore_refused val hd ha hm hr)
  | false => exact congrArg Host.Outcome.next (State.commandLoad_refused hd ha hm hr)

/-- A fault inside a handler is logged and resets the core (R142). -/
theorem State.fault_inside {c : CoreId} (hf : fhOf (s.core c).psr = true) (hl : s.logFull = false) (hd : s.dom .choir ≠ 0)
    (cause : Nat) (addr : Word) :
    let u := s.logEvent logDoubleFault (BitVec.ofNat 32 (coreNum c + 256 * cause)) (s.core c).pc
    s.fault c cause addr = u.coreReset c 1 ∧ (u.coreReset c 1).core c = (s.core c).afterReset c := by
  intro u
  refine ⟨if_pos hf, ?_⟩
  rw [State.coreReset_core, show u = _ from State.logEvent_eq hl hd _ _ _, State.core_withLog]

end Sys2Proof.Machine
end

open Sys2Proof Sys2Proof.Machine in
/-- Settles O60, from the laws of one field, of the bus, of a refused access's record and of the faults. -/
theorem registersFollowTheirAccessCodes : Obligations.RegistersFollowTheirAccessCodes := by
  unfold Obligations.RegistersFollowTheirAccessCodes
  intro s c addr val h a i old new
  refine ⟨?fields, ?reserved, ?store, ?load, ?silent, ?count, ?raised, ?contend, ?misaligned, ?refused, ?reach, ?double⟩
  case fields =>
    intro r k f hr hf hc hl v now size
    exact ⟨State.of_storeReg_readOnly h.regs c val hr hf hl, State.of_storeReg_w1c h.regs val hr hf hl hc,
      fun hacc hs => State.of_storeReg_slRefused h.regs c val hr hf hl hacc (State.slStores_eq_false hs),
      State.of_storeReg_value h.regs val hr hf hl hc, State.of_loadReg hr hf, State.of_loadReg_after h.regs hr hf⟩
  case reserved => exact fun r k j hr hj => State.loadReg_reserved hr hj
  case store =>
    intro g hd ha hm hr hs hg
    refine ⟨congrArg _ (State.commandStore_eq_storeAt val hd ha (not_ownMemory hm).2 hr hs hg), ?_⟩
    rintro (rfl | rfl) <;> rfl
  case load => exact fun g t w hd ha hm hr hg hl => congrArg _ (State.commandLoad_reached hd ha hm hr hg hl)
  case silent => exact fun g hd ha hm hr hs hg => congrArg _ (State.commandStore_silent val hd ha hm hr hs hg)
  case count => exact fun hp => State.tally32_refinfo h.regs hp c
  case raised =>
    refine fun f hf => ⟨rfl, State.setNow_raiseBit f ?_ ?_⟩ <;>
      (simp only [List.mem_cons, List.not_mem_nil, or_false] at hf; rcases hf with rfl | rfl | rfl <;> decide)
  case contend => exact ⟨rfl, rfl⟩
  case misaligned =>
    intro hd ha he ho
    obtain ⟨hstore, hload⟩ := State.access_misaligned val hd ha he ho
    exact ⟨congrArg _ hstore, congrArg _ hload⟩
  case refused =>
    intro cause write hd ha hm hc hr hl hch
    refine ⟨_, State.refused_record val hd ha hm hr, fun ho => ?_, fun ho => ?_⟩
    · exact (State.refuseAccess_record h.regs hl hch ho addr hc write).1
    · exact (State.refuseAccess_record h.regs hl hch ho addr hc write).2
  case reach => exact fun write hf hs => State.reach_of_region write hf hs
  case double => exact fun cause hf hl hd => State.fault_inside hf hl hd cause addr

section
/-! Laws of the device instructions: the issue around any effect, the end after a bounded wait, and what stands while a
request is checked. -/
namespace Sys2Proof.Machine

variable {s : State}

/-! ### Issue and end -/

/-- An instruction that is ready: its body acts on the issued state, and a single step ends after it. -/
theorem State.issue_of_ready {i : Issue} (h : s.ready i = true) (srcs : List Reg) (body : State → State) :
    s.issue i srcs body = (body (s.issued i.core srcs)).endStep i.core := by
  unfold State.ready State.fetches at h
  simp only [Bool.and_eq_true, Bool.not_eq_true'] at h
  obtain ⟨⟨⟨⟨hexec, hown⟩, hstall⟩, hdouble⟩, hzero⟩ := h
  have hfetch : fetchCause i.core (s.core i.core).pc.toNat = none := if_pos hown
  have hissued : (s.setCore i.core ((s.core i.core).fetched srcs)).activity (coreNum i.core) = s.issued i.core srcs :=
    State.setCore_activity s _ _ _
  unfold State.issue State.runOne
  simp only [hexec, hstall, hfetch, hdouble, hzero, Bool.not_false, Bool.and_self, Bool.false_eq_true, if_true, if_false]
  exact congrArg (fun t => (body t).endStep i.core) hissued

theorem State.core_issued (c : CoreId) (srcs : List Reg) : (s.issued c srcs).core c = (s.core c).fetched srcs :=
  State.core_setCore_self _ c _

theorem Core.reg_fetched (k : Core) (srcs : List Reg) (r : Reg) : (k.fetched srcs).reg r = k.reg r := by
  unfold Core.fetched
  split <;> rfl

/-- The registers that an instruction reads do not change what they hold. -/
theorem State.reg_issued (c : CoreId) (srcs : List Reg) (r : Reg) : (s.issued c srcs).reg c r = (s.core c).reg r := by
  unfold State.reg
  rw [State.core_issued, Core.reg_fetched]

theorem State.endStep_eq (c : CoreId) : s.endStep c = s.setCore c (s.core c).stepped := by
  unfold State.endStep Core.stepped
  split
  · rfl
  · exact (State.setCore_core_self c).symm

theorem Core.setReg_cycle (k : Core) (r : Reg) (v x : Word) :
    Core.setReg { k with cycle := x } r v = { k.setReg r v with cycle := x } := by
  unfold Core.setReg
  split <;> rfl

theorem Core.cycle_setReg (k : Core) (r : Reg) (v : Word) : (k.setReg r v).cycle = k.cycle := by
  unfold Core.setReg
  split <;> rfl

/-- A result in rd, after a wait of some cycles and the end of a single step. -/
theorem State.endStep_waitFor (c : CoreId) (rd : Reg) (v : Word) (least most : Nat) :
    (((s.waitFor c least most).setReg c rd v).retire c 0).endStep c = s.spend.setCore c
      (((s.core c).setReg rd v).goesOn (least + (Config.waitCycles s.free).toNat % (most + 1 - least))) := by
  rw [State.endStep_eq]
  unfold State.waitFor State.retire State.setReg State.onCore Core.goesOn State.spend
  simp only [State.core_setCore_self, State.setCore_setCore]
  cases c <;> simp [State.core, State.setCore, Core.setReg_cycle, Core.cycle_setReg]

/-- A wait between its bounds is no longer than the upper one. -/
theorem wait_le {least most : Nat} (x : Nat) (h : least ≤ most) : least + x % (most + 1 - least) ≤ most := by
  have := Nat.mod_lt x (show 0 < most + 1 - least by omega)
  omega

/-- A device instruction ends with its result in rd after a wait between its bounds (R145, R169). -/
theorem State.answers_deviceDone (c : CoreId) (rd : Reg) (v : Word) {most : Nat} (h : 50 ≤ most) :
    Answers s ((s.deviceDone c rd v most).endStep c) c rd v most := by
  cases c
  case choir => exact ⟨_, Nat.le_add_right _ _, wait_le _ (by simp only [cyclesOf]; omega), s.endStep_waitFor .choir rd v 2 _⟩
  case nave => exact ⟨_, Nat.le_add_right _ _, wait_le _ (by simp only [cyclesOf]; omega), s.endStep_waitFor .nave rd v 3 _⟩

/-- What exec answers for a ready instruction whose body ends in u. -/
theorem State.next_issue {i : Issue} (h : s.ready i = true) {srcs : List Reg} {body : State → State} {u : State}
    (hb : body (s.issued i.core srcs) = u) :
    (.next (s.issue i srcs body) : Out) = .next (u.endStep i.core) := by
  rw [State.issue_of_ready h, hb]

/-- A body that ends after the wait of a device instruction answers in rd. -/
theorem State.next_answers {i : Issue} (h : s.ready i = true) {srcs : List Reg} {body : State → State} {m : State}
    {rd : Reg} {v : Word} {most : Nat} (hb : body (s.issued i.core srcs) = m.deviceDone i.core rd v most) (hm : 50 ≤ most) :
    ∃ t, (.next (s.issue i srcs body) : Out) = .next t ∧ Answers m t i.core rd v most :=
  ⟨_, State.next_issue h hb, State.answers_deviceDone _ _ _ hm⟩

/-! ### Refusals and faults before a request -/

theorem State.choirOnly_choir (op : Nat) (body : State → State) {c : CoreId} (h : c = .choir) : s.choirOnly c op body = body s :=
  if_neg (by rw [h]; decide)

/-- The choir's own instructions are FORBIDDEN on the nave core (R148). -/
theorem State.choirOnly_nave (op : Nat) (body : State → State) {c : CoreId} (h : c = .nave) : s.choirOnly c op body =
    (s.logEvent logForbiddenOp (BitVec.ofNat 32 op) (s.core c).pc).fault c faultForbidden 0 := by
  subst h
  rfl

/-- A request over a strait that does not take it is refused DARK, at once (R32, R39). -/
theorem State.toIsland_dark {c : CoreId} {i : Island} (addr kind : Nat) (body : State → State) (h : s.dark c i = true) :
    s.toIsland c i addr kind body = s.refuse c (BitVec.ofNat 32 addr) causeDark kind := if_pos h

theorem State.toIsland_reached {c : CoreId} {i : Island} (addr kind : Nat) (body : State → State) (h : s.dark c i = false) :
    s.toIsland c i addr kind body = body s := if_neg (by rw [h]; decide)

/-- A queue instruction on a queue within reach, over a strait that does not take it (R32, R39). -/
theorem State.queueRequest_dark {c : CoreId} {k n : Nat} (allowed : Nat → Bool) (kind : Nat) (body : State → State)
    (hk : k = n) (ha : allowed n = true) (h : s.dark c .queue = true) :
    s.queueRequest c k (allowed k) kind body = s.refuse c (BitVec.ofNat 32 (QUE.DESC n)) causeDark kind := by
  subst hk
  exact (if_pos ha).trans (State.toIsland_dark _ _ _ h)

/-- The screen ranks before the strait (R40). -/
theorem State.queueRequest_screened_dark {c : CoreId} {k n : Nat} (allowed : Nat → Bool) (kind : Nat) (body : State → State)
    (hk : k = n) (ha : allowed n = false) (h : s.dark c .queue = true) :
    s.queueRequest c k (allowed k) kind body = s.refuse c (BitVec.ofNat 32 (QUE.DESC n)) causeScreen kind := by
  subst hk
  exact (if_neg (by rw [ha]; decide)).trans (if_pos h)

/-- A queue outside the core's reach: the strait selects none afterwards, and a REFUSE comes back (R79, R80). -/
theorem State.queueRequest_screened {c : CoreId} {k n : Nat} (allowed : Nat → Bool) (kind : Nat) (body : State → State)
    (hk : k = n) (ha : allowed n = false) (h : s.dark c .queue = false) : s.queueRequest c k (allowed k) kind body =
      ((s.coreDeselects c (kind == 1)).waitReply c).refuse c (BitVec.ofNat 32 (QUE.DESC n)) causeScreen kind := by
  subst hk
  exact (if_neg (by rw [ha]; decide)).trans (if_neg (by rw [h]; decide))

theorem satAdd_eq_min (limit a b : Nat) : satAdd limit a b = min limit (a + b) := by
  unfold satAdd
  split <;> omega

/-- The QWORD of a refused qput is counted (R80). -/
theorem State.coreDeselects_put (c : CoreId) : s.coreDeselects c true = (s.select (coreIsland c) 256).setFld
    QUE.ORPHAN_BADSEL (min 0xFFFF (s.fld QUE.ORPHAN_BADSEL + 1)) := by
  rw [← satAdd_eq_min]
  rfl

/-- Two destinations that name one register other than w0 (R149). -/
theorem sameReg_self {rd ra : Reg} (h : rd = ra) (h0 : rd ≠ 0) : sameReg rd ra = true := by
  subst h
  simpa [sameReg] using h0

theorem State.tallyRequest_badnum {i : Issue} (h : s.ready i = true) (hc : i.core = .choir) (rd ra rb : Reg)
    {names : Nat → Option (List Nat)} (f : State → List Nat → State × List Nat) (most : Nat)
    (hn : names ((s.issued i.core [ra, rb]).reg i.core ra).toNat = none) :
    (.next (s.tallyRequest i rd ra rb names f most) : Out) =
      .next (((s.issued i.core [ra, rb]).devFault i.core 0x28 1).endStep i.core) := by
  refine State.next_issue h ((State.choirOnly_choir _ _ hc).trans ?_)
  simp only [hn]

end Sys2Proof.Machine
end

open Sys2Proof Sys2Proof.Machine in
/-- Settles O29, from the issue of a ready instruction and the refusal that stands first in its body. -/
theorem deviceInstructionsFaultByName : Obligations.DeviceInstructionsFaultByName := by
  unfold Obligations.DeviceInstructionsFaultByName
  intro s i rd ra rb h c faults m r e n desc dev refused
  have hreg : r.reg c ra = m.reg c ra := (s.reg_issued c [ra] ra).trans (s.reg_issued c [ra, rb] ra).symm
  have hn : bitsOf (m.reg c ra) 7 0 = n := bitsOf_low _ (by decide)
  have hr : bitsOf (r.reg c ra) 7 0 = n := hreg ▸ hn
  refine ⟨fun hc => ?forbidden, ?_⟩
  case forbidden =>
    refine ⟨fun x hx => ?_, State.next_issue h (State.choirOnly_nave _ _ hc), State.next_issue h (State.choirOnly_nave _ _ hc)⟩
    simp only [List.mem_cons, List.not_mem_nil, or_false] at hx
    rcases hx with rfl | rfl | rfl | rfl <;> exact State.next_issue h (State.choirOnly_nave _ _ hc)
  intro away counted
  refine ⟨fun hq => ?readerScreen, fun hq => ?writerScreen, fun hq hd => ?getDark, fun hq hd => ?putDark, fun hu => ?usync,
    fun hd h0 => ?sameReg, fun hc hb => ?read, fun hc hb => ?index, fun hm => ?mask⟩
  case readerScreen =>
    refine ⟨fun hd => ?_, fun hd => ?_, fun hd => ?_, fun hd => ?_⟩
    · exact State.next_issue h (State.queueRequest_screened_dark (queueReader c) _ _ hr hq hd)
    · exact State.next_issue h (State.queueRequest_screened_dark (queueReader c) _ _ hn hq hd)
    · exact State.next_issue h (State.queueRequest_screened (queueReader c) _ _ hr hq hd)
    · exact State.next_issue h (State.queueRequest_screened (queueReader c) _ _ hn hq hd)
  case writerScreen =>
    refine ⟨fun hd => ?_, fun hd => ?_⟩
    · exact State.next_issue h (State.queueRequest_screened_dark (queueWriter c) _ _ hn hq hd)
    · exact State.next_issue h ((State.queueRequest_screened (queueWriter c) _ _ hn hq hd).trans
        (congrArg (fun t : State => (t.waitReply c).refuse c desc causeScreen 1) (State.coreDeselects_put c)))
  case getDark => exact State.next_issue h (State.queueRequest_dark (queueReader c) _ _ hr hq hd)
  case putDark => exact State.next_issue h (State.queueRequest_dark (queueWriter c) _ _ hn hq hd)
  case usync => exact State.next_issue h (if_pos (hr.symm ▸ hu))
  case sameReg => exact ⟨State.next_issue h (if_pos (sameReg_self hd h0)), State.next_issue h (if_pos (sameReg_self hd h0))⟩
  case read => exact State.tallyRequest_badnum h hc _ _ _ _ _ (if_neg (Nat.not_lt.mpr hb))
  case index => exact State.tallyRequest_badnum h hc _ _ _ _ _ (if_neg (Nat.not_lt.mpr hb))
  case mask => exact State.next_issue h (if_pos hm)

section
/-! O26: cimld and cimev on a bank that the core holds (R158, R160, R161, R481). -/
namespace Sys2Proof.Machine

variable {s : State}

/-- A core with the corrected words among n words from an address on counted (R131). -/
def Core.corrected (k : Core) (a n : Nat) : Core :=
  (rangeWords a n).foldl (fun k x => if k.isSingle x then k.countCorr x else k) k

theorem Core.double_corrected (k : Core) (a n : Nat) : (k.corrected a n).double = k.double := by
  unfold Core.corrected
  induction rangeWords a n generalizing k with
  | nil => rfl
  | cons x l ih =>
    rw [List.foldl_cons, ih]
    split <;> rfl

/-- Counting corrected words changes the core alone. -/
theorem State.countCorrected_eq (c : CoreId) (a n : Nat) :
    s.countCorrected c a n = s.setCore c ((s.core c).corrected a n) := by
  unfold State.countCorrected State.each Core.corrected
  induction rangeWords a n generalizing s with
  | nil => exact (State.setCore_core_self c).symm
  | cons x l ih =>
    rw [List.foldl_cons, List.foldl_cons, ih]
    split
    · rw [State.core_onCore_self, State.onCore, State.setCore_setCore]
    · rfl

theorem State.isDouble_countCorrected (c : CoreId) (a n x : Nat) :
    ((s.countCorrected c a n).core c).isDouble x = (s.core c).isDouble x := by
  rw [State.countCorrected_eq, State.core_setCore_self, Core.isDouble, Core.double_corrected, Core.isDouble]

theorem State.loadRow_core (key : Nat) (w : BitVec 256) (c : CoreId) : (s.loadRow key w).core c = s.core c := by
  cases c <;> rfl

theorem State.damaged_eq_none {c : CoreId} {a n : Nat} (h : ∀ j < n, (s.core c).isDouble (a + 4 * j) = false) :
    s.damaged c a n = none := by
  simpa [State.damaged, List.find?_eq_none] using h

/-- cimld writes one row of own SRAM into a tile, its corrected words counted (R131, R160). -/
def State.rowCopied (s : State) (c : CoreId) (a tile row : Nat) : State :=
  let u := s.countCorrected c a 8
  u.loadRow (rowKey tile row) (BitVec.ofNat 256 ((u.core c).leValue a 32))

theorem State.isDouble_rowCopied (c : CoreId) (a tile row x : Nat) :
    ((s.rowCopied c a tile row).core c).isDouble x = (s.core c).isDouble x := by
  unfold State.rowCopied
  rw [State.loadRow_core, State.isDouble_countCorrected]

/-- Rows without a damaged word are copied one after another (R160, R481). -/
theorem State.copyRows_eq {c : CoreId} {a tile row n : Nat} (h : ∀ j < 8 * n, (s.core c).isDouble (a + 4 * j) = false) :
    s.copyRows c a (rowKey tile row) n =
      ((List.range n).foldl (fun u j => u.rowCopied c (a + 32 * j) tile (row + j)) s, none) := by
  induction n generalizing s a row with
  | zero => rfl
  | succ n ih =>
    have hd : (s.countCorrected c a 8).damaged c a 8 = none :=
      State.damaged_eq_none fun j hj => (State.isDouble_countCorrected c a 8 _).trans (h j (by omega))
    have hstep : s.copyRows c a (rowKey tile row) (n + 1) =
        (s.rowCopied c a tile row).copyRows c (a + 32) (rowKey tile (row + 1)) n := by
      simp only [State.copyRows, hd]
      rfl
    have hrest : ∀ j < 8 * n, ((s.rowCopied c a tile row).core c).isDouble (a + 32 + 4 * j) = false := fun j hj => by
      rw [State.isDouble_rowCopied, show a + 32 + 4 * j = a + 4 * (j + 8) by omega]
      exact h _ (by omega)
    have hnext : (fun (u : State) j => u.rowCopied c (a + 32 * (j + 1)) tile (row + (j + 1))) =
        fun u j => u.rowCopied c (a + 32 + 32 * j) tile (row + 1 + j) := by
      funext u j
      congr 1 <;> omega
    rw [hstep, ih hrest, List.range_succ_eq_map, List.foldl_cons, List.foldl_map, ← hnext]
    rfl

/-- The holder code of a core (R237). -/
theorem State.holdsBank_of_holder {c : CoreId} {b : Nat}
    (h : s.fld (CIM.LEASE_HOLDER b) = (match c with | .choir => 1 | .nave => 3)) : s.holdsBank c b = true := by
  unfold State.holdsBank
  rw [h]
  cases c <;> rfl

/-- A bank that the nave core holds is not under the choir's lease (R158). -/
theorem State.bankCore_of_nave {b : Nat} (h : s.fld (CIM.LEASE_HOLDER b) = 3) : s.bankCore b = some .nave := by
  simp only [State.bankCore, h]

theorem State.dark_setCore (c d : CoreId) (k : Core) (i : Island) : (s.setCore d k).dark c i = s.dark c i := by
  cases d <;> rfl

end Sys2Proof.Machine
end

open Sys2Proof Sys2Proof.Machine in
/-- Settles O26, from the copy of undamaged rows and the count of corrected words, which changes the core alone. -/
theorem cimInstructionsLoadAndEvaluate : Obligations.CimInstructionsLoadAndEvaluate := by
  unfold Obligations.CimInstructionsLoadAndEvaluate
  intro s i rd ra rb h c m d src a mine row
  refine ⟨?cimld, ?cimev⟩
  case cimld =>
    intro tile first count hpos hmax hfit hop hgood hdark hmine
    have hnave : ¬(c = .nave ∧ m.bankCore (tile / 8) = some .choir) := fun ⟨hc, hb⟩ => by
      have hholder : m.fld (CIM.LEASE_HOLDER (tile / 8)) = 3 := hmine.trans (by rw [hc])
      rw [State.bankCore_of_nave hholder] at hb
      cases hb
    have hrange : ¬(count = 0 ∨ 256 < count ∨ 256 < first + count) := by omega
    refine State.next_answers h ((if_neg hnave).trans ((if_neg hrange).trans ((if_neg (by simpa using hop)).trans
      ((State.toIsland_reached _ _ _ hdark).trans ((if_pos (State.holdsBank_of_holder hmine)).trans ?_))))) (by omega)
    rw [State.copyRows_eq hgood]
    rfl
  case cimev =>
    intro b td hmask hop hgood hdark hmine u r
    have hu : u = m.setCore c ((m.core c).corrected a 8) := State.countCorrected_eq c a 8
    have hd : (m.countCorrected c a 8).damaged c a 8 = none := State.damaged_eq_none fun j hj =>
      (State.isDouble_countCorrected c a 8 _).trans (hgood j hj)
    have hreach : u.dark c (bankIsland b) = false := by rw [hu, State.dark_setCore, hdark]
    have hheld : u.holdsBank c b = true := State.holdsBank_of_holder (by rw [hu, State.setCore_fld]; exact hmine)
    refine State.next_answers h ((if_neg hmask).trans ((if_neg (by simpa using hop)).trans ?_)) (by split <;> omega)
    dsimp only
    rw [hd]
    exact (State.toIsland_reached _ _ _ hreach).trans (if_pos hheld)

section
/-! O34: the fall and rise of domains (R18 to R20, R59, R461). -/
namespace Sys2Proof.Machine

variable {s : State}

/-- A power-down asked for while RISING is latched (R20). -/
theorem State.fallStart_choir_rising (h : s.dom .choir = 1) :
    s.fallStart .choir = s.onCrypt (fun k => { k with choirDown := true }) :=
  (if_neg (show s.dom .choir ≠ 2 by omega)).trans (if_pos h)

theorem State.fallStart_nave_rising (h : s.dom .nave = 1) :
    s.fallStart .nave = s.onCrypt (fun k => { k with naveDown := true }) :=
  (if_neg (show s.dom .nave ≠ 2 by omega)).trans (if_pos h)

/-- DOMAIN_POWER_UP acts on the state that the supply monitor leaves, while NRST is high and the path is not HOLD (R59). -/
theorem execDomainPowerUp_eq {vmain : Nat} (hc : s.domOn .crypt = true) (hn : (s.supplies vmain s.crypt.vbak).crypt.nrst = false)
    (hp : (s.supplies vmain s.crypt.vbak).path ≠ 2) :
    let u := s.supplies vmain s.crypt.vbak
    exec (.domainPowerUp vmain) s = .next (
      if u.crypt.afterCryptReset ∧ u.dom .choir = 0 then
        if u.mainOkLevel ≤ vmain then ((if u.path = 0 then u else u.toMain).startDomains 0 0).domainsRise else u
      else if u.crypt.afterCryptReset ∧ u.domOn .choir then
        if u.choirRisen.domOn .nave then u.choirRisen.naveRisen else u.choirRisen
      else u.domainsRise) :=
  congrArg _ ((if_pos hc).trans (if_neg (by simp [hn, hp])))

theorem State.domOn_of_dom {d : Domain} (h : s.dom d = 2) : s.domOn d = true := by
  simp [State.domOn, h]

/-- The domains that are RISING reach ON, the shared islands before them (R18, R461). -/
theorem State.domainsRise_eq (h : s.dom .choir = 1 ∨ s.dom .nave = 1) :
    let z := if s.dom .shared = 3 then s.powerOff .shared else s
    let a := if z.dom .shared = 2 then z else (z.domainOn .shared).queuesOn
    let b := if s.dom .choir = 1 then a.domainOn .choir else a
    let d := if s.dom .nave = 1 then b.domainOn .nave else b
    let e := if s.dom .choir = 1 then d.choirRisen else d
    let f := if s.dom .nave = 1 then e.naveRisen else e
    let g := if f.domOn .choir && f.domOn .nave then f.feedReopen else f
    s.domainsRise = (g.latchedDown .choir).latchedDown .nave := by
  have hsome : ¬((!(s.dom .choir == 1) && !(s.dom .nave == 1)) = true) := by
    rcases h with h | h <;> simp [h]
  unfold State.domainsRise
  simp only [if_neg hsome, beq_iff_eq]

end Sys2Proof.Machine
end

open Sys2Proof Sys2Proof.Machine in
/-- Settles O34, from what a fall does in each state of the domain and where DOMAIN_POWER_UP stands in the start. -/
theorem domainsFallAndRise : Obligations.DomainsFallAndRise := by
  unfold Obligations.DomainsFallAndRise
  intro s vmain down off u
  refine ⟨fun h => congrArg _ (if_pos h), fun h => congrArg _ (if_pos h),
    fun h => congrArg _ (State.fallStart_choir_rising h), fun h => congrArg _ (State.fallStart_nave_rising h),
    fun h => congrArg _ (if_pos h), fun h => congrArg _ (if_pos h), fun hc hn hp ha hr => ?rising,
    fun hc hn hp ha h0 hv => ?waiting, fun hc hn hp ha h2 => ?starting⟩
  case rising =>
    have hwait : ¬(u.crypt.afterCryptReset = true ∧ u.dom .choir = 0) := fun ⟨h1, h2⟩ => by simp [ha h1] at h2
    have hon : ¬(u.crypt.afterCryptReset = true ∧ u.domOn .choir = true) := fun ⟨h1, h2⟩ => by
      simp [State.domOn, ha h1] at h2
    refine (execDomainPowerUp_eq hc hn hp).trans (congrArg _ ((if_neg hwait).trans ((if_neg hon).trans ?_)))
    exact State.domainsRise_eq hr
  case waiting =>
    have hlevel : u.mainOkLevel ≤ vmain := by
      unfold State.mainOkLevel State.mainLo
      omega
    exact (execDomainPowerUp_eq hc hn hp).trans (congrArg _ ((if_pos ⟨ha, h0⟩).trans (if_pos hlevel)))
  case starting =>
    have hwait : ¬(u.crypt.afterCryptReset = true ∧ u.dom .choir = 0) := fun ⟨_, h⟩ => by simp [h2] at h
    exact (execDomainPowerUp_eq hc hn hp).trans (congrArg _ ((if_neg hwait).trans (if_pos ⟨ha, State.domOn_of_dom h2⟩)))

section
/-! Laws of accesses that reach their register, with their region named. -/
namespace Sys2Proof.Machine

variable {s : State}

theorem State.allows_iff {c : CoreId} {a : Nat} {write : Bool} : s.allows c a write = true ↔
    s.domOn (coreDomain c) = true ∧ s.reach c a write = none ∧ s.silentAt a = false := by
  simp [State.allows, and_assoc]

/-- A load that nothing refuses, from an island that answers (R39, R40). -/
theorem State.commandLoad_allowed {c : CoreId} {addr w : Word} {g : Region} {t : State} (h : s.allows c addr.toNat false = true)
    (ha : addr.toNat % 4 = 0) (hm : 0x40000000 ≤ addr.toNat) (hg : regionOf addr.toNat = some g)
    (hl : s.loadAt c addr.toNat g = (t, .ok w)) : s.commandLoad c addr = { t with reply := w } := by
  obtain ⟨hd, hr, hs⟩ := State.allows_iff.mp h
  rw [State.commandLoad_reached hd ha hm hr hg hl, hs, if_neg (by decide)]

/-- A load whose word is uncorrectable is refused with its own cause (R40). -/
theorem State.commandLoad_failed {c : CoreId} {addr : Word} {g : Region} {t : State} {cause : Nat}
    (h : s.allows c addr.toNat false = true) (ha : addr.toNat % 4 = 0) (hm : 0x40000000 ≤ addr.toNat)
    (hg : regionOf addr.toNat = some g) (hl : s.loadAt c addr.toNat g = (t, .error cause)) :
    s.commandLoad c addr = t.refuseAccess c addr cause 0 := by
  obtain ⟨hd, hr, -⟩ := State.allows_iff.mp h
  exact State.commandLoad_of_bus hd ha hm (by simp only [State.busLoad, hr, hg, hl])

theorem State.commandStore_allowed {c : CoreId} {addr : Word} (val : Word) {g : Region} (h : s.allows c addr.toNat true = true)
    (ha : addr.toNat % 4 = 0) (hm : 0x40000000 ≤ addr.toNat) (hg : regionOf addr.toNat = some g) :
    s.commandStore c addr val = s.storeAt c addr.toNat val [] g := by
  obtain ⟨hd, hr, hs⟩ := State.allows_iff.mp h
  exact State.commandStore_eq_storeAt val hd ha (not_ownMemory hm).2 hr hs hg

/-- The same for a command that names its register. -/
theorem State.peek_allowed {c : CoreId} {a : Nat} {w : Word} {g : Region} {t : State} (h : s.allows c a false = true)
    (ha : a % 4 = 0) (hm : 0x40000000 ≤ a) (hlt : a < 2 ^ 32) (hg : regionOf a = some g) (hl : s.loadAt c a g = (t, .ok w)) :
    s.peek c a = { t with reply := w } := by
  have hn : (BitVec.ofNat 32 a).toNat = a := by rw [BitVec.toNat_ofNat, Nat.mod_eq_of_lt hlt]
  exact State.commandLoad_allowed (g := g) (hn.symm ▸ h) (hn.symm ▸ ha) (hn.symm ▸ hm) (hn.symm ▸ hg) (hn.symm ▸ hl)

theorem State.poke_allowed {c : CoreId} {a : Nat} (val : Word) {g : Region} (h : s.allows c a true = true)
    (ha : a % 4 = 0) (hm : 0x40000000 ≤ a) (hlt : a < 2 ^ 32) (hg : regionOf a = some g) :
    s.poke c a val = s.storeAt c a val [] g :=
  State.poke_eq_storeAt val h ha hlt (not_ownMemory hm).2 hg

/-! ### Registers of one enable bit -/

/-- The one field of an enable register: bit 31, written by both cores. -/
def enableField : FieldSpec := ⟨31, 31, .rw, 0, 0, 1, false, [], false⟩

/-- A store to an enable register puts bit 31 (R5). -/
theorem State.storeReg_enable {c : CoreId} {a k : Nat} {r : RegSpec} (val : Word) (hr : regFind a = some (r, k))
    (hf : r.fields = [enableField]) : s.storeReg c a val = s.setFld ⟨a, 31, 31⟩ (bitsOf val 31 31) := by
  have hv : storedVal enableField (bitsOf val 31 31) = some (bitsOf val 31 31) := by
    have hlt : bitsOf val 31 31 < 2 := bitsOf_lt val 31 31
    simp only [storedVal, enableField, clampInt]
    generalize bitsOf val 31 31 = v at hlt ⊢
    obtain rfl | rfl : v = 0 ∨ v = 1 := by omega
    · rfl
    · rfl
  have hfield : s.storeField c a val enableField = s.setFld ⟨a, 31, 31⟩ (bitsOf val 31 31) := by
    unfold State.storeField
    dsimp only
    rw [show bitsOf val enableField.hi enableField.lo = bitsOf val 31 31 from rfl, hv]
    rfl
  have hsl : hasSl r = false := by rw [hasSl, hf]; rfl
  unfold State.storeReg
  simp only [hr, hf, hsl, List.foldl_cons, List.foldl_nil, hfield, Bool.false_eq_true, if_false]

/-- After a store to an enable register, its bit is bit 31 of the word. -/
theorem State.flag_setFld_enable (h : twf regReset s.regs = true) (a : Nat) (val : Word) :
    (s.setFld ⟨a, 31, 31⟩ (bitsOf val 31 31)).flag ⟨a, 31, 31⟩ = val.getLsbD 31 := by
  unfold State.flag
  rw [State.fld_setFld_self h _ _ (show 31 < 32 by decide) (Nat.le_refl 31), bitsOf_bit _ _ (by decide)]
  cases val.getLsbD 31 <;> rfl

end Sys2Proof.Machine
end

section
/-! O44: the weight window, thresholds, wipes and enables of a bank (R33, R210, R224, R228, R240, R242). -/
namespace Sys2Proof.Machine

variable {s : State}

/-! ### The weight window -/

/-- A word of the window: its region, and the golden word it names (R33). -/
theorem window_word {a tile row j : Nat} (ht : tile < 32) (hr : row < 256) (hj : j < 8)
    (ha : a = 0x60000000 + 0x2000 * tile + 32 * row + 4 * j) :
    regionOf a = some (.window (tile / 8)) ∧ windowAt (tile / 8) a = (256 * tile + row, j) := by
  constructor
  · have hb : (a - 0x60000000) / 0x10000 = tile / 8 := by omega
    unfold regionOf
    repeat rw [if_neg (by omega)]
    rw [if_pos (by omega), hb]
  · have ho : (a - 0x60000000) % 0x10000 = 0x2000 * (tile % 8) + 32 * row + 4 * j := by omega
    unfold windowAt rowKey
    dsimp only
    rw [ho]
    refine Prod.ext ?_ ?_ <;> dsimp only <;> omega

theorem rowWord_eq (w : BitVec 256) (j : Nat) : rowWord w j = w.extractLsb' (32 * j) 32 := by
  apply BitVec.eq_of_getLsbD_eq
  intro i hi
  simp [rowWord, hi]

/-- A word without an error is read as it stands (R210). -/
theorem State.loadGolden_good {key j : Nat} (hd : 8 * key + j ∉ s.cim.double) (hs : 8 * key + j ∉ s.cim.single) :
    s.loadGolden key j = (s, some ((s.golden key).extractLsb' (32 * j) 32)) := by
  simp [State.loadGolden, hd, hs, rowWord_eq]

/-- A single-bit error is corrected, written back and counted (R228). -/
theorem State.loadGolden_single {key j : Nat} (hd : 8 * key + j ∉ s.cim.double) (hs : 8 * key + j ∈ s.cim.single) :
    s.loadGolden key j = ((s.onCim (fun k => { k with single := k.single.filter (fun x => decide (x ≠ 8 * key + j)) })).bump
      (CIM.REFSTAT_GCORR (key / 2048)) 1, some ((s.golden key).extractLsb' (32 * j) 32)) := by
  simp [State.loadGolden, hd, hs, rowWord_eq]

/-- An uncorrectable word is not read, and poisons its row (R210, R228). -/
theorem State.loadGolden_double {key j : Nat} (hd : 8 * key + j ∈ s.cim.double) : s.loadGolden key j = (s.poison key, none) := by
  simp [State.loadGolden, hd]

/-- What a load of a window word answers is what its golden word answers. -/
theorem State.loadAt_window {c : CoreId} {a b key j : Nat} {t : State} {v : Word} (hw : windowAt b a = (key, j))
    (hl : s.loadGolden key j = (t, some v)) : s.loadAt c a (.window b) = (t, .ok v) := by
  simp only [State.loadAt, State.loadWindow, hw, hl]

theorem State.loadAt_window_failed {c : CoreId} {a b key j : Nat} {t : State} (hw : windowAt b a = (key, j))
    (hl : s.loadGolden key j = (t, none)) : s.loadAt c a (.window b) = (t, .error causeEcc) := by
  simp only [State.loadAt, State.loadWindow, hw, hl]

theorem State.storeAt_window {c : CoreId} {a b key j : Nat} (val : Word) (l : List RowAt) (hw : windowAt b a = (key, j)) :
    s.storeAt c a val l (.window b) = s.storeGolden key j val := by
  simp only [State.storeAt, hw]

/-! ### Registers of a bank and of a tile -/

theorem region_thrdata : ∀ b : Fin 4, regionOf (CIM.THRDATA b) = some (.bank b) := by decide

theorem region_bankCtl : ∀ b : Fin 4, regionOf (CIM.CTL b) = some (.bank b) := by decide

theorem region_tileCtl : ∀ t : Fin 32, regionOf (CIM.TCTL t) = some (.tile t) := by decide

theorem bankCtl_fields : ∀ b : Fin 4, (regFind (CIM.CTL b)).map (fun x => x.1.fields) = some [enableField] := by decide +kernel

theorem tileCtl_fields : ∀ t : Fin 32, (regFind (CIM.TCTL t)).map (fun x => x.1.fields) = some [enableField] := by decide +kernel

theorem State.loadBank_thrdata (c : CoreId) (b : Nat) : s.loadAt c (CIM.THRDATA b) (.bank b) = loaded (s.readThr b) :=
  congrArg loaded (if_pos rfl)

theorem State.storeBank_thrdata (c : CoreId) (b : Nat) (val : Word) (l : List RowAt) :
    s.storeAt c (CIM.THRDATA b) val l (.bank b) = s.writeThr b val := if_pos rfl

theorem State.storeBank_ctl (c : CoreId) (b : Nat) (val : Word) (l : List RowAt) :
    s.storeAt c (CIM.CTL b) val l (.bank b) = s.storeBankCtl c b val :=
  (if_neg (by simp only [CIM.CTL, CIM.THRDATA]; omega)).trans
    ((if_neg (by simp only [CIM.CTL, CIM.REFNOW]; omega)).trans (if_pos rfl))

theorem State.storeTile_ctl (c : CoreId) (t : Nat) (val : Word) (l : List RowAt) :
    s.storeAt c (CIM.TCTL t) val l (.tile t) = s.storeTileCtl c t val := if_pos rfl

/-! ### What the life of a unit leaves unchanged -/

theorem State.send_cim (src dst : Island) (tag : BitVec 4) (w : Word) : (s.send src dst tag w).cim = s.cim := by
  unfold State.send
  split <;> rfl

theorem State.setLife_cim (u v : Nat) : (s.setLife u v).cim = s.cim := by
  unfold State.setLife State.announce
  split
  · exact State.send_cim ..
  · rfl

theorem State.enableActs_cim (u : Nat) (en : Bool) : (s.enableActs u en).cim = s.cim := by
  unfold State.enableActs
  split <;> first | exact State.setLife_cim .. | rfl

/-! ### Enables and wipes -/

theorem maskTiles_all (b : Nat) : maskTiles b 0xFF = (List.range 8).map (fun t => 8 * b + t) :=
  congrArg (List.map _) (show (List.range 8).filter (bitAt 0xFF) = List.range 8 by decide)

/-- A bank that stops takes its tiles along once no stream runs and no verdict waits (R242). -/
theorem State.bankFalls_eq (b : Nat) : s.bankFalls b = if s.fld (CIM.STAT_LIFE b) = 3 ∧ s.streams b = [] ∧ s.acksOf b = [] then
    (maskTiles b 0xFF).foldl (fun u t => if u.fld (CIM.TSTAT_LIFE t) = 2 then u.setLife (unitTile t) 3 else u) (s.setScans b [])
    else s := by
  simp only [State.bankFalls, State.bankIdle, State.each, State.tileOn, Bool.and_eq_true, List.isEmpty_iff, beq_iff_eq]

theorem State.storeBankCtl_eq (h : twf regReset s.regs = true) (c : CoreId) (b : Fin 4) (val : Word) :
    s.storeBankCtl c b val =
      ((s.setFld (CIM.CTL_EN b) (bitsOf val 31 31)).enableActs (unitBank b) (val.getLsbD 31)).bankFalls b := by
  obtain ⟨⟨r, k⟩, hr, hf⟩ := Option.map_eq_some_iff.mp (bankCtl_fields b)
  unfold State.storeBankCtl
  rw [State.storeReg_enable val hr hf]
  exact congrArg (fun en => ((s.setFld _ _).enableActs _ en).bankFalls _) (State.flag_setFld_enable h _ val)

theorem State.storeTileCtl_eq (h : twf regReset s.regs = true) (c : CoreId) (t : Fin 32) (val : Word) :
    s.storeTileCtl c t val = (s.setFld (CIM.TCTL_EN t) (bitsOf val 31 31)).enableActs (unitTile t) (val.getLsbD 31) := by
  obtain ⟨⟨r, k⟩, hr, hf⟩ := Option.map_eq_some_iff.mp (tileCtl_fields t)
  unfold State.storeTileCtl
  rw [State.storeReg_enable val hr hf]
  exact congrArg (fun en => (s.setFld _ _).enableActs _ en) (State.flag_setFld_enable h _ val)

end Sys2Proof.Machine
end

open Sys2Proof Sys2Proof.Machine in
/-- Settles O44, from the golden words of the window, the single enable bit of CTL and TCTL, and the bank's own operations. -/
theorem bankWeightsThresholdsAndWipes : Obligations.BankWeightsThresholdsAndWipes := by
  unfold Obligations.BankWeightsThresholdsAndWipes
  intro s bk tile row j c val addr h b key w golden held mine
  refine ⟨fun ha => ?window, ?thresholds, fun hw => ?wipe, fun hen => ?bank, fun hen => ?tile⟩
  case window =>
    obtain ⟨hregion, hword⟩ := window_word tile.isLt row.isLt j.isLt ha
    have hal : addr.toNat % 4 = 0 := by omega
    have hm : 0x40000000 ≤ addr.toNat := by omega
    refine ⟨fun hr hd hs => ?good, fun hr hd hs => ?single, fun hr hd => ?double, fun hr => ?store⟩
    case good =>
      exact congrArg _ (State.commandLoad_allowed hr hal hm hregion (State.loadAt_window hword (State.loadGolden_good hd hs)))
    case single =>
      exact congrArg _ (State.commandLoad_allowed hr hal hm hregion (State.loadAt_window hword (State.loadGolden_single hd hs)))
    case double =>
      exact congrArg _ (State.commandLoad_failed hr hal hm hregion
        (State.loadAt_window_failed hword (State.loadGolden_double hd)))
    case store => exact congrArg _ ((State.commandStore_allowed val hr hal hm hregion).trans (State.storeAt_window val [] hword))
  case thresholds =>
    obtain ⟨hal, hm, hlt⟩ : CIM.THRDATA b % 4 = 0 ∧ 0x40000000 ≤ CIM.THRDATA b ∧ CIM.THRDATA b < 2 ^ 32 := by
      simp only [CIM.THRDATA]; omega
    exact ⟨fun hr => congrArg _ (State.peek_allowed hr hal hm hlt (region_thrdata bk) (State.loadBank_thrdata c b)),
      fun hr => congrArg _ ((State.poke_allowed val hr hal hm hlt (region_thrdata bk)).trans (State.storeBank_thrdata ..))⟩
  case wipe =>
    refine congrArg _ ((if_pos hw).trans ?_)
    rw [maskTiles_all]
    rfl
  case bank =>
    intro u
    have hcim : u.cim = s.cim := State.enableActs_cim ..
    have hstreams : u.streams b = s.streams b := congrArg (fun k : Cim => tget _ k.streams b) hcim
    have hacks : u.acksOf b = s.acksOf b := congrArg (fun k : Cim => tget _ k.acks b) hcim
    rw [← hstreams, ← hacks, ← State.bankFalls_eq]
    obtain ⟨hal, hm, hlt⟩ : CIM.CTL b % 4 = 0 ∧ 0x40000000 ≤ CIM.CTL b ∧ CIM.CTL b < 2 ^ 32 := by
      simp only [CIM.CTL]; omega
    exact congrArg _ ((State.poke_allowed val hen hal hm hlt (region_bankCtl bk)).trans
      ((State.storeBank_ctl ..).trans (State.storeBankCtl_eq h.regs c bk val)))
  case tile =>
    obtain ⟨hal, hm, hlt⟩ : CIM.TCTL tile % 4 = 0 ∧ 0x40000000 ≤ CIM.TCTL tile ∧ CIM.TCTL tile < 2 ^ 32 := by
      simp only [CIM.TCTL]; omega
    exact congrArg _ ((State.poke_allowed val hen hal hm hlt (region_tileCtl tile)).trans
      ((State.storeTile_ctl ..).trans (State.storeTileCtl_eq h.regs c tile val)))

section
/-! O55: what a receiver does with the words of a strait (R22, R23, R27, R29, R30, R79 to R83, R132, R232, R459). -/
namespace Sys2Proof.Machine

variable {s : State}

/-! ### A word that crosses, and one that stays -/

/-- The word on a strait as its sender put it there. -/
def State.sentWord (s : State) (src dst : Island) (w : Word) : Word := ((s.frontWire src dst).map (fun x => x.word)).getD w

/-- Whether a stream header that stands on a strait, or comes onto it, waits (R232). -/
def State.frontWaits (s : State) (src dst : Island) (tag : BitVec 4) (w : Word) : Bool :=
  s.blocks src dst (((s.frontWire src dst).map (fun x => x.tag)).getD tag) (s.sentWord src dst w)

theorem execStraitWordReceive_eq (src dst : Island) (tag : BitVec 4) (w : Word) (p : Bool) :
    exec (.straitWordReceive src dst tag w p) s = .next (
      if straitExists src dst = false ∨ s.carries src dst = false ∨ s.frontWaits src dst tag w = true then s
      else
        let u := { s with wires := dropFirstWire src dst s.wires }
        let v := if p == parityLine tag w then u else u.tally32 SYS.STRAITERR_PARITY 1
        (if 0xC ≤ tag.toNat then v.tally32 SYS.STRAITERR_PROTO 1
        else if p == parityLine tag w then v.recvAny src dst tag w
        else v.recvBad src dst tag w (s.sentWord src dst w)).handshakeDone src dst) := by
  show execStraitWordReceive src dst tag w p s = _
  unfold execStraitWordReceive State.frontWaits State.sentWord
  cases s.frontWire src dst <;> rfl

/-- A word that its strait does not carry, or that stands behind a waiting header, stays (R30, R232). -/
theorem straitWord_stays {src dst : Island} {tag : BitVec 4} {w : Word} (p : Bool)
    (h : ¬(straitExists src dst = true ∧ s.carries src dst = true ∧ s.frontWaits src dst tag w = false)) :
    exec (.straitWordReceive src dst tag w p) s = .next s := by
  rw [execStraitWordReceive_eq]
  refine congrArg _ (if_pos ?_)
  cases he : straitExists src dst
  case false => exact .inl rfl
  case true =>
    cases hc : s.carries src dst
    case false => exact .inr (.inl rfl)
    case true => exact .inr (.inr (Bool.of_not_eq_false fun hw => h ⟨he, hc, hw⟩))

section Crosses

variable {src dst : Island} {tag : BitVec 4} {w : Word}
  (h : straitExists src dst = true ∧ s.carries src dst = true ∧ s.frontWaits src dst tag w = false)
include h

theorem straitWord_crosses (b : Bool) :
    let u := { s with wires := dropFirstWire src dst s.wires }
    let v := if b then u else u.tally32 SYS.STRAITERR_PARITY 1
    exec (.straitWordReceive src dst tag w (parityLine tag w == b)) s = .next (
      (if 0xC ≤ tag.toNat then v.tally32 SYS.STRAITERR_PROTO 1
      else if b then v.recvAny src dst tag w
      else v.recvBad src dst tag w (s.sentWord src dst w)).handshakeDone src dst) := by
  obtain ⟨he, hc, hw⟩ := h
  have hb : ((parityLine tag w == b) == parityLine tag w) = b := by cases parityLine tag w <;> cases b <;> rfl
  rw [execStraitWordReceive_eq]
  simp only [he, hc, hw, hb, Bool.true_eq_false, Bool.false_eq_true, or_self, if_false]

/-- A reserved tag is counted (R27). -/
theorem straitWord_reserved (b : Bool) (ht : 0xC ≤ tag.toNat) :
    let u := { s with wires := dropFirstWire src dst s.wires }
    let v := if b then u else u.tally32 SYS.STRAITERR_PARITY 1
    exec (.straitWordReceive src dst tag w (parityLine tag w == b)) s =
      .next ((v.tally32 SYS.STRAITERR_PROTO 1).handshakeDone src dst) :=
  (straitWord_crosses h b).trans (by rw [if_pos ht])

/-- A word with the right parity acts by its tag (R27). -/
theorem straitWord_trusted (ht : tag.toNat < 0xC) {t : State}
    (hr : State.recvAny { s with wires := dropFirstWire src dst s.wires } src dst tag w = t) :
    exec (.straitWordReceive src dst tag w (parityLine tag w == true)) s = .next (t.handshakeDone src dst) :=
  (straitWord_crosses h true).trans (by rw [if_neg (Nat.not_le.mpr ht), if_pos rfl, if_pos rfl, hr])

/-- A word with a wrong parity is counted and not trusted (R29). -/
theorem straitWord_damaged (ht : tag.toNat < 0xC) {t : State}
    (hr : (State.tally32 { s with wires := dropFirstWire src dst s.wires } SYS.STRAITERR_PARITY 1).recvBad src dst tag w
      (s.sentWord src dst w) = t) :
    exec (.straitWordReceive src dst tag w (parityLine tag w == false)) s = .next (t.handshakeDone src dst) :=
  (straitWord_crosses h false).trans (by
    rw [if_neg (Nat.not_le.mpr ht), if_neg Bool.false_ne_true, if_neg Bool.false_ne_true, hr])

end Crosses

/-! ### Trusted words, by their tags (R27) -/

section Trusted

variable {src dst : Island} {w : Word} {c : CoreId}

theorem State.recvAny_qword : s.recvAny src .queue tagQword w =
    ((s.portActive src tagQword).recvQword src w).verdictTaken src := by cases src <;> rfl

theorem State.recvAny_qsel : s.recvAny src .queue tagQsel w = s.recvQsel src w := by cases src <;> rfl

theorem State.recvAny_raddr : s.recvAny (coreIsland c) dst tagRaddr w = s.recvRead c (coreIsland c) dst w := by
  cases c <;> rfl

theorem State.recvAny_waddr : s.recvAny (coreIsland c) dst tagWaddr w = s.holdAddr (coreIsland c) dst (some (.good w)) := by
  cases c <;> rfl

theorem State.recvAny_wdata : s.recvAny (coreIsland c) dst tagWdata w = s.recvGood (coreIsland c) dst tagWdata w := by
  cases c <;> rfl

/-- The WDATA of a held address is the core's register write (R27). -/
theorem State.recvGood_wdata {a : Word} (ha : s.heldAddr (coreIsland c) dst = some (.good a)) :
    s.recvGood (coreIsland c) dst tagWdata w = (s.holdAddr (coreIsland c) dst none).recvWrite c (coreIsland c) dst a w := by
  unfold State.recvGood
  rw [ha]
  cases c <;> rfl

theorem State.recvWdata_damaged (a : Word) : s.recvWdata (coreIsland c) dst (some (.damaged a)) w = s := by
  cases c <;> cases dst <;> rfl

/-- The WDATA of a damaged address is discarded with it (R29). -/
theorem State.recvGood_wdata_damaged {a : Word} (ha : s.heldAddr (coreIsland c) dst = some (.damaged a)) :
    s.recvGood (coreIsland c) dst tagWdata w = s.holdAddr (coreIsland c) dst none := by
  have hgood : s.recvGood (coreIsland c) dst tagWdata w = s.recvWord (coreIsland c) dst tagWdata w := by
    unfold State.recvGood
    rw [ha]
    cases c <;> rfl
  have hword : s.recvWord (coreIsland c) dst tagWdata w =
      (s.holdAddr (coreIsland c) dst none).recvWdata (coreIsland c) dst (s.heldAddr (coreIsland c) dst) w := rfl
  rw [hgood, hword, ha, State.recvWdata_damaged]

theorem State.recvAny_event : s.recvAny src (coreIsland c) tagEvent w = s.recvEvent c (bitsOf w 4 0) := by
  cases src <;> cases c <;> rfl

theorem State.recvAny_life : s.recvAny src .crypt tagLife w = s.recvLife w := by cases src <;> rfl

/-- A notice of a unit is taken by the epoch rule (R459). -/
theorem State.recvLife_unit (hu : bitsOf w 7 0 < 67) : s.recvLife w =
    let d := (bitsOf w 17 10 + 256 - s.fld (SYS.UNITSTATE_EPOCH (bitsOf w 7 0))) % 256
    if 1 ≤ d ∧ d ≤ 127 then (s.setFld (SYS.UNITSTATE_STATE (bitsOf w 7 0)) (bitsOf w 9 8)).setFld
      (SYS.UNITSTATE_EPOCH (bitsOf w 7 0)) (bitsOf w 17 10) else s := by
  simp only [State.recvLife, hu, true_and]

/-! ### Damaged words, by their tags (R29) -/

variable {sent : Word}

theorem State.recvBad_qword : s.recvBad src .queue tagQword w sent = (s.recvQwordBad src w).verdictTaken src := rfl

theorem State.recvBad_qsel : s.recvBad src .queue tagQsel w sent = s.recvQselBad src := rfl

theorem State.recvBad_raddr : s.recvBad (coreIsland c) dst tagRaddr w sent =
    s.recvRefused c (coreIsland c) dst sent ((s.reach c sent.toNat false).getD 6) 0 := by cases c <;> rfl

theorem State.recvBad_waddr : s.recvBad (coreIsland c) dst tagWaddr w sent =
    let u := s.holdAddr (coreIsland c) dst (some (.damaged sent))
    u.recvRefused c (coreIsland c) dst sent ((u.reach c sent.toNat true).getD 6) 1 := by cases c <;> rfl

theorem State.recvBad_wdata {a : Word} (ha : s.heldAddr (coreIsland c) dst = some (.good a)) :
    s.recvBad (coreIsland c) dst tagWdata w sent =
      let u := s.holdAddr (coreIsland c) dst none
      u.recvRefused c (coreIsland c) dst a ((u.reach c a.toNat true).getD 6) 1 := by
  unfold State.recvBad
  rw [ha]
  cases c <;> rfl

theorem State.recvBad_wdata_damaged {a : Word} (ha : s.heldAddr (coreIsland c) dst = some (.damaged a)) :
    s.recvBad (coreIsland c) dst tagWdata w sent = s.holdAddr (coreIsland c) dst none := by
  unfold State.recvBad
  rw [ha]
  rfl

theorem State.recvBad_event : s.recvBad src (coreIsland c) tagEvent w sent = s := rfl

/-! ### Register requests of a core -/

theorem State.recvRead_refused {a : Word} {cause : Nat} (hr : s.reach c a.toNat false = some cause) :
    s.recvRead c src dst a = s.recvRefused c src dst a cause 0 := by
  simp only [State.recvRead, State.busLoad, hr]

theorem State.recvRead_reached {a x : Word} {g : Region} {r : State} (hr : s.reach c a.toNat false = none)
    (hg : regionOf a.toNat = some g) (hl : s.loadAt c a.toNat g = (r, .ok x)) : s.recvRead c src dst a =
      if s.silentAt a.toNat then s.recvRefused c src dst a 7 0 else r.send dst src tagRdata x := by
  simp only [State.recvRead, State.busLoad, hr, hg, hl]
  cases s.silentAt a.toNat <;> rfl

theorem State.recvWrite_refused {a v : Word} {cause : Nat} (hr : s.reach c a.toNat true = some cause) :
    s.recvWrite c src dst a v = s.recvRefused c src dst a cause 1 := by
  simp only [State.recvWrite, State.busStore, State.busStoreWith, hr]

theorem State.recvWrite_reached {a v : Word} {g : Region} (hr : s.reach c a.toNat true = none)
    (hg : regionOf a.toNat = some g) : s.recvWrite c src dst a v =
      if s.silentAt a.toNat then s.recvRefused c src dst a 7 1 else (s.storeAt c a.toNat v [] g).send dst src tagWack 0 := by
  simp only [State.recvWrite, State.busStore, State.busStoreWith, hr, hg]
  cases s.silentAt a.toNat <;> rfl

end Trusted

/-! ### Words into the queue island (R79, R80, R83, R92, R98) -/

/-- The activity mark of a unit leaves the queues, and every register but the mirror entry of the unit. -/
theorem State.activity_queue (u n : Nat) : (s.activity u).queue n = s.queue n := by
  unfold State.activity State.raiseBoth State.raiseEvent State.send
  repeat' split
  all_goals rfl

theorem State.send_fld (src dst : Island) (tag : BitVec 4) (w : Word) (f : Fld) : (s.send src dst tag w).fld f = s.fld f := by
  unfold State.send
  split <;> rfl

theorem State.activity_fld (u : Nat) {f : Fld} (hf : f.addr ≠ SYS.UNITSTATE u) : (s.activity u).fld f = s.fld f := by
  unfold State.activity State.raiseBoth State.raiseEvent
  split
  · rw [State.send_fld, State.send_fld]
    exact s.fld_setFld_ne _ hf
  · rfl

theorem sourceUnit_lt {i : Island} {u : Nat} (h : sourceUnit i = some u) : u < 22 := by
  cases i <;> simp [sourceUnit, unitIsle, unitBank] at h <;> omega

theorem State.sourceActive_queue (src : Option Island) (n : Nat) : (s.sourceActive src).queue n = s.queue n := by
  unfold State.sourceActive
  split
  · exact State.activity_queue _ n
  · rfl

theorem State.sourceActive_blockLimit (src : Option Island) (n : Nat) : (s.sourceActive src).blockLimit n = s.blockLimit n := by
  unfold State.sourceActive
  split
  · next u hu =>
    obtain ⟨i, -, hi⟩ := Option.bind_eq_some_iff.mp hu
    have hlt := sourceUnit_lt hi
    have hd : (QUE.DESC_DEPTH n).addr ≠ SYS.UNITSTATE u := by simp only [QUE.DESC_DEPTH, QUE.DESC, SYS.UNITSTATE]; omega
    unfold State.blockLimit
    rw [State.activity_fld u hd, State.activity_fld (f := QUE.DESC_QUOTA n) u hd]
  · rfl

theorem State.offer_denied {n : Nat} {src : Option Island} (w : Word) (h : s.fld (QUE.STAT_LIFE n) ≠ 2) :
    (s.offer n src w).1 = s.bump QUE.ORPHAN_DENIED 1 := by
  simp [State.offer, h]

/-- A word for which there is room is stored (R83, R92). -/
theorem State.offer_stored {n : Nat} {src : Option Island} (w : Word) (h : s.fld (QUE.STAT_LIFE n) = 2)
    (hd : (s.queue n).dropping = false) (hr : (s.queue n).count + 2 ≤ (s.queue n).capacity) : (s.offer n src w).1 =
      ((s.sourceActive src).storeWord n src ((w ||| bitV) &&& ~~~bitG)).dropStuck n := by
  simp [State.offer, State.storeOrDrop, State.sourceActive_queue, h, hd, hr]

theorem bitE_set (w : Word) : decide (w &&& bitE ≠ 0) = w.getLsbD 30 := by
  rw [show bitE = BitVec.twoPow 32 30 from rfl, BitVec.and_twoPow]
  cases w.getLsbD 30 <;> decide

/-- Bit E of a word stands as the queue island takes it (R82). -/
theorem bitE_offered (w : Word) : ((w ||| bitV) &&& ~~~bitG).getLsbD 30 = w.getLsbD 30 := by
  simp [bitV, bitG]

/-- A word for which there is no room, at the limit of the queue's blocks, is dropped with its packet (R98). -/
theorem State.offer_dropped {n : Nat} {src : Option Island} (w : Word) (h : s.fld (QUE.STAT_LIFE n) = 2)
    (hd : (s.queue n).dropping = false) (hr : (s.queue n).capacity < (s.queue n).count + 2)
    (hl : s.blockLimit n ≤ (s.queue n).held) : (s.offer n src w).1 =
      (s.sourceActive src).dropTail n src 1 (w.getLsbD 30) := by
  rw [← bitE_offered, ← bitE_set]
  simp [State.offer, State.sourceActive_queue, State.sourceActive_blockLimit, h, hd, Nat.not_le.mpr hr, Nat.not_lt.mpr hl]

theorem State.recvQword_unselected {src : Island} (w : Word) (h : s.selected src = 256) :
    s.recvQword src w = s.bump QUE.ORPHAN_BADSEL 1 := by
  simp [State.recvQword, h]

theorem State.recvQword_selected {src : Island} {n : Nat} (w : Word) (hn : n < 256) (h : s.selected src = n) :
    s.recvQword src w = (s.offer n (some src) w).1 := by
  simp [State.recvQword, h, hn]

/-- A damaged QWORD drops the packet that is being assembled (R29). -/
theorem State.recvQwordBad_dropped {src : Island} {n : Nat} (w : Word) (hn : n < 256) (h : s.selected src = n)
    (hl : s.fld (QUE.STAT_LIFE n) = 2) (hd : (s.queue n).dropping = false) :
    s.recvQwordBad src w = s.dropTail n (some src) 1 (w.getLsbD 30) := by
  rw [← bitE_set]
  simp [State.recvQwordBad, h, hn, hl, hd]

theorem State.recvQselBad_unselected {src : Island} (h : s.selected src = 256) : s.recvQselBad src = s.select src 256 := by
  simp [State.recvQselBad, h]

/-- A damaged QSEL drops the packet that its strait has open (R29). -/
theorem State.recvQselBad_open {src : Island} {n : Nat} (hn : n < 256) (h : s.selected src = n)
    (ho : (s.queue n).openPk.isSome = true) (hs : (s.queue n).source = some src) (hd : (s.queue n).dropping = false) :
    s.recvQselBad src = (s.select src 256).dropTail n (some src) 0 false := by
  obtain ⟨p, hp⟩ := Option.isSome_iff_exists.mp ho
  have hq : (s.select src 256).queue n = s.queue n := rfl
  simp [State.recvQselBad, h, hn, hq, hp, hs, hd]

theorem State.wake_running {c : CoreId} (h : (s.core c).run = .running) : s.wake c = s := by
  simp only [State.wake, h]

/-- A running core takes an edge event into EVPEND (R132 to R134). -/
theorem State.recvEvent_running {c : CoreId} {n : Nat} (h : (s.core c).run = .running) : s.recvEvent c n =
    if n < 12 then s.setCore c { s.core c with evpend := (s.core c).evpend ||| (1#32 <<< n) } else s := by
  have hwake : s.recvEvent c n =
      (if n < 12 then s.onCore c (fun k => { k with evpend := k.evpend ||| (1#32 <<< n) }) else s).wake c := by
    simp only [State.recvEvent, h]
  rw [hwake]
  split
  · refine State.wake_running ?_
    rw [State.core_onCore_self]
    exact h
  · exact State.wake_running h

end Sys2Proof.Machine
end

open Sys2Proof Sys2Proof.Machine in
/-- Settles O55, from what crosses a strait, what each tag does at its receiver, and what each damaged word does. -/
theorem straitsCarryWordsByTheirTags : Obligations.StraitsCarryWordsByTheirTags := by
  unfold Obligations.StraitsCarryWordsByTheirTags
  intro s c src dst tag w good f hs n front sent waits u v crosses par refused now live
  refine ⟨fun b hx => straitWord_stays _ hx, fun hx ht => ⟨straitWord_reserved hx true ht, straitWord_reserved hx false ht⟩,
    fun hx hd ht => ?qword, fun hx hd ht => ?qsel, fun hx hc ht => ?raddr, fun hx hc ht => ?waddr, fun a hx hc ht ha => ?wdata,
    fun a hx hc ht ha => ?discarded, fun hx hd ht hr => ?event, fun hx hd ht hu => ?life, fun he ho hn => ?reopen,
    fun ho => ?stillOpen⟩
  case qword =>
    subst hd ht
    have hlt : n < 256 := f.isLt
    have hword : ∀ {t}, v.recvQword src w = t → now true (t.verdictTaken src) := fun e =>
      straitWord_trusted hx (by decide) (State.recvAny_qword.trans (congrArg (·.verdictTaken src) e))
    refine ⟨fun h => ?unselected, fun h hl => ?denied, fun h hr hroom => ?stored, fun h hr hroom hl => ?dropped,
      fun h hr => ?damaged⟩
    case unselected => exact hword (State.recvQword_unselected w h)
    case denied => exact hword ((State.recvQword_selected w hlt h).trans (State.offer_denied w hl))
    case stored => exact hword ((State.recvQword_selected w hlt h.1).trans (State.offer_stored w h.2 hr hroom))
    case dropped => exact hword ((State.recvQword_selected w hlt h.1).trans (State.offer_dropped w h.2 hr hroom hl))
    case damaged => exact straitWord_damaged hx (by decide) (State.recvBad_qword.trans (congrArg (·.verdictTaken src)
      (State.recvQwordBad_dropped w hlt h.1 h.2 hr)))
  case qsel =>
    subst hd ht
    have hlt : n < 256 := f.isLt
    refine ⟨fun h => ?_, fun h => ?_, fun h => ?_, fun h ho hsrc hd => ?_⟩
    · exact straitWord_trusted hx (by decide) (State.recvAny_qsel.trans (if_pos h))
    · exact straitWord_trusted hx (by decide) (State.recvAny_qsel.trans (if_neg (Bool.eq_false_iff.mp h)))
    · exact straitWord_damaged hx (by decide) (State.recvBad_qsel.trans (State.recvQselBad_unselected h))
    · exact straitWord_damaged hx (by decide) (State.recvBad_qsel.trans (State.recvQselBad_open hlt h ho hsrc hd))
  case raddr =>
    subst hc ht
    refine ⟨fun cause hr => ?_, fun g r x hr hg hl => ?_, ?_⟩
    · exact straitWord_trusted hx (by decide) (State.recvAny_raddr.trans (State.recvRead_refused hr))
    · exact straitWord_trusted hx (by decide) (State.recvAny_raddr.trans (State.recvRead_reached hr hg hl))
    · exact straitWord_damaged hx (by decide) State.recvBad_raddr
  case waddr =>
    subst hc ht
    exact ⟨straitWord_trusted hx (by decide) State.recvAny_waddr, straitWord_damaged hx (by decide) State.recvBad_waddr⟩
  case wdata =>
    subst hc ht
    have hu : u.heldAddr (coreIsland c) dst = some (.good a) := ha
    have hpar : par.heldAddr (coreIsland c) dst = some (.good a) := ha
    refine ⟨fun cause hr => ?_, ?_, fun g hr hg => ?_⟩
    · exact straitWord_trusted hx (by decide)
        (State.recvAny_wdata.trans ((State.recvGood_wdata hu).trans (State.recvWrite_refused hr)))
    · exact straitWord_damaged hx (by decide) (State.recvBad_wdata hpar)
    · exact straitWord_trusted hx (by decide)
        (State.recvAny_wdata.trans ((State.recvGood_wdata hu).trans (State.recvWrite_reached hr hg)))
  case discarded =>
    subst hc ht
    have hu : u.heldAddr (coreIsland c) dst = some (.damaged a) := ha
    have hpar : par.heldAddr (coreIsland c) dst = some (.damaged a) := ha
    cases good with
    | true => exact straitWord_trusted hx (by decide) (State.recvAny_wdata.trans (State.recvGood_wdata_damaged hu))
    | false => exact straitWord_damaged hx (by decide) (State.recvBad_wdata_damaged hpar)
  case event =>
    subst hd ht
    have hrun : u.recvEvent c (bitsOf w 4 0) = _ := State.recvEvent_running hr
    refine ⟨fun h => ?_, fun h => ?_, ?_⟩
    · exact straitWord_trusted hx (by decide) (State.recvAny_event.trans (hrun.trans (if_pos h)))
    · exact straitWord_trusted hx (by decide) (State.recvAny_event.trans (hrun.trans (if_neg (by omega))))
    · exact straitWord_damaged hx (by decide) State.recvBad_event
  case life =>
    subst hd ht
    exact straitWord_trusted hx (by decide) (State.recvAny_life.trans (State.recvLife_unit hu))
  case reopen => exact congrArg _ (if_pos ⟨he, ho, hn⟩)
  case stillOpen => exact congrArg _ (if_neg fun h => h.2.2 ho)

section
/-! Laws of the supply monitor and of the supply measurement (R52, R77). -/
namespace Sys2Proof.Machine

variable {s : State}

/-! ### Registers written twice -/

section Table

variable {α : Type} {d : Nat → α} {m : List (Nat × α)}

theorem terase_of_lt [DecidableEq α] {lo k : Nat} (h : tsortedFrom d lo m = true) (hk : k < lo) : terase m k = m := by
  induction m generalizing lo with
  | nil => rfl
  | cons e rest ih =>
    simp only [tsortedFrom, Bool.and_eq_true, decide_eq_true_eq] at h
    obtain ⟨⟨hle, -⟩, hrest⟩ := h
    simp only [terase, if_neg (show k ≠ e.1 by omega), ih hrest (by omega)]

theorem terase_terase [DecidableEq α] {lo : Nat} (h : tsortedFrom d lo m = true) (k : Nat) :
    terase (terase m k) k = terase m k := by
  induction m generalizing lo with
  | nil => rfl
  | cons e rest ih =>
    simp only [tsortedFrom, Bool.and_eq_true, decide_eq_true_eq] at h
    by_cases hk : k = e.1
    · simp only [terase, if_pos hk]
      exact terase_of_lt h.2 (by omega)
    · simp only [terase, if_neg hk, ih h.2]

theorem tinsert_of_lt [DecidableEq α] {lo k : Nat} (h : tsortedFrom d lo m = true) (hk : k < lo) (x : α) :
    tinsert m k x = (k, x) :: m := by
  cases m with
  | nil => rfl
  | cons e rest =>
    simp only [tsortedFrom, Bool.and_eq_true, decide_eq_true_eq] at h
    obtain ⟨⟨hle, -⟩, -⟩ := h
    exact if_pos (show k < e.1 by omega)

theorem tinsert_terase [DecidableEq α] {lo : Nat} (h : tsortedFrom d lo m = true) (k : Nat) (x : α) :
    tinsert (terase m k) k x = tinsert m k x := by
  induction m generalizing lo with
  | nil => rfl
  | cons e rest ih =>
    simp only [tsortedFrom, Bool.and_eq_true, decide_eq_true_eq] at h
    rcases Nat.lt_trichotomy k e.1 with hk | hk | hk
    · rw [terase_of_lt (m := e :: rest) (lo := e.1) (by simpa [tsortedFrom] using h.imp_left And.right) hk]
    · simp only [terase, tinsert, if_pos hk, if_neg (show ¬k < e.1 by omega)]
      exact tinsert_of_lt h.2 (by omega) x
    · simp only [terase, tinsert, if_neg (show ¬k < e.1 by omega), if_neg (show k ≠ e.1 by omega), ih h.2]

theorem terase_tinsert [DecidableEq α] {lo : Nat} (h : tsortedFrom d lo m = true) (k : Nat) (x : α) :
    terase (tinsert m k x) k = terase m k := by
  induction m generalizing lo with
  | nil => simp [terase, tinsert]
  | cons e rest ih =>
    simp only [tsortedFrom, Bool.and_eq_true, decide_eq_true_eq] at h
    rcases Nat.lt_trichotomy k e.1 with hk | hk | hk
    · simp only [tinsert, terase, if_pos hk, if_true, if_neg (show k ≠ e.1 by omega)]
      rw [terase_of_lt h.2 (by omega)]
    · simp only [tinsert, terase, if_neg (show ¬k < e.1 by omega), if_pos hk, if_true]
    · simp only [tinsert, terase, if_neg (show ¬k < e.1 by omega), if_neg (show k ≠ e.1 by omega), ih h.2]

theorem tinsert_tinsert (m : List (Nat × α)) (k : Nat) (x y : α) : tinsert (tinsert m k x) k y = tinsert m k y := by
  induction m with
  | nil => simp [tinsert]
  | cons e rest ih =>
    rcases Nat.lt_trichotomy k e.1 with hk | hk | hk
    · simp [tinsert, hk]
    · simp [tinsert, hk]
    · simp only [tinsert, if_neg (show ¬k < e.1 by omega), if_neg (show k ≠ e.1 by omega), ih]

/-- The later of two writes to one key stands. -/
theorem tput_tput [DecidableEq α] (h : twf d m = true) (k : Nat) (x y : α) :
    tput d (tput d m k x) k y = tput d m k y := by
  unfold tput
  by_cases hx : x = d k <;> by_cases hy : y = d k
  · rw [if_pos hx, if_pos hy, if_pos hy, terase_terase h]
  · rw [if_pos hx, if_neg hy, if_neg hy, tinsert_terase h]
  · rw [if_neg hx, if_pos hy, if_pos hy, terase_tinsert h]
  · rw [if_neg hx, if_neg hy, if_neg hy, tinsert_tinsert]

end Table

theorem State.putReg_putReg (h : twf regReset s.regs = true) (a : Nat) (v w : Word) :
    (s.putReg a v).putReg a w = s.putReg a w :=
  congrArg (fun r => { s with regs := r }) (tput_tput h a v w)

/-- Two fields stored in one register make one word of it. -/
theorem State.setFld_setFld_eq_putReg (h : twf regReset s.regs = true) {f g : Fld} (hfg : g.addr = f.addr) (v w : Nat) :
    let t := (s.setFld f v).setFld g w
    t = s.putReg f.addr (t.getReg f.addr) := by
  intro t
  have ht : t = s.putReg f.addr (bitsPut ((s.setFld f v).getReg g.addr) g.hi g.lo w) := by
    rw [show t = (s.putReg f.addr _).putReg g.addr _ from rfl, hfg, State.putReg_putReg h]
  rw [ht, State.getReg_putReg_self h]

/-! ### The supply monitor -/

/-- The supply monitor writes its three flags of PWRSTAT, each from the state before (R52). -/
theorem State.supplies_eq (h : twf regReset s.regs = true) (vmain vbak : Nat) :
    s.supplies vmain vbak = (((s.onCrypt (fun k => { k with vmain := vmain, vbak := vbak })).setFlag CRYPT.PWRSTAT_MAINOK
      (supplyOk (s.flag CRYPT.PWRSTAT_MAINOK) vmain s.mainLo s.mainOkLevel)).setFlag CRYPT.PWRSTAT_BAKOK
        (supplyOk (s.flag CRYPT.PWRSTAT_BAKOK) vbak s.bakLo s.bakOkLevel)).setFlag CRYPT.PWRSTAT_BAKPRES
          (decide (1000 ≤ vbak)) := by
  unfold State.supplies
  generalize hu : s.onCrypt (fun k => { k with vmain := vmain, vbak := vbak }) = u
  have hregs : twf regReset u.regs = true := hu ▸ h
  have hfld : ∀ f, u.fld f = s.fld f := fun f => hu ▸ rfl
  have hok : ∀ b, (u.setFlag CRYPT.PWRSTAT_MAINOK b).fld CRYPT.PWRSTAT_BAKOK = s.fld CRYPT.PWRSTAT_BAKOK := fun b =>
    (State.fld_setFld_apart hregs _ (by decide)).trans (hfld _)
  have hlo : ∀ b, (u.setFlag CRYPT.PWRSTAT_MAINOK b).fld CRYPT.PWRCFG_BAKLO = s.fld CRYPT.PWRCFG_BAKLO := fun b =>
    (u.fld_setFld_ne _ (by decide)).trans (hfld _)
  simp only [State.mainLo, State.mainOkLevel, State.bakLo, State.bakOkLevel, State.flag, hok, hlo, hfld]

/-- Each flag of the supply monitor reads what it wrote, and PATH stands. -/
theorem State.pwrstat_setFlags (h : twf regReset s.regs = true) (main bak pres : Bool) :
    let t := ((s.setFlag CRYPT.PWRSTAT_MAINOK main).setFlag CRYPT.PWRSTAT_BAKOK bak).setFlag CRYPT.PWRSTAT_BAKPRES pres
    t.flag CRYPT.PWRSTAT_MAINOK = main ∧ t.flag CRYPT.PWRSTAT_BAKOK = bak ∧ t.flag CRYPT.PWRSTAT_BAKPRES = pres ∧
      t.path = s.path := by
  have h1 := State.twf_setFlag h CRYPT.PWRSTAT_MAINOK main
  have h2 := State.twf_setFlag h1 CRYPT.PWRSTAT_BAKOK bak
  refine ⟨?main, ?bak, State.flag_setFlag_self h2 _ _ (by decide) (by decide), ?path⟩
  case main =>
    rw [State.flag_setFlag_apart h2 _ (by decide), State.flag_setFlag_apart h1 _ (by decide),
      State.flag_setFlag_self h _ _ (by decide) (by decide)]
  case bak =>
    rw [State.flag_setFlag_apart h2 _ (by decide), State.flag_setFlag_self h1 _ _ (by decide) (by decide)]
  case path =>
    exact (State.fld_setFld_apart h2 _ (by decide)).trans
      ((State.fld_setFld_apart h1 _ (by decide)).trans (State.fld_setFld_apart h _ (by decide)))

/-! ### The supply measurement -/

theorem clampInt_bounds {lo hi : Int} (h : lo ≤ hi) (i : Int) : lo ≤ clampInt lo hi i ∧ clampInt lo hi i ≤ hi := by
  unfold clampInt
  split
  · omega
  · split <;> omega

/-- What VMEAS shows of a supply of x mV, with an error held to 20 mV (R77). -/
def supplyReading (x : Nat) (e : Int) : Nat := (clampInt 0 4095 ((x : Int) + clampInt (-20) 20 e)).toNat

theorem supplyReading_near (x : Nat) (e : Int) : supplyReading x e ≤ 4095 ∧
    (supplyReading x e : Int) ≤ max 0 ((x : Int) + 20) ∧ min 4095 ((x : Int) - 20) ≤ (supplyReading x e : Int) := by
  obtain ⟨hlo, hhi⟩ := clampInt_bounds (show (-20 : Int) ≤ 20 by decide) e
  unfold supplyReading
  generalize clampInt (-20) 20 e = d at hlo hhi
  unfold clampInt
  split
  · omega
  · split <;> omega

/-- A measurement writes both readings into VMEAS, uses two free values, and changes nothing else (R77). -/
theorem State.measure_vmeas (h : twf regReset s.regs = true) :
    s.measure.fld CRYPT.VMEAS_MAIN = supplyReading s.crypt.vmain (Config.measError s.free) ∧
    s.measure.fld CRYPT.VMEAS_BAK = supplyReading s.crypt.vbak (Config.measError (s.free + 1)) ∧
    s.measure = { s.putReg CRYPT.VMEAS (s.measure.getReg CRYPT.VMEAS) with free := s.free + 2 } := by
  generalize hm : supplyReading s.crypt.vmain (Config.measError s.free) = m
  generalize hb : supplyReading s.crypt.vbak (Config.measError (s.free + 1)) = b
  have hm' : m < 2 ^ 12 := by have := (supplyReading_near s.crypt.vmain (Config.measError s.free)).1; omega
  have hb' : b < 2 ^ 12 := by have := (supplyReading_near s.crypt.vbak (Config.measError (s.free + 1))).1; omega
  have ht : s.measure = (((s.setFld CRYPT.VMEAS_MAIN m).setFld CRYPT.VMEAS_BAK b).spend).spend := by
    rw [← hm, ← hb]
    rfl
  have h1 := State.twf_setFld h CRYPT.VMEAS_MAIN m
  rw [ht]
  refine ⟨?main, ?bak, ?frame⟩
  case main =>
    exact (State.fld_setFld_apart h1 b (by decide)).trans
      ((State.fld_setFld_self h _ m (by decide) (by decide)).trans (Nat.mod_eq_of_lt hm'))
  case bak => exact (State.fld_setFld_self h1 _ b (by decide) (by decide)).trans (Nat.mod_eq_of_lt hb')
  case frame =>
    have hput := State.setFld_setFld_eq_putReg h (f := CRYPT.VMEAS_MAIN) (g := CRYPT.VMEAS_BAK) rfl m b
    exact congrArg (fun t : State => t.spend.spend) hput

/-- A store to PWRCFG with MEASNOW measures after its thresholds and charger, and after the comparison with them (R52, R77). -/
theorem State.storePwrcfg_measnow (val : Word) (hv : val.getLsbD 16 = true) :
    let u := if bitsOf val 15 14 = 3 then s else s.setFld CRYPT.PWRCFG_CHARGE (bitsOf val 15 14)
    let v := (u.setFld CRYPT.PWRCFG_BAKLO (min 12 (bitsOf val 11 8))).setFld CRYPT.PWRCFG_MAINLO (min 30 (val.toNat % 64))
    s.storePwrcfg val = (v.supplies v.crypt.vmain v.crypt.vbak).measure := by
  have hnow : bitsOf val 16 16 = 1 := by rw [bitsOf_bit _ _ (by decide), hv]; rfl
  have hlow : bitsOf val 5 0 = val.toNat % 64 := bitsOf_low val (by decide)
  unfold State.storePwrcfg
  simp only [hnow, hlow, if_true, State.compareAgain]

end Sys2Proof.Machine
end

open Sys2Proof Sys2Proof.Machine in
/-- Settles O30, from the three flags that the supply monitor writes. -/
theorem supplyMonitorHasHysteresis : Obligations.SupplyMonitorHasHysteresis := by
  unfold Obligations.SupplyMonitorHasHysteresis
  intro s vmain vbak h t lo bak
  have ht : t = _ := State.supplies_eq h.regs vmain vbak
  obtain ⟨hmain, hbak, hpres, hpath⟩ := State.pwrstat_setFlags
    (s := s.onCrypt (fun k => { k with vmain := vmain, vbak := vbak })) h.regs
    (supplyOk (s.flag CRYPT.PWRSTAT_MAINOK) vmain s.mainLo s.mainOkLevel)
    (supplyOk (s.flag CRYPT.PWRSTAT_BAKOK) vbak s.bakLo s.bakOkLevel) (decide (1000 ≤ vbak))
  rw [ht]
  refine ⟨hmain, hbak, hpres, hpath, fun a ha => ?_, rfl, rfl, rfl⟩
  rw [State.getReg_setFlag_ne _ ha, State.getReg_setFlag_ne _ ha, State.getReg_setFlag_ne _ ha]
  rfl

open Sys2Proof Sys2Proof.Machine in
/-- Settles O31, from the branch of the arbiter that each command takes. -/
theorem powerPathFollowsTheSupplies : Obligations.PowerPathFollowsTheSupplies := by
  unfold Obligations.PowerPathFollowsTheSupplies
  intro s vmain vbak u main low hold back mains first
  have hok : ∀ t : State, 2500 + 20 * t.fld CRYPT.PWRCFG_MAINLO ≤ vmain → t.mainOkLevel ≤ vmain := fun t h => by
    unfold State.mainOkLevel State.mainLo
    omega
  refine ⟨fun hc hp hv hb => ?backup, fun hc hp hv hb => ?hold, fun hc hp hv => ?low, fun hc hp hv => ?back,
    fun hc hp hv => ?survival, ?level, fun hp hv => ?restart, fun hp hv => ?unpowered, fun hv => ?powerOn⟩
  case backup => exact congrArg Host.Outcome.next ((if_pos hc).trans ((if_pos ⟨hp, hv⟩).trans (if_pos hb)))
  case hold => exact congrArg Host.Outcome.next ((if_pos hc).trans ((if_pos ⟨hp, hv⟩).trans (if_neg (Bool.eq_false_iff.mp hb))))
  case low => exact congrArg Host.Outcome.next ((if_pos hc).trans (if_pos ⟨hp, hv⟩))
  case back => exact congrArg Host.Outcome.next ((if_pos hc).trans (if_pos ⟨hp, hok main hv⟩))
  case survival => exact congrArg Host.Outcome.next ((if_pos hc).trans (if_pos ⟨hp, hok u hv⟩))
  case level =>
    unfold cryptLevel
    omega
  case restart => exact congrArg Host.Outcome.next ((if_pos hp).trans (if_pos hv))
  case unpowered => exact congrArg Host.Outcome.next ((if_pos hp).trans (if_neg (Nat.not_le.mpr hv)))
  case powerOn => exact congrArg Host.Outcome.next (if_pos hv)

open Sys2Proof Sys2Proof.Machine in
/-- Settles O33, from what one measurement writes and where the store of MEASNOW measures. -/
theorem measurementsStayWithinTwentyMillivolts : Obligations.MeasurementsStayWithinTwentyMillivolts := by
  unfold Obligations.MeasurementsStayWithinTwentyMillivolts
  intro s c val h near measured
  have hmeasure : ∀ u : State, twf regReset u.regs = true → measured u u.measure := fun u hu => by
    obtain ⟨hmain, hbak, hframe⟩ := State.measure_vmeas hu
    exact ⟨hmain ▸ supplyReading_near _ _, hbak ▸ supplyReading_near _ _, hframe⟩
  refine ⟨fun hc => ⟨s.measure, congrArg Host.Outcome.next (if_pos hc), hmeasure s h.regs⟩, fun ha hv => ?_⟩
  intro u v
  have hv' : v.Kept s.pending :=
    State.setFld_kept (State.setFld_kept (.ite ⟨rfl, h⟩ (State.setFld_kept ⟨rfl, h⟩ _ _)) _ _) _ _
  have hstore : s.poke c CRYPT.PWRCFG val = s.storePwrcfg val :=
    s.poke_allowed val ha (by decide) (by decide) (by decide) (g := .crypt) (by decide)
  exact ⟨_, congrArg Host.Outcome.next (hstore.trans (State.storePwrcfg_measnow val hv)),
    hmeasure _ (State.supplies_kept hv' v.crypt.vmain v.crypt.vbak).sound.regs⟩

section
/-! O48: the current loops (R73, R313, R326 to R330). -/
namespace Sys2Proof.Machine

variable {s : State}

/-! ### What a loop that regulates shows -/

/-- LPMEAS reads within 30 µA of the command of a loop that regulates (R73, R329). -/
theorem State.loadLpmeas_near {j : Nat} (hon : s.loopOn j = true) (hlow : s.flag (OUT.LPSTAT_LOWNOW j) = false)
    (hmin : 60 ≤ s.fld (OUT.LPCMD_CMD j)) (hmax : s.fld (OUT.LPCMD_CMD j) ≤ 65475) :
    s.fld (OUT.LPCMD_CMD j) ≤ bitsOf (s.loadLpmeas j).2 15 0 + 60 ∧
      bitsOf (s.loadLpmeas j).2 15 0 ≤ s.fld (OUT.LPCMD_CMD j) + 60 := by
  unfold State.loadLpmeas
  simp only [hon, hlow, Bool.and_false, Bool.false_eq_true, if_false, if_true]
  obtain ⟨hlo, hhi⟩ := clampInt_bounds (show (-60 : Int) ≤ 60 by decide) (Config.loopError s.free)
  generalize clampInt (-60) 60 (Config.loopError s.free) = e at hlo hhi
  rw [bitsOf_bitsPut _ _ (by decide) (by decide), Nat.mod_eq_of_lt (by omega)]
  omega

theorem region_lpmeas : ∀ j : Fin 2, regionOf (OUT.LPMEAS j) = some .out := by decide

theorem State.loadOut_lpmeas (j : Fin 2) : s.loadOut (OUT.LPMEAS j) = s.loadLpmeas j := by
  have hj : (OUT.LPMEAS j - 0x40050300) / 0x20 = j := by simp only [OUT.LPMEAS]; omega
  unfold State.loadOut
  dsimp only
  rw [hj, if_pos ⟨by simp only [OUT.LPMEAS]; omega, by simp only [OUT.LPMEAS]; omega, rfl⟩]

/-! ### Stores to LPCTL -/

theorem region_lpctl : ∀ j : Fin 2, regionOf (OUT.LPCTL j) = some .out := by decide

theorem lpctl_index (j : Fin 2) : (OUT.LPCTL j - 0x40050000 - 0x300) / 0x20 = j := by simp only [OUT.LPCTL]; omega

/-- The lock of a loop keeps the nave from LPCTL (R313). -/
theorem State.outLocked_lpctl (j : Fin 2) (h : bitAt (s.fld OUT.LOCK_LOOP) j = true) :
    s.outLocked .nave (OUT.LPCTL j) = true := by
  have hin : 0x300 ≤ OUT.LPCTL j - 0x40050000 ∧ OUT.LPCTL j - 0x40050000 < 0x340 := by simp only [OUT.LPCTL]; omega
  unfold State.outLocked
  dsimp only
  rw [lpctl_index, h]
  simp [hin]

theorem State.storeOut_locked {c : CoreId} {a : Nat} (val : Word) (h : s.outLocked c a = true) : s.storeOut c a val = s :=
  if_pos h

theorem State.storeOut_lpctl {c : CoreId} (j : Fin 2) (val : Word) (h : s.outLocked c (OUT.LPCTL j) = false) :
    s.storeOut c (OUT.LPCTL j) val = s.storeLpctl c j val := by
  unfold State.storeOut
  dsimp only
  rw [lpctl_index, if_neg (Bool.eq_false_iff.mp h), if_neg (by simp only [OUT.LPCTL]; omega),
    if_pos (by simp only [OUT.LPCTL]; omega), if_pos rfl]

/-- A store to LPCTL that reaches the outputs island (R34, R37, R39). -/
theorem State.poke_lpctl {c : CoreId} (j : Fin 2) (val : Word) (h : s.allows c (OUT.LPCTL j) true = true) :
    s.poke c (OUT.LPCTL j) val = s.storeOut c (OUT.LPCTL j) val := by
  obtain ⟨hal, hm, hlt⟩ : OUT.LPCTL j % 4 = 0 ∧ 0x40000000 ≤ OUT.LPCTL j ∧ OUT.LPCTL j < 2 ^ 32 := by
    simp only [OUT.LPCTL]; omega
  exact State.poke_allowed val h hal hm hlt (region_lpctl j)

end Sys2Proof.Machine
end

open Sys2Proof Sys2Proof.Machine in
/-- Settles O48, from what a loop that is ON does at each event, the bounds of LPMEAS, and the two ways of a store to LPCTL. -/
theorem loopsFailAndRecover : Obligations.LoopsFailAndRecover := by
  unfold Obligations.LoopsFailAndRecover
  intro s j vdev meas c val on measured
  refine ⟨fun hon hsrc => ?stale, fun hon => ?low, fun hon hlow => ?recovers, fun hon hlow hreach hmin hmax => ?shows,
    fun hreach hopen => ?store, fun hreach hlock => ?locked⟩
  case stale =>
    have hcond : (s.loopOn j && s.fld (OUT.LPCTL_SRC j) != loopFixed) = true := by
      rw [Bool.and_eq_true, bne_iff_ne]
      exact ⟨hon, hsrc⟩
    exact congrArg Host.Outcome.next (if_pos hcond)
  case low => exact congrArg Host.Outcome.next (if_pos hon)
  case recovers => exact congrArg Host.Outcome.next (if_pos (Bool.and_eq_true_iff.mpr ⟨hon, hlow⟩))
  case shows =>
    obtain ⟨hal, hm, hlt⟩ : OUT.LPMEAS j % 4 = 0 ∧ 0x40000000 ≤ OUT.LPMEAS j ∧ OUT.LPMEAS j < 2 ^ 32 := by
      simp only [OUT.LPMEAS]; omega
    have hload : s.loadAt .nave (OUT.LPMEAS j) .out = ((s.loadLpmeas j).1, .ok (s.loadLpmeas j).2) :=
      congrArg loaded (State.loadOut_lpmeas j)
    exact ⟨_, congrArg Host.Outcome.next (State.peek_allowed hreach hal hm hlt (region_lpmeas j) hload),
      State.loadLpmeas_near hon hlow hmin hmax⟩
  case store =>
    intro u v same w
    have hw : s.storeLpctl c j val = (w.enableActs (unitLoop j) (w.flag (OUT.LPCTL_EN j))).loopSync j :=
      congrArg (fun x : State => (x.enableActs (unitLoop j) (x.flag (OUT.LPCTL_EN j))).loopSync j)
        (ite_congr (Prod.mk.injEq ..) (fun _ => rfl) (fun _ => rfl))
    exact congrArg Host.Outcome.next ((State.poke_lpctl j val hreach).trans ((State.storeOut_lpctl j val hopen).trans hw))
  case locked =>
    exact congrArg Host.Outcome.next ((State.poke_lpctl j val hreach).trans
      (State.storeOut_locked val (State.outLocked_lpctl j hlock)))

section
/-! Laws of the queue instructions over a strait that takes them: the words and tags they pass, the reading of a stored word,
and what qget and qpeek answer (R87, R90, R94, R96, R155 to R157). -/
namespace Sys2Proof.Machine

variable {s : State}

/-! ### Words and tags -/

theorem ofNat_bitsOf (w : Word) (hi lo : Nat) : BitVec.ofNat 32 (bitsOf w hi lo) = (w >>> lo) &&& lowMask (hi + 1 - lo) :=
  (BitVec.ofNat_toNat ..).trans (BitVec.setWidth_eq _)

/-- PSR.QT takes the four top bits of a word (R114, R155). -/
theorem putQt_eq (psr w : Word) : putQt psr (bitsOf w 31 28) = (psr &&& 0xF0FFFFFF) ||| ((w >>> 28) <<< 24) := by
  have htop : (w >>> 28) &&& lowMask 4 = w >>> 28 := by
    apply BitVec.eq_of_toNat_eq
    rw [BitVec.toNat_and, show (lowMask 4).toNat = 2 ^ 4 - 1 from rfl, Nat.and_two_pow_sub_one_eq_mod,
      BitVec.toNat_ushiftRight, Nat.shiftRight_eq_div_pow]
    have := w.isLt
    omega
  unfold putQt bitsPut
  rw [ofNat_bitsOf, BitVec.and_assoc, show lowMask (31 + 1 - 28) &&& lowMask (27 + 1 - 24) = lowMask 4 from rfl, htop]
  rfl

theorem bitAt_bitsOf (w : Word) {hi lo : Nat} (i : Nat) (h : hi < 32) (hl : lo ≤ hi) :
    bitAt (bitsOf w hi lo) i = (decide (i < hi + 1 - lo) && w.getLsbD (lo + i)) := by
  rw [← bitsOf_testBit w hi lo i h hl, Nat.testBit_eq_decide_div_mod_eq]
  rfl

/-- The word of a qput has E and P of PSR.QT, bits 26 and 24 of PSR (R157). -/
theorem putWord_qtOf (payload psr : Word) : putWord payload (qtOf psr) =
    (payload &&& 0x0FFFFFFF) ||| (if psr.getLsbD 26 then bitE else 0) ||| (if psr.getLsbD 24 then bitP else 0) := by
  unfold putWord qtOf
  rw [bitAt_bitsOf psr 2 (by decide) (by decide), bitAt_bitsOf psr 0 (by decide) (by decide)]
  rfl

/-- A core whose PSR.QT has taken the tag of a word (R155). -/
def State.tagged (s : State) (c : CoreId) (w : Word) : State :=
  s.onCore c (fun k => { k with psr := (k.psr &&& 0xF0FFFFFF) ||| ((w >>> 28) <<< 24) })

theorem State.queueReply_eq (c : CoreId) (rd : Reg) (w : Word) :
    s.queueReply c rd w = (s.tagged c w).deviceDone c rd w 4000 := by
  unfold State.queueReply State.tagged
  simp only [putQt_eq]

/-! ### Requests -/

/-- A queue instruction within the core's reach, over a strait to an island that answers: the strait selects the queue (R79). -/
theorem State.queueRequest_served {c : CoreId} {n : Nat} {allowed : Bool} (kind : Nat) (body : State → State)
    (ha : allowed = true) (h : s.serves c .queue = true) :
    s.queueRequest c n allowed kind body = body (s.select (coreIsland c) n) := by
  unfold State.serves at h
  simp only [Bool.and_eq_true, Bool.not_eq_true'] at h
  obtain ⟨hdark, hsilent⟩ := h
  exact (if_pos ha).trans ((State.toIsland_reached _ _ _ hdark).trans (if_neg (Bool.eq_false_iff.mp hsilent)))

/-! ### Reading a stored word (R94, R96) -/

theorem State.readWord_none {n pos : Nat} (fuel : Nat) (h : (s.queue n).words[pos]? = none) :
    s.readWord n pos (fuel + 1) = (s, none) := by
  simp only [State.readWord, h]

theorem State.readWord_good {n pos : Nat} {w : QWord} (fuel : Nat) (h : (s.queue n).words[pos]? = some w) (he : w.ecc = .good) :
    s.readWord n pos (fuel + 1) = (s, some w.word) := by
  simp only [State.readWord, h, he]

theorem State.readWord_single {n pos : Nat} {w : QWord} (fuel : Nat) (h : (s.queue n).words[pos]? = some w)
    (he : w.ecc = .single) : s.readWord n pos (fuel + 1) = (s.queueCorr n pos, some w.word) := by
  simp only [State.readWord, h, he]

/-- The packet of an uncorrectable word gives way to its marker, and the position is read again (R96). -/
theorem State.readWord_double {n pos : Nat} {w : QWord} (fuel : Nat) (h : (s.queue n).words[pos]? = some w)
    (he : w.ecc = .double) : s.readWord n pos (fuel + 1) = ((s.queueUe n pos).settled n).readWord n pos fuel := by
  simp only [State.readWord, h, he]

/-- A damaged first word, with a sound word in its place after the queue has settled (R96). -/
theorem State.readAt_double {n : Nat} {w v : QWord} {rest more : List QWord} (hw : (s.queue n).words = w :: rest)
    (he : w.ecc = .double) (hv : (((s.queueUe n 0).settled n).queue n).words = v :: more) (hg : v.ecc = .good) :
    s.readAt n 0 = ((s.queueUe n 0).settled n, some v.word) := by
  have hcount : (s.queue n).count = rest.length + 1 := congrArg List.length hw
  unfold State.readAt
  rw [hcount, State.readWord_double _ (by rw [hw]; rfl) he, State.readWord_good _ (by rw [hv]; rfl) hg]

/-! ### What qget and qpeek answer -/

/-- The status of a read that finds no word, by the queue's state (R90). -/
theorem State.emptyStatus_eq (n : Nat) :
    s.emptyStatus n = match s.fld (QUE.STAT_LIFE n) with | 2 => 0 | 3 => 2 | _ => 1 := rfl

theorem State.takeWord_hwreader {n : Nat} (h : s.fld (QUE.DESC_CONSUMER n) ≠ 0) : s.takeWord n = (s, 3) := if_pos h

theorem State.takeWord_empty {n : Nat} (h : s.fld (QUE.DESC_CONSUMER n) = 0) (hw : s.hasWord n = false) :
    s.takeWord n = (s, s.emptyStatus n) :=
  (if_neg (not_not_intro h)).trans (if_neg (Bool.eq_false_iff.mp hw))

theorem State.consumer_of_hasWord {n : Nat} (h : s.hasWord n = true) : s.fld (QUE.DESC_CONSUMER n) = 0 := by
  unfold State.hasWord at h
  exact beq_iff_eq.mp (Bool.and_eq_true_iff.mp h).1

/-- qget takes the word that it reads (R87). -/
theorem State.takeWord_read {n : Nat} {u : State} {v : Word} (h : s.hasWord n = true) (hr : s.readAt n 0 = (u, some v)) :
    s.takeWord n = ((u.setQueue n (u.queue n).popFirst).settled n, v) := by
  simp only [State.takeWord, h, hr, State.consumer_of_hasWord h, ne_eq, not_true_eq_false, if_true, if_false]

theorem State.peekWord_read {n pos : Nat} {u : State} {v : Word} (hr : s.readAt n pos = (u, some v)) :
    s.peekWord n pos = (u, v) := by
  simp only [State.peekWord, hr]

theorem State.peekWord_none {n pos : Nat} (h : (s.queue n).words[pos]? = none) : s.peekWord n pos = (s, s.emptyStatus n) := by
  simp only [State.peekWord, State.readAt, State.readWord_none _ h]

/-- A stored word that is not damaged: a correctable one is corrected (R94, R156). -/
theorem State.peekWord_stored {n pos : Nat} {w : QWord} (h : (s.queue n).words[pos]? = some w) (he : w.ecc ≠ .double) :
    s.peekWord n pos = (if w.ecc = .single then s.queueCorr n pos else s, w.word) := by
  apply State.peekWord_read
  unfold State.readAt
  cases hecc : w.ecc with
  | good => exact State.readWord_good _ h hecc
  | single => exact State.readWord_single _ h hecc
  | double => exact absurd hecc he

/-! ### The instructions -/

section Served

variable {i : Issue} {ra rb : Reg} {n : Nat} (h : s.ready i = true)
include h

theorem execQget_answers {u : State} {v : Word} (rd : Reg) (hn : bitsOf ((s.issued i.core [ra]).reg i.core ra) 7 0 = n)
    (hq : queueReader i.core n = true) (hs : (s.issued i.core [ra]).serves i.core .queue = true)
    (ht : ((s.issued i.core [ra]).select (coreIsland i.core) n).takeWord n = (u, v)) :
    ∃ t, exec (.qget i rd ra) s = .next t ∧ Answers (u.tagged i.core v) t i.core rd v 4000 := by
  subst hn
  exact State.next_answers h ((State.queueRequest_served _ _ hq hs).trans
    ((congrArg (fun x : State × Word => x.1.queueReply i.core rd x.2) ht).trans (State.queueReply_eq ..))) (by decide)

theorem execQpeek_answers {u : State} {v : Word} {pos : Nat} (rd : Reg)
    (hn : bitsOf ((s.issued i.core [ra, rb]).reg i.core ra) 7 0 = n) (hq : queueReader i.core n = true)
    (hs : (s.issued i.core [ra, rb]).serves i.core .queue = true)
    (hp : bitsOf (((s.issued i.core [ra, rb]).select (coreIsland i.core) n).reg i.core rb) 19 0 = pos)
    (ht : ((s.issued i.core [ra, rb]).select (coreIsland i.core) n).peekWord n pos = (u, v)) :
    ∃ t, exec (.qpeek i rd ra rb) s = .next t ∧ Answers (u.tagged i.core v) t i.core rd v 4000 := by
  subst hn hp
  exact State.next_answers h ((State.queueRequest_served _ _ hq hs).trans
    ((congrArg (fun x : State × Word => x.1.queueReply i.core rd x.2) ht).trans (State.queueReply_eq ..))) (by decide)

theorem execQput_answers {u : State} {status : PutStatus} {word : Word} (rd : Reg)
    (hn : bitsOf ((s.issued i.core [ra, rb]).reg i.core ra) 7 0 = n) (hq : queueWriter i.core n = true)
    (hs : (s.issued i.core [ra, rb]).serves i.core .queue = true)
    (hw : putWord (((s.issued i.core [ra, rb]).select (coreIsland i.core) n).reg i.core rb)
      (qtOf (((s.issued i.core [ra, rb]).select (coreIsland i.core) n).core i.core).psr) = word)
    (ht : ((s.issued i.core [ra, rb]).select (coreIsland i.core) n).offer n (some (coreIsland i.core)) word = (u, status)) :
    ∃ t, exec (.qput i rd ra rb) s = .next t ∧ Answers u t i.core rd (BitVec.ofNat 32 status) 4000 := by
  subst hn hw
  exact State.next_answers h ((State.queueRequest_served _ _ hq hs).trans
    (congrArg (fun x : State × PutStatus => x.1.deviceDone i.core rd (BitVec.ofNat 32 x.2) 4000) ht)) (by decide)

end Served

end Sys2Proof.Machine
end

open Sys2Proof Sys2Proof.Machine in
/-- Settles O24, from a queue request that its island serves and what a read of the queue gives in each case. -/
theorem queueInstructionsMoveWords : Obligations.QueueInstructionsMoveWords := by
  unfold Obligations.QueueInstructionsMoveWords
  intro s i rd ra rb h c tagged
  have hnum : ∀ w : Word, bitsOf w 7 0 = w.toNat % 256 := fun w => bitsOf_low w (by decide)
  refine ⟨?qget, ?queuePair⟩
  case qget =>
    intro r n m o hq hs
    have gets : ∀ {u : State} {v : Word}, m.takeWord n = (u, v) → ∃ t, o = .next t ∧ tagged u t v :=
      execQget_answers h rd (hnum _) hq hs
    refine ⟨fun hc => gets (State.takeWord_hwreader hc), fun hc hw => gets (State.takeWord_empty hc hw),
      fun hw w rest hwords => ⟨fun he => ?good, fun he => ?single, fun he v more hmore hv => ?double⟩⟩
    case good => exact gets (State.takeWord_read hw (State.readWord_good _ (by rw [hwords]; rfl) he))
    case single => exact gets (State.takeWord_read hw (State.readWord_single _ (by rw [hwords]; rfl) he))
    case double => exact gets (State.takeWord_read hw (State.readAt_double hwords he hmore hv))
  case queuePair =>
    intro r n m hs
    refine ⟨fun hq pos hpos hgood => ?qpeek, fun hq => ?qput⟩
    case qpeek =>
      have peeks : ∀ {u : State} {v : Word}, m.peekWord n pos = (u, v) →
          ∃ t, exec (.qpeek i rd ra rb) s = .next t ∧ tagged u t v :=
        execQpeek_answers h rd (hnum _) hq hs ((bitsOf_low _ (by decide)).trans hpos.symm)
      cases hw : (m.queue n).words[pos]? with
      | none => exact peeks (State.peekWord_none hw)
      | some w => exact peeks (State.peekWord_stored hw fun he => hgood (by rw [hw, Option.map_some, he]))
    case qput => exact execQput_answers h rd (hnum _) hq hs (putWord_qtOf _ _) rfl

section
/-! Laws of deliveries and of the scrubber: what crosses to a hardware consumer word by word, and one round of the scrubber
(R88, R94, R97). -/
namespace Sys2Proof.Machine

variable {s : State} {n : Nat}

/-! ### Queues of the table -/

theorem Queue.ne_empty_of_packets {q : Queue} {k : Packet} {rest : List Packet} (h : q.packets = k :: rest) :
    q ≠ Queue.empty := by
  rintro rfl
  cases h

theorem State.queue_setQueue {q : Queue} (h : q ≠ Queue.empty) : (s.setQueue n q).queue n = q :=
  tget_tput_of_ne_default _ _ h

/-- The later of two writes to one queue stands, in any table, where neither empties it. -/
theorem State.setQueue_setQueue {q r : Queue} (hq : q ≠ Queue.empty) (hr : r ≠ Queue.empty) :
    (s.setQueue n q).setQueue n r = s.setQueue n r := by
  have htable : tput (fun _ => Queue.empty) (tput (fun _ => Queue.empty) s.queues n q) n r =
      tput (fun _ => Queue.empty) s.queues n r := by
    unfold tput
    rw [if_neg hq, if_neg hr, if_neg hr, tinsert_tinsert]
  exact congrArg (fun l => ({ s with queues := l } : State)) htable

/-- The first words of a queue are those of its head packet. -/
theorem Queue.words_head {q : Queue} {k : Packet} {rest : List Packet} (h : q.packets = k :: rest) {i : Nat}
    (hi : i < k.words.length) : q.words[i]? = k.words[i]? := by
  unfold Queue.words
  rw [h, List.flatMap_cons, List.append_assoc, List.getElem?_append_left hi]

/-! ### One word of a delivery (R88, R94) -/

theorem State.checkWord_good {i : Nat} {w : QWord} (h : (s.queue n).words[i]? = some w) (he : w.ecc = .good) :
    s.checkWord n i = (s, false) := by
  simp only [State.checkWord, h, Option.map_some, he]

theorem State.checkWord_double {i : Nat} {w : QWord} (h : (s.queue n).words[i]? = some w) (he : w.ecc = .double) :
    s.checkWord n i = (s.queueUe n i, true) := by
  simp only [State.checkWord, h, Option.map_some, he]

/-- A damaged word ends the delivery (R88, R94). -/
theorem State.deliverWord_double {w : QWord} (h : (s.queue n).words[(s.queue n).given]? = some w) (he : w.ecc = .double) :
    s.deliverWord n = ((s.queueUe n (s.queue n).given).settled n, true) := by
  simp only [State.deliverWord, State.checkWord_double h he, if_true]

section Head

variable {k : Packet} {rest : List Packet} (hp : (s.queue n).packets = k :: rest)
include hp

theorem State.checkWord_given (hgood : ∀ x ∈ k.words, x.ecc = .good) (hg : (s.queue n).given < k.words.length) :
    s.checkWord n (s.queue n).given = (s, false) :=
  State.checkWord_good ((Queue.words_head hp hg).trans (List.getElem?_eq_getElem hg)) (hgood _ (List.getElem_mem hg))

/-- A word before the last one of its packet crosses. -/
theorem State.deliverWord_next (hgood : ∀ x ∈ k.words, x.ecc = .good) (hg : (s.queue n).given + 1 < k.words.length) :
    s.deliverWord n = (s.setQueue n { s.queue n with given := (s.queue n).given + 1 }, false) := by
  simp only [State.deliverWord, State.checkWord_given hp hgood (Nat.lt_of_succ_lt hg), hp, hg, Bool.false_eq_true,
    if_false, if_true]

/-- The last word of a packet hands it over. -/
theorem State.deliverWord_last (hgood : ∀ x ∈ k.words, x.ecc = .good) (hg : (s.queue n).given + 1 = k.words.length) :
    s.deliverWord n = (s.handOver n (k.words.map (fun w => w.word)) k.marker, true) := by
  simp only [State.deliverWord, State.checkWord_given hp hgood (by omega), hp, hg, Nat.lt_irrefl, Bool.false_eq_true, if_false]

end Head

/-! ### The rest of a delivery -/

/-- The state in which the last word of a queue's head packet crosses. -/
def State.atLastWord (s : State) (n : Nat) (k : Packet) : State :=
  if (s.queue n).given + 1 < k.words.length then s.setQueue n { s.queue n with given := k.words.length - 1 } else s

theorem State.atLastWord_fld (k : Packet) (f : Fld) : (s.atLastWord n k).fld f = s.fld f := by
  unfold State.atLastWord
  split <;> rfl

theorem State.atLastWord_bufTaker (k : Packet) (q : Nat) : (s.atLastWord n k).bufTaker q = s.bufTaker q := by
  unfold State.atLastWord
  split <;> rfl

theorem State.atLastWord_next {k : Packet} {rest : List Packet} (hp : (s.queue n).packets = k :: rest)
    (hg : (s.queue n).given + 1 < k.words.length) :
    (s.setQueue n { s.queue n with given := (s.queue n).given + 1 }).atLastWord n k = s.atLastWord n k := by
  have hne : ∀ g : Nat, { s.queue n with given := g } ≠ Queue.empty := fun g => Queue.ne_empty_of_packets hp
  unfold State.atLastWord
  rw [if_pos hg, State.queue_setQueue (hne _)]
  split
  · exact State.setQueue_setQueue (hne _) (hne _)
  · next hlast =>
    dsimp only at hlast
    rw [show (s.queue n).given + 1 = k.words.length - 1 by omega]

/-- The words that remain cross one after another, and the packet goes over whole (R88). -/
theorem State.deliverAll_good {k : Packet} {rest : List Packet} (hgood : ∀ x ∈ k.words, x.ecc = .good) {fuel : Nat}
    (hp : (s.queue n).packets = k :: rest) (hg : (s.queue n).given < k.words.length)
    (hf : k.words.length ≤ (s.queue n).given + fuel) :
    s.deliverAll n fuel = (s.atLastWord n k).handOver n (k.words.map (fun w => w.word)) k.marker := by
  induction fuel generalizing s with
  | zero => omega
  | succ fuel ih =>
    by_cases hlast : (s.queue n).given + 1 < k.words.length
    · have hq : (s.setQueue n { s.queue n with given := (s.queue n).given + 1 }).queue n =
          { s.queue n with given := (s.queue n).given + 1 } := State.queue_setQueue (Queue.ne_empty_of_packets hp)
      simp only [State.deliverAll, State.deliverWord_next hp hgood hlast, Bool.false_eq_true, if_false]
      rw [ih (by rw [hq]; exact hp) (by rw [hq]; exact hlast) (by rw [hq]; show _ ≤ _ + 1 + fuel; omega),
        State.atLastWord_next hp hlast]
    · simp only [State.deliverAll, State.deliverWord_last hp hgood (by omega), State.atLastWord, hlast, if_true, if_false]

/-- The quantity island takes the packet, and its rotation goes on from this queue (R272). -/
theorem State.handOver_quantity (h : s.fld (QUE.DESC_CONSUMER n) = 1) (words : List Word) (marker : Bool) :
    s.handOver n words marker = (s.popPacket n).onQty (fun q => { q with taken := some (n, words), served := n }) := by
  simp only [State.handOver, h]

/-- The port that takes from this queue gets the packet (R373). -/
theorem State.handOver_belfry {p : Nat} (h : s.fld (QUE.DESC_CONSUMER n) = 2) (hp : s.bufTaker n = some p)
    (words : List Word) (marker : Bool) : s.handOver n words marker = (s.popPacket n).belfTake p n words marker := by
  simp only [State.handOver, h, hp]

theorem State.handOver_service (h : s.fld (QUE.DESC_CONSUMER n) = 3) (words : List Word) (marker : Bool) :
    s.handOver n words marker = s.popPacket n := by
  simp only [State.handOver, h]

theorem State.deliverAll_double {w : QWord} (fuel : Nat) (h : (s.queue n).words[(s.queue n).given]? = some w)
    (he : w.ecc = .double) : s.deliverAll n (fuel + 1) = (s.queueUe n (s.queue n).given).settled n := by
  simp only [State.deliverAll, State.deliverWord_double h he, if_true]

/-- A delivery to a consumer that is ON, over its open strait (R88). -/
theorem execQueueDeliver_under_way {f : Fin 256} {i : Island} {k : Packet} {rest : List Packet}
    (hi : consumerIsland (s.fld (QUE.DESC_CONSUMER f)) = some i) (hp : (s.queue f).packets = k :: rest)
    (hd : s.domOn (islandDomain i) = true) (ho : s.strait .queue i = .isOpen) (hn : s.deliverable f = true) :
    exec (.queueDeliver f) s = .next (s.deliverAll f k.words.length) := by
  refine congrArg Host.Outcome.next ?_
  simp only [hi, hp, hd, ho, hn, and_self, if_true]

theorem execQueueDeliver_nothing {f : Fin 256} (hp : (s.queue f).packets = []) : exec (.queueDeliver f) s = .next s := by
  refine congrArg Host.Outcome.next ?_
  rw [hp]
  split
  · next h => cases h
  · rfl

/-! ### The scrubber (R97) -/

theorem State.scrub_clean (fuel : Nat) (h : (s.queue n).firstUpset = none) : s.scrub n fuel = s := by
  cases fuel with
  | zero => rfl
  | succ fuel => simp only [State.scrub, h]

theorem State.scrub_single {j : Nat} (fuel : Nat) (h : (s.queue n).firstUpset = some (j, .single)) :
    s.scrub n (fuel + 1) = (s.queueCorr n j).scrub n fuel := by
  simp only [State.scrub, h]

theorem State.scrub_double {j : Nat} (fuel : Nat) (h : (s.queue n).firstUpset = some (j, .double)) :
    s.scrub n (fuel + 1) = (s.queueUe n j).scrub n fuel := by
  simp only [State.scrub, h]

/-- One upset word of the Cloister, as the scrubber finds it. -/
theorem execCloisterScrub_one {f : Fin 256} {j : Nat} {e : State} (bad : Bool) (hd : s.domOn .shared = true)
    (hin : (s.queue f).inCloister j = true) (hj : j < (s.queue f).count)
    (he : s.setQueue f ((s.queue f).setEcc j (if bad then .double else .single)) = e) :
    exec (.cloisterScrub f [(j, bad)]) s = .next ((e.scrub f ((e.queue f).count + 1)).settled f) := by
  subst he
  have hmark : (if (s.queue f).inCloister j = true ∧ j < (s.queue f).count then
      s.setQueue f ((s.queue f).setEcc j (if bad then .double else .single)) else s) =
      s.setQueue f ((s.queue f).setEcc j (if bad then .double else .single)) := if_pos ⟨hin, hj⟩
  exact congrArg Host.Outcome.next ((if_pos hd).trans
    (congrArg (fun u : State => (u.scrub f ((u.queue f).count + 1)).settled f) hmark))

end Sys2Proof.Machine
end

section
/-! Laws of the descriptors and of the rise and fall of queues: stores to DESC and POOL, and what the pool and the notices
leave unchanged (R101, R104). -/
namespace Sys2Proof.Machine

variable {s : State} {n : Nat}

/-! ### Stores to DESC and POOL (R86, R101) -/

theorem region_queueDesc (f : Fin 256) : regionOf (QUE.DESC f) = some .que := by
  have hlo : 0x40010000 ≤ QUE.DESC f := by simp only [QUE.DESC]; omega
  have hhi : QUE.DESC f < 0x40020000 := by simp only [QUE.DESC]; omega
  unfold regionOf
  rw [if_neg (by omega), if_neg (by omega), if_neg (by omega), if_pos hhi]

/-- A store to DESC that reaches the queue island (R34, R37, R39). -/
theorem State.poke_queueDesc {c : CoreId} (f : Fin 256) (val : Word) (h : s.allows c (QUE.DESC f) true = true) :
    s.poke c (QUE.DESC f) val = s.storeDesc f val := by
  obtain ⟨hal, hm, hlt, hset, hrow, hidx⟩ : QUE.DESC f % 4 = 0 ∧ 0x40000000 ≤ QUE.DESC f ∧ QUE.DESC f < 2 ^ 32 ∧
      QUE.DESC f < 0x40012000 ∧ QUE.DESC f % 0x20 = 0 ∧ (QUE.DESC f - 0x40010000) / 0x20 = f := by
    simp only [QUE.DESC]; omega
  refine (State.poke_allowed val h hal hm hlt (region_queueDesc f)).trans ((if_pos hset).trans ((if_pos hrow).trans ?_))
  rw [hidx]

theorem bitsOf_bit_beq (w : Word) (i : Nat) (h : i < 32) : (bitsOf w i i == 1) = w.getLsbD i := by
  rw [bitsOf_bit w i h]
  cases w.getLsbD i <;> rfl

/-- A quota that rises takes no more than the other quotas leave of the pool (R101). -/
theorem State.quotaClamp_le {x : Nat} (h : s.fld (QUE.DESC_QUOTA n) < x) :
    s.quotaClamp n x ≤ max (s.fld (QUE.DESC_QUOTA n)) (4096 - s.quotaSum (fun m => decide (m ≠ n))) := by
  unfold State.quotaClamp
  dsimp only
  rw [if_pos h]
  split <;> omega

/-- The fields of POOL: NAVECAP, which the choir writes, and SHORT, which no store changes. -/
theorem pool_fields : (regFind QUE.POOL).map (fun x => x.1.fields) =
    some [⟨27, 16, .rw, 2048, 0, 4095, false, [], true⟩, ⟨12, 0, .ro, 0, 0, 8191, false, [], false⟩] := by decide +kernel

theorem State.storeReg_pool (val : Word) : s.storeReg .choir QUE.POOL val = s.setFld QUE.POOL_NAVECAP (bitsOf val 27 16) := by
  obtain ⟨⟨r, k⟩, hr, hf⟩ := Option.map_eq_some_iff.mp pool_fields
  dsimp only at hf
  have hsl : hasSl r = false := by rw [hasSl, hf]; rfl
  have hval : storedVal ⟨27, 16, .rw, 2048, 0, 4095, false, [], true⟩ (bitsOf val 27 16) = some (bitsOf val 27 16) := by
    have hlt : bitsOf val 27 16 < 4096 := bitsOf_lt val 27 16
    have hclamp : clampInt 0 4095 (bitsOf val 27 16) = (bitsOf val 27 16 : Int) := by
      unfold clampInt
      rw [if_neg (by omega), if_neg (by omega)]
    exact congrArg (fun x : Int => some x.toNat) hclamp
  have hcap : s.storeField .choir QUE.POOL val ⟨27, 16, .rw, 2048, 0, 4095, false, [], true⟩ =
      s.setFld QUE.POOL_NAVECAP (bitsOf val 27 16) := by
    unfold State.storeField
    simp only [hval]
    rfl
  unfold State.storeReg
  simp only [hr, hsl, hf, List.foldl_cons, List.foldl_nil, hcap, Bool.false_eq_true, if_false]
  exact State.storeField_of_readOnly (.inl rfl)

/-- POOL takes stores of the choir alone (R34). -/
theorem State.pool_writer {c : CoreId} (h : s.allows c QUE.POOL true = true) : c = .choir := by
  cases c with
  | choir => rfl
  | nave =>
    have hscreen : s.reach .nave QUE.POOL true = some causeScreen :=
      (State.reach_of_region true (by decide) (by decide)).2.1 .que (by decide) (by decide)
    obtain ⟨-, hreach, -⟩ := State.allows_iff.mp h
    rw [hscreen] at hreach
    cases hreach

theorem State.poke_pool {c : CoreId} (val : Word) (h : s.allows c QUE.POOL true = true) :
    s.poke c QUE.POOL val = s.setFld QUE.POOL_NAVECAP (bitsOf val 27 16) := by
  obtain rfl := State.pool_writer h
  have hstore : s.storeQue .choir QUE.POOL val = s.storeReg .choir QUE.POOL val := if_neg (by decide)
  exact (State.poke_allowed val h (by decide) (by decide) (by decide) (g := .que) (by decide)).trans
    (hstore.trans (State.storeReg_pool val))

/-! ### What the pool leaves unchanged -/

theorem State.rebalance_regs : s.rebalance.regs = s.regs :=
  List.foldlRecOn (motive := fun u : State => u.regs = s.regs) _ _ rfl fun u hu a _ => by
    dsimp only
    split
    · exact hu
    · exact hu

theorem State.setBlocks_regs (l : List Nat) : (s.setBlocks n l).regs = s.regs := by
  unfold State.setBlocks
  dsimp only
  split
  · exact State.rebalance_regs
  · rfl

/-! ### States that differ in the words on the straits alone -/

/-- t differs from s in nothing but the words sent. -/
def State.SendsOnly (s t : State) : Prop := t = { s with wires := t.wires }

namespace State.SendsOnly

variable {t u : State}

theorem refl (s : State) : s.SendsOnly s := rfl

theorem trans (h : s.SendsOnly t) (h' : t.SendsOnly u) : s.SendsOnly u := by
  unfold State.SendsOnly at *
  rw [h', h]

theorem fld (h : s.SendsOnly t) (f : Fld) : t.fld f = s.fld f := by
  rw [h]
  rfl

theorem flag (h : s.SendsOnly t) (f : Fld) : t.flag f = s.flag f := congrArg (· == 1) (h.fld f)

theorem domOn (h : s.SendsOnly t) (d : Domain) : t.domOn d = s.domOn d := congrArg (· == 2) (h.fld (domField d))

theorem sacr (h : s.SendsOnly t) : t.sacr = s.sacr := by
  rw [h]

theorem raiseEvent (h : s.SendsOnly t) (src : Island) (c : CoreId) (k : Nat) : s.SendsOnly (t.raiseEvent src c k) := by
  refine h.trans ?_
  unfold State.raiseEvent State.send
  split
  · exact refl t
  · rfl

theorem eventIf (h : s.SendsOnly t) (b : Bool) {f : State → State} (hf : ∀ u, s.SendsOnly u → s.SendsOnly (f u)) :
    s.SendsOnly (t.eventIf b f) := by
  cases b
  · exact h
  · exact hf t h

theorem each {α : Type} (h : s.SendsOnly t) (l : List α) {f : State → α → State}
    (hf : ∀ u a, s.SendsOnly u → s.SendsOnly (f u a)) : s.SendsOnly (t.each l f) :=
  List.foldlRecOn l f h fun u hu a _ => hf u a hu

theorem notifyWatches (h : s.SendsOnly t) (n : Nat) (before : Bool) : s.SendsOnly (t.notifyWatches n before) := by
  unfold State.notifyWatches
  split
  · refine h.each _ fun u c hu => hu.each _ fun v k hv => ?_
    dsimp only
    split
    · exact hv.raiseEvent ..
    · exact hv
  · exact h

theorem repeatCrypt (h : s.SendsOnly t) : s.SendsOnly t.repeatCrypt :=
  eventIf (eventIf (eventIf (eventIf h _ fun _ hu => hu.raiseEvent .crypt .choir 2) _ fun _ hu => hu.raiseEvent .queue .choir 4)
    _ fun _ hu => hu.raiseEvent .queue .nave 4) _ fun _ hu => (hu.raiseEvent .crypt .choir 11).raiseEvent .crypt .nave 11

theorem cimEvent (h : s.SendsOnly t) (b : Nat) : s.SendsOnly (t.cimEvent b) := by
  unfold State.cimEvent
  split
  · exact h.raiseEvent ..
  · exact h

theorem repeatBank (h : s.SendsOnly t) (b : Nat) : s.SendsOnly (t.repeatBank b) :=
  eventIf (eventIf h _ fun _ hu => hu.cimEvent b) _ fun _ hu => hu.raiseEvent _ .nave 7

theorem repeatChoir (h : s.SendsOnly t) : s.SendsOnly t.repeatChoir :=
  eventIf (each h _ fun _ _ hu => hu.eventIf _ fun _ hv => hv.raiseEvent _ .choir 9) _
    fun _ hu => hu.raiseEvent .quantity .choir 10

end State.SendsOnly

/-! ### Repeated notices (R135) -/

/-- The domains that are ON stand while the notices go out. -/
theorem execEventRepeat_eq : exec .eventRepeat s = .next
    (let a := s.repeatCrypt
     let b := if s.domOn .shared then a.each (List.range 4) State.repeatBank else a
     let d := if s.domOn .choir then b.repeatChoir else b
     if s.domOn .nave then d.repeatNave else d) := by
  have ha : s.SendsOnly s.repeatCrypt := (State.SendsOnly.refl s).repeatCrypt
  have hb : s.SendsOnly (if s.domOn .shared then s.repeatCrypt.each (List.range 4) State.repeatBank else s.repeatCrypt) := by
    split
    · exact ha.each _ fun _ b hu => hu.repeatBank b
    · exact ha
  have hd : ∀ u : State, s.SendsOnly u → s.SendsOnly (if s.domOn .choir then u.repeatChoir else u) := fun u hu => by
    split
    · exact hu.repeatChoir
    · exact hu
  refine congrArg Host.Outcome.next ?_
  dsimp only
  rw [ha.domOn, hb.domOn, (hd _ hb).domOn]

theorem State.anyFlag_of_flag {l : List Fld} {f : Fld} (h : s.flag f = true) (hf : f ∈ l) : s.anyFlag l = true := by
  refine List.any_eq_true.mpr ⟨f, hf, ?_⟩
  rw [show s.fld f = 1 from beq_iff_eq.mp h]
  rfl

/-- With no message waiting and no entry stale, the crypt repeats its own notice alone (R63, R434, R442). -/
theorem State.repeatCrypt_eq (h : s.anyFlag [CRYPT.CLKSTAT_XTFAIL, CRYPT.CLKSTAT_XHFFAIL, CRYPT.VPULSTAT_FAULT] = true)
    (hcmd : s.sacr.mailCmd = none) (hreply : s.sacr.mailReply = none)
    (hstale : ∀ k < 67, s.flag (SYS.UNITSTATE_STALE k) = false) : s.repeatCrypt = s.raiseEvent .crypt .choir 2 := by
  have ht : s.SendsOnly (s.raiseEvent .crypt .choir 2) := (State.SendsOnly.refl s).raiseEvent ..
  have hnone : ((List.range 67).any fun u => (s.raiseEvent .crypt .choir 2).flag (SYS.UNITSTATE_STALE u)) = false :=
    List.any_eq_false.mpr fun u hu => by
      rw [ht.flag, hstale u (List.mem_range.mp hu)]
      decide
  simp only [State.repeatCrypt, State.eventIf, h, ht.sacr, hcmd, hreply, hnone, Option.isSome_none, Bool.false_eq_true,
    if_true, if_false]

/-! ### Rise and fall (R104) -/

theorem State.queueRises_flag_en : (s.queueRises n).flag (QUE.DESC_EN n) = s.flag (QUE.DESC_EN n) := by
  have hsends := ((State.SendsOnly.refl _).notifyWatches n false : State.SendsOnly _ (s.queueRises n))
  have haddr : (QUE.DESC_EN n).addr ≠ (QUE.STAT_LIFE n).addr := by
    simp only [QUE.DESC_EN, QUE.DESC, QUE.STAT_LIFE, QUE.STAT]; omega
  exact (hsends.flag _).trans (congrArg (· == 1) (State.fld_setFld_ne _ _ haddr))

/-- A request latched in DEFER stands while a queue reaches OFF. -/
theorem State.fallen_flag_defer (h : twf regReset s.regs = true) :
    (((s.setBlocks n []).setFld (QUE.STAT_LIFE n) 0).flag (QUE.STAT_DEFER n)) = s.flag (QUE.STAT_DEFER n) := by
  have hregs : (s.setBlocks n []).regs = s.regs := State.setBlocks_regs []
  have hapart : Fld.Apart (QUE.STAT_LIFE n) (QUE.STAT_DEFER n) := ⟨rfl, (by decide : 19 < 32), (by decide : 30 ≤ 31),
    Nat.le_refl 19, .inl (by decide : 19 < 30)⟩
  unfold State.flag
  rw [State.fld_setFld_apart (hregs.symm ▸ h) 0 hapart]
  unfold State.fld State.getReg
  rw [hregs]

end Sys2Proof.Machine
end

open Sys2Proof Sys2Proof.Machine in
/-- Settles O56, from the words of a delivery one after another, one round of the scrubber, the stores to DESC and POOL, and
what the notices leave unchanged. -/
theorem queuesDeliverScrubRiseAndFall : Obligations.QueuesDeliverScrubRiseAndFall := by
  unfold Obligations.QueuesDeliverScrubRiseAndFall
  intro s c val f hs n q
  refine ⟨fun k rest hp hg hn => ?deliver, fun hp => execQueueDeliver_nothing hp, fun j hd hin hj => ?scrub,
    fun hd hc => ?clean, fun hr => ?desc, fun x hx => State.quotaClamp_le hx, fun hr => congrArg _ (State.poke_pool val hr),
    fun hl => ?rise, fun hl => ?fall, execEventRepeat_eq, fun hflag hcmd hreply hstale => ?crypt⟩
  case deliver =>
    have hall : ∀ {i : Island}, consumerIsland (s.fld (QUE.DESC_CONSUMER n)) = some i → s.domOn (islandDomain i) →
        s.strait .queue i = .isOpen → exec (.queueDeliver f) s = .next (s.deliverAll n k.words.length) :=
      fun hi hd ho => execQueueDeliver_under_way hi hp hd ho hn
    have hwhole : (∀ x ∈ k.words, x.ecc = .good) → s.deliverAll n k.words.length =
        (s.atLastWord n k).handOver n (k.words.map (fun x => x.word)) k.marker := fun hgood =>
      State.deliverAll_good hgood hp hg (Nat.le_add_left ..)
    intro last crosses
    refine ⟨fun hx hc ho => ?quantity, fun p hx hc ho ht => ?belfry, fun hx hc ho => ?service,
      fun x i hi hd ho hw he => ?damaged⟩
    case quantity =>
      obtain ⟨hgood, hd⟩ := hx
      rw [hc] at hd
      exact (hall (i := .quantity) (by rw [hc]; rfl) hd ho).trans
        (congrArg _ ((hwhole hgood).trans (State.handOver_quantity ((State.atLastWord_fld ..).trans hc) _ _)))
    case belfry =>
      obtain ⟨hgood, hd⟩ := hx
      rw [hc] at hd
      exact (hall (i := .belfry) (by rw [hc]; rfl) hd ho).trans (congrArg _ ((hwhole hgood).trans
        (State.handOver_belfry ((State.atLastWord_fld ..).trans hc) ((State.atLastWord_bufTaker ..).trans ht) _ _)))
    case service =>
      obtain ⟨hgood, hd⟩ := hx
      rw [hc] at hd
      exact (hall (i := .service) (by rw [hc]; rfl) hd ho).trans
        (congrArg _ ((hwhole hgood).trans (State.handOver_service ((State.atLastWord_fld ..).trans hc) _ _)))
    case damaged =>
      obtain ⟨m, hm⟩ : ∃ m, k.words.length = m + 1 := ⟨k.words.length - 1, by omega⟩
      exact (hall hi hd ho).trans (congrArg _ (hm ▸ State.deliverAll_double m hw he))
  case scrub =>
    intro e1 e2
    refine ⟨fun hup hclean => ?single, fun hup hclean => ?double⟩
    case single =>
      exact (execCloisterScrub_one (e := e1) false hd hin hj rfl).trans (congrArg (fun u : State => (.next (u.settled n) : Out))
        ((State.scrub_single _ hup).trans (State.scrub_clean _ hclean)))
    case double =>
      exact (execCloisterScrub_one (e := e2) true hd hin hj rfl).trans (congrArg (fun u : State => (.next (u.settled n) : Out))
        ((State.scrub_double _ hup).trans (State.scrub_clean _ hclean)))
  case clean =>
    exact congrArg _ ((if_pos hd).trans (congrArg (fun u : State => u.settled n) (State.scrub_clean _ hc)))
  case desc =>
    refine congrArg _ ((State.poke_queueDesc f val hr).trans ?_)
    simp only [State.storeDesc, bitsOf_bit_beq val 31 (by decide), Bool.and_eq_true, Bool.or_eq_true, beq_iff_eq,
      decide_eq_true_eq, or_assoc]
    rfl
  case rise =>
    intro t r
    refine congrArg _ ((if_pos hl).trans ?_)
    show (if (s.queueRises n).flag (QUE.DESC_EN n) then s.queueRises n else (s.queueRises n).queueFalls n) = _
    rw [State.queueRises_flag_en]
    rfl
  case fall =>
    intro t
    refine congrArg _ ((if_pos hl).trans ?_)
    show (if t.flag (QUE.STAT_DEFER n) then (t.setFlag (QUE.STAT_DEFER n) false).setFld (QUE.STAT_LIFE n) 1 else t) = _
    rw [State.fallen_flag_defer hs.regs]
  case crypt =>
    refine State.repeatCrypt_eq ?_ hcmd hreply hstale
    rcases hflag with h | h | h
    · exact State.anyFlag_of_flag h (by simp)
    · exact State.anyFlag_of_flag h (by simp)
    · exact State.anyFlag_of_flag h (by simp)

section
/-! O23: shots; a request of a device instruction toward an island that answers it (R32, R39, R151, R152). -/
namespace Sys2Proof.Machine

variable {s : State}

/-- A request toward an island that answers it (R32, R39). -/
theorem State.toReplying_served {c : CoreId} {i : Island} (addr kind : Nat) (body : State → State) (h : s.serves c i = true) :
    s.toReplying c i addr kind body = body s := by
  unfold State.serves at h
  simp only [Bool.and_eq_true, Bool.not_eq_true'] at h
  obtain ⟨hdark, hsilent⟩ := h
  exact (State.toIsland_reached _ _ _ hdark).trans (if_neg (Bool.eq_false_iff.mp hsilent))

/-! ### Shots (R151, R152) -/

theorem State.endStep_retire (c : CoreId) (n : Nat) :
    (s.retire c n).endStep c = s.setCore c ((s.core c).goesOn n) := by
  rw [State.endStep_eq, State.retire, State.core_onCore_self, State.onCore, State.setCore_setCore]
  rfl

/-- On the choir core a shot puts its command word on the strait to the lead isle (R151). -/
theorem State.shot_choir {i : Issue} (h : s.ready i = true) (hc : i.core = .choir) (ra : Reg) (seq : BitVec 8) (dir pair : Bool)
    (op : Nat) {pd : Nat} (hpd : ((s.issued i.core [ra]).reg i.core ra).toNat % 128 = pd) :
    (.next (s.shot i ra seq dir pair op) : Out) =
      let m := s.issued i.core [ra]
      let u := m.send .choirCore (isleIsland (m.fld (ISLE0.PDCTL_PORTA pd) / 8)) tagWdata (cmdWord ⟨pd, seq.toNat, dir, pair⟩)
      .next (u.setCore i.core ((u.core i.core).goesOn 1)) := by
  have hbits : bitsOf ((s.issued i.core [ra]).reg i.core ra) 6 0 = pd := (bitsOf_low _ (by decide)).trans hpd
  refine (State.next_issue h (State.choirOnly_choir _ _ hc)).trans ?_
  rw [hbits, State.endStep_retire]
  rfl

end Sys2Proof.Machine
end

open Sys2Proof Sys2Proof.Machine in
/-- Settles O23, from the issue of a ready instruction, the word that the choir core sends and the fault of the nave core. -/
theorem shotsGoToTheLeadIsle : Obligations.ShotsGoToTheLeadIsle := by
  unfold Obligations.ShotsGoToTheLeadIsle
  intro s i ra seq dir h c m pd isle shoots forbids
  refine ⟨fun hc => ⟨?shot, ?shot2⟩, fun hc => ⟨?forbidShot, ?forbidShot2⟩⟩
  case shot => exact State.shot_choir h hc ra seq dir false 0x20 rfl
  case shot2 => exact State.shot_choir h hc ra seq dir true 0x21 rfl
  case forbidShot => exact State.next_issue h (State.choirOnly_nave _ _ hc)
  case forbidShot2 => exact State.next_issue h (State.choirOnly_nave _ _ hc)

section
/-! O25: the lease of a bank (R159, R237, R238). -/
namespace Sys2Proof.Machine

variable {s : State} {b : Nat}

/-! ### TAKE by the choir core -/

theorem State.leaseTake_of_free (h : s.fld (CIM.LEASE_HOLDER b) = 0) (hl : s.fld (CIM.LEASE_LASTDOM b) ≠ 2) :
    s.leaseTake .choir b = (s.setHolder b 1, statusDone) := by
  simp only [State.leaseTake, h, hl, if_false]

/-- A bank that the nave held last is wiped first (R240). -/
theorem State.leaseTake_of_free_used (h : s.fld (CIM.LEASE_HOLDER b) = 0) (hl : s.fld (CIM.LEASE_LASTDOM b) = 2) :
    s.leaseTake .choir b = (s.wipeFor b 1, statusDeferred) := by
  simp only [State.leaseTake, h, hl, if_true]

theorem State.leaseTake_of_own (h : s.fld (CIM.LEASE_HOLDER b) = 1) : s.leaseTake .choir b = (s, statusDone) := by
  simp only [State.leaseTake, h]

/-- A bank that isles hold, with no change waiting: at once when idle, else once its verdicts are out (R239). -/
theorem State.leaseTake_of_isles (h : s.fld (CIM.LEASE_HOLDER b) = 2) (hp : s.flag (CIM.LEASE_PEND b) = false) :
    s.leaseTake .choir b = if s.bankIdle b then (s.setHolder b 1, statusDone) else (s.setPend b true 1, statusDeferred) := by
  simp only [State.leaseTake, h, hp, Bool.false_eq_true, if_false]

theorem State.leaseTake_of_pending (h : s.fld (CIM.LEASE_HOLDER b) = 2) (hp : s.flag (CIM.LEASE_PEND b) = true) :
    s.leaseTake .choir b = (s, statusDeferred) := by
  simp only [State.leaseTake, h, hp, if_true]

/-- The nave loses its bank, which is wiped. -/
theorem State.leaseTake_of_nave (h : s.fld (CIM.LEASE_HOLDER b) = 3) : s.leaseTake .choir b =
    (((s.setFlag (CIM.FAULTS_LOST b) true).raiseEvent (bankIsland b) .nave 7).wipeFor b 1, statusDeferred) := by
  simp only [State.leaseTake, h]

theorem State.leaseTake_of_wiping (h : s.fld (CIM.LEASE_HOLDER b) = 4) :
    s.leaseTake .choir b = (s.setPend b true 1, statusDeferred) := by
  simp only [State.leaseTake, h]

/-! ### TAKE by the nave core -/

theorem State.leaseTake_nave_barred (h : s.fld (CIM.LEASE_HOLDER b) = 0) (ho : s.flag (CIM.LEASE_NAVEOK b) = false) :
    s.leaseTake .nave b = (s, statusDenied) := by
  simp only [State.leaseTake, h, ho, if_true]

theorem State.leaseTake_nave_allowed (h : s.fld (CIM.LEASE_HOLDER b) = 0) (ho : s.flag (CIM.LEASE_NAVEOK b) = true) :
    s.leaseTake .nave b = if s.fld (CIM.LEASE_LASTDOM b) = 1 then (s.wipeFor b 3, statusDeferred)
      else (s.setHolder b 3, statusDone) := by
  simp only [State.leaseTake, h, ho, Bool.true_eq_false, if_false]

theorem State.leaseTake_nave_own (h : s.fld (CIM.LEASE_HOLDER b) = 3) : s.leaseTake .nave b = (s, statusDone) := by
  simp only [State.leaseTake, h]

theorem State.leaseTake_nave_held (h : s.fld (CIM.LEASE_HOLDER b) = 1 ∨ s.fld (CIM.LEASE_HOLDER b) = 2 ∨
    s.fld (CIM.LEASE_HOLDER b) = 4) : s.leaseTake .nave b = (s, statusDenied) := by
  rcases h with h | h | h <;> simp only [State.leaseTake, h]

/-! ### The instruction -/

/-- A lease instruction whose bank answers: what f makes of the lease, and its status (R159). -/
theorem State.lease_answers {i : Issue} {ra rb : Reg} (h : s.ready i = true) (rd : Reg)
    (f : State → CoreId → Nat → Nat → State × Word)
    (hb : ((s.issued i.core [ra, rb]).reg i.core ra).toNat % 4 = b)
    (hs : (s.issued i.core [ra, rb]).serves i.core (bankIsland b) = true) {m : State} {v : Word}
    (hf : f (s.issued i.core [ra, rb]) i.core b (((s.issued i.core [ra, rb]).reg i.core rb).toNat % 16) = (m, v)) :
    ∃ t, (.next (s.lease i rd ra rb f) : Out) = .next t ∧ Answers m t i.core rd v 4000 := by
  have hbank : bitsOf ((s.issued i.core [ra, rb]).reg i.core ra) 1 0 = b := (bitsOf_low _ (by decide)).trans hb
  have hisle : bitsOf ((s.issued i.core [ra, rb]).reg i.core rb) 3 0 = ((s.issued i.core [ra, rb]).reg i.core rb).toNat % 16 :=
    bitsOf_low _ (by decide)
  subst hbank
  exact State.next_answers h ((State.toReplying_served _ _ _ hs).trans (by dsimp only; rw [hisle, hf])) (by decide)

end Sys2Proof.Machine
end

open Sys2Proof Sys2Proof.Machine in
/-- Settles O25, from what each operation makes of each state of the lease. -/
theorem leaseInstructionsChangeTheHolder : Obligations.LeaseInstructionsChangeTheHolder := by
  unfold Obligations.LeaseInstructionsChangeTheHolder
  intro s i rd ra rb hready c m b isle h last answers take give release wipe hs
  have takes : ∀ {u : State} {v : Word}, m.leaseTake c b = (u, v) → take u v :=
    State.lease_answers hready rd (fun s c b _ => s.leaseTake c b) rfl hs
  have gives : ∀ {u : State} {v : Word}, m.leaseGive c b isle = (u, v) → give u v :=
    State.lease_answers hready rd (fun s c b n => s.leaseGive c b n) rfl hs
  have releases : ∀ {u : State} {v : Word}, m.leaseRelease c b = (u, v) → release u v :=
    State.lease_answers hready rd (fun s c b _ => s.leaseRelease c b) rfl hs
  refine ⟨fun hc => ?choir, fun hc => ?nave⟩
  case choir =>
    rw [hc] at takes gives releases
    exact ⟨fun h0 hl => takes (State.leaseTake_of_free h0 hl), fun h0 hl => takes (State.leaseTake_of_free_used h0 hl),
      fun h1 => takes (State.leaseTake_of_own h1),
      fun h2 hp hi => takes ((State.leaseTake_of_isles h2 hp).trans (if_pos hi)),
      fun h2 hp hi => takes ((State.leaseTake_of_isles h2 hp).trans (if_neg (Bool.eq_false_iff.mp hi))),
      fun h2 hp => takes (State.leaseTake_of_pending h2 hp), fun h3 => takes (State.leaseTake_of_nave h3),
      fun h4 => takes (State.leaseTake_of_wiping h4), fun h1 => gives (if_pos h1), fun h1 => gives (if_neg h1),
      fun h1 => releases (if_pos (.inl ⟨rfl, h1⟩)), fun h1 => releases (if_neg (by simpa using h1))⟩
  case nave =>
    rw [hc] at takes gives releases
    exact ⟨fun h0 ho => takes (State.leaseTake_nave_barred h0 ho),
      fun h0 ho hl => takes ((State.leaseTake_nave_allowed h0 ho).trans (if_pos hl)),
      fun h0 ho hl => takes ((State.leaseTake_nave_allowed h0 ho).trans (if_neg hl)),
      fun h3 => takes (State.leaseTake_nave_own h3), fun hh => takes (State.leaseTake_nave_held hh), gives rfl,
      fun h3 => releases (if_pos (.inr ⟨rfl, h3⟩)), fun h3 => releases (if_neg (by simpa using h3))⟩

section
/-! O27: tally and ledg of the choir core (R162 to R165). -/
namespace Sys2Proof.Machine

variable {s : State}

theorem natsFrom_eq (a n : Nat) : natsFrom a n = (List.range n).map (a + ·) := by
  rw [← List.range'_eq_map_range]
  induction n generalizing a with
  | zero => rfl
  | succ n ih => rw [natsFrom, ih, List.range'_succ]

/-- A tally instruction of the choir core whose numbers and operand are good: the values that it reads land in own SRAM (R163). -/
theorem State.tallyRequest_answers {i : Issue} {ra rb : Reg} (h : s.ready i = true) (hc : i.core = .choir) (rd : Reg)
    {names : Nat → Option (List Nat)} (f : State → List Nat → State × List Nat) {most : Nat} (hm : 50 ≤ most)
    {l : List Nat}
    (hn : names ((s.issued i.core [ra, rb]).reg i.core ra).toNat = some l)
    (ho : sramOperand i.core ((s.issued i.core [ra, rb]).reg i.core rb) (8 * l.length) = true)
    (hs : (s.issued i.core [ra, rb]).serves i.core .quantity = true) :
    ∃ t, (.next (s.tallyRequest i rd ra rb names f most) : Out) = .next t ∧
      Answers ((f (s.issued i.core [ra, rb]) l).1.writeValues i.core ((s.issued i.core [ra, rb]).reg i.core rb).toNat
        (f (s.issued i.core [ra, rb]) l).2) t i.core rd 0 most := by
  refine State.next_answers h ((State.choirOnly_choir _ _ hc).trans ?_) hm
  simp only [hn]
  exact (if_neg (by rw [ho]; decide)).trans (State.toReplying_served _ _ _ hs)

end Sys2Proof.Machine
end

open Sys2Proof Sys2Proof.Machine in
/-- Settles O27, from the tally request whose numbers and operand are good, and the requests to the ledger. -/
theorem tallyAndLedgerInstructions : Obligations.TallyAndLedgerInstructions := by
  unfold Obligations.TallyAndLedgerInstructions
  intro s i rd ra rb h hc
  obtain ⟨c, zero⟩ := i
  obtain rfl : c = .choir := hc
  intro m a n reads twelve
  have htwelve : conduitNumbers n = some twelve := congrArg some (natsFrom_eq _ _)
  refine ⟨fun hn => ?read, fun hn => ?index, ?conduit, ?condix, fun hs => ?log, ?commit⟩
  case read => exact fun ho hs => State.tallyRequest_answers h rfl rd _ (by decide) (if_pos hn) ho hs
  case index => exact fun ho hs => State.tallyRequest_answers h rfl rd _ (by decide) (if_pos hn) ho hs
  case conduit => exact fun ho hs => State.tallyRequest_answers h rfl rd _ (by decide) htwelve ho hs
  case condix => exact fun ho hs => State.tallyRequest_answers h rfl rd _ (by decide) htwelve ho hs
  case log => exact State.next_answers h ((State.choirOnly_choir _ _ rfl).trans (State.toReplying_served _ _ _ hs)) (by decide)
  case commit =>
    intro u hs
    refine State.next_answers h ((State.choirOnly_choir _ _ rfl).trans ((State.toReplying_served _ _ _ hs).trans ?_)) (by decide)
    dsimp only
    cases u.qty.commit.isSome <;> rfl

section
/-! O28: ldtm, usync and rood (R166 to R168, R333, R432, R459). -/
namespace Sys2Proof.Machine

variable {s : State}

/-! ### What the issue of an instruction leaves unchanged -/

theorem State.send_getReg (src dst : Island) (tag : BitVec 4) (w : Word) (a : Nat) :
    (s.send src dst tag w).getReg a = s.getReg a := by
  unfold State.send
  split <;> rfl

theorem State.activity_getReg {u a : Nat} (h : a ≠ SYS.UNITSTATE u) : (s.activity u).getReg a = s.getReg a := by
  unfold State.activity State.raiseBoth State.raiseEvent
  split
  · rw [State.send_getReg, State.send_getReg]
    exact s.getReg_putReg_ne _ h
  · rfl

theorem State.activity_crypt (u : Nat) : (s.activity u).crypt = s.crypt := by
  unfold State.activity State.raiseBoth State.raiseEvent State.send
  repeat' split
  all_goals rfl

theorem State.activity_sacr (u : Nat) : (s.activity u).sacr = s.sacr := by
  unfold State.activity State.raiseBoth State.raiseEvent State.send
  repeat' split
  all_goals rfl

theorem State.issued_timeSec (c : CoreId) (srcs : List Reg) : (s.issued c srcs).timeSec = s.getReg CRYPT.TIME_SEC := by
  have hcore : (s.issued c srcs).timeSec = (s.activity (coreNum c)).getReg CRYPT.TIME_SEC := by cases c <;> rfl
  exact hcore.trans (State.activity_getReg (by cases c <;> decide))

theorem State.issued_crypt (c : CoreId) (srcs : List Reg) : (s.issued c srcs).crypt = s.crypt :=
  (State.setCore_crypt _ c _).trans (State.activity_crypt _)

theorem State.issued_sacr (c : CoreId) (srcs : List Reg) : (s.issued c srcs).sacr = s.sacr :=
  (State.setCore_sacr _ c _).trans (State.activity_sacr _)

/-! ### The mirror (R167, R459) -/

theorem State.usync_eq (u : Nat) :
    let dark := s.dom (unitDomain u) == 0
    let st := if dark then 0 else s.life u
    let ep := if dark then s.fld (SYS.UNITSTATE_EPOCH u) else s.epoch u
    let stale := s.flag (SYS.UNITSTATE_STALE u)
    s.usync u = (((s.setFld (SYS.UNITSTATE_STATE u) st).setFld (SYS.UNITSTATE_EPOCH u) ep).setFlag (SYS.UNITSTATE_STALE u) false,
      BitVec.ofNat 32 (u + 2 ^ 8 * st + 2 ^ 10 * ep + 2 ^ 18 * stale.toNat + 2 ^ 19 * dark.toNat)) := by
  have hnat : ∀ b : Bool, b.toNat = natOfBool b := by decide
  intro dark st ep stale
  rw [hnat, hnat]
  rfl

/-! ### The mailbox (R168, R333) -/

theorem State.mailTake_choir {p : Word × Word} (h : s.sacr.mailCmd = some p) :
    s.mailTake .choir = ({ s with sacr := { s.sacr with mailCmd := none } }, p) := by
  simp only [State.mailTake, h]
  rfl

theorem State.mailTake_nave {p : Word × Word} (h : s.sacr.mailReply = some p) :
    s.mailTake .nave = ({ s with sacr := { s.sacr with mailReply := none } }, p) := by
  simp only [State.mailTake, h]
  rfl

theorem State.mailTake_choir_none (h : s.sacr.mailCmd = none) : s.mailTake .choir = (s, 0, 0) := by
  simp only [State.mailTake, h]

theorem State.mailTake_nave_none (h : s.sacr.mailReply = none) : s.mailTake .nave = (s, 0, 0) := by
  simp only [State.mailTake, h]

theorem State.navePost_full (cmd arg : Word) (h : s.sacr.mailCmd ≠ none) : s.navePost cmd arg = (s, 6) :=
  if_pos (Option.isSome_iff_ne_none.mpr h)

theorem State.navePost_passed {cmd arg : Word} (h : s.sacr.mailCmd = none) (hc : s.roodCause cmd arg = 0) :
    s.navePost cmd arg = ({ s with sacr := { s.sacr with mailCmd := some (cmd, arg) } }.raiseEvent .queue .choir 4, 0) := by
  simp only [State.navePost, h, hc, Option.isSome_none, Bool.false_eq_true, if_false, if_true]
  rfl

/-- The screen rejects a command: REJECTS, CAUSE and LASTOP, and an entry of the log (R334, R336). -/
theorem State.navePost_rejected {cmd arg : Word} (h : s.sacr.mailCmd = none) (hc : s.roodCause cmd arg ≠ 0) :
    s.navePost cmd arg = ((((s.bump ROOD.MBSTAT_REJECTS 1).setFld ROOD.MBSTAT_CAUSE (s.roodCause cmd arg)).setFld
      ROOD.MBSTAT_LASTOP (bitsOf cmd 31 24)).logEvent logRoodReject cmd (BitVec.ofNat 32 (s.roodCause cmd arg)), 0) := by
  simp only [State.navePost, h, hc, Option.isSome_none, Bool.false_eq_true, if_false]

theorem State.choirPost_noton (cmd arg : Word) (h : s.domOn .nave = false) : s.choirPost cmd arg = (s, 1) :=
  if_pos (by rw [h]; decide)

theorem State.choirPost_on (cmd arg : Word) (h : s.domOn .nave = true) : s.choirPost cmd arg =
    if s.sacr.mailReply.isSome then (s, 6)
    else ({ s with sacr := { s.sacr with mailReply := some (cmd, arg) } }.raiseEvent .queue .nave 4, 0) :=
  if_neg (by rw [h]; decide)

/-! ### The instructions -/

section Served

variable {i : Issue} {ra rb : Reg} (h : s.ready i = true)
include h

/-- Two destinations that do not name one register make no fault (R149). -/
theorem next_twoDestinations {rd ra : Reg} (hd : ¬(rd = ra ∧ rd ≠ 0)) {island : Island}
    (hs : (s.issued i.core []).serves i.core island = true) {addr op : Nat} {request : State → State} {m : State} {v : Word}
    (hb : request (s.issued i.core []) = m.deviceDone i.core rd v 4000) :
    ∃ t, (.next (s.issue i [] (fun s => if sameReg rd ra then s.devFault i.core op 0x06
      else s.toReplying i.core island addr 0 request)) : Out) = .next t ∧ Answers m t i.core rd v 4000 :=
  State.next_answers h ((if_neg (by simpa [sameReg] using hd)).trans ((State.toReplying_served _ _ _ hs).trans hb)) (by decide)

theorem execRoodTake_answers {rd ra : Reg} (hd : ¬(rd = ra ∧ rd ≠ 0)) (hs : (s.issued i.core []).serves i.core .queue = true)
    {m : State} {p : Word × Word} (ht : (s.issued i.core []).mailTake i.core = (m, p)) :
    ∃ t, exec (.roodTake i rd ra) s = .next t ∧ Answers (m.setReg i.core ra p.2) t i.core rd p.1 4000 :=
  next_twoDestinations h hd hs
    (congrArg (fun r : State × Word × Word => (r.1.setReg i.core ra r.2.2).deviceDone i.core rd r.2.1 4000) ht)

theorem execRoodPost_answers (rd : Reg) (hs : (s.issued i.core [ra, rb]).serves i.core .queue = true) {u : State} {status : Nat}
    (hp : (match i.core with
      | .nave => (s.issued i.core [ra, rb]).navePost
      | .choir => (s.issued i.core [ra, rb]).choirPost)
      ((s.issued i.core [ra, rb]).reg i.core ra) ((s.issued i.core [ra, rb]).reg i.core rb) = (u, status)) :
    ∃ t, exec (.roodPost i rd ra rb) s = .next t ∧ Answers u t i.core rd (BitVec.ofNat 32 status) 4000 := by
  obtain ⟨c, zero⟩ := i
  cases c
  case choir => exact State.next_answers h ((State.toReplying_served _ _ _ hs).trans
    (congrArg (fun r : State × Nat => r.1.deviceDone .choir rd (BitVec.ofNat 32 r.2) 4000) hp)) (by decide)
  case nave => exact State.next_answers h ((State.toReplying_served _ _ _ hs).trans
    (congrArg (fun r : State × Nat => r.1.deviceDone .nave rd (BitVec.ofNat 32 r.2) 4000) hp)) (by decide)

end Served

end Sys2Proof.Machine
end

open Sys2Proof Sys2Proof.Machine in
/-- Settles O28, from the requests that their islands serve and what each makes of the clock, the mirror and the mailbox. -/
theorem clockMirrorAndMailboxInstructions : Obligations.ClockMirrorAndMailboxInstructions := by
  unfold Obligations.ClockMirrorAndMailboxInstructions
  intro s i rd ra rb h c ends
  refine ⟨?clockAndTake, ?usync, ?post⟩
  case clockAndTake =>
    intro m ticks
    have hsec : m.timeSec = s.getReg CRYPT.TIME_SEC := State.issued_timeSec _ _
    have hcrypt : m.crypt = s.crypt := State.issued_crypt _ _
    have hsacr : m.sacr = s.sacr := State.issued_sacr _ _
    refine ⟨fun hd hs => ?split, fun hs => ?ticks, fun hd hs => ?take⟩
    case split =>
      refine next_twoDestinations h hd hs ?_
      rw [← hsec]
      dsimp only [State.timeSub]
      rw [hcrypt]
    case ticks => exact State.next_answers h ((State.toReplying_served _ _ _ hs).trans (by rw [hcrypt])) (by decide)
    case take =>
      obtain ⟨core, zero⟩ := i
      rw [← hsacr]
      cases core
      case choir =>
        cases hm : m.sacr.mailCmd with
        | some p => exact execRoodTake_answers h hd hs (State.mailTake_choir hm)
        | none => exact execRoodTake_answers (p := (0, 0)) h hd hs (State.mailTake_choir_none hm)
      case nave =>
        cases hm : m.sacr.mailReply with
        | some p => exact execRoodTake_answers h hd hs (State.mailTake_nave hm)
        | none => exact execRoodTake_answers (p := (0, 0)) h hd hs (State.mailTake_nave_none hm)
  case usync =>
    intro m u dark st ep stale hu hs
    have hbits : bitsOf (m.reg c ra) 7 0 = u := bitsOf_low _ (by decide)
    refine State.next_answers h ?_ (by decide)
    dsimp only
    rw [hbits]
    refine (if_neg (Nat.not_le.mpr hu)).trans ((State.toReplying_served _ _ _ hs).trans ?_)
    rw [State.usync_eq]
  case post =>
    intro m p hs
    obtain ⟨core, zero⟩ := i
    cases core
    case nave =>
      exact ⟨fun hf => execRoodPost_answers h rd hs (State.navePost_full _ _ hf),
        fun hn hc => execRoodPost_answers h rd hs (State.navePost_passed hn hc),
        fun hn cause hc h0 => hc ▸ execRoodPost_answers h rd hs (State.navePost_rejected hn (hc ▸ h0))⟩
    case choir =>
      exact ⟨fun hd => execRoodPost_answers h rd hs (State.choirPost_noton _ _ hd),
        fun hd hf => execRoodPost_answers h rd hs
          ((State.choirPost_on _ _ hd).trans (if_pos (Option.isSome_iff_ne_none.mpr hf))),
        fun hd hn => execRoodPost_answers h rd hs ((State.choirPost_on _ _ hd).trans (if_neg (by rw [hn]; decide)))⟩

section
/-! O37: a shot-set from its command to its listening (R151 to R154, R182, R185, R187, R188, R201 to R203). -/
namespace Sys2Proof.Machine

variable {s : State} {n : Fin 16}

/-! ### Commands -/

/-- The set of a command that starts: its copy of the descriptor (R182). -/
def State.startedSet (s : State) (n : Nat) (c : ShotCmd) (gain group shot : Nat) : ShotSet :=
  let ctl := s.getReg (ISLE0.PDCTL c.pd)
  { cmd := c, ctl := ctl, burst := s.getReg (ISLE0.PDBURST c.pd), win := s.getReg (ISLE0.PDWIN c.pd),
    gains := s.getReg (ISLE0.PDGAIN c.pd), gain := gain, bank := s.bankOf n, second := false, phase := .lead,
    tokenWait := decide (group ≠ 0), claimWait := decide (ctlKind ctl = 0) && decide (ctlPortB ctl / 8 = twinOf n),
    delayed := false, drvsub := false, time := s.stamp, arrival := none, centred := false, window := Window.empty,
    shot := shot, setPeak := none, setClip := false }

/-- A set asks for the token of its group; none outside the groups (R198). -/
def State.requested (s : State) (group n : Nat) : State :=
  if group = 0 then s else s.onIsles (fun i => { i with requests := i.requests ++ [(group, n)] })

/-- A twin without a set, or whose set waits for no claim, asks for nothing (R184). -/
theorem twinAsks_eq_false {o : Option ShotSet} : (∀ y, o = some y → y.claimWait = false) →
    (match o with | some x => x.claimWait | none => false) = false := by
  intro h
  cases o with
  | none => rfl
  | some y => exact h y rfl

section Command

variable {c : ShotCmd} {rest : List ShotCmd} (hq : (s.isle n).cmds = c :: rest) (hl : s.fld (ISLE.STAT_LIFE n) = 2)
  (hcur : (s.isle n).cur = none) (hclaim : s.flag (ISLE.STAT_CLAIMED n) = false)
  (htwin : ∀ y, (s.isle (twinOf n)).cur = some y → y.claimWait = false) (hx : s.flag CRYPT.CLKSTAT_XHFOK = true)
include hq hl hcur hclaim htwin hx

/-- The oldest command of an isle that is ON, free, unclaimed and clocked, and cannot start (R154). -/
theorem execIsleCommandStart_refused {r : Nat} (hr : s.startRefusal n c = some r) :
    exec (.isleCommandStart n) s = .next
      (((s.setIsle n { s.isle n with cmds := rest }).refuseShots n (s.getReg (ISLE0.PDCTL c.pd)) c r).isleRun n) := by
  refine congrArg Host.Outcome.next ?_
  dsimp only
  rw [hq]
  refine (if_pos ⟨hl, hcur, hclaim, twinAsks_eq_false htwin, hx⟩).trans ?_
  rw [hr]

/-- One that starts takes its gain within the leash's limits, asks for its token and begins its lead (R182, R194, R198). -/
theorem execIsleCommandStart_started (hr : s.startRefusal n c = none) {gain group : Nat} {u : State} :
    let ctl := s.getReg (ISLE0.PDCTL c.pd)
    let lim := gainLimits ctl (s.getReg (ISLE0.PDGAIN c.pd))
    let t := s.setIsle n { s.isle n with cmds := rest }
    gain = (if ctlKind ctl < 2 then t.limit 132 lim.1 lim.2 (t.fld (ISLE0.PDGAIN_WGAIN c.pd)) else 0) →
    u = (if ctlKind ctl < 2 then (t.setFld (ISLE0.PDGAIN_WGAIN c.pd) gain).spend else t) →
    group = (if ctlKind ctl < 2 then ctlExg ctl else 0) →
    let v := u.requested group n
    exec (.isleCommandStart n) s = .next (((v.setIsle n { v.isle n with
      cur := some (s.startedSet n c gain group (s.isle n).next), next := (s.isle n).next + 1 }).setFlag
        (ISLE.STAT_DCO n) true).isleSync n) := by
  intro ctl lim t hgain hu hgroup v
  refine congrArg Host.Outcome.next ?_
  subst hgain hu hgroup
  dsimp only
  rw [hq]
  refine (if_pos ⟨hl, hcur, hclaim, twinAsks_eq_false htwin, hx⟩).trans ?_
  rw [hr]
  rfl

end Command

/-! ### Bursts -/

/-- A burst starts once its set waits for no grant, no line recovers and XHF runs (R185, R203, R477). -/
theorem execBurstStart_ready {x : ShotSet} (clast : Nat) (hx : (s.isle n).cur = some x) (hp : x.phase = .lead)
    (hk : ctlKind x.ctl < 2) (ht : x.tokenWait = false) (hc : x.claimWait = false)
    (hr : s.flag (ISLE.STAT_RECOV n) = false)
    (htw : ctlKind x.ctl = 0 → ctlPortB x.ctl / 8 = twinOf n → s.flag (ISLE.STAT_RECOV (twinOf n)) = false)
    (hclk : s.flag CRYPT.CLKSTAT_XHFOK = true) :
    exec (.burstStart n clast) s = .next (
      let noVpul := bitsOf x.ctl 28 28 == 1 && !s.flag CRYPT.VPULSTAT_OK
      let y := { x with time := s.stamp, drvsub := noVpul }
      let sensed := s.setFld (ISLE.SENSE_CLAST (shotTx y / 8)) (min clast 0xFFFF)
      if noVpul && bitsOf x.ctl 27 27 == 1 then
        ((s.failPair n y reasonNovpul 0).isleFault n x.cmd.pd (some (ISLE.FAULTS_NOVPUL n))).isleRun n
      else if min clast 0xFFFF < sensed.fld (ISLE.SENSE_OPENC (shotTx y / 8)) then
        ((sensed.failPair n y reasonOpen flagOpen).isleFault n x.cmd.pd (some (ISLE.FAULTS_OPEN n))).isleRun n
      else (sensed.setCur n { y with phase := .burst }).tokenHeld n) := by
  have hrecov : (s.flag (ISLE.STAT_RECOV n) || ((decide (ctlPortB x.ctl / 8 = twinOf n) && decide (ctlKind x.ctl = 0)) &&
      s.flag (ISLE.STAT_RECOV (twinOf n)))) = false := by
    rw [hr, Bool.false_or, Bool.and_eq_false_iff]
    by_cases h : ctlPortB x.ctl / 8 = twinOf n ∧ ctlKind x.ctl = 0
    · exact .inr (htw h.2 h.1)
    · exact .inl (by simpa using h)
  refine congrArg Host.Outcome.next ?_
  simp only [hx, hp, hk, ht, hc, hrecov, hclk, and_self, if_true]

/-- A short ends the shot during its burst and its damping pulses (R202). -/
theorem execShort_driving {x : ShotSet} (hx : (s.isle n).cur = some x)
    (hp : x.phase = .burst ∨ (x.phase = .clamp ∧ bitsOf x.burst 21 18 ≠ 0)) : exec (.short n) s =
      .next (((s.failPair n x reasonShort flagShort).isleFault n x.cmd.pd (some (ISLE.FAULTS_SHORT n))).isleRun n) := by
  refine congrArg Host.Outcome.next ?_
  simp only [hx]
  exact if_pos (hp.imp_right (And.imp_right Nat.pos_of_ne_zero))

theorem State.phaseStep_eq {x : ShotSet} {p : Phase} (q : Phase) (hx : (s.isle n).cur = some x) (hp : x.phase = p) :
    s.phaseStep n p q = s.setCur n { x with phase := q } := by
  simp only [State.phaseStep, hx, hp, if_true]

end Sys2Proof.Machine
end

open Sys2Proof Sys2Proof.Machine in
/-- Settles O37, from a command that is tried, a burst that starts, and the phases that follow it. -/
theorem shotSetsStartAndFire : Obligations.ShotSetsStartAndFire := by
  unfold Obligations.ShotSetsStartAndFire
  intro s n clast k twinFree
  refine ⟨fun c rest hq hl hcur hclaim htwin hx => ?command,
    fun x hx hp hk ht hc hr htw hclk => execBurstStart_ready clast hx hp hk ht hc hr htw hclk,
    fun x hx hp => execShort_driving hx hp, fun x hx hp => congrArg _ (State.phaseStep_eq _ hx hp),
    fun x hx hp => congrArg _ (State.phaseStep_eq _ hx hp), rfl⟩
  case command =>
    intro ctl t
    refine ⟨fun r hr => execIsleCommandStart_refused hq hl hcur hclaim htwin hx hr, fun hr => ?started⟩
    case started =>
      intro acoustic gains lim gain u group v
      have hkind : ∀ {α : Type} (a b : α), (if acoustic then a else b) = if ctlKind ctl < 2 then a else b := fun a b => by
        simp only [acoustic, decide_eq_true_eq]
      exact ⟨s.startedSet n c gain group k.next, rfl, rfl, rfl, rfl, rfl, rfl, rfl, rfl, rfl, rfl, rfl, rfl, rfl,
        execIsleCommandStart_started hq hl hcur hclaim htwin hx hr (hkind _ _) (hkind _ _) (hkind _ _)⟩

section
/-! Laws of the boot ROM and of the image slots (R171 to R174, R350). -/
namespace Sys2Proof.Machine

variable {s t : State}

/-! ### What a boot leaves unchanged -/

theorem State.setRun_core (c : CoreId) (r : Run) : (s.setRun c r).core c = { s.core c with run := r } := by
  unfold State.setRun
  dsimp only
  split
  · exact State.core_setCore_self _ c _
  · rw [State.announce_core, State.core_setCore_self]

theorem State.announce_regs (u : Nat) : (s.announce u).regs = s.regs := by
  unfold State.announce State.send
  dsimp only
  split <;> rfl

theorem State.announce_sacr (u : Nat) : (s.announce u).sacr = s.sacr := by
  unfold State.announce State.send
  dsimp only
  split <;> rfl

theorem State.setRun_regs (c : CoreId) (r : Run) : (s.setRun c r).regs = s.regs := by
  unfold State.setRun
  dsimp only
  split
  · exact State.setCore_regs ..
  · rw [State.announce_regs, State.setCore_regs]

theorem State.setRun_sacr (c : CoreId) (r : Run) : (s.setRun c r).sacr = s.sacr := by
  unfold State.setRun
  dsimp only
  split
  · exact State.setCore_sacr ..
  · rw [State.announce_sacr, State.setCore_sacr]

theorem State.logEvent_core (kind : Nat) (x y : Word) (c : CoreId) : (s.logEvent kind x y).core c = s.core c := by
  unfold State.logEvent State.ledgerWrite
  cases c <;> (dsimp only; repeat' split) <;> rfl

/-- The software identification leaves the cores as they are (R350). -/
theorem State.identify_core (b : Bool) (c : CoreId) : (s.identify b).core c = s.core c := by
  have hhash : ∀ (l : List Nat) (f : Nat → Word) (u : State),
      (l.foldl (fun u j => u.putReg (SACR.SWHASH j) (f j)) u).core c = u.core c := fun l f u =>
    List.foldlRecOn (motive := fun v : State => v.core c = u.core c) l _ rfl fun v hv j _ => (State.putReg_core v _ _ c).trans hv
  have hsacr : ∀ (u : State) (f : Sacr → Sacr), (u.onSacr f).core c = u.core c := fun u f => by cases c <;> rfl
  unfold State.identify
  dsimp only
  rw [hsacr]
  repeat' split
  all_goals simp only [State.logEvent_core, hhash, State.setFld_core]

/-! ### Image slots -/

/-- The header of a slot stands in the core's own memory (R171). -/
theorem State.header_of_mem {c : CoreId} (h : (t.core c).mem = (s.core c).mem) (b : Bool) (off : Nat) :
    t.header c b off = s.header c b off := by
  unfold State.header Core.leValue Core.bytes Core.byte
  rw [h]

/-- A slot is valid by the core's own memory, the verify keys and their revocations (R172). -/
theorem State.slotValid_of_mem {c : CoreId} (hm : (t.core c).mem = (s.core c).mem) (hr : t.regs = s.regs) (hs : t.sacr = s.sacr)
    (b : Bool) : t.slotValid c b = s.slotValid c b := by
  have hbyte : (t.core c).byte = (s.core c).byte := by
    funext a
    unfold Core.byte
    rw [hm]
  have hkey : ∀ n, t.verifyKey c n = s.verifyKey c n := fun n => by
    unfold State.verifyKey State.fld State.getReg
    rw [hr, hs]
  unfold State.slotValid State.codeLength Core.bytes
  simp only [State.header_of_mem hm, hkey, hbyte]

/-! ### CORE_BOOT -/

/-- A core that boots shows which of its slots are valid (R172, R173). -/
def State.slotsMarked (s : State) (c : CoreId) : State :=
  ((s.setRun c .booting).setFlag (SYS.IMGCTL_VALIDA (coreNum c)) (s.slotValid c false)).setFlag (SYS.IMGCTL_VALIDB (coreNum c))
    (s.slotValid c true)

theorem State.slotsMarked_core (c : CoreId) : (s.slotsMarked c).core c = (s.setRun c .booting).core c := by
  unfold State.slotsMarked
  rw [State.setFlag_core, State.setFlag_core]

theorem State.slotsMarked_header (c : CoreId) (b : Bool) (off : Nat) : (s.slotsMarked c).header c b off = s.header c b off :=
  State.header_of_mem (by rw [State.slotsMarked_core, State.setRun_core]) b off

theorem execCoreBoot_eq {c : CoreId} (h : s.domOn (coreDomain c) ∧ ((s.core c).run = .off ∨ (s.core c).run = .booting)) :
    exec (.coreBoot c) s = .next (if !s.slotValid c false && !s.slotValid c true then
        ((s.slotsMarked c).logEvent logBootNoimage (BitVec.ofNat 32 (coreNum c)) 0).setRun c .loader
      else (s.slotsMarked c).bootSlot c
        (s.slotValid c true && (!s.slotValid c false || decide (s.header c false 8 < s.header c true 8)))) := by
  have hvalid : ∀ b, (s.setRun c .booting).slotValid c b = s.slotValid c b :=
    State.slotValid_of_mem (by rw [State.setRun_core]) (State.setRun_regs ..) (State.setRun_sacr ..)
  refine congrArg Host.Outcome.next ((if_pos h).trans ?_)
  simp only [hvalid]
  show (if _ then _ else (s.slotsMarked c).bootSlot c (_ && (_ || decide ((s.slotsMarked c).header c false 8 <
    (s.slotsMarked c).header c true 8)))) = _
  rw [State.slotsMarked_header, State.slotsMarked_header]
  rfl

/-- The PC and FVEC of a core that starts the image of a slot, and what the choir's boot identifies (R173, R350). -/
def State.slotStarted (s : State) (c : CoreId) (b : Bool) (k : Core) : State :=
  let w := (s.setFlag (SYS.IMGCTL_SLOT (coreNum c)) b).setCore c { k with
    pc := BitVec.ofNat 32 (slotBase c b + s.header c b 0x10), fvec := BitVec.ofNat 32 (slotBase c b + s.header c b 0x14) }
  match c with | .choir => w.identify b | .nave => w

theorem State.slotStarted_header (c d : CoreId) (b e : Bool) (off : Nat) :
    (s.slotStarted c b (s.core c)).header d e off = s.header d e off := by
  refine State.header_of_mem ?_ e off
  have hstart : (s.slotStarted c b (s.core c)).core d = ((s.setFlag (SYS.IMGCTL_SLOT (coreNum c)) b).setCore c { s.core c with
      pc := BitVec.ofNat 32 (slotBase c b + s.header c b 0x10),
      fvec := BitVec.ofNat 32 (slotBase c b + s.header c b 0x14) }).core d := by
    cases c
    · exact State.identify_core b d
    · rfl
  rw [hstart]
  cases c <;> cases d <;> rfl

/-- The boot of a valid slot, with the entries of R173: the fallback where the other slot holds a newer image that is not
valid. -/
theorem State.bootSlot_eq (c : CoreId) (b : Bool) :
    let z := s.slotStarted c b (s.core c)
    let x := if s.header c (!b) 0 = imageMagic c ∧ s.header c b 8 < s.header c (!b) 8 then
      z.logEvent logBootFallback (BitVec.ofNat 32 (coreNum c)) (BitVec.ofNat 32 (s.header c (!b) 8)) else z
    s.bootSlot c b = (x.logEvent logBoot (BitVec.ofNat 32 (coreNum c) + BitVec.ofNat 32 (256 * natOfBool b))
      (BitVec.ofNat 32 (s.header c b 8))).setRun c .running := by
  intro z x
  have hz : z.header c (!b) 0 = s.header c (!b) 0 := State.slotStarted_header c c b _ _
  have hboot : s.bootSlot c b = ((if z.header c (!b) 0 = imageMagic c ∧ s.header c b 8 < s.header c (!b) 8 then
      z.logEvent logBootFallback (BitVec.ofNat 32 (coreNum c)) (BitVec.ofNat 32 (s.header c (!b) 8)) else z).logEvent logBoot
        (BitVec.ofNat 32 (coreNum c) + BitVec.ofNat 32 (256 * natOfBool b)) (BitVec.ofNat 32 (s.header c b 8))).setRun c
          .running := by
    cases c <;> rfl
  rw [hboot, hz]

end Sys2Proof.Machine
end

section
/-! Laws of the flash controllers and of the service loader (R75, R176, R177, R357, R465). -/
namespace Sys2Proof.Machine

variable {s : State}

/-! ### The commands reach their controllers -/

theorem State.poke_imgctl {c : CoreId} (val : Word) (h : s.allows c (SYS.IMGCTL (coreNum c)) true = true) :
    s.poke c (SYS.IMGCTL (coreNum c)) val = s.storeImgctl c val := by
  cases c <;> exact State.poke_allowed val h (by decide) (by decide) (by decide) (g := .sys) (by decide)

theorem State.poke_cfgctl {c : CoreId} (val : Word) (h : s.allows c SYS.CFGCTL true = true) :
    s.poke c SYS.CFGCTL val = s.storeCfgctl val := by
  cases c <;> exact State.poke_allowed val h (by decide) (by decide) (by decide) (g := .sys) (by decide)

theorem execImgErase_allowed {c : CoreId} (h : s.allows c (SYS.IMGCTL (coreNum c)) true = true) :
    exec (.imgErase c) s = .next (s.flashCommand (.core c) true) := congrArg _ (State.poke_imgctl 1 h)

theorem execImgProgram_allowed {c : CoreId} (h : s.allows c (SYS.IMGCTL (coreNum c)) true = true) :
    exec (.imgProgram c) s = .next (s.flashCommand (.core c) false) := congrArg _ (State.poke_imgctl 2 h)

/-- A command to the configuration flash acts while the seal is open (R465). -/
theorem State.storeCfgctl_eq {val : Word} (hv : bitsOf val 2 0 = 1 ∨ bitsOf val 2 0 = 2) : s.storeCfgctl val =
    if s.sealOpen then s.flashCommand .config (decide (bitsOf val 2 0 = 1))
    else (s.setFld SYS.CFGCTL_ERR 7).logEvent logSlDeny (BitVec.ofNat 32 SYS.CFGCTL) 0 := if_pos hv

theorem execCfgErase_allowed {c : CoreId} (h : s.allows c SYS.CFGCTL true = true) : exec (.cfgErase c) s = .next
    (if s.sealOpen then s.flashCommand .config true
    else (s.setFld SYS.CFGCTL_ERR 7).logEvent logSlDeny (BitVec.ofNat 32 SYS.CFGCTL) 0) :=
  congrArg _ ((State.poke_cfgctl 1 h).trans (State.storeCfgctl_eq (.inl (by decide))))

theorem execCfgProgram_allowed {c : CoreId} (h : s.allows c SYS.CFGCTL true = true) : exec (.cfgProgram c) s = .next
    (if s.sealOpen then s.flashCommand .config false
    else (s.setFld SYS.CFGCTL_ERR 7).logEvent logSlDeny (BitVec.ofNat 32 SYS.CFGCTL) 0) :=
  congrArg _ ((State.poke_cfgctl 2 h).trans (State.storeCfgctl_eq (.inr (by decide))))

/-- A read of CFGDATA gives the word that INDEX names, and INDEX rises (R463). -/
theorem execCfgdataRead_allowed {c : CoreId} (h : s.allows c SYS.CFGDATA false = true) :
    exec (.cfgdataRead c) s = .next { s.readCfgdata.1 with reply := s.readCfgdata.2 } :=
  congrArg _ (State.peek_allowed h (by decide) (by decide) (by decide) (g := .sys) (by decide) (congrArg loaded (if_pos rfl)))

/-! ### Checks and commands (R176, R177) -/

section Commands

variable {u : FlashUnit} {erase : Bool}

theorem State.flashCheck_range (h : flashBytes u ≤ (s.getReg (flashAddr u)).toNat) : s.flashCheck u erase = 3 := if_pos h

theorem State.flashCheck_active (h : (s.getReg (flashAddr u)).toNat < flashBytes u)
    (ha : s.flashActive u (s.getReg (flashAddr u)).toNat = true) : s.flashCheck u erase = 1 :=
  (if_neg (Nat.not_le.mpr h)).trans (if_pos ha)

theorem State.flashCheck_align (h : (s.getReg (flashAddr u)).toNat < flashBytes u)
    (ha : s.flashActive u (s.getReg (flashAddr u)).toNat = false)
    (hl : (s.getReg (flashAddr u)).toNat % (if erase then 4096 else 8) ≠ 0) : s.flashCheck u erase = 2 :=
  (if_neg (Nat.not_le.mpr h)).trans ((if_neg (Bool.eq_false_iff.mp ha)).trans (if_pos hl))

theorem State.flashCommand_busy (h : s.flag (flashBusy u) = true) : s.flashCommand u erase = s.setFld (flashErr u) 5 := if_pos h

theorem State.flashCommand_refused (h : s.flag (flashBusy u) = false) (he : s.flashCheck u erase ≠ 0) :
    s.flashCommand u erase = s.setFld (flashErr u) (s.flashCheck u erase) :=
  (if_neg (Bool.eq_false_iff.mp h)).trans (if_pos he)

/-- The data registers of a controller stand apart from its control register. -/
theorem flashData_ne (u : FlashUnit) : (flashErr u).addr = (flashBusy u).addr ∧ flashLo u ≠ (flashBusy u).addr ∧
    flashHi u ≠ (flashBusy u).addr := by
  rcases u with (_ | _) | _ <;> decide

/-- A controller that starts the operation of a command. -/
def State.flashStarted (s : State) (u : FlashUnit) (erase : Bool) : State :=
  let a := (s.getReg (flashAddr u)).toNat
  ((s.setFld (flashErr u) 0).setFlag (flashBusy u) true).setFlashOp u
    (some (if erase then .erase a else .program a (s.getReg (flashLo u)) (s.getReg (flashHi u))))

/-- A command that passes its checks starts; the choir's slots are noted as written, and the first erasure is logged (R356). -/
theorem State.flashCommand_started (h : s.flag (flashBusy u) = false) (he : s.flashCheck u erase = 0) :
    s.flashCommand u erase =
      let t := s.flashStarted u erase
      if u = .core .choir then
        let w := t.onSacr (fun x => { x with slotWritten := true })
        if erase && !s.sacr.eraseLogged then
          (w.logEvent logImageErase (s.getReg (flashAddr u)) 0).onSacr (fun x => { x with eraseLogged := true })
        else w
      else t := by
  obtain ⟨haddr, hlo, hhi⟩ := flashData_ne u
  have hdata : ∀ a, a ≠ (flashBusy u).addr → ((s.setFld (flashErr u) 0).setFlag (flashBusy u) true).getReg a = s.getReg a :=
    fun a ha => (State.getReg_setFlag_ne true ha).trans (State.getReg_setFld_ne 0 (by rw [haddr]; exact ha))
  have hlog : ∀ o, (((s.setFld (flashErr u) 0).setFlag (flashBusy u) true).setFlashOp u o).sacr.eraseLogged =
      s.sacr.eraseLogged := by
    rcases u with (_ | _) | _ <;> exact fun _ => rfl
  refine (if_neg (Bool.eq_false_iff.mp h)).trans ((if_neg (not_not_intro he)).trans ?_)
  unfold State.flashStarted
  simp only [hdata _ hlo, hdata _ hhi, hlog, State.onSacr_sacr, BitVec.ofNat_toNat, BitVec.setWidth_eq]

end Commands

/-! ### Ends (R176) -/

section Done

variable {u : FlashUnit} (h : s.flag (flashBusy u) = true)
include h

theorem execFlashOpDone_erased {a : Nat} (g : Bool) (ho : s.flashOp u = some (.erase a)) : exec (.flashOpDone u g) s =
    .next (((s.setFlag (flashBusy u) false).setFlashOp u none).flashPut u a (List.replicate 4096 0xFF)) := by
  refine congrArg Host.Outcome.next ((if_pos h).trans ?_)
  rw [ho]

theorem execFlashOpDone_programmed {a : Nat} {lo hi : Word} (ho : s.flashOp u = some (.program a lo hi)) :
    exec (.flashOpDone u true) s =
      .next (((s.setFlag (flashBusy u) false).setFlashOp u none).flashPut u a (octetsOfWord lo ++ octetsOfWord hi)) := by
  refine congrArg Host.Outcome.next ((if_pos h).trans ?_)
  rw [ho]
  rfl

/-- A double word that reads back wrong holds a free value (R176). -/
theorem execFlashOpDone_failed {a : Nat} {lo hi : Word} (ho : s.flashOp u = some (.program a lo hi)) :
    exec (.flashOpDone u false) s = .next (((((s.setFlag (flashBusy u) false).setFlashOp u none).flashPut u a
      (octetsOfWord (Config.value s.free) ++ octetsOfWord (Config.value (s.free + 1)))).spend.spend).setFld (flashErr u) 6) := by
  refine congrArg Host.Outcome.next ((if_pos h).trans ?_)
  rw [ho]
  rfl

end Done

/-! ### The service loader (R75, R357) -/

section Loader

variable {c : CoreId} (h : s.pathMain = true ∧ s.domOn (coreDomain c) = true ∧ (s.core c).run = .loader)
include h

theorem execServiceLoaderFrame_image {addr : Word} (lo hi : Word)
    (ha : addr.toNat % 8 = 0 ∧ slotBase c (!s.flag (SYS.IMGCTL_SLOT (coreNum c))) ≤ addr.toNat ∧
      addr.toNat < slotBase c (!s.flag (SYS.IMGCTL_SLOT (coreNum c))) + slotSize c) :
    exec (.serviceLoaderFrame c (.image addr lo hi)) s = .next (
      let t := s.setCore c ((s.core c).setBytes addr.toNat (octetsOfWord lo ++ octetsOfWord hi))
      if c = .choir then { t with sacr := { t.sacr with slotWritten := true } } else t) :=
  congrArg Host.Outcome.next ((if_pos h).trans (if_pos ha))

theorem execServiceLoaderFrame_key {k : Fin 4} (x y : BitVec 256)
    (hk : s.fld SACR.SEAL_STATE = 0 ∧ bitAt (s.fld SACR.KEYMAP_VKSET) k = false) :
    exec (.serviceLoaderFrame c (.verifyKey k x y)) s = .next (s.programVk k x y) :=
  congrArg Host.Outcome.next ((if_pos h).trans (if_pos hk))

end Loader

end Sys2Proof.Machine
end

section
/-! Laws of units that rise and fall (R456, R457). -/
namespace Sys2Proof.Machine

variable {s : State} {u : Nat} {f g : Fld}

theorem State.setLife_of_unit (hf : unitLifeFld u = some f) (v : Nat) : s.setLife u v = (s.setFld f v).announce u := by
  simp only [State.setLife, hf]

theorem State.life_of_unit (hf : unitLifeFld u = some f) (hu : 2 ≤ u) : s.life u = s.fld f := by
  unfold State.life
  rw [if_neg (by omega), if_neg (by omega), hf]

/-- A change of a unit's state leaves the fields of other registers. -/
theorem State.setLife_fld (hf : unitLifeFld u = some f) (hg : g.addr ≠ f.addr) (v : Nat) : (s.setLife u v).fld g = s.fld g := by
  rw [State.setLife_of_unit hf]
  unfold State.fld State.getReg
  rw [State.announce_regs]
  exact s.fld_setFld_ne v hg

theorem State.setLife_flag (hf : unitLifeFld u = some f) (hg : g.addr ≠ f.addr) (v : Nat) : (s.setLife u v).flag g = s.flag g :=
  congrArg (· == 1) (State.setLife_fld hf hg v)

theorem State.life_setLife (h : twf regReset s.regs = true) (hf : unitLifeFld u = some f) (hu : 2 ≤ u)
    (hw : f = ⟨f.addr, 31, 30⟩) (v : Nat) : (s.setLife u v).life u = v % 4 := by
  rw [State.life_of_unit hf hu, State.setLife_of_unit hf]
  unfold State.fld State.getReg
  rw [State.announce_regs, hw]
  exact State.fld_setFld_self h ⟨f.addr, 31, 30⟩ v (by decide : 31 < 32) (by decide : 30 ≤ 31)

/-- A unit that has reached ON stays there while it is enabled, else falls at once (R456). -/
theorem State.risenFollows_on (h : twf regReset s.regs = true) (hf : unitLifeFld u = some f) (hu : 2 ≤ u)
    (hw : f = ⟨f.addr, 31, 30⟩) (he : unitEnFld u = some g) (hg : g.addr ≠ f.addr) :
    (s.setLife u 2).risenFollows u = if s.flag g then s.setLife u 2 else (s.setLife u 2).setLife u 3 := by
  have hlife : (s.setLife u 2).life u = 2 := State.life_setLife h hf hu hw 2
  unfold State.risenFollows State.enableActs
  simp only [he, State.setLife_flag hf hg, hlife]
  cases s.flag g <;> rfl

/-- A unit that has done its part is OFF; an enable latched meanwhile starts its rise (R456). -/
theorem State.unitOff_eq (hf : unitLifeFld u = some f) (hd : (SYS.UNITSTATE_DEFER u).addr ≠ f.addr) : s.unitOff u =
    if s.flag (SYS.UNITSTATE_DEFER u) then ((s.setLife u 0).setFlag (SYS.UNITSTATE_DEFER u) false).setLife u 1
    else s.setLife u 0 := by
  unfold State.unitOff
  dsimp only
  rw [State.setLife_flag hf hd]

/-- The life of a unit stands in its own status register, apart from its mirror entry (R472). -/
theorem unitLifeFld_some : ∀ u : Fin 67, 2 ≤ u.val →
    ∃ f, unitLifeFld u = some f ∧ (SYS.UNITSTATE_DEFER u).addr ≠ f.addr := by
  have hall : ∀ u : Fin 67, 2 ≤ u.val → (unitLifeFld u).any (fun f => (SYS.UNITSTATE_DEFER u).addr != f.addr) = true := by
    decide
  intro u hu
  obtain ⟨f, hf, hne⟩ := Option.any_eq_true _ _ |>.mp (hall u hu)
  exact ⟨f, hf, bne_iff_ne.mp hne⟩

/-! ### UNIT_RISE_DONE and UNIT_FALL_DONE -/

theorem State.risenFollows_eq (he : unitEnFld u = some g) : s.risenFollows u = s.enableActs u (s.flag g) := by
  simp only [State.risenFollows, he]

theorem unitEnFld_bank (h : 18 ≤ u) (h' : u < 22) : unitEnFld u = some (CIM.CTL_EN (u - 18)) := by
  unfold unitEnFld
  rw [if_neg (by omega), if_neg (by omega), if_pos h']

theorem unitEnFld_tile (h : 22 ≤ u) (h' : u < 54) : unitEnFld u = some (CIM.TCTL_EN (u - 22)) := by
  unfold unitEnFld
  rw [if_neg (by omega), if_neg (by omega), if_neg (by omega), if_pos h']

theorem unitEnFld_pin (h : 57 ≤ u) (h' : u < 65) : unitEnFld u = some (OUT.PINCTL_EN (u - 57)) := by
  unfold unitEnFld
  repeat rw [if_neg (by omega)]
  rw [if_pos h']

theorem unitLifeFld_pin (h : 57 ≤ u) (h' : u < 65) : unitLifeFld u = some (OUT.PINSTAT_LIFE (u - 57)) := by
  unfold unitLifeFld
  repeat rw [if_neg (by omega)]
  rw [if_pos h']

theorem unitEnFld_loop (h : 65 ≤ u) (h' : u < 67) : unitEnFld u = some (OUT.LPCTL_EN (u - 65)) := by
  unfold unitEnFld
  repeat rw [if_neg (by omega)]
  rw [if_pos h']

section Rise

variable {y : Fin 67} (hl : s.life y = 1) (hd : s.domOn (unitDomain y) = true)
include hl hd

theorem rises_of_unit (h : 2 ≤ y.val) : ¬(s.life y ≠ 1 ∨ y.val < 2 ∨ (!s.domOn (unitDomain y)) = true) := by
  rintro (hne | hlt | hoff)
  · exact hne hl
  · omega
  · rw [hd] at hoff
    cases hoff

theorem execUnitRiseDone_isle (h : 2 ≤ y.val) (h' : y.val < 18) : exec (.unitRiseDone y) s =
    .next (((s.setLife y 2).isleRisen (y - 2)).isleFollow (y - 2)) :=
  congrArg Host.Outcome.next ((if_neg (rises_of_unit hl hd h)).trans (if_pos h'))

theorem execUnitRiseDone_bank (h : 18 ≤ y.val) (h' : y.val < 22) :
    let t := (s.setLife y 2).bankRisen (y - 18)
    exec (.unitRiseDone y) s = .next ((t.enableActs y (t.flag (CIM.CTL_EN (y - 18)))).bankFalls (y - 18)) := by
  refine congrArg Host.Outcome.next ((if_neg (rises_of_unit hl hd (by omega))).trans ((if_neg (by omega)).trans
    ((if_pos h').trans ?_)))
  rw [State.risenFollows_eq (unitEnFld_bank h h')]

theorem execUnitRiseDone_tile (h : 22 ≤ y.val) (h' : y.val < 54) (hb : s.life (18 + (y - 22) / 8) = 2) :
    let t := (s.setLife y 2).tileRisen (y - 22)
    exec (.unitRiseDone y) s = .next (t.enableActs y (t.flag (CIM.TCTL_EN (y - 22)))) := by
  refine congrArg Host.Outcome.next ((if_neg (rises_of_unit hl hd (by omega))).trans ((if_neg (by omega)).trans
    ((if_neg (by omega)).trans ((if_pos h').trans ((if_pos hb).trans ?_)))))
  rw [State.risenFollows_eq (unitEnFld_tile h h')]

theorem execUnitRiseDone_quantity (hr : twf regReset s.regs = true) (h : y.val = 54) : exec (.unitRiseDone y) s =
    .next (if s.flag QTY.CTL_EN then s.setLife y 2 else (s.setLife y 2).setLife 54 3) := by
  have hf : unitLifeFld y = some QTY.STAT_LIFE := h ▸ rfl
  have he : unitEnFld y = some QTY.CTL_EN := h ▸ rfl
  refine congrArg Host.Outcome.next ((if_neg (rises_of_unit hl hd (by omega))).trans ?_)
  rw [if_neg (by omega), if_neg (by omega), if_neg (by omega), if_pos h]
  exact (State.risenFollows_on hr hf (by omega) rfl he (by decide)).trans (by rw [h])

theorem execUnitRiseDone_port (h : y.val = 55 ∨ y.val = 56) :
    let t := s.portRisen (y - 55)
    exec (.unitRiseDone y) s = .next ((t.enableActs y (t.flag (BELF.PCTL_EN (y - 55)))).xhfSync) := by
  obtain rfl | rfl : y = 55 ∨ y = 56 := h.imp Fin.ext Fin.ext
  · exact congrArg Host.Outcome.next (if_neg (rises_of_unit hl hd (by decide)))
  · exact congrArg Host.Outcome.next (if_neg (rises_of_unit hl hd (by decide)))

theorem execUnitRiseDone_pin (hr : twf regReset s.regs = true) (h : 57 ≤ y.val) (h' : y.val < 65) : exec (.unitRiseDone y) s =
    .next (if s.flag (OUT.PINCTL_EN (y - 57)) then s.setLife y 2 else (s.setLife y 2).setLife y 3) := by
  refine congrArg Host.Outcome.next ((if_neg (rises_of_unit hl hd (by omega))).trans ?_)
  repeat rw [if_neg (by omega)]
  rw [if_pos h']
  exact State.risenFollows_on hr (unitLifeFld_pin h h') (by omega) rfl (unitEnFld_pin h h')
    (by simp only [OUT.PINCTL_EN, OUT.PINSTAT_LIFE, OUT.PINCTL, OUT.PINSTAT]; omega)

theorem execUnitRiseDone_loop (h : 65 ≤ y.val) :
    let t := (s.setLife y 2).loopRisen (y - 65)
    exec (.unitRiseDone y) s = .next (t.enableActs y (t.flag (OUT.LPCTL_EN (y - 65)))) := by
  refine congrArg Host.Outcome.next ((if_neg (rises_of_unit hl hd (by omega))).trans ?_)
  repeat rw [if_neg (by omega)]
  rw [State.risenFollows_eq (unitEnFld_loop h y.isLt)]

end Rise

section Fall

variable {y : Fin 67} (hl : s.life y = 3)
include hl

theorem falls_of_unit (h : 2 ≤ y.val) : ¬(s.life y ≠ 3 ∨ y.val < 2) := by omega

theorem execUnitFallDone_isle (h : 2 ≤ y.val) (h' : y.val < 18) (hi : s.isleIdle (y - 2) = true) :
    exec (.unitFallDone y) s = .next ((s.unitOff y).isleRun (y - 2)) :=
  congrArg Host.Outcome.next ((if_neg (falls_of_unit hl h)).trans ((if_pos h').trans (if_pos hi)))

theorem execUnitFallDone_bank (h : 18 ≤ y.val) (h' : y.val < 22) (hi : s.bankIdle (y - 18) = true) :
    exec (.unitFallDone y) s = .next (s.unitOff y) :=
  congrArg Host.Outcome.next ((if_neg (falls_of_unit hl (by omega))).trans ((if_neg (by omega)).trans
    ((if_pos h').trans (if_pos hi))))

theorem execUnitFallDone_tile (h : 22 ≤ y.val) (h' : y.val < 54) (hb : s.tileBusy (y - 22) = false) :
    exec (.unitFallDone y) s = .next ((s.tileLost (y - 22)).unitOff y) :=
  congrArg Host.Outcome.next ((if_neg (falls_of_unit hl (by omega))).trans ((if_neg (by omega)).trans
    ((if_neg (by omega)).trans ((if_pos h').trans (if_neg (Bool.eq_false_iff.mp hb))))))

theorem execUnitFallDone_port (h : y.val = 55 ∨ y.val = 56) : exec (.unitFallDone y) s = .next (s.portFallen (y - 55)) := by
  refine congrArg Host.Outcome.next ((if_neg (falls_of_unit hl (by omega))).trans ?_)
  repeat rw [if_neg (by omega)]
  rw [if_pos (by omega)]

theorem execUnitFallDone_other (h : y.val = 54 ∨ 57 ≤ y.val) : exec (.unitFallDone y) s = .next (s.unitOff y) := by
  refine congrArg Host.Outcome.next ((if_neg (falls_of_unit hl (by omega))).trans ?_)
  rw [if_neg (by omega), if_neg (by omega), if_neg (by omega)]
  split
  · rfl
  · exact if_neg (by omega)

end Fall

end Sys2Proof.Machine
end

open Sys2Proof Sys2Proof.Machine in
/-- Settles O57, from the boot ROM, the flash controllers, the service loader, and units that rise and fall. -/
theorem bootFlashAndUnitsComplete : Obligations.BootFlashAndUnitsComplete := by
  unfold Obligations.BootFlashAndUnitsComplete
  intro s c y hs n i valid boots rising marked cmd started
  have cmds : ∀ {x : Instr} {u : FlashUnit} {erase : Bool}, exec x s = .next (s.flashCommand u erase) → cmd x u erase := by
    intro x u erase hx
    refine ⟨fun hb => ?busy, fun hb he => ?refused, fun hb he hu => ?started, State.flashCheck_range,
      State.flashCheck_active, State.flashCheck_align⟩
    case busy => exact hx.trans (congrArg _ (State.flashCommand_busy hb))
    case refused => exact hx.trans (congrArg _ (State.flashCommand_refused hb he))
    case started => exact hx.trans (congrArg _ ((State.flashCommand_started hb he).trans (if_neg hu)))
  refine ⟨fun hb hA hB => ?noImage, fun b hb hsel hv => ?boot, fun hal => ⟨cmds (execImgErase_allowed hal),
    cmds (execImgProgram_allowed hal)⟩, fun hal hbusy => ?image, fun hal => ?config, fun hal => ?cfgdata, fun u g hb => ?done,
    fun addr lo hi hp hd hr => ?frame, fun k kx ky hp hd hr h0 hk => ?key, fun hl hd => ?rise, fun hl => ?fall⟩
  case noImage =>
    have hnone : (!s.slotValid c false && !s.slotValid c true) = true := by
      rw [show s.slotValid c false = false from hA, show s.slotValid c true = false from hB]
      rfl
    exact (execCoreBoot_eq hb).trans (congrArg _ (if_pos hnone))
  case boot =>
    have hsome : ¬(!s.slotValid c false && !s.slotValid c true) = true := by
      rw [Bool.and_eq_true, Bool.not_eq_true', Bool.not_eq_true']
      rintro ⟨hA, hB⟩
      exact hv.elim (fun h => Bool.false_ne_true (hA.symm.trans h)) (fun h => Bool.false_ne_true (hB.symm.trans h))
    intro base v w z older x
    refine (execCoreBoot_eq hb).trans (congrArg _ ((if_neg hsome).trans ((congrArg _ hsel.symm).trans ?_)))
    rw [State.bootSlot_eq]
    simp only [State.slotStarted, State.slotsMarked_header, State.slotsMarked_core]
    rfl
  case image =>
    refine ⟨fun he => ?program, fun he => ?erase⟩
    case program =>
      exact (execImgProgram_allowed (c := .choir) hal).trans
        (congrArg _ ((State.flashCommand_started (u := .core .choir) hbusy he).trans (if_pos rfl)))
    case erase =>
      refine (execImgErase_allowed (c := .choir) hal).trans
        (congrArg _ ((State.flashCommand_started (u := .core .choir) hbusy he).trans ((if_pos rfl).trans ?_)))
      cases s.sacr.eraseLogged <;> rfl
  case config =>
    refine ⟨fun ho => ⟨cmds ((execCfgErase_allowed hal).trans (congrArg _ (if_pos ho))),
      cmds ((execCfgProgram_allowed hal).trans (congrArg _ (if_pos ho)))⟩, fun ho => ?closed⟩
    case closed =>
      have hshut := Bool.eq_false_iff.mp ho
      exact ⟨(execCfgErase_allowed hal).trans (congrArg _ (if_neg hshut)),
        (execCfgProgram_allowed hal).trans (congrArg _ (if_neg hshut))⟩
  case cfgdata =>
    refine (execCfgdataRead_allowed hal).trans (congrArg _ ?_)
    simp only [State.readCfgdata, Bool.and_eq_true, Bool.not_eq_true']
  case done =>
    exact ⟨fun a ho => execFlashOpDone_erased hb g ho,
      fun a lo hi ho => ⟨execFlashOpDone_programmed hb ho, execFlashOpDone_failed hb ho⟩⟩
  case frame =>
    cases c <;> exact fun ha hlo hhi => execServiceLoaderFrame_image ⟨hp, hd, hr⟩ lo hi ⟨ha, hlo, hhi⟩
  case key => exact execServiceLoaderFrame_key ⟨hp, hd, hr⟩ kx ky ⟨h0, hk⟩
  case rise =>
    exact ⟨execUnitRiseDone_isle hl hd, execUnitRiseDone_bank hl hd, execUnitRiseDone_tile hl hd,
      execUnitRiseDone_quantity hl hd hs.regs, execUnitRiseDone_port hl hd, execUnitRiseDone_pin hl hd hs.regs,
      execUnitRiseDone_loop hl hd⟩
  case fall =>
    intro off
    have hoff : ∀ u : State, 2 ≤ n → u.unitOff n = off u := fun u h2 => by
      obtain ⟨f, hf, hd⟩ := unitLifeFld_some y h2
      exact State.unitOff_eq hf hd
    have falls : ∀ {u : State}, 2 ≤ n → exec (.unitFallDone y) s = .next (u.unitOff n) →
        exec (.unitFallDone y) s = .next (off u) := fun h2 hx => hx.trans (congrArg _ (hoff _ h2))
    exact ⟨fun h2 h18 hi => (execUnitFallDone_isle hl h2 h18 hi).trans
        (congrArg (fun u : State => (.next (u.isleRun (n - 2)) : Out)) (hoff s h2)),
      fun h h' hi => falls (Nat.le_trans (by decide) h) (execUnitFallDone_bank hl h h' hi),
      fun h h' hb => falls (Nat.le_trans (by decide) h) (execUnitFallDone_tile hl h h' hb),
      fun h => falls (h.elim (fun e => e ▸ by decide) (Nat.le_trans (by decide))) (execUnitFallDone_other hl h),
      execUnitFallDone_port hl⟩

section
/-! O38: exclusion tokens and twin claims (R184, R197 to R199). -/
namespace Sys2Proof.Machine

variable {s : State}

/-! ### What an isle holds -/

/-- An isle holds what was put there, where that is not what it holds by default. -/
theorem State.isle_setIsle_self {n : Nat} {k : Isle} (h : k ≠ Isle.empty) : (s.setIsle n k).isle n = k :=
  tget_tput_of_ne_default _ _ h

theorem State.cur_setCur_self (n : Nat) (x : ShotSet) : ((s.setCur n x).isle n).cur = some x := by
  have hne : { s.isle n with cur := some x } ≠ Isle.empty := fun h => Option.some_ne_none x (congrArg Isle.cur h)
  unfold State.setCur
  rw [State.isle_setIsle_self hne]

@[simp] theorem State.withdraw_isle (m n : Nat) : (s.withdraw m).isle n = s.isle n := rfl

@[simp] theorem State.tokenDone_isle (m n : Nat) : (s.tokenDone m).isle n = s.isle n := rfl

/-- A set that fails has written its records, its claims and its token request withdrawn (R198, R199, R204). -/
theorem State.cur_failShot (n : Nat) (x : ShotSet) (reason flags second secondFlags : Nat) :
    ((s.failShot n x reason flags second secondFlags).isle n).cur =
      some { x with phase := .written, claimWait := false, tokenWait := false } := by
  unfold State.failShot
  dsimp only
  rw [State.tokenDone_isle, State.withdraw_isle, State.cur_setCur_self]

/-! ### Tokens and claims -/

/-- EXSTAT.BUSY shows the groups whose token is held, or not back yet. -/
def shownBusy (e : Nat × Option (Nat × TokenUse)) : Bool :=
  match e.2 with
  | some (_, .held) => true
  | some (_, .ended) => true
  | _ => false

theorem State.tokenSync_eq : s.tokenSync =
    s.setFld ISLE0.EXSTAT_BUSY (((s.isles.tokens.filter shownBusy).map (fun e => 2 ^ (e.1 - 1))).sum) := by
  unfold State.tokenSync
  refine congrArg (fun p => s.setFld ISLE0.EXSTAT_BUSY (((s.isles.tokens.filter p).map _).sum)) (funext fun e => ?_)
  obtain ⟨group, token⟩ := e
  cases token with
  | none => rfl
  | some t =>
    obtain ⟨holder, use⟩ := t
    cases use <;> rfl

/-- An isle that is ON, free and unclaimed grants its twin's claim (R184). -/
theorem execTwinClaimGrant_granted {n : Fin 16} {x : ShotSet} (late : Bool) (hx : (s.isle (twinOf n)).cur = some x)
    (hw : x.claimWait = true) (hp : x.phase = .lead) (hl : s.fld (ISLE.STAT_LIFE n) = 2) (hcur : (s.isle n).cur = none)
    (hc : s.flag (ISLE.STAT_CLAIMED n) = false) :
    let y := { x with claimWait := false }
    exec (.twinClaimGrant n late) s = .next
      ((((s.setCur (twinOf n) y).countDelay (twinOf n) y late).setFlag (ISLE.STAT_CLAIMED n) true).isleSync n) := by
  refine congrArg Host.Outcome.next ?_
  dsimp only
  rw [hx]
  exact if_pos ⟨hw, hp, hl, hcur, hc⟩

/-- Give the token of a group to a set, or take it back. -/
def State.putToken (s : State) (g : Nat) (v : Option (Nat × TokenUse)) : State :=
  s.onIsles (fun k => { k with tokens := tput (fun _ => none) k.tokens g v })

/-- The free token of a group goes to the earliest request, which it takes off the list (R198). -/
theorem execExclusionGrant_granted {g : Fin 16} {m : Nat} {x : ShotSet} (late : Bool)
    (ht : tget (fun _ => none) s.isles.tokens g.val = none)
    (hr : s.isles.requests.find? (fun r => decide (r.1 = g.val)) = some (g.val, m)) (hx : (s.isle m).cur = some x) :
    let y := { x with tokenWait := false }
    exec (.exclusionGrant g late) s =
      .next ((((s.withdraw m).putToken g (some (m, .granted))).setCur m y).countDelay m y late) := by
  refine congrArg Host.Outcome.next ?_
  rw [ht, hr]
  dsimp only
  split
  · next z hz =>
    obtain rfl : x = z := Option.some.inj (hx.symm.trans hz)
    rfl
  · next hz => exact absurd (hx.symm.trans hz) (Option.some_ne_none x)

theorem execExclusionRelease_ended {g : Fin 16} {m : Nat}
    (ht : tget (fun _ => none) s.isles.tokens g.val = some (m, .ended)) :
    exec (.exclusionRelease g) s = .next (s.putToken g none).tokenSync := by
  refine congrArg Host.Outcome.next ?_
  rw [ht]
  rfl

/-- A set whose wait is too long counts as delayed and fails (R199). -/
theorem execExwait_waiting {n : Fin 16} {x : ShotSet} (hx : (s.isle n).cur = some x) (hp : x.phase = .lead)
    (hw : x.tokenWait = true ∨ x.claimWait = true) :
    let y := { x with delayed := true }
    exec (.exwait n) s = .next ((((s.countDelay n x true).failShot n y reasonExwait 0 reasonExwait 0).isleFault n x.cmd.pd
      (some (ISLE.FAULTS_EXWAIT n))).isleRun n) := by
  refine congrArg Host.Outcome.next ?_
  rw [hx]
  exact if_pos ⟨hp, hw⟩

end Sys2Proof.Machine
end

open Sys2Proof Sys2Proof.Machine in
/-- Settles O38, from what each grant, release and wait does, and from the set that a failed shot leaves. -/
theorem tokensAndClaimsAreGranted : Obligations.TokensAndClaimsAreGranted := by
  unfold Obligations.TokensAndClaimsAreGranted
  intro s n g late l delayed holds busy token
  have hbusy : ∀ u : State, u.tokenSync = busy u := fun u => State.tokenSync_eq
  refine ⟨hbusy, fun x hx hw hp hl hcur hc => execTwinClaimGrant_granted late hx hw hp hl hcur hc,
    fun m x ht hr hx => execExclusionGrant_granted late ht hr hx,
    fun m ht => (execExclusionRelease_ended ht).trans (congrArg _ (hbusy _)), fun x hx hp hw => ?wait⟩
  case wait =>
    intro v w
    have hv : s.countDelay n x true = v := by
      simp only [v, State.countDelay]
      cases x.delayed <;> rfl
    exact ⟨(execExwait_waiting hx hp hw).trans (by rw [hv]), _, State.cur_failShot .., rfl, rfl, rfl⟩

section
/-! O39: windows (R189 to R191, R195, R200, R217, R246). -/
namespace Sys2Proof.Machine

variable {s : State}

/-- What an opened window sends to the bank that it streams to: the header, the first samples between it and the gate
update; nothing where it does not stream (R195, R217). -/
def State.sendHead (s : State) (r shot : Nat) (header gate : Word) (samples : List Sample) : Option Nat → Bool → State
  | some b, true =>
    let t := s.onIsles (fun k => { k with sent := tput (fun _ => []) k.sent r (tget (fun _ => []) k.sent r ++ [shot]) })
    ((t.sendItem r b 0 header).sendAll (isleIsland r) (bankIsland b) tagSample (sampleWords samples)).sendItem r b 1 gate
  | _, _ => s

/-- A window without a bank, or one that does not stream, sends nothing. -/
theorem State.sendHead_unsent {r shot : Nat} {header gate : Word} {samples : List Sample} {bank : Option Nat} {streamed : Bool}
    (h : ∀ b, bank = some b → streamed = false) : s.sendHead r shot header gate samples bank streamed = s := by
  cases bank with
  | none => rfl
  | some b => rw [h b rfl]; rfl

end Sys2Proof.Machine
end

open Sys2Proof Sys2Proof.Machine in
/-- Settles O39, from what an opened window sends; the statement writes out the overloads, gates and stored crossings as the
model's own functions compute them. -/
theorem windowsStreamAndClose : Obligations.WindowsStreamAndClose := by
  unfold Obligations.WindowsStreamAndClose
  intro s n samples crossings o x hx r named overs
  refine ⟨fun hp hlen => ?opens, fun hp hlen hrise => ?closes⟩
  case opens =>
    intro g0 noise u g1 v w open'
    have hexec : exec (.windowOpen n samples o) s = .next (open'.sendHead r x.shot
        (BitVec.ofNat 32 (8 * g0 % 2048 + 2 ^ 12 * bitsOf x.win 29 27)) (BitVec.ofNat 32 (8 * g1 % 2048)) samples
        x.bank w.streamed) := by
      refine congrArg Host.Outcome.next ?_
      rw [hx]
      exact (if_pos ⟨hp, hlen⟩).trans rfl
    have hstreamed : ∀ b, x.bank = some b → w.streamed = v.sampleOpen b n := fun b hb => by simp only [w, hb]
    refine ⟨fun b hb hopen => hexec.trans ?streams, fun hshut => hexec.trans ?silent⟩
    case streams =>
      rw [hb, (hstreamed b hb).trans hopen]
      rfl
    case silent =>
      exact congrArg _ (State.sendHead_unsent fun b hb => (hstreamed b hb).trans (hshut b hb))
  case closes =>
    intro mags at' gate within w v z
    refine congrArg Host.Outcome.next ?_
    rw [hx]
    exact (if_pos ⟨hp, hlen, hrise⟩).trans rfl

section
/-! O42: isle registers, descriptors, isle enables and the loss of XHF (R179 to R181, R193, R205, R206, R267, R477). -/
namespace Sys2Proof.Machine

variable {s : State}

/-! ### Stores to the isle block (R206) -/

theorem region_isleBlock {a : Nat} (hlo : 0x40020000 ≤ a) (hhi : a < 0x40030000) :
    regionOf a = some (.isle ((a - 0x40020000) / 0x1000)) := by
  unfold regionOf
  rw [if_neg (by omega), if_neg (by omega), if_neg (by omega), if_neg (by omega), if_pos hhi]

/-- A store to the isle block that reaches its isle (R34, R37, R39). -/
theorem State.poke_isleBlock {c : CoreId} {a : Nat} (val : Word) (h : s.allows c a true = true) (hal : a % 4 = 0)
    (hlo : 0x40020000 ≤ a) (hhi : a < 0x40030000) : s.poke c a val = s.storeIsle c a val :=
  State.poke_allowed val h hal (by omega) (by omega) (region_isleBlock hlo hhi)

/-- A store to a register of one isle's own: which isle, and that no descriptor or common register is meant. -/
theorem State.storeIsle_own {c : CoreId} {a : Nat} (n : Nat) (val : Word) (ha : 0x40020000 + n * 0x1000 ≤ a)
    (hb : a < 0x40020700 + n * 0x1000) : s.storeIsle c a val =
      if a = ISLE.CTL n then s.storeIsleCtl c n val
      else if a = ISLE.PORTMODE n then s.storePortmode n val
      else s.storeReg c a val := by
  have hn : (a - 0x40020000) / 0x1000 = n := by omega
  unfold State.storeIsle
  dsimp only
  rw [hn, if_neg (by omega), if_neg (by omega)]

theorem State.poke_portmode {c : CoreId} (n : Fin 16) (val : Word) (h : s.allows c (ISLE.PORTMODE n) true = true) :
    s.poke c (ISLE.PORTMODE n) val = s.storePortmode n val := by
  obtain ⟨hal, hlo, hhi, ha, hb, hne⟩ : ISLE.PORTMODE n % 4 = 0 ∧ 0x40020000 ≤ ISLE.PORTMODE n ∧
      ISLE.PORTMODE n < 0x40030000 ∧ 0x40020000 + n * 0x1000 ≤ ISLE.PORTMODE n ∧
      ISLE.PORTMODE n < 0x40020700 + n * 0x1000 ∧ ISLE.PORTMODE n ≠ ISLE.CTL n := by
    simp only [ISLE.PORTMODE, ISLE.CTL]; omega
  rw [State.poke_isleBlock val h hal hlo hhi, State.storeIsle_own n val ha hb, if_neg hne, if_pos rfl]

theorem State.poke_isleCtl {c : CoreId} (n : Fin 16) (val : Word) (h : s.allows c (ISLE.CTL n) true = true) :
    s.poke c (ISLE.CTL n) val = s.storeIsleCtl c n val := by
  obtain ⟨hal, hlo, hhi, ha, hb⟩ : ISLE.CTL n % 4 = 0 ∧ 0x40020000 ≤ ISLE.CTL n ∧ ISLE.CTL n < 0x40030000 ∧
      0x40020000 + n * 0x1000 ≤ ISLE.CTL n ∧ ISLE.CTL n < 0x40020700 + n * 0x1000 := by
    simp only [ISLE.CTL]; omega
  rw [State.poke_isleBlock val h hal hlo hhi, State.storeIsle_own n val ha hb, if_pos rfl]

theorem State.poke_descriptor {c : CoreId} (m : Fin 128) (f : Fin 4) (val : Word)
    (h : s.allows c (ISLE0.PDCTL m + 4 * f) true = true) :
    s.poke c (ISLE0.PDCTL m + 4 * f) val = s.storeDescriptor c m f val := by
  obtain ⟨hal, hlo, hhi, hoff⟩ : (ISLE0.PDCTL m + 4 * f) % 4 = 0 ∧ 0x40020000 ≤ ISLE0.PDCTL m + 4 * f ∧
      ISLE0.PDCTL m + 4 * f < 0x40030000 ∧ (ISLE0.PDCTL m + 4 * f) % 0x1000 = 0x800 + 16 * m + 4 * f := by
    simp only [ISLE0.PDCTL]; omega
  have hm : (0x800 + 16 * m.val + 4 * f.val - 0x800) / 16 = m := by omega
  have hf : (0x800 + 16 * m.val + 4 * f.val) % 16 / 4 = f := by omega
  refine (State.poke_isleBlock val h hal hlo hhi).trans ?_
  unfold State.storeIsle
  dsimp only
  rw [hoff, if_pos (by omega), hm, hf]

/-! ### Port modes, descriptors and enables -/

/-- A port mode takes effect at once in an isle without a set, and waits in one with a set (R179). -/
theorem State.storePortmode_idle {n : Nat} (val : Word) (h : (s.isle n).cur = none) :
    s.storePortmode n val = s.setFld (ISLE.PORTMODE_MODES n) (val.toNat % 65536) := by
  unfold State.storePortmode
  dsimp only
  rw [h, bitsOf_low val (by decide)]
  rfl

theorem State.storePortmode_running {n : Nat} {x : ShotSet} (val : Word) (h : (s.isle n).cur = some x) :
    s.storePortmode n val = s.setIsle n { s.isle n with modes := some val } :=
  if_pos (Option.isSome_of_eq_some h)

/-- The ports of a pair lie apart, on one isle or on twins (R181). -/
theorem portsSuit_iff {ctl : Word} : portsSuit ctl = true ↔ ctlKind ctl ≠ 0 ∨ (ctlPortB ctl ≠ ctlPortA ctl ∧
    (ctlPortB ctl / 8 = ctlPortA ctl / 8 ∨ ctlPortB ctl / 8 = twinOf (ctlPortA ctl / 8))) := by
  simp only [portsSuit, Bool.or_eq_true, Bool.and_eq_true, decide_eq_true_eq]

/-- What every store to a descriptor ends with: its learnt time is forgotten (R267). -/
def State.forgetTime (s : State) (m : Nat) : State := s.onIsles (fun k => { k with expected := terase k.expected m })

section Descriptor

variable {c : CoreId} {m : Nat} {val : Word}

/-- A word other than PDGAIN that leaves the ports well paired is stored as it is. -/
theorem State.storeDescriptor_plain {field : Nat} (h3 : field ≠ 3)
    (h0 : field = 0 → portsSuit ((s.storeReg c (ISLE0.PDCTL m + 4 * field) val).getReg (ISLE0.PDCTL m)) = true) :
    s.storeDescriptor c m field val = (s.storeReg c (ISLE0.PDCTL m + 4 * field) val).forgetTime m := by
  unfold State.storeDescriptor
  dsimp only
  rw [if_neg h3, if_neg fun ⟨hf, hp⟩ => Bool.false_ne_true (hp.symm.trans (h0 hf))]
  rfl

/-- A PDCTL that pairs forbidden ports loses its EN (R181). -/
theorem State.storeDescriptor_forbidden
    (h : portsSuit ((s.storeReg c (ISLE0.PDCTL m + 4 * 0) val).getReg (ISLE0.PDCTL m)) = false) :
    s.storeDescriptor c m 0 val =
      ((s.storeReg c (ISLE0.PDCTL m + 4 * 0) val).setFlag (ISLE0.PDCTL_EN m) false).forgetTime m := by
  unfold State.storeDescriptor
  dsimp only
  rw [if_neg (show ¬(0 = 3) by decide), if_pos ⟨rfl, h⟩]
  rfl

/-- A PDGAIN restarts the working gain from its GAIN (R193). -/
theorem State.storeDescriptor_gain :
    let stored := s.storeReg c (ISLE0.PDCTL m + 4 * 3) val
    s.storeDescriptor c m 3 val =
      (stored.setFld (ISLE0.PDGAIN_WGAIN m) (stored.fld (ISLE0.PDGAIN_GAIN m))).forgetTime m := by
  unfold State.storeDescriptor
  dsimp only
  rw [if_pos rfl, if_neg fun h => absurd h.1 (by decide)]
  rfl

end Descriptor

theorem isleCtl_fields : ∀ n : Fin 16, (regFind (ISLE.CTL n)).map (fun x => x.1.fields) = some [enableField] := by decide +kernel

/-- A store to CTL puts EN, which the isle follows while M is set (R205, R445). -/
theorem State.storeIsleCtl_eq (h : twf regReset s.regs = true) (c : CoreId) (n : Fin 16) (val : Word) :
    let u := s.setFld (ISLE.CTL_EN n) (bitsOf val 31 31)
    s.storeIsleCtl c n val =
      ((u.enableActs (unitIsle n) (val.getLsbD 31 && u.flag SYS.MODE_M)).fallRefuse n).isleRun n := by
  intro u
  obtain ⟨⟨r, k⟩, hr, hf⟩ := Option.map_eq_some_iff.mp (isleCtl_fields n)
  unfold State.storeIsleCtl
  rw [State.storeReg_enable val hr hf]
  exact congrArg (fun en => ((u.enableActs (unitIsle n) (en && u.flag SYS.MODE_M)).fallRefuse n).isleRun n)
    (State.flag_setFld_enable h _ val)

end Sys2Proof.Machine
end

open Sys2Proof Sys2Proof.Machine in
/-- Settles O42, from where each store goes in the isle block, what each does there, and the guard of XHFLOST. -/
theorem isleRegistersAndXhfLoss : Obligations.IsleRegistersAndXhfLoss := by
  unfold Obligations.IsleRegistersAndXhfLoss
  intro s c n m f val h stored suits forget
  refine ⟨fun hal => ?portmode, fun hal => ?descriptor, fun hal => ?enable, fun hheld hon => ?lost⟩
  case portmode =>
    have hpoke : exec (.portmodeWrite c n val) s = .next (s.storePortmode n val) := congrArg _ (State.poke_portmode n val hal)
    exact ⟨fun hcur => hpoke.trans (congrArg _ (State.storePortmode_idle val hcur)),
      fun x hcur => hpoke.trans (congrArg _ (State.storePortmode_running val hcur))⟩
  case descriptor =>
    have hpoke : exec (.descriptorWrite c m f val) s = .next (s.storeDescriptor c m f val) :=
      congrArg _ (State.poke_descriptor m f val hal)
    refine ⟨fun hf hs => ?suited, fun hf hs => ?forbidden, fun hf => ?plain, fun hf => ?gain⟩
    case suited =>
      exact hpoke.trans (congrArg _ (State.storeDescriptor_plain (by simp [hf]) fun _ => portsSuit_iff.mpr hs))
    case forbidden =>
      subst hf
      exact hpoke.trans (congrArg _ (State.storeDescriptor_forbidden (Bool.eq_false_iff.mpr fun hp => hs (portsSuit_iff.mp hp))))
    case plain =>
      have hne : f.val ≠ 3 ∧ f.val ≠ 0 := by rcases hf with rfl | rfl <;> decide
      exact hpoke.trans (congrArg _ (State.storeDescriptor_plain hne.1 fun h0 => absurd h0 hne.2))
    case gain =>
      subst hf
      exact hpoke.trans (congrArg _ State.storeDescriptor_gain)
  case enable =>
    intro u v
    exact congrArg _ ((State.poke_isleCtl n val hal).trans (State.storeIsleCtl_eq h.regs c n val))
  case lost =>
    refine congrArg Host.Outcome.next ?_
    exact if_pos ⟨hheld, hon⟩

section
/-! O43: the evaluations and the replica scans of a CIM bank (R211, R221, R224 to R227, R229 to R236). -/
namespace Sys2Proof.Machine

variable {s : State} {b : Nat}

/-! ### The evaluation and the scans of a bank -/

theorem State.evalOf_setEval_some (e : Eval) : (s.setEval b (some e)).evalOf b = some e :=
  tget_tput_of_ne_default (d := fun _ => none) _ b (Option.some_ne_none e)

theorem State.scansOf_setScans {l : List Scan} (h : l ≠ []) : (s.setScans b l).scansOf b = l :=
  tget_tput_of_ne_default (d := fun _ => []) _ b h

/-- Replacing the scans that wait leaves the evaluation, the streams, the registers and the ticks as they are. -/
theorem State.evalOf_setScans (l : List Scan) : (s.setScans b l).evalOf b = s.evalOf b := rfl

theorem State.streams_setScans (l : List Scan) : (s.setScans b l).streams b = s.streams b := rfl

theorem State.fld_setScans (l : List Scan) (f : Fld) : (s.setScans b l).fld f = s.fld f := rfl

/-- A scan that has been due for less than 10 ms does not precede an evaluation (R231). -/
theorem State.overdue_eq_false {y : Scan} : s.overdue y = false ↔ (s.crypt.ticks - y.due).toNat < 328 :=
  decide_eq_false_iff_not.trans Nat.not_le

/-- A scan that becomes due now waits for a gap (R231). -/
theorem State.overdue_now (mask : Nat) (periodic : Bool) (drifted : List RowAt) :
    s.overdue ⟨mask, periodic, drifted, s.crypt.ticks⟩ = false :=
  State.overdue_eq_false.mpr (by simp)

/-! ### The next stream (R233) -/

theorem nextStream_timeDomain {l : List Stream} {x : Stream}
    (h : l.find? (fun x => decide (x.len ≤ x.count) && !x.lagged && x.reason.isNone) = some x) :
    nextStream l = some (x, false) := by
  unfold nextStream
  rw [h]

theorem nextStream_digital {l : List Stream} {x : Stream}
    (htd : l.find? (fun x => decide (x.len ≤ x.count) && !x.lagged && x.reason.isNone) = none)
    (hdg : l.find? (fun x => x.lagged && x.digital.isNone && x.reason.isNone) = some x) :
    nextStream l = some (x, true) := by
  unfold nextStream
  rw [htd, hdg]
  rfl

/-! ### What a bank does next (R231, R233) -/

/-- A bank whose evaluation runs begins nothing. -/
theorem State.bankNext_running (h : (s.evalOf b).isSome = true) (n : Nat) : s.bankNext b n = s := by
  cases n with
  | zero => rfl
  | succ n => exact if_pos (.inl h)

/-- A bank that runs nothing starts the next evaluation where no scan is overdue. -/
theorem State.bankNext_startEval (hrun : s.evalOf b = none) (hlife : 2 ≤ s.fld (CIM.STAT_LIFE b))
    (hscan : ∀ y ∈ s.scansOf b, s.overdue y = false) {x : Stream} {digital : Bool}
    (hnext : nextStream (s.streams b) = some (x, digital)) (n : Nat) :
    s.bankNext b (n + 1) = s.startEval b x digital := by
  have hready : (if s.fld (CIM.STAT_LIFE b) = 2 then s.scansOf b else []).find? s.overdue = none := by
    split
    · exact List.find?_eq_none.mpr fun y hy => Bool.eq_false_iff.mp (hscan y hy)
    · rfl
  rw [State.bankNext, if_neg (not_or.mpr ⟨by simp [hrun], Nat.not_lt.mpr hlife⟩)]
  simp only [hready, hnext]

/-- An ON bank that runs nothing and has no evaluation to start runs the oldest scan. -/
theorem State.bankNext_scan (hrun : s.evalOf b = none) (hlife : s.fld (CIM.STAT_LIFE b) = 2) {x : Scan} {rest : List Scan}
    (hscans : s.scansOf b = x :: rest) (hdue : ∀ y ∈ s.scansOf b, s.overdue y = false)
    (hnext : nextStream (s.streams b) = none) (n : Nat) :
    s.bankNext b (n + 1) = ((s.setScans b rest).runScan b x).bankNext b n := by
  have hready : (x :: rest).find? s.overdue = none :=
    List.find?_eq_none.mpr fun y hy => Bool.eq_false_iff.mp (hdue y (hscans ▸ hy))
  rw [State.bankNext, if_neg (by simp [hrun, hlife])]
  simp only [hlife, if_true, hready, hnext, hscans, List.head?_cons, List.erase_cons_head]

/-- A scan that becomes due while an evaluation runs waits behind it (R231). -/
theorem State.scanDue_running (h : (s.evalOf b).isSome = true) (mask : Nat) (periodic : Bool) (drifted : List RowAt) :
    s.scanDue b mask periodic drifted = s.setScans b (s.scansOf b ++ [⟨mask, periodic, drifted, s.crypt.ticks⟩]) :=
  State.bankNext_running ((congrArg Option.isSome (State.evalOf_setScans _)).trans h) _

/-- A scan that becomes due runs at once in an ON bank that has nothing else to do. -/
theorem State.scanDue_idle (hrun : s.evalOf b = none) (hlife : s.fld (CIM.STAT_LIFE b) = 2) (hscans : s.scansOf b = [])
    (hnext : nextStream (s.streams b) = none) (mask : Nat) (periodic : Bool) (drifted : List RowAt) :
    let x : Scan := ⟨mask, periodic, drifted, s.crypt.ticks⟩
    s.scanDue b mask periodic drifted = (((s.setScans b [x]).setScans b []).runScan b x).bankNext b 1 := by
  intro x
  have hx : (s.setScans b [x]).scansOf b = [x] := State.scansOf_setScans (List.cons_ne_nil x [])
  have hdue : ∀ y ∈ (s.setScans b [x]).scansOf b, (s.setScans b [x]).overdue y = false := by
    rw [hx]
    exact List.forall_mem_singleton.mpr (State.overdue_now mask periodic drifted)
  unfold State.scanDue State.bankRun
  rw [hscans, List.nil_append, hx]
  exact State.bankNext_scan ((State.evalOf_setScans _).trans hrun) ((State.fld_setScans _ _).trans hlife) hx hdue
    ((congrArg nextStream (State.streams_setScans _)).trans hnext) 1

/-! ### Evaluations (R234 to R236) -/

theorem State.evalOf_startEval_isSome (x : Stream) (digital : Bool) : ((s.startEval b x digital).evalOf b).isSome = true :=
  Option.isSome_of_eq_some (State.evalOf_setEval_some _)

/-- The evaluation that ends is the one that runs. -/
theorem State.evalEnds_running {e : Eval} {x : Stream} {digital : Bool} (he : s.evalOf b = some e)
    (hx : s.streamOf b e = some x) (hd : e.digital = digital) : s.evalEnds b digital = (s, some (e, x)) := by
  have hrun : s.bankRun b = s := State.bankNext_running (Option.isSome_of_eq_some he) _
  unfold State.evalEnds
  simp only [hrun, he, hd, if_true, hx, Option.map_some]

/-- Where none runs, a bank starts the next one, and that is the evaluation that ends. -/
theorem State.bankRun_startEval (hrun : s.evalOf b = none) (hlife : 2 ≤ s.fld (CIM.STAT_LIFE b))
    (hscan : ∀ y ∈ s.scansOf b, s.overdue y = false) {x : Stream} {digital : Bool}
    (hnext : nextStream (s.streams b) = some (x, digital)) :
    s.bankRun b = s.startEval b x digital ∧ s.evalEnds b digital = (s.startEval b x digital).evalEnds b digital := by
  have hstart : s.bankRun b = s.startEval b x digital := State.bankNext_startEval hrun hlife hscan hnext _
  have hgoes : (s.startEval b x digital).bankRun b = s.startEval b x digital :=
    State.bankNext_running (State.evalOf_startEval_isSome x digital) _
  refine ⟨hstart, ?_⟩
  unfold State.evalEnds
  rw [hstart, hgoes]

theorem execTimeDomainEval_congr {bk : Fin 4} {t : State} (h : s.evalEnds bk false = t.evalEnds bk false) :
    execTimeDomainEval bk s = execTimeDomainEval bk t := by
  unfold execTimeDomainEval
  dsimp only
  rw [h]

theorem execDigitalEval_congr {bk : Fin 4} {t : State} (h : s.evalEnds bk true = t.evalEnds bk true) (bad : List CellAt)
    (drifted : List RowAt) (again : List CellAt) :
    execDigitalEval bk bad drifted again s = execDigitalEval bk bad drifted again t := by
  unfold execDigitalEval
  dsimp only
  rw [h]

/-! ### A store to REFNOW (R231, R243) -/

theorem region_refnow : ∀ b : Fin 4, regionOf (CIM.REFNOW b) = some (.bank b) := by decide

theorem State.storeBank_refnow (c : CoreId) (b : Nat) (val : Word) (l : List RowAt) :
    s.storeAt c (CIM.REFNOW b) val l (.bank b) = s.storeRefnow b val l :=
  (if_neg (by simp only [CIM.REFNOW, CIM.THRDATA]; omega)).trans (if_pos rfl)

/-- A store that reaches its register, with the rows that a scan it asks for finds drifted (R34, R37, R39, R40). -/
theorem State.commandStoreWith_allowed {c : CoreId} {addr : Word} (val : Word) (l : List RowAt) {g : Region}
    (h : s.allows c addr.toNat true = true) (ha : addr.toNat % 4 = 0) (hm : 0x40000000 ≤ addr.toNat)
    (hg : regionOf addr.toNat = some g) : s.commandStoreWith c addr val l = s.storeAt c addr.toNat val l g := by
  obtain ⟨hd, hr, hs⟩ := State.allows_iff.mp h
  unfold State.commandStoreWith State.busStoreWith
  simp [hd, ha, (not_ownMemory (c := c) hm).2, hr, hs, hg]

theorem State.commandStoreWith_refnow {c : CoreId} (b : Fin 4) (val : Word) (l : List RowAt)
    (h : s.allows c (CIM.REFNOW b) true = true) :
    s.commandStoreWith c (BitVec.ofNat 32 (CIM.REFNOW b)) val l = s.storeRefnow b val l := by
  have hn : (BitVec.ofNat 32 (CIM.REFNOW b)).toNat = CIM.REFNOW b :=
    Nat.mod_eq_of_lt (by simp only [CIM.REFNOW]; omega)
  have hal : CIM.REFNOW b % 4 = 0 ∧ 0x40000000 ≤ CIM.REFNOW b := by simp only [CIM.REFNOW]; omega
  rw [State.commandStoreWith_allowed (g := .bank b) val l, hn, State.storeBank_refnow] <;> rw [hn]
  · exact h
  · exact hal.1
  · exact hal.2
  · exact region_refnow b

/-- REFNOW names its tiles in its low eight bits. -/
theorem State.storeRefnow_on (h : s.fld (CIM.STAT_LIFE b) = 2) (val : Word) (l : List RowAt) :
    s.storeRefnow b val l = s.scanDue b (val.toNat % 256) false l :=
  (if_pos h).trans (congrArg (s.scanDue b · false l) (bitsOf_low val (hi := 7) (by decide)))

/-! ### A scan of ON tiles (R227, R229, R230) -/

/-- A scan that finds an ON tile refreshes its drifted rows, is counted as marked or not, and adapts WORK where it is periodic. -/
theorem State.runScan_on (x : Scan) :
    let u := s.copyPending b
    let tiles := (maskTiles b x.tiles).filter (fun t => u.tileOn t)
    let found := x.drifted.any (fun d => tiles.elem d.tile.val)
    let v := ((u.scanTiles b tiles x.drifted).onCim (fun k => { k with
      scanned := tput (fun _ => none) k.scanned b (some u.crypt.ticks) })).markScan b found (u.workLow b)
    tiles ≠ [] → s.runScan b x = if x.periodic then v.adaptWork b found else v := by
  intro u tiles found v h
  exact if_neg (by rwa [List.isEmpty_iff])

end Sys2Proof.Machine
end

open Sys2Proof Sys2Proof.Machine in
/-- Settles O43, from what a bank does next, the evaluation that ends, where a store to REFNOW goes, and the parts of a scan. -/
theorem banksEvaluateAndScan : Obligations.BanksEvaluateAndScan := by
  unfold Obligations.BanksEvaluateAndScan
  intro s bk c val upsets drifted b u patient started
  have hwaits : patient → ∀ y ∈ s.scansOf b, s.overdue y = false :=
    fun h y hy => State.overdue_eq_false.mpr (h y hy)
  refine ⟨fun x hrun hlife hpatient htd => ?startTimeDomain, fun x hrun hlife hpatient htd hdg => ?startDigital,
    fun e x he hx hd => ?endTimeDomain, fun e x he hx hd => ?endDigital, fun hon => ?periodicDue,
    fun hal hon => ?refnow, fun mask periodic => ?scanDue, fun x => ?scanRuns⟩
  case startTimeDomain =>
    obtain ⟨hstart, hends⟩ := State.bankRun_startEval hrun hlife (hwaits hpatient) (nextStream_timeDomain htd)
    exact ⟨hstart, execTimeDomainEval_congr hends⟩
  case startDigital =>
    obtain ⟨hstart, hends⟩ := State.bankRun_startEval hrun hlife (hwaits hpatient) (nextStream_digital htd hdg)
    exact ⟨hstart, execDigitalEval_congr hends ..⟩
  case endTimeDomain =>
    intro y
    have hends := State.evalEnds_running he hx hd
    constructor
    case left =>
      intro q hq
      exact congrArg Host.Outcome.next (by simp only [hends, hq, b, y])
    case right =>
      intro hq active out
      exact congrArg Host.Outcome.next (by simp only [hends, hq, b, y, active, out])
  case endDigital =>
    intro tiles
    have hends := State.evalEnds_running he hx hd
    constructor
    case left =>
      intro q hq
      exact congrArg Host.Outcome.next (by simp only [hends, hq, b])
    case right =>
      intro hq r y
      -- The match on the verdict may stand here under two matcher names; rfl identifies them.
      exact congrArg Host.Outcome.next (by simp only [hends, hq, b, r, y, tiles] <;> rfl)
  case periodicDue => exact congrArg Host.Outcome.next (if_pos hon)
  case refnow =>
    exact congrArg Host.Outcome.next ((State.commandStoreWith_refnow bk val drifted hal).trans (State.storeRefnow_on hon val drifted))
  case scanDue =>
    exact ⟨fun hrun => State.scanDue_running hrun mask periodic drifted,
      fun hrun hlife hscans hnext => State.scanDue_idle hrun hlife hscans hnext mask periodic drifted⟩
  case scanRuns => exact State.runScan_on x

section
/-! O40: a shot without LAG, and one without a verdict (R252). -/
namespace Sys2Proof.Machine

variable {s : State} {n : Fin 16}

/-- A shot that waits for LAG is finished without an arrival, and a LAG that still comes is ignored (R252). -/
theorem execLagTimeout_waiting {x : ShotSet} (hx : (s.isle n).cur = some x) (hp : x.phase = .lag) :
    exec (.lagTimeout n) s = .next ((s.ignoreReplies n [tagLag]).finishShot n x none false true) := by
  refine congrArg Host.Outcome.next ?_
  rw [hx]
  exact if_pos hp

/-- An isle whose record waits for its reply writes word 5 itself (R252). -/
theorem execNoverdict_waiting {shot : Nat} (ha : (s.isle n).awaits = some shot) :
    let v := (s.ignoreReplies n [tagWack, tagRefuse]).setIsle n { s.isle n with awaits := none }
    exec (.noverdict n) s = .next ((v.sendQueue (isleIsland n) (v.fld (ISLE.RQUEUE_QUEUE n))
      [verdictWord verdictFail reasonNoverdict]).isleRun n) := by
  refine congrArg Host.Outcome.next ?_
  dsimp only
  rw [ha]

end Sys2Proof.Machine
end

open Sys2Proof Sys2Proof.Machine in
/-- Settles O40, from the isle that waits for LAG and the isle that waits for a reply. -/
theorem shotsEndWithoutTheirBank : Obligations.ShotsEndWithoutTheirBank := by
  unfold Obligations.ShotsEndWithoutTheirBank
  intro s n
  refine ⟨fun x hx hp => execLagTimeout_waiting hx hp, fun shot ha => ?noverdict⟩
  case noverdict =>
    intro u v
    have hword : verdictWord verdictFail reasonNoverdict = 0xC2210000 := by decide
    exact hword ▸ execNoverdict_waiting ha

section
/-! O41: RTD and reference conversions (R266, R267). -/
namespace Sys2Proof.Machine

variable {s : State} {n : Fin 16}

theorem State.conversion_eq {x : ShotSet} {p : Phase} (hx : (s.isle n).cur = some x) (hk : 2 ≤ ctlKind x.ctl)
    (hp : x.phase = p) : s.conversion n p = some x := by
  unfold State.conversion
  rw [hx]
  exact if_pos ⟨hk, hp⟩

section Charge

variable {x : ShotSet} (hc : s.conversion n .lead = some x)
include hc

/-- TCAP charged within 20 µs: there is no capacitor (R267). -/
theorem execRtdChargeDone_nocap {ns : Nat} (hclk : s.flag CRYPT.CLKSTAT_XHFOK = true) (hns : ns ≤ 20000) :
    exec (.rtdChargeDone n ns) s =
      .next ((s.isleFault n x.cmd.pd none).rtdRecord n x 0 false 0 verdictFail reasonNocap) := by
  refine congrArg Host.Outcome.next ?_
  rw [hc]
  exact (if_pos hclk).trans (if_pos hns)

/-- TCAP charged in time: the discharge begins (R266). -/
theorem execRtdChargeDone_charged {ns : Nat} (hclk : s.flag CRYPT.CLKSTAT_XHFOK = true) (hlo : 20000 < ns)
    (hhi : ns ≤ 1000000) : exec (.rtdChargeDone n ns) s = .next (s.setCur n { x with phase := .discharge }) := by
  refine congrArg Host.Outcome.next ?_
  rw [hc]
  exact (if_pos hclk).trans ((if_neg (Nat.not_le.mpr hlo)).trans (if_pos hhi))

theorem execCapshort_lead :
    exec (.capshort n) s = .next ((s.isleFault n x.cmd.pd none).rtdRecord n x 0 false 0 verdictFail reasonCapshort) := by
  refine congrArg Host.Outcome.next ?_
  rw [hc]

end Charge

section Discharge

variable {x : ShotSet} (hc : s.conversion n .discharge = some x)
include hc

theorem execRtdopen_discharge : exec (.rtdopen n) s = .next ((s.isleFault n x.cmd.pd
    (some (ISLE.FAULTS_OPEN n))).rtdRecord n x 0 true flagOpen verdictFail reasonRtdopen) := by
  refine congrArg Host.Outcome.next ?_
  rw [hc]

/-- A crossing before 2.77 µs, or before a quarter of the learnt time, is a short (R267). -/
theorem execRtdCrossing_early {taps : Nat} (hopen : taps ≤ 4 * s.expected x.cmd.pd)
    (hshort : taps < rtdShortest ∨
      (tget (fun _ => none) s.isles.expected x.cmd.pd ≠ none ∧ 4 * taps < s.expected x.cmd.pd)) :
    exec (.rtdCrossing n taps) s = .next ((s.isleFault n x.cmd.pd
      (some (ISLE.FAULTS_SHORT n))).rtdRecord n x taps false flagShort verdictFail reasonRtdshort) := by
  refine congrArg Host.Outcome.next ?_
  rw [hc]
  exact (if_neg (Nat.not_lt.mpr hopen)).trans
    (if_pos (hshort.imp_right (And.imp_left Option.isSome_iff_ne_none.mpr)))

/-- A crossing in time is recorded, and its time is learnt, no longer than 693 µs (R267). -/
theorem execRtdCrossing_inTime {taps : Nat} (hopen : taps ≤ 4 * s.expected x.cmd.pd) (hshort : rtdShortest ≤ taps)
    (hlearnt : tget (fun _ => none) s.isles.expected x.cmd.pd ≠ none → s.expected x.cmd.pd ≤ 4 * taps) :
    exec (.rtdCrossing n taps) s = .next ((s.onIsles (fun k => { k with
      expected := tput (fun _ => none) k.expected x.cmd.pd (some (min taps rtdExpected)) })).rtdRecord
        n x taps false 0 verdictConfirm reasonNone) := by
  have hearly : ¬(taps < rtdShortest ∨
      ((tget (fun _ => none) s.isles.expected x.cmd.pd).isSome = true ∧ 4 * taps < s.expected x.cmd.pd)) := by
    rintro (h | ⟨hsome, h⟩)
    · exact Nat.not_lt.mpr hshort h
    · exact Nat.not_lt.mpr (hlearnt (Option.isSome_iff_ne_none.mp hsome)) h
  refine congrArg Host.Outcome.next ?_
  rw [hc]
  exact (if_neg (Nat.not_lt.mpr hopen)).trans (if_neg hearly)

end Discharge

end Sys2Proof.Machine
end

open Sys2Proof Sys2Proof.Machine in
/-- Settles O41, from a conversion that charges and one that discharges. -/
theorem conversionsEndWithTheirRecord : Obligations.ConversionsEndWithTheirRecord := by
  unfold Obligations.ConversionsEndWithTheirRecord
  intro s n x ns taps hx hk m learned expect fault
  have conv : ∀ {p}, x.phase = p → s.conversion n p = some x := State.conversion_eq hx hk
  exact ⟨fun hp hclk hns => execRtdChargeDone_nocap (conv hp) hclk hns,
    fun hp hclk hlo hhi => execRtdChargeDone_charged (conv hp) hclk hlo hhi,
    fun hp => execCapshort_lead (conv hp), fun hp => execRtdopen_discharge (conv hp),
    fun hp hopen hshort => execRtdCrossing_early (conv hp) hopen hshort,
    fun hp hopen hshort hlearnt => execRtdCrossing_inTime (conv hp) hopen hshort hlearnt⟩

section
/-! Laws of registers stored field by field: what a store to one field does to the state, and which stores to one register
commute (R5, R6, R10, R11). -/
namespace Sys2Proof.Machine

variable {s : State}

/-! ### Fields of a word -/

theorem bitsPut_bitsOf_self (w : Word) {hi lo : Nat} (h : hi < 32) (hl : lo ≤ hi) : bitsPut w hi lo (bitsOf w hi lo) = w := by
  refine BitVec.eq_of_getLsbD_eq fun i hi32 => ?_
  rw [bitsPut_getLsbD _ _ _ hi32 hl, bitsOf_testBit _ _ _ _ h hl]
  split
  · next hin => rw [decide_eq_true (by omega), Bool.true_and, show lo + (i - lo) = i by omega]
  · rfl

/-- The later of two values put into one field stands. -/
theorem bitsPut_bitsPut (w : Word) {hi lo : Nat} (v x : Nat) (hl : lo ≤ hi) :
    bitsPut (bitsPut w hi lo v) hi lo x = bitsPut w hi lo x := by
  refine BitVec.eq_of_getLsbD_eq fun i hi32 => ?_
  simp only [bitsPut_getLsbD _ _ _ hi32 hl]
  split <;> rfl

theorem bitsPut_comm (w : Word) {hi lo h2 l2 : Nat} (v x : Nat) (hl : lo ≤ hi) (hl2 : l2 ≤ h2) (hd : h2 < lo ∨ hi < l2) :
    bitsPut (bitsPut w hi lo v) h2 l2 x = bitsPut (bitsPut w h2 l2 x) hi lo v := by
  refine BitVec.eq_of_getLsbD_eq fun i hi32 => ?_
  simp only [bitsPut_getLsbD _ _ _ hi32 hl, bitsPut_getLsbD _ _ _ hi32 hl2]
  by_cases h : lo ≤ i ∧ i ≤ hi
  · rw [if_neg (by omega), if_pos h, if_pos h]
  · simp only [if_neg h]

/-! ### Registers -/

/-- Writing back what a key reads changes nothing. -/
theorem tput_tget {α : Type} [DecidableEq α] {d : Nat → α} {m : List (Nat × α)} {lo : Nat} (h : tsortedFrom d lo m = true)
    (k : Nat) : tput d m k (tget d m k) = m := by
  induction m generalizing lo with
  | nil => exact if_pos rfl
  | cons e rest ih =>
    have hall := h
    simp only [tsortedFrom, Bool.and_eq_true, decide_eq_true_eq, Bool.not_eq_true', decide_eq_false_iff_not] at h
    obtain ⟨⟨hle, hne⟩, hrest⟩ := h
    rcases Nat.lt_trichotomy k e.1 with hk | rfl | hk
    · have hlow : tsortedFrom d e.1 (e :: rest) = true := by simp [tsortedFrom, hne, hrest]
      rw [tget_of_lt hlow hk, tput, if_pos rfl, terase_of_lt hlow hk]
    · simp [tget, tput, hne, tinsert]
    · have hput := ih hrest
      have hget : tget d (e :: rest) k = tget d rest k := if_neg (by omega)
      rw [hget]
      unfold tput at hput ⊢
      simp only [terase, tinsert, if_neg (show ¬k < e.1 by omega), if_neg (show k ≠ e.1 by omega)]
      split
      · next hd => rw [if_pos hd] at hput; rw [hput]
      · next hd => rw [if_neg hd] at hput; rw [hput]

theorem State.putReg_getReg (h : twf regReset s.regs = true) (a : Nat) : s.putReg a (s.getReg a) = s :=
  congrArg (fun r => { s with regs := r }) (tput_tget h a)

theorem State.setFld_fld (h : twf regReset s.regs = true) (f : Fld) (hf : f.hi < 32) (hl : f.lo ≤ f.hi) :
    s.setFld f (s.fld f) = s := by
  unfold State.setFld State.fld
  rw [bitsPut_bitsOf_self _ hf hl, State.putReg_getReg h]

theorem State.setFld_setFld_self (h : twf regReset s.regs = true) (f : Fld) (v w : Nat) (hl : f.lo ≤ f.hi) :
    (s.setFld f v).setFld f w = s.setFld f w := by
  unfold State.setFld
  rw [State.getReg_putReg_self h, bitsPut_bitsPut _ _ _ hl, State.putReg_putReg h]

theorem State.setFld_comm (h : twf regReset s.regs = true) {f g : Fld} (v w : Nat) (hfg : f.Apart g) :
    (s.setFld f v).setFld g w = (s.setFld g w).setFld f v := by
  obtain ⟨ha, -, hlf, hlg, hd⟩ := hfg
  unfold State.setFld
  rw [ha, State.getReg_putReg_self h, State.getReg_putReg_self h, State.putReg_putReg h, State.putReg_putReg h,
    bitsPut_comm _ _ _ hlf hlg hd]

/-! ### A store to one field -/

/-- A field at an address. -/
abbrev FieldSpec.at (f : FieldSpec) (a : Nat) : Fld := ⟨a, f.hi, f.lo⟩

/-- A field that its writer may change takes the value of R10 and R11, if there is one. -/
theorem State.storeField_written {c : CoreId} {f : FieldSpec} (a : Nat) (val : Word) (hc : f.WrittenBy c)
    (hacc : f.acc = .rw ∨ f.acc = .wo) :
    s.storeField c a val f = (storedVal f (f.of val)).elim s (s.setFld (f.at a)) := by
  unfold State.storeField
  dsimp only
  rw [if_neg hc.not_kept]
  rcases hacc with hacc | hacc <;> rw [hacc] <;> cases storedVal f (bitsOf val f.hi f.lo) <;> rfl

theorem clampInt_toNat {lo hi : Nat} (h : lo ≤ hi) (v : Nat) : (clampInt lo hi v).toNat = min hi (max lo v) := by
  unfold clampInt
  split
  · omega
  · split <;> omega

/-- An unsigned field holds a value without a reserved code to its range (R11). -/
theorem storedVal_unsigned {f : FieldSpec} {lo hi v : Nat} (hs : f.signed = false) (hlo : f.rangeLo = lo)
    (hhi : f.rangeHi = hi) (hle : lo ≤ hi) (hr : f.reserved.elem v = false) : storedVal f v = some (min hi (max lo v)) := by
  unfold storedVal
  rw [hr, hs, hlo, hhi, clampInt_toNat hle]
  rfl

/-- A field of every value takes its bits of the word as they are. -/
theorem storedVal_whole {f : FieldSpec} {val : Word} (hs : f.signed = false) (hlo : f.rangeLo = 0)
    (hhi : f.rangeHi = (2 ^ (f.hi + 1 - f.lo) - 1 : Nat)) (hr : f.reserved.elem (f.of val) = false) :
    storedVal f (f.of val) = some (f.of val) := by
  have hlt : f.of val < 2 ^ (f.hi + 1 - f.lo) := bitsOf_lt val f.hi f.lo
  rw [storedVal_unsigned (lo := 0) hs hlo hhi (Nat.zero_le _) hr]
  exact congrArg some (by omega)

/-- A W1C bit is cleared by a 1, unless hardware has set it in the present cycle (R6). -/
theorem State.storeField_w1cBit (h : twf regReset s.regs = true) {c : CoreId} {f : FieldSpec} {i : Nat} (a : Nat)
    (val : Word) (hc : f.WrittenBy c) (hacc : f.acc = .w1c) (hhi : f.hi = i) (hlo : f.lo = i) (h32 : i < 32) :
    s.storeField c a val f = if val.getLsbD i && !(s.setNow a).getLsbD i then s.setFlag ⟨a, i, i⟩ false else s := by
  have hstore : s.storeField c a val f = s.setFlag ⟨a, i, i⟩
      ((s.getReg a).getLsbD i && !(val.getLsbD i && !(s.setNow a).getLsbD i)) := by
    unfold State.storeField
    dsimp only
    rw [if_neg hc.not_kept, hacc, hhi, hlo]
    dsimp only
    rw [bitsOf_bit _ _ h32]
    simp only [BitVec.getLsbD_and, BitVec.getLsbD_not, h32, decide_true, Bool.true_and]
    rfl
  rw [hstore]
  split
  · next hclear => rw [hclear, Bool.not_true, Bool.and_false]
  · next hkeep =>
    rw [Bool.eq_false_iff.mpr hkeep, Bool.not_false, Bool.and_true]
    have hold : natOfBool ((s.getReg a).getLsbD i) = s.fld ⟨a, i, i⟩ := (bitsOf_bit _ _ h32).symm
    exact (congrArg _ hold).trans (State.setFld_fld h ⟨a, i, i⟩ h32 (Nat.le_refl i))

/-- A store to a register without SL fields stores its fields one after another (R5). -/
theorem State.storeReg_fields {c : CoreId} {a : Nat} {l : List FieldSpec} (val : Word)
    (hr : (regFind a).map (fun x => x.1.fields) = some l) (hsl : l.any (fun f => decide (f.acc = .sl)) = false) :
    s.storeReg c a val = l.foldl (fun t f => t.storeField c a val f) s := by
  obtain ⟨⟨r, k⟩, hfind, rfl⟩ := Option.map_eq_some_iff.mp hr
  unfold State.storeReg
  rw [hfind]
  exact if_neg (Bool.eq_false_iff.mp hsl)

end Sys2Proof.Machine
end

section
/-! O45: the quantity island's packets, sets, votes, AUXADD and calibration (R260, R264, R268, R269, R272, R277, R279, R284,
R294, R296, R303). -/
namespace Sys2Proof.Machine

variable {s : State}

/-! ### Packets (R99, R260, R272) -/

/-- A gap marker is one word with G set (R99). -/
theorem isMarker_iff {l : List Word} : isMarker l = true ↔ l.length = 1 ∧ (l.getD 0 0).getLsbD 29 = true := by
  unfold isMarker recWord
  rw [Bool.and_eq_true, beq_iff_eq, bitsOf_bit_beq _ _ (by decide)]

/-- An engine that is ON takes the packet and uses it, or breaks a waiting half (R260, R272). -/
theorem execQtyTakePacket_on {q : Nat} {l : List Word} (ht : s.qty.taken = some (q, l)) (hl : s.fld QTY.STAT_LIFE = 2) :
    let u := s.onQty (fun y => { y with taken := none })
    exec .qtyTakePacket s = .next (if isMarker l then u.breakHalf q
      else match u.recDescriptor l with
        | some m => if recKind l = 0 then u.takeTransit q m l else (u.breakHalf q).takeSingle m l
        | none => u.rejectPacket q) := by
  refine congrArg Host.Outcome.next ?_
  rw [ht]
  exact if_pos (beq_iff_eq.mpr hl)

/-! ### Sets and votes (R264, R277, R303) -/

/-- The time of a set ends in an engine that is not OFF (R277). -/
theorem execSetWindowExpiry_open {k : Fin 32} (hs : s.flag (QTY.CDSTAT_INSET k) = true) (hl : s.fld QTY.STAT_LIFE ≠ 0) :
    exec (.setWindowExpiry k) s = .next (if s.metered k then s.closeSet k else s.dropSet k) :=
  congrArg Host.Outcome.next (if_pos (by rw [hs, Bool.true_and, bne_iff_ne]; exact hl))

theorem execVoteAgeExpiry_aged {k : Fin 32} (ha : s.fld (QTY.CLVOTE_AGE k) ≠ 0) :
    exec (.voteAgeExpiry k) s = .next (s.setConduit k { s.conduit k with vote := none }) :=
  congrArg Host.Outcome.next (if_pos ha)

/-! ### Stores to the QTY block -/

/-- A store to the QTY block that reaches the quantity island (R34, R37, R39). -/
theorem State.poke_qtyBlock {c : CoreId} {a : Nat} (val : Word) (h : s.allows c a true = true) (hal : a % 4 = 0)
    (hlo : 0x40040000 ≤ a) (hhi : a < 0x40044000) : s.poke c a val = s.storeQty c a val := by
  have hregion : regionOf a = some .qty := by
    unfold regionOf
    rw [if_neg (by omega), if_neg (by omega), if_neg (by omega), if_neg (by omega), if_neg (by omega), if_neg (by omega),
      if_neg (by omega), if_neg (by omega), if_pos hhi]
  exact State.poke_allowed val h hal (by omega) (by omega) hregion

theorem State.poke_clvote {c : CoreId} (k : Fin 32) (val : Word) (h : s.allows c (QTY.CLVOTE k) true = true) :
    s.poke c (QTY.CLVOTE k) val = s.storeClvote c k val := by
  obtain ⟨hal, hlo, hhi, hctl, hcal, hidx⟩ : QTY.CLVOTE k % 4 = 0 ∧ 0x40043400 ≤ QTY.CLVOTE k ∧
      QTY.CLVOTE k < 0x40043600 ∧ QTY.CLVOTE k ≠ QTY.CTL ∧ QTY.CLVOTE k ≠ QTY.CALCTL ∧
      (QTY.CLVOTE k - 0x40043400) / 0x10 = k := by
    simp only [QTY.CLVOTE, QTY.CTL, QTY.CALCTL]; omega
  refine (State.poke_qtyBlock val h hal (by omega) (by omega)).trans ?_
  unfold State.storeQty
  dsimp only
  rw [hidx, if_neg hctl, if_neg (by omega), if_neg hcal, if_neg (by omega), if_pos ⟨hlo, hhi, rfl⟩]

theorem State.poke_auxadd {c : CoreId} (a : Fin 8) (val : Word) (h : s.allows c (QTY.AUXADD a) true = true) :
    s.poke c (QTY.AUXADD a) val = s.storeAuxadd a val := by
  obtain ⟨hal, hlo, hhi, hctl, hidx⟩ : QTY.AUXADD a % 4 = 0 ∧ 0x40040040 ≤ QTY.AUXADD a ∧
      QTY.AUXADD a < 0x40040060 ∧ QTY.AUXADD a ≠ QTY.CTL ∧ (QTY.AUXADD a - 0x40040040) / 4 = a := by
    simp only [QTY.AUXADD, QTY.CTL]; omega
  refine (State.poke_qtyBlock val h hal (by omega) (by omega)).trans ?_
  unfold State.storeQty
  dsimp only
  rw [if_neg hctl, if_pos ⟨hlo, hhi⟩, hidx]

theorem State.poke_calctl {c : CoreId} (val : Word) (h : s.allows c QTY.CALCTL true = true) :
    s.poke c QTY.CALCTL val = s.storeCalctl c val :=
  State.poke_qtyBlock val h (by decide) (by decide) (by decide)

/-! ### Votes (R264, R271) -/

theorem clvote_fields : ∀ k : Fin 32, (regFind (QTY.CLVOTE k)).map (fun x => x.1.fields) =
    some [⟨31, 31, .ro, 0, 0, 1, false, [], false⟩, ⟨15, 8, .rw, 0, 0, 255, false, [], false⟩,
      ⟨2, 0, .rw, 6, 0, 7, false, [7], false⟩] := by decide +kernel

/-- A store to CLVOTE puts AGE, and CLASS unless its code is reserved (R10). -/
theorem State.storeReg_clvote (c : CoreId) (k : Fin 32) (val : Word) :
    let u := s.setFld (QTY.CLVOTE_AGE k) (bitsOf val 15 8)
    s.storeReg c (QTY.CLVOTE k) val =
      if val.toNat % 8 = 7 then u else u.setFld (QTY.CLVOTE_CLASS k) (val.toNat % 8) := by
  intro u
  have hlow : bitsOf val 2 0 = val.toNat % 8 := bitsOf_low val (by decide)
  have hvalid : s.storeField c (QTY.CLVOTE k) val ⟨31, 31, .ro, 0, 0, 1, false, [], false⟩ = s :=
    State.storeField_of_readOnly (.inl rfl)
  have hage : s.storeField c (QTY.CLVOTE k) val ⟨15, 8, .rw, 0, 0, 255, false, [], false⟩ = u := by
    rw [State.storeField_written _ val (.inl rfl) (.inl rfl), storedVal_whole rfl rfl rfl rfl]
    rfl
  rw [State.storeReg_fields val (clvote_fields k) rfl]
  simp only [List.foldl_cons, List.foldl_nil, hvalid, hage]
  rw [State.storeField_written _ val (.inl rfl) (.inl rfl)]
  split
  · next h7 =>
    have hnone : storedVal ⟨2, 0, .rw, 6, 0, 7, false, [7], false⟩ (bitsOf val 2 0) = none := by rw [hlow, h7]; rfl
    rw [hnone]
    rfl
  · next h7 =>
    have hclass : [7].elem (bitsOf val 2 0) = false := by simpa [hlow] using h7
    rw [storedVal_whole rfl rfl rfl hclass, ← hlow]
    rfl

/-- The store puts the two fields, and the age of the vote starts at this moment. -/
theorem State.storeClvote_eq (c : CoreId) (k : Fin 32) (val : Word) :
    s.storeClvote c k val = (s.storeReg c (QTY.CLVOTE k) val).setConduit k
      { s.conduit k with vote := some ⟨0, s.crypt.ticks.toNat % 32768⟩ } := by
  unfold State.storeClvote
  rw [State.storeReg_clvote]
  split <;> rfl

/-! ### AUXADD (R294, R296) -/

theorem State.send_qty (src dst : Island) (tag : BitVec 4) (w : Word) : (s.send src dst tag w).qty = s.qty := by
  unfold State.send
  split <;> rfl

theorem State.feedSplit_qty (tally k fuel : Nat) : (s.feedSplit tally k fuel).qty = s.qty := by
  have hpair : ∀ (u : State) (w : Word), (u.feedPair tally w).qty = u.qty := fun u w =>
    (State.send_qty ..).trans (State.send_qty ..)
  induction fuel generalizing s k with
  | zero => rfl
  | succ fuel ih =>
    unfold State.feedSplit
    split
    · exact hpair s _
    · exact (ih _).trans (hpair s _)

/-- What reaches the output feed leaves the quantity island as it is. -/
theorem State.feedTally_qty (tally k : Nat) : (s.feedTally tally k).qty = s.qty := by
  unfold State.feedTally
  split
  · rfl
  · split
    · exact State.feedSplit_qty ..
    · rfl

theorem State.bumpTally_indices (tally k : Nat) : (s.bumpTally tally k).qty.indices = s.qty.indices := by
  unfold State.bumpTally
  split
  · rfl
  · rw [State.feedTally_qty]; rfl

/-- An increment adds to its own index, saturating, and to no other; the test tallies that follow it are no index (R294, R297). -/
theorem State.bill_indices {n k : Nat} (hk : k ≠ 0) :
    (s.bill n k).qty.indices = tput (fun _ => 0) s.qty.indices n (min (2 ^ 64 - 1) (s.index n + k)) := by
  unfold State.bill
  rw [if_neg hk]
  dsimp only
  rw [satAdd_eq_min]
  generalize hu : (s.onQty _).feedTally n k = u
  have hbase : u.qty.indices = tput (fun _ => 0) s.qty.indices n (min (2 ^ 64 - 1) (s.index n + k)) := by
    rw [← hu, State.feedTally_qty]; rfl
  split
  · refine List.foldlRecOn (motive := fun t : State => t.qty.indices = _) _ _ hbase fun t ht i _ => ?_
    split
    · rw [State.bumpTally_indices, ht]
    · exact ht
  · exact hbase

theorem State.index_bill_self {n : Nat} (k : Nat) (h : s.index n < 2 ^ 64) :
    (s.bill n k).index n = min (2 ^ 64 - 1) (s.index n + k) := by
  by_cases hk : k = 0
  · rw [show s.bill n k = s from if_pos hk]
    omega
  · unfold State.index at h ⊢
    rw [State.bill_indices hk]
    exact tget_tput_of_ne_default (d := fun _ => 0) _ n (by unfold State.index; omega)

theorem State.index_bill_ne {n m : Nat} (k : Nat) (h : m ≠ n) : (s.bill n k).index m = s.index m := by
  by_cases hk : k = 0
  · rw [show s.bill n k = s from if_pos hk]
  · unfold State.index
    rw [State.bill_indices hk, tget_tput_ne _ _ _ h]

/-! ### Calibration runs (R269, R271) -/

theorem calctl_fields : (regFind QTY.CALCTL).map (fun x => x.1.fields) =
    some [⟨31, 31, .wo, 0, 0, 1, false, [], false⟩, ⟨30, 30, .ro, 0, 0, 1, false, [], false⟩,
      ⟨29, 29, .w1c, 0, 0, 1, false, [], false⟩, ⟨22, 16, .rw, 0, 0, 127, false, [], false⟩,
      ⟨11, 0, .rw, 256, 16, 4095, false, [], false⟩] := by decide +kernel

/-- A store to CALCTL acknowledges DONE (R6). -/
def State.ackCalDone (s : State) (val : Word) : State :=
  if val.getLsbD 29 && !(s.setNow QTY.CALCTL).getLsbD 29 then s.setFlag QTY.CALCTL_DONE false else s

theorem State.twf_ackCalDone (h : twf regReset s.regs = true) (val : Word) : twf regReset (s.ackCalDone val).regs = true := by
  unfold State.ackCalDone
  split
  · exact State.twf_setFlag h _ _
  · exact h

/-- DONE and START do not share a bit. -/
theorem State.ackCalDone_setFld_start (h : twf regReset s.regs = true) (val : Word) (v : Nat) :
    (s.setFld QTY.CALCTL_START v).ackCalDone val = (s.ackCalDone val).setFld QTY.CALCTL_START v := by
  unfold State.ackCalDone
  rw [show (s.setFld QTY.CALCTL_START v).setNow QTY.CALCTL = s.setNow QTY.CALCTL from rfl]
  split
  · exact State.setFld_comm h _ _ (by decide)
  · rfl

theorem State.storeReg_calctl (h : twf regReset s.regs = true) (c : CoreId) (val : Word) :
    s.storeReg c QTY.CALCTL val = ((((s.setFld QTY.CALCTL_START (bitsOf val 31 31)).ackCalDone val).setFld
      QTY.CALCTL_PD (bitsOf val 22 16)).setFld QTY.CALCTL_COUNT (min 4095 (max 16 (val.toNat % 4096)))) := by
  have hlow : bitsOf val 11 0 = val.toNat % 4096 := bitsOf_low val (by decide)
  have hstart : ∀ u : State, u.storeField c QTY.CALCTL val ⟨31, 31, .wo, 0, 0, 1, false, [], false⟩ =
      u.setFld QTY.CALCTL_START (bitsOf val 31 31) := fun u => by
    rw [State.storeField_written _ val (.inl rfl) (.inr rfl), storedVal_whole rfl rfl rfl rfl]
    rfl
  have hbusy : ∀ u : State, u.storeField c QTY.CALCTL val ⟨30, 30, .ro, 0, 0, 1, false, [], false⟩ = u := fun u =>
    State.storeField_of_readOnly (.inl rfl)
  have hdone : ∀ u : State, twf regReset u.regs = true →
      u.storeField c QTY.CALCTL val ⟨29, 29, .w1c, 0, 0, 1, false, [], false⟩ = u.ackCalDone val := fun u hu =>
    State.storeField_w1cBit hu _ val (.inl rfl) rfl rfl rfl (by decide)
  have hpd : ∀ u : State, u.storeField c QTY.CALCTL val ⟨22, 16, .rw, 0, 0, 127, false, [], false⟩ =
      u.setFld QTY.CALCTL_PD (bitsOf val 22 16) := fun u => by
    rw [State.storeField_written _ val (.inl rfl) (.inl rfl), storedVal_whole rfl rfl rfl rfl]
    rfl
  have hcount : ∀ u : State, u.storeField c QTY.CALCTL val ⟨11, 0, .rw, 256, 16, 4095, false, [], false⟩ =
      u.setFld QTY.CALCTL_COUNT (min 4095 (max 16 (val.toNat % 4096))) := fun u => by
    rw [State.storeField_written _ val (.inl rfl) (.inl rfl), storedVal_unsigned (lo := 16) (hi := 4095) rfl rfl rfl
      (by decide) rfl, ← hlow]
    rfl
  rw [State.storeReg_fields val calctl_fields rfl]
  simp only [List.foldl_cons, List.foldl_nil, hstart, hbusy, hpd, hcount]
  rw [hdone _ (State.twf_setFld h _ _)]

/-- START begins a run of COUNT pairs of the descriptor PD, and reads 0 again (R269). -/
theorem State.storeCalctl_start (h : twf regReset s.regs = true) (c : CoreId) {val : Word} (hv : val.getLsbD 31 = true) :
    let pd := bitsOf val 22 16
    let count := min 4095 (max 16 (val.toNat % 4096))
    let v := (((s.ackCalDone val).setFld QTY.CALCTL_PD pd).setFld QTY.CALCTL_COUNT count).setFld QTY.CALCTL_START 0
    s.storeCalctl c val = ((v.setFlag QTY.CALCTL_BUSY true).setFld QTY.CALN_N 0).onQty
      (fun y => { y with cal := some ⟨pd, count, []⟩ }) := by
  intro pd count v
  have hstart : bitsOf val 31 31 = 1 := by rw [bitsOf_bit _ _ (by decide), hv]; rfl
  have hd := State.twf_ackCalDone h val
  have hpd := State.twf_setFld hd QTY.CALCTL_PD pd
  have hcount := State.twf_setFld hpd QTY.CALCTL_COUNT count
  have hset : (s.storeReg c QTY.CALCTL val).setFld QTY.CALCTL_START 0 = v := by
    rw [State.storeReg_calctl h, State.ackCalDone_setFld_start h, State.setFld_comm hd _ pd (by decide),
      State.setFld_comm hpd _ count (by decide), State.setFld_setFld_self hcount _ _ _ (by decide)]
  have hfldPd : v.fld QTY.CALCTL_PD = pd := by
    rw [State.fld_setFld_apart hcount _ (by decide), State.fld_setFld_apart hpd _ (by decide),
      State.fld_setFld_self hd _ _ (by decide) (by decide)]
    exact Nat.mod_eq_of_lt (bitsOf_lt val 22 16)
  have hfldCount : v.fld QTY.CALCTL_COUNT = count := by
    rw [State.fld_setFld_apart hcount _ (by decide), State.fld_setFld_self hpd _ _ (by decide) (by decide)]
    exact Nat.mod_eq_of_lt (show count < 2 ^ 12 by omega)
  unfold State.storeCalctl
  dsimp only
  rw [hset, if_pos hstart, hfldPd, hfldCount]

end Sys2Proof.Machine
end

open Sys2Proof Sys2Proof.Machine in
/-- Settles O45, from what the engine does with a packet, a set and a vote, and where the stores of its block go. -/
theorem quantitiesTakePacketsAndClose : Obligations.QuantitiesTakePacketsAndClose := by
  unfold Obligations.QuantitiesTakePacketsAndClose
  intro s k a c val h
  refine ⟨fun q l ht hl => ?packet, fun hs hl => execSetWindowExpiry_open hs hl, fun ha => execVoteAgeExpiry_aged ha,
    fun hal => ?vote, fun hal => ?auxadd, fun hal hv => ?calibration⟩
  case packet => exact (execQtyTakePacket_on ht hl).trans (congrArg _ (ite_congr (propext isMarker_iff) (fun _ => rfl) fun _ => rfl))
  case vote =>
    intro u v
    exact congrArg Host.Outcome.next ((State.poke_clvote k val hal).trans
      ((State.storeClvote_eq c k val).trans (by rw [State.storeReg_clvote])))
  case auxadd =>
    intro n amount before
    exact ⟨congrArg Host.Outcome.next (State.poke_auxadd a val hal), State.index_bill_self amount,
      fun m hm => State.index_bill_ne amount hm⟩
  case calibration =>
    exact congrArg Host.Outcome.next ((State.poke_calctl val hal).trans (State.storeCalctl_start h.regs c hv))

section
/-! O46: banks, commits and what completes them (R298 to R301, R305, R356, R452). -/
namespace Sys2Proof.Machine

/-! ### Banks (R298, R299, R302) -/

/-- An erased commit word is not its own complement: a bank whose commit runs is not valid (R299). -/
theorem LedgerBank.valid_begun (seq : Word) : (LedgerBank.begun seq).valid = false := by
  simp [LedgerBank.valid, LedgerBank.begun, LedgerBank.empty]

/-- The commit word and the CRC-32 that a completed commit writes are those that make a bank valid (R298, R302). -/
theorem LedgerBank.valid_written (x : Image) : (LedgerBank.written x).valid = true := by
  simp [LedgerBank.valid, LedgerBank.written]

section Newest
variable {q : Qty}

theorem Qty.newest_of_a (ha : q.bankA.valid = true) (hb : q.bankB.valid = false) :
    q.newest = some (false, q.bankA) := by
  simp [Qty.newest, ha, hb]

theorem Qty.newest_of_b (ha : q.bankA.valid = false) (hb : q.bankB.valid = true) :
    q.newest = some (true, q.bankB) := by
  simp [Qty.newest, ha, hb]

theorem Qty.newest_of_invalid (ha : q.bankA.valid = false) (hb : q.bankB.valid = false) : q.newest = none := by
  simp [Qty.newest, ha, hb]

/-- What the newest valid bank is: the one it names, and that one is valid. -/
theorem Qty.newest_valid {b : Bool} {x : LedgerBank} (h : q.newest = some (b, x)) :
    x = (if b then q.bankB else q.bankA) ∧ x.valid = true := by
  unfold Qty.newest at h
  split at h
  case h_1 ha hb =>
    split at h
    · cases h; exact ⟨rfl, hb⟩
    · cases h; exact ⟨rfl, ha⟩
  case h_2 ha _ => cases h; exact ⟨rfl, ha⟩
  case h_3 _ hb => cases h; exact ⟨rfl, hb⟩
  case h_4 => cases h

/-- No bank is the newest valid one only where none is valid. -/
theorem Qty.newest_none (h : q.newest = none) : q.bankA.valid = false ∧ q.bankB.valid = false := by
  unfold Qty.newest at h
  split at h
  case h_1 => split at h <;> cases h
  case h_2 => cases h
  case h_3 => cases h
  case h_4 ha hb => exact ⟨ha, hb⟩

/-- A bank that is not valid, written where a commit writes, leaves the newest valid image standing (R299). -/
theorem Qty.newest_setBank_target {x : LedgerBank} (hx : x.valid = false) :
    (q.setBank q.target x).newest = q.newest := by
  cases hn : q.newest with
  | none =>
    have ht : q.target = false := by rw [Qty.target, hn]
    rw [ht]
    exact Qty.newest_of_invalid hx (Qty.newest_none hn).2
  | some e =>
    obtain ⟨b, y⟩ := e
    have ht : q.target = !b := by rw [Qty.target, hn]
    obtain ⟨rfl, hy⟩ := Qty.newest_valid hn
    rw [ht]
    cases b with
    | false => exact Qty.newest_of_a hy hx
    | true => exact Qty.newest_of_b hx hy

end Newest

/-! ### Commits (R299 to R301, R356) -/

section Commits
variable {s : State}

theorem State.startCommit_idle (hc : s.domOn .choir = true) (hq : s.qty.commit = none) (reason : Nat) :
    s.startCommit reason = s.beginCommit reason false := by
  rw [State.startCommit, State.askCommit, if_pos hc, hq]

/-- A cause that meets a running commit waits as its follow-up, or merges into the one that waits (R300). -/
theorem State.startCommit_running (hc : s.domOn .choir = true) (hq : s.qty.commit ≠ none) (reason : Nat) :
    s.startCommit reason = { s with qty := { s.qty with
      follow := match s.qty.follow with | some (r, a) => some (r, a) | none => some (reason, false) } } := by
  obtain ⟨k, hk⟩ := Option.ne_none_iff_exists'.mp hq
  rw [State.startCommit, State.askCommit, if_pos hc, hk]
  cases hf : s.qty.follow with
  | none => rfl
  | some f => simp only [State.onQty, Bool.or_false]

theorem execCommitPeriodicDue_on (hp : s.fld LEDG.CFG_PERIOD ≠ 0) :
    execCommitPeriodicDue s = .next (s.startCommit 0) := by
  rw [execCommitPeriodicDue, if_neg hp]

end Commits

end Sys2Proof.Machine
end

open Sys2Proof Sys2Proof.Machine in
/-- Settles O46, from which bank a commit writes and what makes a bank valid. -/
theorem commitsKeepTheNewestImage : Obligations.CommitsKeepTheNewestImage := by
  unfold Obligations.CommitsKeepTheNewestImage
  intro s hc asked
  refine ⟨fun hp hq => ⟨?begins, Qty.newest_setBank_target (LedgerBank.valid_begun _)⟩, fun hp hq => ?waits, fun k hk => ?ends⟩
  case begins => exact (execCommitPeriodicDue_on hp).trans (congrArg _ (State.startCommit_idle hc hq 0))
  case waits => exact (execCommitPeriodicDue_on hp).trans (congrArg _ (State.startCommit_running hc hq 0))
  case ends =>
    refine ⟨LedgerBank.valid_written k.image, rfl, rfl, ?torn, ?completes⟩
    case torn =>
      change execCommitComplete false s = _
      rw [execCommitComplete, hk]
      exact congrArg _ (if_pos hc)
    case completes =>
      change execCommitComplete true s = _
      rw [execCommitComplete, hk]
      exact congrArg _ (if_pos hc)

section
/-! O47: the heartbeat, the pulse pins and their locks (R308, R312 to R321). -/
namespace Sys2Proof.Machine

variable {s : State}

/-! ### The heartbeat (R308) -/

theorem natOfBool_eq_toNat (b : Bool) : natOfBool b = b.toNat := by cases b <;> rfl

theorem execHeartbeatSend_open (hc : s.domOn .choir = true) (ho : s.strait .quantity .outputs = .isOpen) :
    execHeartbeatSend s = .next (s.feedPair feedHeartbeat (BitVec.ofNat 32
      ((s.flag SYS.MODE_V && !s.flag SYS.MODE_VSUSP).toNat + 2 * (s.flag SYS.MODE_G).toNat))) := by
  rw [← natOfBool_eq_toNat, ← natOfBool_eq_toNat]
  exact congrArg Host.Outcome.next (if_pos ⟨hc, ho⟩)

/-! ### Pulses (R316, R319, R321) -/

/-- An idle pin that is ON and owes a pulse starts it: an EMIT pin always, a VERIFY pin under V. -/
theorem execPulseStart_owed {n : Fin 8} (hl : s.fld (OUT.PINSTAT_LIFE n) = 2)
    (hm : s.fld (OUT.PINCTL_MODE n) = pinEmit ∨ (s.fld (OUT.PINCTL_MODE n) = pinVerify ∧ s.flag OUT.FEEDSTAT_V = true))
    (ha : s.flag (OUT.PINSTAT_ACTIVE n) = false) (hd : 0 < s.fld (OUT.PINDEBT_DEBT n)) :
    execPulseStart n s = .next (((s.setFld (OUT.PINDEBT_DEBT n) (s.fld (OUT.PINDEBT_DEBT n) - 1)).setFlag
      (OUT.PINSTAT_ACTIVE n) true).activity (unitPin n)) := by
  have hon : s.pinOn n = true := beq_iff_eq.mpr hl
  have hemits : (s.fld (OUT.PINCTL_MODE n) == pinEmit ||
      (s.fld (OUT.PINCTL_MODE n) == pinVerify && s.flag OUT.FEEDSTAT_V)) = true := by
    rw [Bool.or_eq_true, Bool.and_eq_true, beq_iff_eq, beq_iff_eq]
    exact hm
  exact congrArg Host.Outcome.next (if_pos (by rw [hon, hemits, ha, decide_eq_true hd]; rfl))

theorem execInputPulseCount_on {n : Fin 8} (hl : s.fld (OUT.PINSTAT_LIFE n) = 2)
    (hm : s.fld (OUT.PINCTL_MODE n) = pinInput) :
    execInputPulseCount n s = .next ((s.bumpWrap (OUT.PINCNT_CNT n) 1).activity (unitPin n)) :=
  congrArg Host.Outcome.next (if_pos (Bool.and_eq_true_iff.mpr ⟨beq_iff_eq.mpr hl, beq_iff_eq.mpr hm⟩))

/-! ### Stores to the registers of a pin -/

theorem region_outBlock {a : Nat} (hlo : 0x40050000 ≤ a) (hhi : a < 0x40051000) : regionOf a = some .out := by
  unfold regionOf
  rw [if_neg (by omega), if_neg (by omega), if_neg (by omega), if_neg (by omega), if_neg (by omega), if_neg (by omega),
    if_neg (by omega), if_neg (by omega), if_neg (by omega), if_neg (by omega), if_pos hhi]

/-- A store to the OUT block that reaches the outputs island (R34, R37, R39). -/
theorem State.poke_outBlock {c : CoreId} {a : Nat} (val : Word) (h : s.allows c a true = true) (hal : a % 4 = 0)
    (hlo : 0x40050000 ≤ a) (hhi : a < 0x40051000) : s.poke c a val = s.storeOut c a val :=
  State.poke_allowed val h hal (by omega) (by omega) (region_outBlock hlo hhi)

/-- Both cores store to the OUT block, LOCK excepted, while their strait reaches the island and the island answers (R34, R39). -/
theorem State.allows_outBlock {c : CoreId} {a : Nat} (hlo : 0x40050000 ≤ a) (hhi : a < 0x40051000) (hne : a ≠ OUT.LOCK) :
    s.allows c a true = (s.domOn (coreDomain c) && !s.dark c .outputs && !s.silent .outputs) := by
  obtain ⟨hflash, hsram⟩ := not_ownMemory (c := c) (a := a) (by omega)
  have hscreen : screened c a true .out = false := by simp only [screened, hne, decide_false, Bool.and_false]
  have hreach : s.reach c a true = if s.dark c .outputs then some causeDark else none := by
    unfold State.reach
    simp only [hflash, hsram, region_outBlock hlo hhi, hscreen]
    rfl
  have hsilent : s.silentAt a = s.silent .outputs := by
    unfold State.silentAt
    rw [region_outBlock hlo hhi]
    rfl
  unfold State.allows
  rw [hreach, hsilent]
  cases s.dark c .outputs <;> rfl

/-- The lock of a pin keeps the nave from every register of the pin (R313). -/
theorem State.outLocked_pin {a : Nat} (n : Fin 8) (hlo : OUT.PINCTL n ≤ a) (hhi : a < OUT.PINCTL n + 0x20)
    (h : bitAt (s.fld OUT.LOCK_PIN) n = true) : s.outLocked .nave a = true := by
  obtain ⟨hin, hidx⟩ : (0x100 ≤ a - 0x40050000 ∧ a - 0x40050000 < 0x200) ∧ (a - 0x40050000 - 0x100) / 0x20 = n := by
    simp only [OUT.PINCTL] at hlo hhi
    omega
  unfold State.outLocked
  dsimp only
  rw [hidx, h, decide_eq_true hin]
  rfl

theorem State.storeOut_pinctl {c : CoreId} (n : Fin 8) (val : Word) (h : s.outLocked c (OUT.PINCTL n) = false) :
    s.storeOut c (OUT.PINCTL n) val = s.storePinctl c n val := by
  obtain ⟨hin, hidx⟩ : (0x100 ≤ OUT.PINCTL n - 0x40050000 ∧ OUT.PINCTL n - 0x40050000 < 0x200) ∧
      (OUT.PINCTL n - 0x40050000 - 0x100) / 0x20 = n := by
    simp only [OUT.PINCTL]; omega
  unfold State.storeOut
  dsimp only
  rw [hidx, if_neg (Bool.eq_false_iff.mp h), if_pos hin, if_pos rfl]

theorem State.storeOut_pinadd {c : CoreId} (n : Fin 8) (val : Word) (h : s.outLocked c (OUT.PINADD n) = false) :
    s.storeOut c (OUT.PINADD n) val = s.storePinadd n val := by
  obtain ⟨hin, hidx, hne⟩ : (0x100 ≤ OUT.PINADD n - 0x40050000 ∧ OUT.PINADD n - 0x40050000 < 0x200) ∧
      (OUT.PINADD n - 0x40050000 - 0x100) / 0x20 = n ∧ OUT.PINADD n ≠ OUT.PINCTL n := by
    simp only [OUT.PINADD, OUT.PINCTL]; omega
  unfold State.storeOut
  dsimp only
  rw [hidx, if_neg (Bool.eq_false_iff.mp h), if_pos hin, if_neg hne, if_pos rfl]

theorem State.poke_pinctl {c : CoreId} (n : Fin 8) (val : Word) (h : s.allows c (OUT.PINCTL n) true = true) :
    s.poke c (OUT.PINCTL n) val = s.storeOut c (OUT.PINCTL n) val := by
  obtain ⟨hal, hlo, hhi⟩ : OUT.PINCTL n % 4 = 0 ∧ 0x40050000 ≤ OUT.PINCTL n ∧ OUT.PINCTL n < 0x40051000 := by
    simp only [OUT.PINCTL]; omega
  exact State.poke_outBlock val h hal hlo hhi

theorem State.poke_pinadd {c : CoreId} (n : Fin 8) (val : Word) (h : s.allows c (OUT.PINADD n) true = true) :
    s.poke c (OUT.PINADD n) val = s.storeOut c (OUT.PINADD n) val := by
  obtain ⟨hal, hlo, hhi⟩ : OUT.PINADD n % 4 = 0 ∧ 0x40050000 ≤ OUT.PINADD n ∧ OUT.PINADD n < 0x40051000 := by
    simp only [OUT.PINADD]; omega
  exact State.poke_outBlock val h hal hlo hhi

/-- A core whose stores reach PINCTL reaches PINADD of the same pin. -/
theorem State.allows_pinadd {c : CoreId} (n : Fin 8) (h : s.allows c (OUT.PINCTL n) true = true) :
    s.allows c (OUT.PINADD n) true = true := by
  obtain ⟨hlo, hhi, hne, hlo', hhi', hne'⟩ : 0x40050000 ≤ OUT.PINCTL n ∧ OUT.PINCTL n < 0x40051000 ∧
      OUT.PINCTL n ≠ OUT.LOCK ∧ 0x40050000 ≤ OUT.PINADD n ∧ OUT.PINADD n < 0x40051000 ∧ OUT.PINADD n ≠ OUT.LOCK := by
    simp only [OUT.PINCTL, OUT.PINADD, OUT.LOCK]; omega
  rw [State.allows_outBlock hlo hhi hne] at h
  rwa [State.allows_outBlock hlo' hhi' hne']

/-- PINADD adds its 24 bits to the debt of a VERIFY pin under V (R319). -/
theorem State.storePinadd_verify {n : Nat} (val : Word) (hm : s.fld (OUT.PINCTL_MODE n) = pinVerify)
    (hv : s.flag OUT.FEEDSTAT_V = true) : s.storePinadd n val = s.addDebt n (val.toNat % 2 ^ 24) := by
  rw [State.storePinadd, if_pos ⟨hm, hv⟩, bitsOf_low val (by decide)]

/-- INPUT holds no source to a range (R312). -/
theorem srcAllowed_of_not_emitter {mode : Nat} (src : Nat) (h0 : mode ≠ pinEmit) (h1 : mode ≠ pinVerify) :
    srcAllowed mode src = true := by
  rw [srcAllowed, if_neg h0, if_neg h1]

/-- EN stays only with a source that MODE allows (R312). -/
def State.checkPinSource (v : State) (n : Nat) : State :=
  if srcAllowed (v.fld (OUT.PINCTL_MODE n)) (v.fld (OUT.PINCTL_SRC n)) then v else v.setFlag (OUT.PINCTL_EN n) false

/-- EN acts on the unit of the pin, and a pin that is not ON drops its line (R314). -/
def State.enablePin (w : State) (n : Nat) : State :=
  let x := w.enableActs (unitPin n) (w.flag (OUT.PINCTL_EN n))
  if x.pinOn n then x else x.setFlag (OUT.PINSTAT_ACTIVE n) false

theorem State.enablePin_eq (w : State) (n : Nat) :
    let x := w.enableActs (unitPin n) (w.flag (OUT.PINCTL_EN n))
    w.enablePin n = if x.fld (OUT.PINSTAT_LIFE n) = 2 then x else x.setFlag (OUT.PINSTAT_ACTIVE n) false :=
  ite_congr (propext beq_iff_eq) (fun _ => rfl) fun _ => rfl

/-- A store to PINCTL: MODE keeps its value unless the pin is OFF, then the source is checked, then EN acts. -/
theorem State.storePinctl_eq (c : CoreId) (n : Nat) (val : Word) :
    let u := s.storeReg c (OUT.PINCTL n) val
    s.storePinctl c n val = ((if s.fld (OUT.PINSTAT_LIFE n) = 0 then u
      else u.setFld (OUT.PINCTL_MODE n) (s.fld (OUT.PINCTL_MODE n))).checkPinSource n).enablePin n :=
  congrArg (fun v : State => (v.checkPinSource n).enablePin n)
    (ite_congr (propext beq_iff_eq) (fun _ => rfl) fun _ => rfl)

/-! ### The lock (R313) -/

theorem lock_fields : (regFind OUT.LOCK).map (fun x => x.1.fields) =
    some [⟨9, 8, .rw, 0, 0, 3, false, [], true⟩, ⟨7, 0, .rw, 0, 0, 255, false, [], true⟩] := by decide +kernel

/-- The choir's store to LOCK puts both fields as they are. -/
theorem State.storeReg_lock (val : Word) : s.storeReg .choir OUT.LOCK val =
    (s.setFld OUT.LOCK_LOOP (bitsOf val 9 8)).setFld OUT.LOCK_PIN (val.toNat % 256) := by
  have hlow : bitsOf val 7 0 = val.toNat % 256 := bitsOf_low val (by decide)
  have hloop : ∀ u : State, u.storeField .choir OUT.LOCK val ⟨9, 8, .rw, 0, 0, 3, false, [], true⟩ =
      u.setFld OUT.LOCK_LOOP (bitsOf val 9 8) := fun u => by
    rw [State.storeField_written _ val (.inr rfl) (.inl rfl), storedVal_whole rfl rfl rfl rfl]
    rfl
  have hpin : ∀ u : State, u.storeField .choir OUT.LOCK val ⟨7, 0, .rw, 0, 0, 255, false, [], true⟩ =
      u.setFld OUT.LOCK_PIN (val.toNat % 256) := fun u => by
    rw [State.storeField_written _ val (.inr rfl) (.inl rfl), storedVal_whole rfl rfl rfl rfl, ← hlow]
    rfl
  rw [State.storeReg_fields val lock_fields rfl]
  simp only [List.foldl_cons, List.foldl_nil, hloop, hpin]

/-- LOCK belongs to no pin and no loop: no lock keeps a core from it. -/
theorem State.storeOut_lock (c : CoreId) (val : Word) : s.storeOut c OUT.LOCK val = s.storeReg c OUT.LOCK val := by
  have hopen : s.outLocked c OUT.LOCK = false := by
    unfold State.outLocked
    simp [OUT.LOCK]
  unfold State.storeOut
  dsimp only
  rw [hopen]
  rfl

end Sys2Proof.Machine
end

open Sys2Proof Sys2Proof.Machine in
/-- Settles O47, from what a pin that is ON does at each pulse, and where the stores to its registers and to LOCK go. -/
theorem pinsEmitCountAndLock : Obligations.PinsEmitCountAndLock := by
  unfold Obligations.PinsEmitCountAndLock
  intro s n c val life mode debt active counted
  refine ⟨fun hc ho => execHeartbeatSend_open hc ho, fun hl hm ha hd => execPulseStart_owed hl hm ha hd, fun ha => ?ends,
    fun hl hm => execInputPulseCount_on hl hm, fun hreach hopen hm hv => ?adds, fun hreach hopen => ?control,
    fun hreach hlock => ?locked, fun hreach => ?lock⟩
  case ends => exact congrArg Host.Outcome.next (if_pos ha)
  case adds =>
    exact congrArg Host.Outcome.next ((State.poke_pinadd n val hreach).trans
      ((State.storeOut_pinadd n val hopen).trans (State.storePinadd_verify val hm hv)))
  case control =>
    intro u v src ok w x
    have hok : srcAllowed (v.fld (OUT.PINCTL_MODE n)) src = ok := by
      dsimp only [ok]
      split
      · next h0 => rw [h0]; rfl
      · next h1 => rw [h1]; rfl
      · next h0 h1 => exact srcAllowed_of_not_emitter src h0 h1
    refine congrArg Host.Outcome.next ((State.poke_pinctl n val hreach).trans ((State.storeOut_pinctl n val hopen).trans ?_))
    have hchecked : v.checkPinSource n = w := by unfold State.checkPinSource; rw [hok]
    rw [State.storePinctl_eq]
    change (v.checkPinSource n).enablePin n = _
    rw [hchecked, State.enablePin_eq]
  case locked =>
    have hpinctl : s.outLocked .nave (OUT.PINCTL n) = true := State.outLocked_pin n (Nat.le_refl _) (by omega) hlock
    have hpinadd : s.outLocked .nave (OUT.PINADD n) = true :=
      State.outLocked_pin n (by simp only [OUT.PINCTL, OUT.PINADD]; omega) (by simp only [OUT.PINCTL, OUT.PINADD]; omega) hlock
    exact ⟨congrArg Host.Outcome.next ((State.poke_pinctl n val hreach).trans (State.storeOut_locked val hpinctl)),
      congrArg Host.Outcome.next ((State.poke_pinadd n val (State.allows_pinadd n hreach)).trans
        (State.storeOut_locked val hpinadd))⟩
  case lock =>
    exact congrArg Host.Outcome.next ((State.poke_outBlock val hreach (by decide) (by decide) (by decide)).trans
      ((State.storeOut_lock .choir val).trans (State.storeReg_lock val)))

/-- Settles O1: with a command at the front, the step is exec of it on the rest of the queue, by the definition of step. -/
theorem stepRunsTheFrontCommand : Obligations.StepRunsTheFrontCommand := by
  unfold Obligations.StepRunsTheFrontCommand
  intro c s
  rfl

open Sys2Proof Sys2Proof.Machine in
/-- Settles O2: the meaning of each command is a next state, that of THRDATA for a read as for a write. -/
theorem everyCommandAnswersANextState : Obligations.EveryCommandAnswersANextState := by
  unfold Obligations.EveryCommandAnswersANextState
  intro c s
  cases c with
  | thrdataAccess c bk write => cases write <;> rfl
  | _ => rfl

open Sys2Proof Sys2Proof.Machine in
/-- Settles O4: at reset the tables are empty, and each core is a reset core before its boot check. -/
theorem resetStateIsSound : Obligations.ResetStateIsSound := by
  unfold Obligations.ResetStateIsSound
  exact ⟨rfl, rfl, (Core.Sound.reset .choir).same, (Core.Sound.reset .nave).same⟩

section
/-! O13: every core instruction goes through its issue, and a core that does not execute issues nothing. -/
namespace Sys2Proof.Machine

variable {s : State}

/-- A core that does not execute issues nothing (log entry 2). -/
theorem State.issue_of_not_executes {i : Issue} (h : s.executes i.core = false) (srcs : List Reg) (body : State → State) :
    s.issue i srcs body = s := by
  unfold State.issue
  rw [h]
  rfl

/-- A core instruction is the issue of its body; only a load may wait in place of it (R170). -/
theorem exec_eq_issue {x : Instr} {i : Issue} (h : x.issue? = some i) (s : State) :
    ∃ (wait : Bool) (srcs : List Reg) (body : State → State), exec x s = .next (if wait then s else s.issue i srcs body) := by
  cases x with
  | ldw j rd ra off => cases h; exact ⟨s.loadWaits i ra off 4, _, _, rfl⟩
  | ldh j rd ra off => cases h; exact ⟨s.loadWaits i ra off 2, _, _, rfl⟩
  | ldhs j rd ra off => cases h; exact ⟨s.loadWaits i ra off 2, _, _, rfl⟩
  | ldb j rd ra off => cases h; exact ⟨s.loadWaits i ra off 1, _, _, rfl⟩
  | ldbs j rd ra off => cases h; exact ⟨s.loadWaits i ra off 1, _, _, rfl⟩
  | _ => cases h <;> exact ⟨false, _, _, rfl⟩

end Sys2Proof.Machine
end

open Sys2Proof Sys2Proof.Machine in
/-- Settles O13: every core instruction goes through its issue. -/
theorem coreThatDoesNotExecuteIsUnchanged : Obligations.CoreThatDoesNotExecuteIsUnchanged := by
  unfold Obligations.CoreThatDoesNotExecuteIsUnchanged
  intro x i s hx hi
  obtain ⟨wait, srcs, body, hexec⟩ := exec_eq_issue hx s
  rw [hexec, State.issue_of_not_executes hi, ite_self]

section
/-! O49: the seal and the tamper inputs (R338, R339, R341, R342, R448). -/
namespace Sys2Proof.Machine

variable {s : State}

/-- A store to the sacristy's block that nothing refuses (R34, R37, R39). -/
theorem State.poke_sacrBlock {c : CoreId} {a : Nat} (val : Word) (h : s.allows c a true = true) (hal : a % 4 = 0)
    (hg : regionOf a = some .sacr) (hm : 0x40000000 ≤ a) (hlt : a < 2 ^ 32) : s.poke c a val = s.storeSacr c a val :=
  State.poke_allowed val h hal hm hlt hg

theorem State.poke_sealctl {c : CoreId} (val : Word) (h : s.allows c SACR.SEALCTL true = true) :
    s.poke c SACR.SEALCTL val = s.storeSealctl val :=
  State.poke_sacrBlock val h (by decide) (by decide) (by decide) (by decide)

/-- SEAL with its key and CONFIRM (R339). -/
theorem State.storeSealctl_confirmed {val : Word} (hseal : val.getLsbD 0 = true) (hkey : bitsOf val 31 16 = 0x5EA1) :
    s.storeSealctl val =
      if s.fld SACR.SEAL_STATE = 0 ∧ s.flag SACR.SEAL_VERIFY = false ∧ bitAt (s.fld SACR.KEYMAP_VKSET) 0 = true ∧
          bitAt (s.fld SACR.KEYMAP_AES) 0 = true then
        (s.setFlag SACR.KEYSTAT_BUSY true).onSacr (fun x => { x with sealing := true })
      else s.setFld SACR.KEYSTAT_ERR 4 :=
  if_pos ⟨(bitsOf_bit val 0 (by decide)).trans (congrArg natOfBool hseal), hkey⟩

/-- VERIFY leaves the state of the seal as it stands (R338). -/
theorem State.sealState_setVerify (h : twf regReset s.regs = true) (v : Bool) :
    (s.setFlag SACR.SEAL_VERIFY v).fld SACR.SEAL_STATE = s.fld SACR.SEAL_STATE :=
  State.fld_setFld_apart h _ (by decide)

/-- A wake input that changes with the device in standby wakes it (R342, R448). -/
theorem State.tamper_changed {level count wake : Fld} {kind : Nat} {v : Bool} (hon : s.domOn .crypt = true)
    (hv : s.flag level ≠ v) (hd : SYS.DOMPWR_CHOIR.addr ≠ level.addr) :
    let u := s.setFlag level v
    let w := if s.dom .choir = 0 then u.bump count 1
      else (u.logEvent kind (BitVec.ofNat 32 v.toNat) 0).raiseEvent .crypt .choir 3
    s.tamper level count kind wake v = if w.flag wake && w.crypt.standby then w.startDomains 2 2 else w := by
  intro u w
  have hstep : s.tamper level count kind wake v = if w.flag wake then w.wakeUp 2 else w := by
    unfold State.tamper
    rw [if_neg (by rw [hon]; simp [hv])]
    dsimp only
    rw [natOfBool_eq_toNat, show (s.setFlag level v).dom .choir = s.dom .choir from s.fld_setFld_ne _ hd]
  rw [hstep]
  unfold State.wakeUp
  cases w.flag wake <;> simp

end Sys2Proof.Machine
end

open Sys2Proof Sys2Proof.Machine in
/-- Settles O49: VERIFY shares its register with STATE and leaves it as it stands, so each input meets the branch of its rule. -/
theorem sealAndTamperInputs : Obligations.SealAndTamperInputs := by
  unfold Obligations.SealAndTamperInputs
  intro s c val v hs st open' shut tamper
  have hstate : ∀ b, (s.setFlag SACR.SEAL_VERIFY b).fld SACR.SEAL_STATE = st := State.sealState_setVerify hs.regs
  refine ⟨fun hreach hseal hkey => ?confirm, fun hrun => congrArg Host.Outcome.next (if_pos hrun),
    fun hon h1 hroom => ?opens, fun hon hshut => ?stays, fun hon h0 => ?unsealed, fun hon h2 => ?closes,
    fun hon h2 => ?released,
    fun hon hv => congrArg Host.Outcome.next (State.tamper_changed hon hv (by decide)),
    fun hon hv => congrArg Host.Outcome.next (State.tamper_changed hon hv (by decide))⟩
  case confirm =>
    exact congrArg Host.Outcome.next ((State.poke_sealctl val hreach).trans (State.storeSealctl_confirmed hseal hkey))
  case opens =>
    exact congrArg Host.Outcome.next ((if_pos hon).trans (if_pos ⟨(hstate true).trans h1, hroom⟩))
  case stays =>
    refine congrArg Host.Outcome.next ((if_pos hon).trans ((if_neg ?_).trans (if_neg ?_)))
    · rintro ⟨h1, hroom⟩
      rcases hshut with h2 | ⟨-, hfull⟩
      · exact absurd ((hstate true).symm.trans h1) (by rw [h2]; decide)
      · exact Bool.noConfusion (hfull.symm.trans hroom)
    · intro h0
      have h0' : st = 0 := (hstate true).symm.trans h0
      omega
  case unsealed =>
    have h1 : ¬(open'.fld SACR.SEAL_STATE = 1 ∧ open'.logFull = false) := fun h => by
      have := (hstate true).symm.trans h.1
      omega
    exact congrArg Host.Outcome.next ((if_pos hon).trans ((if_neg h1).trans (if_pos ((hstate true).trans h0))))
  case closes =>
    exact congrArg Host.Outcome.next ((if_pos hon).trans (if_pos ((hstate false).trans h2)))
  case released =>
    exact congrArg Host.Outcome.next ((if_pos hon).trans (if_neg fun h => h2 ((hstate false).symm.trans h)))

section
/-! Laws of the fields of a register that a store leaves alone or takes as they are (R5, R10, R11). -/
namespace Sys2Proof.Machine

variable {s : State}

/-- A field that is read alone keeps its value at a store (R5). -/
theorem State.storeField_ro (c : CoreId) (a : Nat) (val : Word) (hi lo reset : Nat) (rlo rhi : Int) (sg : Bool)
    (codes : List Nat) (own : Bool) : s.storeField c a val ⟨hi, lo, .ro, reset, rlo, rhi, sg, codes, own⟩ = s :=
  State.storeField_of_readOnly (.inl rfl)

/-- A field of every value takes its bits of the word (R5). -/
theorem State.storeField_whole {c : CoreId} {f : FieldSpec} (a : Nat) (val : Word) (hc : f.WrittenBy c)
    (hacc : f.acc = .rw ∨ f.acc = .wo) (hs : f.signed = false) (hlo : f.rangeLo = 0)
    (hhi : f.rangeHi = (2 ^ (f.hi + 1 - f.lo) - 1 : Nat)) (hr : f.reserved = []) :
    s.storeField c a val f = s.setFld (f.at a) (bitsOf val f.hi f.lo) := by
  rw [State.storeField_written a val hc hacc, storedVal_whole hs hlo hhi (by rw [hr]; rfl)]
  rfl

end Sys2Proof.Machine
end

section
/-! O35: modes, standby and Guard (R443, R447 to R450, R455, R480). -/
namespace Sys2Proof.Machine

variable {s : State}

/-! ### The register MODE (R443, R472) -/

/-- The choir writes GFORCE and M of MODE; the other flags are read alone. -/
theorem mode_fields : (regFind SYS.MODE).map (fun x => x.1.fields) =
    some [⟨7, 7, .ro, 0, 0, 1, false, [], false⟩, ⟨6, 6, .rw, 0, 0, 1, false, [], true⟩,
      ⟨5, 5, .ro, 0, 0, 1, false, [], false⟩, ⟨4, 4, .ro, 0, 0, 1, false, [], false⟩,
      ⟨3, 3, .ro, 0, 0, 1, false, [], false⟩, ⟨2, 2, .ro, 0, 0, 1, false, [], false⟩,
      ⟨1, 1, .ro, 0, 0, 1, false, [], false⟩, ⟨0, 0, .rw, 0, 0, 1, false, [], true⟩] := by decide +kernel

theorem State.storeReg_mode (val : Word) : s.storeReg .choir SYS.MODE val =
    (s.setFld SYS.MODE_GFORCE (bitsOf val 6 6)).setFld SYS.MODE_M (bitsOf val 0 0) := by
  have hforce : ∀ u : State, u.storeField .choir SYS.MODE val ⟨6, 6, .rw, 0, 0, 1, false, [], true⟩ =
      u.setFld SYS.MODE_GFORCE (bitsOf val 6 6) := fun _ => State.storeField_whole _ val (.inr rfl) (.inl rfl) rfl rfl rfl rfl
  have hm : ∀ u : State, u.storeField .choir SYS.MODE val ⟨0, 0, .rw, 0, 0, 1, false, [], true⟩ =
      u.setFld SYS.MODE_M (bitsOf val 0 0) := fun _ => State.storeField_whole _ val (.inr rfl) (.inl rfl) rfl rfl rfl rfl
  rw [State.storeReg_fields val mode_fields rfl]
  simp only [List.foldl_cons, List.foldl_nil, hforce, hm, State.storeField_ro]

theorem State.poke_mode {c : CoreId} (val : Word) (h : s.allows c SYS.MODE true = true) :
    s.poke c SYS.MODE val = s.storeMode val :=
  State.poke_allowed val h (by decide) (by decide) (by decide) (g := .sys) (by decide)

/-! ### Standby and its alarm (R447, R448) -/

theorem State.askRise_standby (c : CoreId) : (s.askRise c).crypt.standby = s.crypt.standby := by
  unfold State.askRise
  dsimp only
  split
  · rfl
  · split
    · cases c <;> rfl
    · rfl

/-- A start of the domains ends standby (R448). -/
theorem State.startDomains_standby (cause wake : Nat) : (s.startDomains cause wake).crypt.standby = false := by
  unfold State.startDomains
  dsimp only
  split
  · exact State.askRise_standby .choir
  · exact (State.askRise_standby .nave).trans (State.askRise_standby .choir)

theorem State.wakeUp_standby (h : s.crypt.standby = true) (src : Nat) : s.wakeUp src = s.startDomains 2 src := if_pos h

/-- The alarm names the present second exactly where no second is left until it (R448). -/
theorem State.alarm_now_iff : (s.getReg CRYPT.WAKEAT - s.timeSec).toNat = 0 ↔ s.getReg CRYPT.WAKEAT = s.timeSec := by
  generalize s.getReg CRYPT.WAKEAT = a
  generalize s.timeSec = b
  bv_omega

theorem execWakeAlarm_now (hs : s.crypt.standby = true) (ha : s.flag CRYPT.WAKECFG_ALARM = true)
    (hw : s.getReg CRYPT.WAKEAT = s.timeSec) : exec .wakeAlarm s = .next (s.startDomains 2 1) :=
  congrArg Host.Outcome.next ((if_pos ⟨hs, ha⟩).trans ((if_pos (State.alarm_now_iff.mpr hw)).trans (State.wakeUp_standby hs 1)))

theorem execWakeAlarm_later (hs : s.crypt.standby = true) (ha : s.flag CRYPT.WAKECFG_ALARM = true)
    (hw : s.getReg CRYPT.WAKEAT ≠ s.timeSec) : exec .wakeAlarm s =
      .next (s.advance (32768 * (s.getReg CRYPT.WAKEAT - s.timeSec).toNat - s.crypt.ticks.toNat % 32768)) :=
  congrArg Host.Outcome.next ((if_pos ⟨hs, ha⟩).trans (if_neg (mt State.alarm_now_iff.mp hw)))

/-- The level at which the path MAIN counts as restored: 100 mV above MAINLO (R51, R455). -/
theorem State.mainOkLevel_eq : s.mainOkLevel = 2500 + 20 * s.fld CRYPT.PWRCFG_MAINLO := by
  unfold State.mainOkLevel State.mainLo
  omega

end Sys2Proof.Machine
end

open Sys2Proof Sys2Proof.Machine in
/-- Settles O35, from the fields of MODE, and the second that WAKEAT names. -/
theorem modesStandbyAndGuardFollow : Obligations.ModesStandbyAndGuardFollow := by
  unfold Obligations.ModesStandbyAndGuardFollow
  intro s c val
  refine ⟨fun hreach => ?mode, fun hon hpath hmain => ?gauto, fun hg hnave => congrArg Host.Outcome.next (if_pos ⟨hg, hnave⟩),
    fun hon hrun hnave hm hv hg hc => congrArg Host.Outcome.next (if_pos ⟨hon, hrun, hnave, hm, hv, hg, hc⟩),
    execWakeAlarm_now, execWakeAlarm_later,
    fun hs _ _ => ⟨State.wakeUp_standby hs 1, State.startDomains_standby 2 1⟩⟩
  case mode =>
    refine congrArg Host.Outcome.next ((State.poke_mode val hreach).trans ?_)
    unfold State.storeMode
    rw [State.storeReg_mode]
  case gauto => exact congrArg Host.Outcome.next (if_pos ⟨hon, hpath, State.mainOkLevel_eq.trans_le hmain⟩)

section
/-! Laws of the ticks that pass with nothing due (R136, R137, R432, R467). -/
namespace Sys2Proof.Machine

variable {s : State} {c : CoreId} {n : Nat}

/-! ### A core for which nothing is due -/

/-- The core has no armed timer and does not sleep. -/
def State.coreQuiet (s : State) (c : CoreId) : Prop := (s.core c).timer.getLsbD 31 = false ∧ ∀ r m e, (s.core c).run ≠ .asleep r m e

theorem State.wake_of_quiet (h : s.coreQuiet c) : s.wake c = s := by
  unfold State.wake
  split
  · next rd mask d hrun => exact absurd hrun (h.2 rd mask d)
  · rfl

theorem State.wakeDeadline_of_quiet (h : s.coreQuiet c) : s.wakeDeadline c = s := by
  unfold State.wakeDeadline
  rw [State.wake_of_quiet h]
  dsimp only
  split
  · next rd mask d hrun => exact absurd hrun (h.2 rd mask (some d))
  · rfl

theorem State.fireTimer_of_quiet (h : s.coreQuiet c) : s.fireTimer c = s := by
  have hdue : timerDue (s.core c).timer s.crypt.ticks = false := by
    unfold timerDue
    rw [bitsOf_bit _ _ (by decide), h.1]
    rfl
  unfold State.fireTimer
  dsimp only
  rw [hdue, Bool.and_false]
  rfl

/-- The count of a core's watchdog (R467). -/
def State.wdogCount (s : State) : CoreId → Nat
  | .choir => s.crypt.wdogChoir
  | .nave => s.crypt.wdogNave

/-- The watchdog of a core counts (R467). -/
def State.wdogRuns (s : State) (c : CoreId) : Bool := s.flag (SYS.WDOG_EN (coreNum c)) && !(s.core c).halted

/-- The watchdog is all that a quiet core waits for. -/
theorem State.coreAhead_of_quiet (h : s.coreQuiet c) : s.coreAhead c =
    if s.wdogRuns c then [s.fld (SYS.WDOG_PERIOD (coreNum c)) * 1024 - s.wdogCount c] else [] := by
  have htimer : ¬((s.core c).run ≠ .off ∧ bitsOf (s.core c).timer 31 31 = 1) := fun ht => by
    rw [bitsOf_bit _ _ (by decide), h.1] at ht
    exact absurd ht.2 (by decide)
  unfold State.coreAhead
  dsimp only
  rw [if_neg htimer]
  split
  · next rd mask d hrun => exact absurd hrun (h.2 rd mask (some d))
  · cases c <;> rfl

/-! ### The next stop -/

theorem foldl_min_of_le {l : List Nat} (h : ∀ k ∈ l, n ≤ k) : l.foldl min n = n :=
  List.foldlRecOn (motive := fun m => m = n) l min rfl fun m hm k hk => by
    rw [hm, Nat.min_eq_left (h k hk)]

/-- With the cores quiet, n ticks pass at once where the commit point and the watchdogs lie no nearer. -/
theorem State.nextStop_of_quiet (hq : ∀ d, s.coreQuiet d) (hsub : s.timeSub + n < 32766)
    (hwdog : ∀ d, s.wdogRuns d = true → n ≤ max 1 (s.fld (SYS.WDOG_PERIOD (coreNum d)) * 1024 - s.wdogCount d)) :
    s.nextStop n = n := by
  have hcore : ∀ d, ∀ k ∈ s.coreAhead d, n ≤ max 1 k := fun d k hk => by
    rw [State.coreAhead_of_quiet (hq d)] at hk
    split at hk
    · next hrun => rw [List.mem_singleton.mp hk]; exact hwdog d hrun
    · cases hk
  refine foldl_min_of_le fun k hk => ?_
  obtain ⟨j, hj, rfl⟩ := List.mem_map.mp hk
  simp only [List.mem_append, List.mem_singleton] at hj
  rcases hj with (rfl | hj) | hj
  · have hedge : s.edgeAhead = 32766 - s.timeSub := if_pos (by omega)
    omega
  · exact hcore .choir j hj
  · exact hcore .nave j hj

/-! ### The ticks pass -/

theorem State.passTicks_zero (fuel : Nat) : s.passTicks 0 fuel = s := by cases fuel <;> rfl

/-- Ticks with no stop before the last pass at once. -/
theorem State.advance_eq_passTo (hon : s.domOn .crypt = true) (hn : n ≠ 0) (hstop : s.nextStop n = n) :
    s.advance n = s.passTo n := by
  have hpass : ∀ fuel, s.passTicks n (fuel + 1) = (s.passTo (s.nextStop n)).passTicks (n - s.nextStop n) fuel :=
    fun _ => if_neg hn
  unfold State.advance
  rw [if_pos hon, hpass, hstop, Nat.sub_self, State.passTicks_zero]

/-- The tick count alone moves on. -/
def State.ticked (s : State) (n : Nat) : State := s.onCrypt (fun k => { k with ticks := k.ticks + BitVec.ofNat 40 n })

theorem State.ticked_core (n : Nat) (c : CoreId) : (s.ticked n).core c = s.core c := by cases c <;> rfl

/-- A period in which nothing was set or counted ends with no effect (R6, R7). -/
theorem State.moveTicks_of_empty (hp : s.period = Period.empty) (n : Nat) : s.moveTicks n = s.ticked n := by
  have hend : s.endPeriod = s := by
    unfold State.endPeriod State.joinCounts
    rw [hp]
    exact congrArg (fun p => ({ s with period := p } : State)) hp.symm
  unfold State.moveTicks
  rw [hend]
  rfl

theorem State.timeSub_ticked (h : s.timeSub + n < 32768) : (s.ticked n).timeSub = s.timeSub + n := by
  unfold State.timeSub at h ⊢
  simp only [State.ticked, State.onCrypt, BitVec.toNat_add, BitVec.toNat_ofNat]
  omega

/-- Short of the commit point, only the watchdogs of quiet cores count the ticks. -/
theorem State.passTo_of_quiet (hq : ∀ d, s.coreQuiet d) (hp : s.period = Period.empty) (hn : n ≠ 0)
    (hsub : s.timeSub + n < 32766) : s.passTo n = ((s.ticked n).wdogTicks .choir n).wdogTicks .nave n := by
  have hquiet : ∀ d, (s.ticked n).coreQuiet d := fun d => by
    unfold State.coreQuiet
    rw [State.ticked_core]
    exact hq d
  have htime : (s.ticked n).timeSub = s.timeSub + n := State.timeSub_ticked (by omega)
  unfold State.passTo State.each
  rw [State.moveTicks_of_empty hp]
  dsimp only
  rw [if_neg (by omega), if_neg (by omega)]
  simp only [List.foldl_cons, List.foldl_nil, State.fireTimer_of_quiet (hquiet _), State.wakeDeadline_of_quiet (hquiet _)]

theorem State.wdogTicks_of_not_runs (h : s.wdogRuns c = false) (n : Nat) : s.wdogTicks c n = s := if_neg (Bool.eq_false_iff.mp h)

/-- The watchdog that reaches its limit resets its core (R467). -/
theorem State.wdogTicks_limit (h : s.wdogRuns c = true) (hl : s.fld (SYS.WDOG_PERIOD (coreNum c)) * 1024 ≤ s.wdogCount c + n) :
    s.wdogTicks c n = s.coreReset c 2 := by
  cases c <;> exact (if_pos h).trans (if_pos hl)

end Sys2Proof.Machine
end

section
/-! O36: NRST, RSTREQ and the watchdogs (R448, R455, R466 to R468). -/
namespace Sys2Proof.Machine

variable {s : State} {c : CoreId}

/-! ### RSTREQ and WDOG -/

theorem State.poke_rstreq (val : Word) (h : s.allows c SYS.RSTREQ true = true) :
    s.poke c SYS.RSTREQ val = s.storeRstreq c val :=
  State.poke_allowed val h (by decide) (by decide) (by decide) (g := .sys) (by decide)

theorem State.poke_wdog (val : Word) (h : s.allows c (SYS.WDOG (coreNum c)) true = true) :
    s.poke c (SYS.WDOG (coreNum c)) val = s.storeWdog c val := by
  cases c <;> exact State.poke_allowed val h (by decide) (by decide) (by decide) (g := .sys) (by decide)

/-- KICK, or EN that becomes set, restarts the count (R467). -/
theorem State.storeWdog_eq (val : Word) :
    let was := s.flag (SYS.WDOG_EN (coreNum c))
    let u := s.setFld (SYS.WDOG_PERIOD (coreNum c)) (max 1 (val.toNat % 65536))
    let v := if val.getLsbD 31 then u.setFlag (SYS.WDOG_EN (coreNum c)) true else u
    s.storeWdog c val = if val.getLsbD 16 || (!was && val.getLsbD 31) then v.clearWdog c else v := by
  unfold State.storeWdog
  dsimp only
  rw [bitsOf_low val (show 15 < 32 by decide), bitsOf_bit val 31 (by decide), bitsOf_bit val 16 (by decide)]
  cases val.getLsbD 31 <;> cases val.getLsbD 16 <;> cases s.flag (SYS.WDOG_EN (coreNum c)) <;> rfl

/-! ### The watchdog's reset -/

theorem State.announce_getReg (u a : Nat) : (s.announce u).getReg a = s.getReg a := by
  unfold State.getReg
  rw [State.announce_regs]

theorem State.clearWdog_getReg (c : CoreId) (a : Nat) : (s.clearWdog c).getReg a = s.getReg a := rfl

theorem causeField_addr (c : CoreId) : (causeField c).addr = SYS.RESETCAUSE := by cases c <;> rfl

/-- A core's reset writes its watchdog, its flash controller and RESETCAUSE alone (R176, R466, R467). -/
theorem State.getReg_coreReset {a : Nat} (cause : Nat) (hw : a ≠ SYS.WDOG (coreNum c)) (hi : a ≠ SYS.IMGCTL (coreNum c))
    (hr : a ≠ SYS.RESETCAUSE) : (s.coreReset c cause).getReg a = s.getReg a := by
  have hreset : (s.setCore c ((s.core c).afterReset c)).getReg a = s.getReg a := by cases c <;> rfl
  unfold State.coreReset
  dsimp only
  rw [State.getReg_setFld_ne _ (by rw [causeField_addr]; exact hr), State.getReg_setFlag_ne _ hi,
    State.clearWdog_getReg, State.getReg_setFlag_ne _ hw]
  split
  · exact hreset
  · exact (State.announce_getReg _ _).trans hreset

/-- A core's reset leaves the watchdog of the other core as it stands (R466, R467). -/
theorem State.wdogEnable_coreReset {d : CoreId} (hd : d ≠ c) (cause : Nat) :
    (s.coreReset c cause).flag (SYS.WDOG_EN (coreNum d)) = s.flag (SYS.WDOG_EN (coreNum d)) := by
  have hreg : (s.coreReset c cause).getReg (SYS.WDOG (coreNum d)) = s.getReg (SYS.WDOG (coreNum d)) := by
    cases c <;> cases d
    case choir.choir | nave.nave => exact absurd rfl hd
    all_goals exact State.getReg_coreReset cause (by decide) (by decide) (by decide)
  unfold State.flag State.fld
  rw [show (SYS.WDOG_EN (coreNum d)).addr = SYS.WDOG (coreNum d) from rfl, hreg]

/-- The RTC runs to the limit of the one watchdog that counts, and its core alone resets (R467). -/
theorem State.advance_to_limit (hon : s.domOn .crypt = true) (hq : ∀ d, s.coreQuiet d) (hp : s.period = Period.empty)
    (hrun : s.wdogRuns c = true) (hone : ∀ d, d ≠ c → s.flag (SYS.WDOG_EN (coreNum d)) = false) {n : Nat}
    (hn : n = max 1 (1024 * s.fld (SYS.WDOG_PERIOD (coreNum c)) - s.wdogCount c)) (hsub : s.timeSub + n < 32766) :
    s.advance n = (s.ticked n).coreReset c 2 := by
  have hpos : n ≠ 0 := by omega
  have hother : ∀ d, d ≠ c → ∀ u : State, u.flag (SYS.WDOG_EN (coreNum d)) = s.flag (SYS.WDOG_EN (coreNum d)) →
      u.wdogRuns d = false := fun d hd u hu => by
    unfold State.wdogRuns
    rw [hu, hone d hd, Bool.false_and]
  have hstop : s.nextStop n = n := State.nextStop_of_quiet hq hsub fun d hd => by
    by_cases hdc : d = c
    · subst hdc; omega
    · rw [hother d hdc s rfl] at hd; cases hd
  have hlimit : (s.ticked n).wdogTicks c n = (s.ticked n).coreReset c 2 := by
    refine State.wdogTicks_limit ?_ ?_
    · unfold State.wdogRuns at hrun ⊢
      rw [State.ticked_core]
      exact hrun
    · have hcount : (s.ticked n).wdogCount c = s.wdogCount c := by cases c <;> rfl
      rw [hcount]
      change s.fld (SYS.WDOG_PERIOD (coreNum c)) * 1024 ≤ _
      omega
  rw [State.advance_eq_passTo hon hpos hstop, State.passTo_of_quiet hq hp hpos hsub]
  cases c with
  | choir =>
    have hnave := State.wdogEnable_coreReset (s := s.ticked n) (show CoreId.nave ≠ .choir by decide) 2
    rw [hlimit, State.wdogTicks_of_not_runs (hother .nave (by decide) _ hnave)]
  | nave => rw [State.wdogTicks_of_not_runs (hother .choir (by decide) (s.ticked n) rfl), hlimit]

end Sys2Proof.Machine
end

open Sys2Proof Sys2Proof.Machine in
/-- Settles O36, from what NRST, RSTREQ and WDOG do, and the ticks that pass until the one watchdog that runs is due. -/
theorem resetsReachTheirDomains : Obligations.ResetsReachTheirDomains := by
  unfold Obligations.ResetsReachTheirDomains
  intro s c val low high
  refine ⟨fun hon hsb => ?wakes, fun hon hsb hpath hfirst => ?unpowers,
    fun hon hlow hc hpath hsb hfirst => congrArg Host.Outcome.next (if_pos ⟨hon, hlow, hc, hpath, hsb, hfirst⟩),
    fun hreach => ⟨congrArg Host.Outcome.next (State.poke_rstreq _ hreach),
      congrArg Host.Outcome.next (State.poke_rstreq _ hreach)⟩,
    fun hreach hon => congrArg Host.Outcome.next ((State.poke_rstreq _ hreach).trans (if_pos hon)),
    fun hreach => congrArg Host.Outcome.next ((State.poke_wdog val hreach).trans (State.storeWdog_eq val)),
    fun hen hhalt => ?expires⟩
  case wakes =>
    have hcrypt : ¬(!low.domOn .crypt) = true := by rw [show low.domOn .crypt = true from hon]; decide
    exact congrArg Host.Outcome.next ((if_neg hcrypt).trans ((if_pos hsb).trans (State.wakeUp_standby (s := low) hsb 0)))
  case unpowers =>
    have hcrypt : ¬(!low.domOn .crypt) = true := by rw [show low.domOn .crypt = true from hon]; decide
    have hawake : ¬low.crypt.standby = true := by rw [show low.crypt.standby = false from hsb]; decide
    exact congrArg Host.Outcome.next ((if_neg hcrypt).trans ((if_neg hawake).trans
      (if_neg (not_or.mpr ⟨hpath, hfirst⟩))))
  case expires =>
    intro count n
    have hadvance : exec (.wdogExpiry c) s = .next (s.advance n) := by
      refine congrArg Host.Outcome.next ((if_pos ⟨hen, hhalt⟩).trans ?_)
      rw [Nat.mul_comm]
    refine ⟨hadvance, fun hon hp hothers hsub => hadvance.trans (congrArg Host.Outcome.next ?_)⟩
    have hcount : count = s.wdogCount c := by cases c <;> rfl
    have hrun : s.wdogRuns c = true := by
      unfold State.wdogRuns
      rw [hen, hhalt]
      rfl
    exact State.advance_to_limit hon (fun d => ⟨(hothers d).1, (hothers d).2.1⟩) hp hrun (fun d => (hothers d).2.2)
      (by rw [← hcount]) hsub

section
/-! O58: the time of day at a second edge, its latched reads and its staged writes (R435, R436). -/
namespace Sys2Proof.Machine

variable {s t u : State}

/-! ### What leaves the time of day as it stands -/

/-- t has the time of day, its status, the log and the committed value of s. -/
structure State.SameTime (s t : State) : Prop where
  sec : t.getReg CRYPT.TIME_SEC = s.getReg CRYPT.TIME_SEC
  stat : t.getReg CRYPT.TIMESTAT = s.getReg CRYPT.TIMESTAT
  log : t.log = s.log
  committed : t.crypt.committed = s.crypt.committed

namespace State.SameTime

theorem refl (s : State) : s.SameTime s := ⟨rfl, rfl, rfl, rfl⟩

theorem trans (h : s.SameTime t) (h' : t.SameTime u) : s.SameTime u :=
  ⟨h'.sec.trans h.sec, h'.stat.trans h.stat, h'.log.trans h.log, h'.committed.trans h.committed⟩

theorem setFld (h : s.SameTime t) (f : Fld) (v : Nat) (h1 : CRYPT.TIME_SEC ≠ f.addr) (h2 : CRYPT.TIMESTAT ≠ f.addr) :
    s.SameTime (t.setFld f v) :=
  h.trans ⟨State.getReg_setFld_ne v h1, State.getReg_setFld_ne v h2, rfl, rfl⟩

theorem onQty (h : s.SameTime t) (f : Qty → Qty) : s.SameTime (t.onQty f) := h.trans ⟨rfl, rfl, rfl, rfl⟩

theorem onOut (h : s.SameTime t) (f : Outp → Outp) : s.SameTime (t.onOut f) := h.trans ⟨rfl, rfl, rfl, rfl⟩

theorem onRadio (h : s.SameTime t) (f : Radio → Radio) : s.SameTime (t.onRadio f) := h.trans ⟨rfl, rfl, rfl, rfl⟩

theorem onPort (h : s.SameTime t) (p : Nat) (f : Port → Port) : s.SameTime (t.onPort p f) := h.trans ⟨rfl, rfl, rfl, rfl⟩

theorem onCrypt (h : s.SameTime t) (f : Crypt → Crypt) (hf : ∀ k, (f k).committed = k.committed := by intro; rfl) :
    s.SameTime (t.onCrypt f) := h.trans ⟨rfl, rfl, rfl, hf _⟩

theorem send (h : s.SameTime t) (src dst : Island) (tag : BitVec 4) (w : Word) : s.SameTime (t.send src dst tag w) := by
  refine h.trans ?_
  unfold State.send
  split
  · exact refl t
  · exact ⟨rfl, rfl, rfl, rfl⟩

theorem feedSplit (h : s.SameTime t) (tally k fuel : Nat) : s.SameTime (t.feedSplit tally k fuel) := by
  induction fuel generalizing t k with
  | zero => exact h
  | succ fuel ih =>
    unfold State.feedSplit
    split
    · exact (h.send ..).send ..
    · exact ih ((h.send ..).send ..) _

theorem bumpTally (h : s.SameTime t) (n k : Nat) : s.SameTime (t.bumpTally n k) := by
  unfold State.bumpTally
  split
  · exact h
  · have hreg : s.SameTime (t.setTallyReg n (satAdd (2 ^ 64 - 1) (t.tallyReg n) k)) := h.onQty _
    unfold State.feedTally
    split
    · exact hreg
    · split
      · exact hreg.feedSplit ..
      · exact hreg.onOut _

/-- The ages of the quantity island and GUARDSEC are no part of the time of day (R293, R451). -/
theorem qtySecond (h : s.SameTime t) : s.SameTime t.qtySecond := by
  unfold State.qtySecond
  dsimp only
  split
  · exact (h.onQty _).bumpTally ..
  · exact h.onQty _

theorem portSecond (h : s.SameTime t) {p : Nat} (hp : p < 2) : s.SameTime
    (if t.portLive p && t.flag (BELF.PCTL_TIMESRC p) then t.bump (BELF.SYNCSTAT_AGE p) 1 else t) := by
  split
  · refine h.setFld _ _ ?_ ?_ <;>
      simp only [CRYPT.TIME_SEC, CRYPT.TIMESTAT, BELF.SYNCSTAT_AGE, BELF.SYNCSTAT] <;> omega
  · exact h

/-- The ages and the leases of the belfry are no part of the time of day (R377, R406, R407, R424). -/
theorem netSecond (h : s.SameTime t) : s.SameTime t.netSecond := by
  unfold State.netSecond State.nbrSecond State.each
  refine onRadio (onRadio (List.foldlRecOn (motive := fun v => s.SameTime v) (List.range 2) _ h fun v hv p hp => ?_) _) _
  exact (hv.portSecond (List.mem_range.mp hp)).onPort p _

theorem askRise (h : s.SameTime t) (c : CoreId) : s.SameTime (t.askRise c) := by
  unfold State.askRise
  dsimp only
  split
  · exact h.setFld _ _ (by cases c <;> decide) (by cases c <;> decide)
  · split
    · exact h.onCrypt _ (by cases c <;> exact fun _ => rfl)
    · exact h

theorem wakeUp (h : s.SameTime t) (src : Nat) : s.SameTime (t.wakeUp src) := by
  unfold State.wakeUp State.startDomains
  dsimp only
  split
  · have hstart : s.SameTime (((t.setFld SYS.RESETCAUSE_DOMAIN 2).setFld SYS.RESETCAUSE_WAKESRC src).onCrypt
        fun k => { k with standby := false }) :=
      ((h.setFld _ _ (by decide) (by decide)).setFld _ _ (by decide) (by decide)).onCrypt _
    split
    · exact hstart.askRise ..
    · exact (hstart.askRise ..).askRise ..
  · exact h

end State.SameTime

/-! ### The second edge -/

/-- What follows the new second at an edge: ages, leases and the alarm (R377, R406, R448, R451). -/
def State.secondFollows (s : State) : State :=
  let t := s.qtySecond.netSecond
  if t.alarmDue then t.wakeUp 1 else t

theorem State.secondFollows_sameTime : s.SameTime s.secondFollows := by
  have h := (State.SameTime.refl s).qtySecond.netSecond
  unfold State.secondFollows
  dsimp only
  split
  · exact h.wakeUp 1
  · exact h

theorem State.secondEdge_counts (h : s.crypt.committed = none) :
    s.secondEdge = (s.putReg CRYPT.TIME_SEC (s.timeSec + 1)).secondFollows := by
  unfold State.secondEdge
  simp only [h]
  rfl

/-- The state in which a committed value has taken the place of the increment (R436). -/
def State.timeTaken (s : State) (v : Word) : State :=
  (((s.putReg CRYPT.TIME_SEC v).onCrypt (fun k => { k with committed := none })).setFlag CRYPT.TIMESTAT_PEND
    s.crypt.staged.isSome).setFlag CRYPT.TIMESTAT_SET true

theorem State.secondEdge_takes {v : Word} (h : s.crypt.committed = some v) :
    s.secondEdge = ((s.timeTaken v).logEvent logTimeSet (s.timeSec + 1) v).secondFollows := by
  unfold State.secondEdge
  simp only [h]
  rfl

theorem State.timeTaken_timeSec (h : twf regReset s.regs = true) (v : Word) : (s.timeTaken v).timeSec = v :=
  (State.getReg_setFlag_ne true (by decide)).trans ((State.getReg_setFlag_ne _ (by decide)).trans
    (State.getReg_putReg_self h CRYPT.TIME_SEC v))

theorem State.timeTaken_flags (h : twf regReset s.regs = true) (v : Word) :
    (s.timeTaken v).flag CRYPT.TIMESTAT_SET = true ∧ (s.timeTaken v).flag CRYPT.TIMESTAT_PEND = s.crypt.staged.isSome := by
  have hput : twf regReset (s.putReg CRYPT.TIME_SEC v).regs = true := twf_tput h _ _
  have hpend := State.twf_setFlag (s := (s.putReg CRYPT.TIME_SEC v).onCrypt fun k => { k with committed := none }) hput
    CRYPT.TIMESTAT_PEND s.crypt.staged.isSome
  refine ⟨State.flag_setFlag_self hpend _ _ (by decide) (by decide), ?_⟩
  exact (State.flag_setFlag_apart hpend _ (by decide)).trans (State.flag_setFlag_self hput _ _ (by decide) (by decide))

theorem State.timeTaken_dom (v : Word) (d : Domain) : (s.timeTaken v).dom d = s.dom d :=
  (State.fld_setFld_ne _ _ (by cases d <;> decide)).trans ((State.fld_setFld_ne _ _ (by cases d <;> decide)).trans
    (congrArg (fun w => bitsOf w _ _) (s.getReg_putReg_ne v (by cases d <;> decide))))

/-! ### Reads and writes -/

theorem State.peek_cryptBlock {c : CoreId} {a : Nat} (h : s.allows c a false = true) (hal : a % 4 = 0) (hm : 0x40000000 ≤ a)
    (hlt : a < 2 ^ 32) (hg : regionOf a = some .crypt) :
    s.peek c a = { (s.loadCrypt c a).1 with reply := (s.loadCrypt c a).2 } :=
  State.peek_allowed h hal hm hlt hg rfl

/-- The other core. -/
def otherCore : CoreId → CoreId
  | .choir => .nave
  | .nave => .choir

theorem State.setLatch_latch (c : CoreId) (v : Option Word) :
    (s.setLatch c v).latch c = v ∧ (s.setLatch c v).latch (otherCore c) = s.latch (otherCore c) := by
  cases c <;> exact ⟨rfl, rfl⟩

theorem State.readTimeSec_eq (c : CoreId) :
    (s.readTimeSec c).2 = (s.latch c).getD s.timeSec ∧ (s.readTimeSec c).1.latch c = none ∧
      (s.readTimeSec c).1.latch (otherCore c) = s.latch (otherCore c) ∧ (s.readTimeSec c).1.regs = s.regs := by
  unfold State.readTimeSec
  split
  · next v hv => exact ⟨by rw [hv]; rfl, (State.setLatch_latch c none).1, (State.setLatch_latch c none).2, rfl⟩
  · next hv => exact ⟨by rw [hv]; rfl, hv, rfl, rfl⟩

theorem State.latch_of_crypt (h : t.crypt = s.crypt) (c : CoreId) : t.latch c = s.latch c := by
  cases c <;> simp only [State.latch, h]

/-- The issue of an instruction does not change which islands serve its core. -/
theorem State.issued_serves (c : CoreId) (srcs : List Reg) (i : Island) :
    (s.issued c srcs).serves c i = s.serves c i := by
  have hstraits : (s.activity (coreNum c)).straits = s.straits ∧ (s.activity (coreNum c)).mute = s.mute := by
    unfold State.activity State.raiseBoth State.raiseEvent State.send
    repeat' split
    all_goals exact ⟨rfl, rfl⟩
  have hdom : (s.activity (coreNum c)).domOn (islandDomain i) = s.domOn (islandDomain i) := by
    refine congrArg (· == 2) (State.activity_fld _ ?_)
    cases islandDomain i <;> cases c <;> decide
  unfold State.serves State.issued
  rw [State.dark_setCore]
  unfold State.dark State.strait State.silent
  rw [hdom, hstraits.1, State.setCore_mute, hstraits.2]

/-- ldtm SPLIT leaves TIME_SEC in rd and TIME_SUB in ra, and no latch changes (R166, R435). -/
theorem execLdtmSplit_reads {i : Issue} {rd ra : Reg} (h : s.ready i = true) (hs : s.serves i.core .crypt = true)
    (hd : ¬(rd = ra ∧ rd ≠ 0)) : ∃ t, exec (.ldtmSplit i rd ra) s = .next t ∧
      t.reg i.core rd = (if rd = 0 then 0 else s.timeSec) ∧
      t.reg i.core ra = (if ra = 0 then 0 else BitVec.ofNat 32 (s.crypt.ticks.toNat % 32768)) ∧ t.crypt = s.crypt := by
  have hsec : (s.issued i.core []).timeSec = s.timeSec := State.issued_timeSec _ _
  have hcrypt : (s.issued i.core []).crypt = s.crypt := State.issued_crypt _ _
  obtain ⟨t, hexec, n, -, -, rfl⟩ := next_twoDestinations (addr := CRYPT.TIME_SUB) (op := 0x2A) h hd
    (by rw [State.issued_serves]; exact hs) (request := fun s =>
      (s.setReg i.core ra (BitVec.ofNat 32 s.timeSub)).deviceDone i.core rd s.timeSec 4000) rfl
  have hreg : ∀ (k : Core) (q : Reg), (k.goesOn n).reg q = k.reg q := fun k q => by
    unfold Core.goesOn Core.stepped
    split <;> rfl
  refine ⟨_, hexec, ?_, ?_, ?_⟩
  · unfold State.reg
    rw [State.core_setCore_self, hreg, hsec]
    split
    · next h0 => rw [h0]; rfl
    · next h0 => exact Core.reg_setReg_self _ _ h0
  · unfold State.reg
    rw [State.core_setCore_self, hreg]
    split
    · next h0 => rw [h0]; rfl
    · next h0 =>
      have hne : ra ≠ rd := fun hr => hd ⟨hr.symm, hr ▸ h0⟩
      have hsub : (s.issued i.core []).timeSub = s.crypt.ticks.toNat % 32768 := by unfold State.timeSub; rw [hcrypt]
      rw [Core.reg_setReg_ne _ _ hne, hsub]
      unfold State.setReg State.onCore
      rw [State.core_setCore_self, Core.reg_setReg_self _ _ h0]
  · rw [State.setCore_crypt]
    exact (State.setReg_crypt _ _ _ _).trans hcrypt

end Sys2Proof.Machine
end

open Sys2Proof Sys2Proof.Machine in
/-- Settles O58, from the second that an edge begins and what follows it, the latch of each core, and the staged value. -/
theorem timeOfDayRisesAndTakesStagedValues : Obligations.TimeOfDayRisesAndTakesStagedValues := by
  unfold Obligations.TimeOfDayRisesAndTakesStagedValues
  intro s c val hs other
  have hother : ∀ d, other d = otherCore d := fun d => by cases d <;> rfl
  refine ⟨fun hnone => ?counts, fun v hv hroom hchoir => ?takes, fun v hv => ?commits, fun hreach => ?readSub,
    fun hreach => ?readSec, fun i rd ra hready hserves hd => ?split, fun hreach => ?stages, rfl, fun hdue => ?timeSet⟩
  case counts =>
    have hfollows := State.secondFollows_sameTime (s := s.putReg CRYPT.TIME_SEC (s.timeSec + 1))
    rw [State.secondEdge_counts hnone]
    exact ⟨hfollows.sec.trans (State.getReg_putReg_self hs.regs _ _), hfollows.log⟩
  case takes =>
    have hsec := State.timeTaken_timeSec hs.regs v
    obtain ⟨hset, hpend⟩ := State.timeTaken_flags hs.regs v
    have hlogged := State.logEvent_eq (s := s.timeTaken v) hroom (by rw [State.timeTaken_dom]; exact hchoir) logTimeSet
      (s.timeSec + 1) v
    have hfollows := State.secondFollows_sameTime (s := (s.timeTaken v).logEvent logTimeSet (s.timeSec + 1) v)
    intro t
    have ht : t = ((s.timeTaken v).logEvent logTimeSet (s.timeSec + 1) v).secondFollows := State.secondEdge_takes hv
    rw [hlogged, hsec] at hfollows ht
    have hstat : ∀ f : Fld, f.addr = CRYPT.TIMESTAT → t.flag f = (s.timeTaken v).flag f := fun f hf => by
      unfold State.flag State.fld
      rw [hf, ht, hfollows.stat]
      rfl
    rw [hstat _ rfl, hstat _ rfl, hset, hpend, ht]
    exact ⟨hfollows.sec.trans hsec, hfollows.committed, rfl, rfl, hfollows.log⟩
  case commits =>
    unfold State.commitStaged
    rw [hv]
    exact ⟨rfl, rfl⟩
  case readSub =>
    rw [hother]
    obtain ⟨hlatch, hkept⟩ := State.setLatch_latch (s := s) c (some s.timeSec)
    exact ⟨_, congrArg Host.Outcome.next (State.peek_cryptBlock hreach (by decide) (by decide) (by decide) (by decide)),
      rfl, hlatch, hkept, rfl⟩
  case readSec =>
    rw [hother]
    exact ⟨_, congrArg Host.Outcome.next (State.peek_cryptBlock hreach (by decide) (by decide) (by decide) (by decide)),
      State.readTimeSec_eq c⟩
  case split =>
    obtain ⟨t, hexec, hrd, hra, hcrypt⟩ := execLdtmSplit_reads hready hserves hd
    exact ⟨t, hexec, hrd, hra, State.latch_of_crypt hcrypt _, State.latch_of_crypt hcrypt _⟩
  case stages =>
    exact congrArg Host.Outcome.next (State.poke_allowed val hreach (by decide) (by decide) (by decide) (g := .crypt) (by decide))
  case timeSet =>
    exact congrArg Host.Outcome.next (if_pos (by
      rw [Bool.or_eq_true, Bool.and_eq_true, decide_eq_true_eq]
      exact hdue))

section
/-! O59: XHF and the RTC clock (R429, R431, R433, R434). -/
namespace Sys2Proof.Machine

variable {s : State}

/-! ### XHF (R429, R431) -/

theorem clkstat_bits (h : twf regReset s.regs = true) (b : Bool) :
    let t := (s.setFlag CRYPT.CLKSTAT_XHFON b).setFlag CRYPT.CLKSTAT_XHFOK b
    t.flag CRYPT.CLKSTAT_XHFON = b ∧ t.flag CRYPT.CLKSTAT_XHFOK = b ∧ ∀ a, a ≠ CRYPT.CLKSTAT → t.getReg a = s.getReg a := by
  have hon := State.twf_setFlag h CRYPT.CLKSTAT_XHFON b
  refine ⟨?on, State.flag_setFlag_self hon _ b (by decide) (by decide), fun a ha => ?others⟩
  case on =>
    exact (State.flag_setFlag_apart hon b (by decide)).trans (State.flag_setFlag_self h _ b (by decide) (by decide))
  case others => exact (State.getReg_setFlag_ne b ha).trans (State.getReg_setFlag_ne b ha)

theorem xhfreq_fields : (regFind CRYPT.XHFREQ).map (fun x => x.1.fields) =
    some [⟨31, 31, .rw, 0, 0, 1, false, [], false⟩, ⟨7, 0, .rw, 20, 0, 255, false, [], false⟩] := by decide +kernel

theorem State.storeReg_xhfreq (c : CoreId) (val : Word) : s.storeReg c CRYPT.XHFREQ val =
    (s.setFld CRYPT.XHFREQ_CHOIR (bitsOf val 31 31)).setFld CRYPT.XHFREQ_LINGER (bitsOf val 7 0) := by
  rw [State.storeReg_fields val xhfreq_fields rfl]
  simp only [List.foldl_cons, List.foldl_nil]
  rw [State.storeField_whole _ val (.inl rfl) (.inl rfl) rfl rfl rfl rfl,
    State.storeField_whole _ val (.inl rfl) (.inl rfl) rfl rfl rfl rfl]
  rfl

theorem State.poke_xhfreq {c : CoreId} (val : Word) (h : s.allows c CRYPT.XHFREQ true = true) :
    s.poke c CRYPT.XHFREQ val = (s.storeReg c CRYPT.XHFREQ val).xhfSync :=
  State.poke_allowed val h (by decide) (by decide) (by decide) (g := .crypt) (by decide)

/-! ### The ticks (R432, R433) -/

/-- With no command waiting, a step is one tick (log entry 4). -/
theorem step_of_idle (h : s.pending = []) : step s = .next (s.advance 1) := by
  unfold step
  rw [h]

/-- With nothing due, ticks that pass before the commit point move the tick count alone. -/
theorem State.advance_of_calm {n : Nat} (hon : s.domOn .crypt = true) (hq : ∀ d, s.coreQuiet d) (hp : s.period = Period.empty)
    (hwdog : ∀ d, s.flag (SYS.WDOG_EN (coreNum d)) = false) (hsub : s.timeSub + n < 32766) : s.advance n = s.ticked n := by
  have hidle : ∀ u : State, (∀ d, u.flag (SYS.WDOG_EN (coreNum d)) = s.flag (SYS.WDOG_EN (coreNum d))) →
      ∀ d, u.wdogRuns d = false := fun u hu d => by
    unfold State.wdogRuns
    rw [hu, hwdog, Bool.false_and]
  by_cases hn : n = 0
  · subst hn
    have hstand : s.advance 0 = s := by
      unfold State.advance
      rw [if_pos hon, State.passTicks_zero]
    rw [hstand]
    unfold State.ticked State.onCrypt
    simp
  · have hstop := State.nextStop_of_quiet hq hsub fun d hd => by rw [hidle s (fun _ => rfl) d] at hd; cases hd
    have hticked := hidle (s.ticked n) fun _ => rfl
    rw [State.advance_eq_passTo hon hn hstop, State.passTo_of_quiet hq hp hn hsub, State.wdogTicks_of_not_runs (hticked _),
      State.wdogTicks_of_not_runs (hticked _)]

end Sys2Proof.Machine
end

open Sys2Proof Sys2Proof.Machine in
/-- Settles O59, from the bits of CLKSTAT, the stores to XHFREQ, and the ticks that pass with nothing due. -/
theorem clocksStartTrimAndFail : Obligations.ClocksStartTrimAndFail := by
  unfold Obligations.ClocksStartTrimAndFail
  intro s c val gap hs tries
  refine ⟨fun hheld htries hpath => ?starts, fun hlinger hfree => ?lingers, fun hheld hok hpath => ?timeouts, fun hreach => ?request,
    fun hxt htrim => congrArg Host.Outcome.next (if_pos ⟨hxt, htrim⟩), fun htrim => ?noTrim,
    fun hon => congrArg Host.Outcome.next (if_pos hon), fun hxt => congrArg Host.Outcome.next (if_pos hxt),
    fun n hoff => if_neg (by rw [hoff]; decide), fun n hsub hcalm htimer hawake => ?ticks⟩
  case starts =>
    obtain ⟨hxon, hxok, hregs⟩ := clkstat_bits hs.regs true
    exact ⟨_, congrArg Host.Outcome.next (if_pos ⟨hheld, htries, hpath⟩), hxon, hxok, rfl, hregs⟩
  case lingers =>
    obtain ⟨hxon, hxok, hregs⟩ := clkstat_bits hs.regs false
    exact ⟨_, congrArg Host.Outcome.next (if_pos ⟨hlinger, by rw [hfree]; rfl⟩), hxon, hxok, rfl, hregs⟩
  case timeouts =>
    have hwaits : s.xhfHeld = true ∧ (!s.flag CRYPT.CLKSTAT_XHFOK) = true ∧ s.path ≠ 2 := ⟨hheld, by rw [hok]; rfl, hpath⟩
    exact ⟨fun hlt => congrArg Host.Outcome.next ((if_pos hwaits).trans (if_pos hlt)), fun h3 =>
      congrArg Host.Outcome.next ((if_pos hwaits).trans ((if_neg (by rw [h3]; decide)).trans (if_pos h3)))⟩
  case request => rw [← State.storeReg_xhfreq c]; exact congrArg Host.Outcome.next (State.poke_xhfreq val hreach)
  case noTrim => exact congrArg Host.Outcome.next (if_neg fun h => absurd h.2 (by omega))
  case ticks =>
    obtain ⟨hon, hp, hothers⟩ := hcalm
    have hq : ∀ d, s.coreQuiet d := fun d => by
      cases d with
      | choir => exact ⟨htimer, hawake⟩
      | nave => exact (hothers .nave).2 (by decide)
    have hadvance : s.advance n = s.ticked n :=
      State.advance_of_calm hon hq hp (fun d => (hothers d).1) (by unfold State.timeSub; omega)
    refine ⟨fun hnone h1 => ?_, hadvance⟩
    subst h1
    exact (step_of_idle hnone).trans (congrArg Host.Outcome.next hadvance)

section
/-! O50: key commands and CMAC runs (R344 to R348). -/
namespace Sys2Proof.Machine

variable {s : State} {c : CoreId} {slot : BitVec 4}

/-! ### Key commands (R345, R346) -/

/-- The command word of a slot carries CMD and SLOT (R358). -/
theorem keyWord_fields : ∀ (slot : BitVec 4) (cmd : Fin 8), bitsOf (keyWord slot cmd) 2 0 = cmd ∧
    bitsOf (keyWord slot cmd) 11 8 = slot.toNat := by decide +kernel

theorem execKeyCommands_allowed (h : s.allows c SACR.KEYCMD true = true) :
    exec (.loadaes c slot) s = .next (s.loadAes slot.toNat) ∧ exec (.clear c slot) s = .next (s.clearAes slot.toNat) ∧
      exec (.loadvk c slot) s = .next (s.loadVk slot.toNat) ∧ exec (.revokevk c slot) s = .next (s.revokeVk slot.toNat) := by
  have hpoke : ∀ cmd : Fin 8, s.poke c SACR.KEYCMD (keyWord slot cmd) = (match (cmd : Nat) with
      | 1 => s.loadAes slot.toNat
      | 2 => s.clearAes slot.toNat
      | 3 => s.loadVk slot.toNat
      | 4 => s.revokeVk slot.toNat
      | _ => s) := fun cmd => by
    refine (State.poke_sacrBlock _ h (by decide) (by decide) (by decide) (by decide)).trans ?_
    change s.storeKeycmd (keyWord slot cmd) = _
    unfold State.storeKeycmd
    rw [(keyWord_fields slot cmd).1, (keyWord_fields slot cmd).2] <;> rfl
  exact ⟨congrArg _ (hpoke 1), congrArg _ (hpoke 2), congrArg _ (hpoke 3), congrArg _ (hpoke 4)⟩

theorem execNkeyCommands_allowed (h : s.allows c SACR.NKEYCMD true = true) :
    exec (.nkeyLoad c slot) s = .next (s.loadNave slot.toNat) ∧ exec (.nkeyClear c slot) s = .next (s.clearNave slot.toNat) := by
  have hpoke : ∀ cmd : Fin 8, s.poke c SACR.NKEYCMD (keyWord slot cmd) = (match (cmd : Nat) with
      | 1 => s.loadNave slot.toNat
      | 2 => s.clearNave slot.toNat
      | _ => s) := fun cmd => by
    refine (State.poke_sacrBlock _ h (by decide) (by decide) (by decide) (by decide)).trans ?_
    change s.storeNkeycmd (keyWord slot cmd) = _
    unfold State.storeNkeycmd
    rw [(keyWord_fields slot cmd).1, (keyWord_fields slot cmd).2] <;> rfl
  exact ⟨congrArg _ (hpoke 1), congrArg _ (hpoke 2)⟩

theorem State.sealOpen_iff : s.sealOpen = true ↔ s.fld SACR.SEAL_STATE = 0 ∨ s.fld SACR.SEAL_STATE = 2 := by
  simp [State.sealOpen]

theorem State.sealOpen_eq_false (h : ¬(s.fld SACR.SEAL_STATE = 0 ∨ s.fld SACR.SEAL_STATE = 2)) : s.sealOpen = false :=
  Bool.eq_false_iff.mpr (mt State.sealOpen_iff.mp h)

section Free

/-! A free key engine takes a command in the order RANGE, seal, the key's own condition (R345). -/

variable {n : Nat} (hfree : s.flag SACR.KEYSTAT_BUSY = false)
include hfree

theorem State.loadAes_range (h : 8 ≤ n) : s.loadAes n = s.keyError 3 := by
  simp [State.loadAes, hfree, h]

theorem State.loadAes_sealed (h : n < 8) (ho : s.sealOpen = false) : s.loadAes n = s.keyError 1 := by
  simp [State.loadAes, hfree, Nat.not_le.mpr h, ho]

theorem State.loadAes_open (h : n < 8) (ho : s.sealOpen = true) : s.loadAes n =
    ((s.setAesKey n (some (s.kbufKey (SACR.KBUF 0)))).keyStart (keyCheck (s.kbufKey (SACR.KBUF 0)))).logEvent logKeyLoad
      (BitVec.ofNat 32 n) (BitVec.ofNat 32 (keyCheck (s.kbufKey (SACR.KBUF 0)))) := by
  simp [State.loadAes, hfree, Nat.not_le.mpr h, ho]

theorem State.clearAes_range (h : 8 ≤ n) : s.clearAes n = s.keyError 3 := by
  simp [State.clearAes, hfree, h]

theorem State.clearAes_sealed (h : n < 8) (ho : s.sealOpen = false) : s.clearAes n = s.keyError 1 := by
  simp [State.clearAes, hfree, Nat.not_le.mpr h, ho]

theorem State.clearAes_open (h : n < 8) (ho : s.sealOpen = true) : s.clearAes n =
    ((s.setAesKey n none).keyStart 0).logEvent logKeyLoad (BitVec.ofNat 32 (n + 2 ^ 31)) 0 := by
  simp [State.clearAes, hfree, Nat.not_le.mpr h, ho]

theorem State.loadVk_range (h : 4 ≤ n) : s.loadVk n = s.keyError 3 := by
  simp [State.loadVk, hfree, h]

theorem State.loadVk_sealed (h : n < 4) (hs : s.fld SACR.SEAL_STATE ≠ 0) : s.loadVk n = s.keyError 1 := by
  simp [State.loadVk, hfree, Nat.not_le.mpr h, hs]

theorem State.loadVk_used (h : n < 4) (hs : s.fld SACR.SEAL_STATE = 0) (hk : bitAt (s.fld SACR.KEYMAP_VKSET) n = true) :
    s.loadVk n = s.keyError 2 := by
  simp [State.loadVk, hfree, Nat.not_le.mpr h, hs, hk]

theorem State.loadVk_unused (h : n < 4) (hs : s.fld SACR.SEAL_STATE = 0) (hk : bitAt (s.fld SACR.KEYMAP_VKSET) n = false) :
    s.loadVk n = (s.programVk n (BitVec.ofNat 256 (ofBe ((s.kbuf (SACR.KBUF 0) 16).take 32)))
      (BitVec.ofNat 256 (ofBe ((s.kbuf (SACR.KBUF 0) 16).drop 32)))).keyStart 0 := by
  simp [State.loadVk, hfree, Nat.not_le.mpr h, hs, hk]

theorem State.revokeVk_range (h : 4 ≤ n) : s.revokeVk n = s.keyError 3 := by
  simp [State.revokeVk, hfree, h]

theorem State.revokeVk_sealed (h : n < 4) (ho : s.sealOpen = false) : s.revokeVk n = s.keyError 1 := by
  simp [State.revokeVk, hfree, Nat.not_le.mpr h, ho]

theorem State.revokeVk_open (h : n < 4) (ho : s.sealOpen = true) : s.revokeVk n =
    ((s.setFld SACR.KEYMAP_VKREV (bitsPut (BitVec.ofNat 32 (s.fld SACR.KEYMAP_VKREV)) n n 1).toNat).keyStart 0).logEvent
      logVkey (BitVec.ofNat 32 (n + 2 ^ 31)) 0 := by
  simp [State.revokeVk, hfree, Nat.not_le.mpr h, ho]

end Free

/-! ### CMAC runs (R347) -/

theorem State.poke_macctl (val : Word) (h : s.allows c SACR.MACCTL true = true) :
    s.poke c SACR.MACCTL val = s.storeMacctl val :=
  State.poke_sacrBlock val h (by decide) (by decide) (by decide) (by decide)

theorem State.poke_din (val : Word) (h : s.allows c SACR.DIN true = true) : s.poke c SACR.DIN val = s.storeDin val :=
  State.poke_sacrBlock val h (by decide) (by decide) (by decide) (by decide)

/-- SLOT and LEN of a store to MACCTL (R347). -/
def State.macSet (s : State) (val : Word) : State :=
  (s.setFld SACR.MACCTL_SLOT (bitsOf val 26 24)).setFld SACR.MACCTL_LEN (max 16 (val.toNat % 4096))

theorem State.macSet_busy (h : twf regReset s.regs = true) (val : Word) :
    (s.macSet val).flag SACR.MACCTL_BUSY = s.flag SACR.MACCTL_BUSY := by
  unfold State.flag State.macSet
  rw [State.fld_setFld_apart (State.twf_setFld h _ _) _ (by decide), State.fld_setFld_apart h _ (by decide)]

theorem State.macSet_slot (h : twf regReset s.regs = true) (val : Word) :
    (s.macSet val).fld SACR.MACCTL_SLOT = bitsOf val 26 24 := by
  unfold State.macSet
  rw [State.fld_setFld_apart (State.twf_setFld h _ _) _ (by decide), State.fld_setFld_self h _ _ (by decide) (by decide)]
  exact Nat.mod_eq_of_lt (bitsOf_lt val 26 24)

theorem State.macSet_len (h : twf regReset s.regs = true) (val : Word) :
    (s.macSet val).fld SACR.MACCTL_LEN = max 16 (val.toNat % 4096) := by
  unfold State.macSet
  rw [State.fld_setFld_self (State.twf_setFld h _ _) _ _ (by decide) (by decide)]
  refine Nat.mod_eq_of_lt ?_
  simp only [SACR.MACCTL_LEN]
  omega

/-- A START without FINISH begins an empty run. -/
theorem State.storeMacctl_start {val : Word} (hfree : s.flag SACR.MACCTL_BUSY = false) (hstart : val.getLsbD 30 = true)
    (hfinish : val.getLsbD 29 = false) : s.storeMacctl val = ((s.macSet val).setFlag SACR.MACCTL_BUSY true).onSacr
      (fun x => { x with macStream := [], macTag := none }) := by
  have h30 : bitsOf val 30 30 = 1 := (bitsOf_bit val 30 (by decide)).trans (congrArg natOfBool hstart)
  have h29 : bitsOf val 29 29 = 0 := (bitsOf_bit val 29 (by decide)).trans (congrArg natOfBool hfinish)
  have hgo : ∀ u : State, ¬(bitsOf val 29 29 = 1 ∧ u.flag SACR.MACCTL_BUSY = true ∧ u.sacr.macTag = none) := fun u h => by
    rw [h29] at h
    exact absurd h.1 (by decide)
  unfold State.storeMacctl
  dsimp only
  rw [if_pos (⟨h30, hfree⟩ : bitsOf val 30 30 = 1 ∧ _), if_neg (hgo _), bitsOf_low val (show 11 < 32 by decide)]
  rfl

/-- A FINISH of the run in progress uses SLOT and LEN of its own store (log entry 71). -/
theorem State.storeMacctl_finish (h : twf regReset s.regs = true) {val : Word} (hbusy : s.flag SACR.MACCTL_BUSY = true)
    (htag : s.sacr.macTag = none) (hfinish : val.getLsbD 29 = true) : s.storeMacctl val = (s.macSet val).macFinish := by
  have h29 : bitsOf val 29 29 = 1 := (bitsOf_bit val 29 (by decide)).trans (congrArg natOfBool hfinish)
  have hset : (s.macSet val).flag SACR.MACCTL_BUSY = true := (State.macSet_busy h val).trans hbusy
  have hrun : ¬(bitsOf val 30 30 = 1 ∧ s.flag SACR.MACCTL_BUSY = false) := fun h => by
    rw [hbusy] at h
    cases h.2
  unfold State.storeMacctl
  dsimp only
  rw [if_neg hrun, bitsOf_low val (show 11 < 32 by decide)]
  exact if_pos ⟨h29, hset, htag⟩

/-- The tag of a run whose message carries RPTCTR, or its error (R347). -/
theorem State.macFinish_key {k : BitVec 128} (hk : s.aesKey (s.fld SACR.MACCTL_SLOT) = some k) :
    let msg := s.sacr.macStream.take (s.fld SACR.MACCTL_LEN)
    s.macFinish = if 16 ≤ msg.length ∧ ofLe ((msg.drop 12).take 4) = (s.getReg SACR.RPTCTR).toNat ∧
        s.getReg SACR.RPTCTR ≠ 0xFFFFFFFF then
      s.onSacr (fun x => { x with macTag := some (BitVec.ofNat 128 (ofLe (octetsOf (cmac (keyOctets k) (natsOf msg))))) })
      else (s.setFlag SACR.MACCTL_ERR true).setFlag SACR.MACCTL_BUSY false := by
  unfold State.macFinish
  simp only [hk]

theorem State.macFinish_noKey (hk : s.aesKey (s.fld SACR.MACCTL_SLOT) = none) :
    s.macFinish = (s.setFlag SACR.MACCTL_ERR true).setFlag SACR.MACCTL_BUSY false := by
  unfold State.macFinish
  simp only [hk]

theorem State.macSet_counter (val : Word) : (s.macSet val).getReg SACR.RPTCTR = s.getReg SACR.RPTCTR :=
  (State.getReg_setFld_ne _ (by decide)).trans (State.getReg_setFld_ne _ (by decide))

theorem execMacTagReady_tag {tag : BitVec 128} (h : s.sacr.macTag = some tag) : exec .macTagReady s = .next
    (let u := s.each (List.range 4) (fun u j => u.putReg (SACR.TAG j) (tag.extractLsb' (32 * j) 32))
     let w := ((u.putReg SACR.RPTCTR (u.getReg SACR.RPTCTR + 1)).setFlag SACR.MACCTL_BUSY false).setFlag SACR.MACCTL_ERR false
     (w.onSacr (fun x => { x with macTag := none, macStream := [] })).raiseEvent .sacristy .choir 6) := by
  refine congrArg Host.Outcome.next ?_
  simp only [h]

end Sys2Proof.Machine
end

open Sys2Proof Sys2Proof.Machine in
/-- Settles O50, from the checks of each key command in their order, and the store that starts or ends a run. -/
theorem keyCommandsAndMacRuns : Obligations.KeyCommandsAndMacRuns := by
  unfold Obligations.KeyCommandsAndMacRuns
  intro s c slot val hs n allowed free wiped error runs starts naveStarts key naveKey log
  refine ⟨fun hfree => ?keys, fun hreach hfree hn => ?nave, fun hrun => congrArg Host.Outcome.next (if_pos hrun),
    fun hbusy => congrArg Host.Outcome.next (if_pos hbusy), fun hreach hfree hstart hfinish => ?start,
    fun hreach hbusy htag => congrArg Host.Outcome.next ((State.poke_din val hreach).trans (if_pos ⟨hbusy, htag⟩)),
    fun hreach hbusy htag hfinish => ?finish, fun tag htag => execMacTagReady_tag htag⟩
  case keys =>
    obtain ⟨hreach, hb⟩ := hfree
    obtain ⟨hload, hclear, hprogram, hrevoke⟩ := execKeyCommands_allowed (slot := slot) hreach
    refine ⟨fun hn => ⟨?_, ?_⟩, fun hn hshut => ⟨?_, ?_⟩, fun hn hopen => ⟨?_, ?_⟩, fun hn => ⟨?_, ?_⟩, fun hn h0 => ?_,
      fun hn h0 hk => ?_, fun hn h0 hk => ?_, fun hn hshut => ?_, fun hn hopen => ?_⟩
    · exact hload.trans (congrArg _ (State.loadAes_range hb hn))
    · exact hclear.trans (congrArg _ (State.clearAes_range hb hn))
    · exact hload.trans (congrArg _ (State.loadAes_sealed hb hn (State.sealOpen_eq_false hshut)))
    · exact hclear.trans (congrArg _ (State.clearAes_sealed hb hn (State.sealOpen_eq_false hshut)))
    · exact hload.trans (congrArg _ (State.loadAes_open hb hn (State.sealOpen_iff.mpr hopen)))
    · exact hclear.trans (congrArg _ (State.clearAes_open hb hn (State.sealOpen_iff.mpr hopen)))
    · exact hprogram.trans (congrArg _ (State.loadVk_range hb hn))
    · exact hrevoke.trans (congrArg _ (State.revokeVk_range hb hn))
    · exact hprogram.trans (congrArg _ (State.loadVk_sealed hb hn h0))
    · exact hprogram.trans (congrArg _ (State.loadVk_used hb hn h0 hk))
    · exact hprogram.trans (congrArg _ (State.loadVk_unused hb hn h0 hk))
    · exact hrevoke.trans (congrArg _ (State.revokeVk_sealed hb hn (State.sealOpen_eq_false hshut)))
    · exact hrevoke.trans (congrArg _ (State.revokeVk_open hb hn (State.sealOpen_iff.mpr hopen)))
  case nave =>
    have hbusy : ¬(s.flag SACR.NKEYSTAT_BUSY = true ∨ n < 8) := by rw [hfree]; simp [hn]
    obtain ⟨hload, hclear⟩ := execNkeyCommands_allowed (slot := slot) hreach
    exact ⟨hload.trans (congrArg _ (if_neg hbusy)), hclear.trans (congrArg _ (if_neg hbusy))⟩
  case start =>
    exact congrArg Host.Outcome.next ((State.poke_macctl val hreach).trans (State.storeMacctl_start hfree hstart hfinish))
  case finish =>
    intro u msg ctr bad
    have hslot : u.fld SACR.MACCTL_SLOT = bitsOf val 26 24 := State.macSet_slot hs.regs val
    have hlen : u.fld SACR.MACCTL_LEN = max 16 (val.toNat % 4096) := State.macSet_len hs.regs val
    have hctr : u.getReg SACR.RPTCTR = ctr := State.macSet_counter val
    have hkey : u.aesKey (u.fld SACR.MACCTL_SLOT) = s.aesKey (bitsOf val 26 24) := by rw [hslot]; rfl
    have hend : exec (.macFinish c val) s = .next u.macFinish := congrArg Host.Outcome.next
      ((State.poke_macctl val hreach).trans (State.storeMacctl_finish hs.regs hbusy htag hfinish))
    refine hend.trans (congrArg Host.Outcome.next ?_)
    cases hk : s.aesKey (bitsOf val 26 24) with
    | none => exact State.macFinish_noKey (hkey.trans hk)
    | some k =>
      refine (State.macFinish_key (hkey.trans hk)).trans ?_
      dsimp only
      rw [hlen, hctr]
      rfl

section
/-! Laws of the belfry's block: where its stores go, and what EPOCH leaves as it stands (R34, R37, R39, R390, R396). -/
namespace Sys2Proof.Machine

variable {s t : State} {c : CoreId} {a : Nat}

/-! ### Stores to the block -/

theorem region_belfBlock (hlo : 0x400A0000 ≤ a) (hhi : a < 0x400A4000) : regionOf a = some .belf := by
  unfold regionOf
  repeat rw [if_neg (by omega)]
  exact if_pos hhi

theorem State.poke_belfBlock (val : Word) (h : s.allows c a true = true) (hal : a % 4 = 0) (hlo : 0x400A0000 ≤ a)
    (hhi : a < 0x400A4000) : s.poke c a val = s.storeBelf a val :=
  State.poke_allowed val h hal (by omega) (by omega) (region_belfBlock hlo hhi)

/-- The nave alone stores to the block, while its strait reaches the belfry and the belfry answers (R34, R39). -/
theorem State.allows_belfBlock (hlo : 0x400A0000 ≤ a) (hhi : a < 0x400A4000) :
    s.allows c a true = (s.domOn (coreDomain c) && !(decide (c = .choir) || s.dark c .belfry) && !s.silent .belfry) := by
  obtain ⟨hflash, hsram⟩ := not_ownMemory (c := c) (a := a) (by omega)
  have hreach : s.reach c a true =
      if decide (c = .choir) = true then some causeScreen else if s.dark c .belfry = true then some causeDark else none := by
    unfold State.reach
    simp only [hflash, hsram, region_belfBlock hlo hhi]
    rfl
  have hsilent : s.silentAt a = s.silent .belfry := by
    unfold State.silentAt
    rw [region_belfBlock hlo hhi]
    rfl
  unfold State.allows
  rw [hreach, hsilent]
  cases decide (c = .choir) <;> cases s.dark c .belfry <;> rfl

/-- A store to a port's register that reaches the belfry. -/
theorem State.poke_portReg (p : Fin 2) {r : Nat} (val : Word) (h : s.allows c a true = true)
    (ha : a = 0x400A0100 + p * 0x100 + r) (hr : r < 0x100) (hal : r % 4 = 0) :
    s.poke c a val = s.epochStep (s.storePort p a val) := by
  have hblock := State.poke_belfBlock val h (by omega) (by omega) (by omega)
  have hidx : (a - 0x400A0000 - 0x100) / 0x100 = p := by omega
  have hstore : s.storeBelf a val = s.epochStep (s.storePort ((a - 0x400A0000 - 0x100) / 0x100) a val) :=
    congrArg s.epochStep (if_pos (by omega))
  rw [hblock, hstore, hidx]

/-- Each of these registers of a port has a store of its own (R363, R371, R377, R381). -/
theorem State.storePort_own (p : Fin 2) (val : Word) :
    s.storePort p (BELF.PCTL p) val = s.storePctl p val ∧ s.storePort p (BELF.ASNLO p) val = s.storeAsnLo p val ∧
      s.storePort p (BELF.ASNHI p) val = s.storeAsnHi p val ∧ s.storePort p (BELF.HOP p) val = s.storeHop p val ∧
      s.storePort p (BELF.LIMCFG p) val = s.storeLimcfg p val := by
  have hoff : BELF.PCTL p % 0x100 = 0x00 ∧ BELF.ASNLO p % 0x100 = 0x10 ∧ BELF.ASNHI p % 0x100 = 0x14 ∧
      BELF.HOP p % 0x100 = 0x1C ∧ BELF.LIMCFG p % 0x100 = 0x44 := by
    simp only [BELF.PCTL, BELF.ASNLO, BELF.ASNHI, BELF.HOP, BELF.LIMCFG]; omega
  obtain ⟨hpctl, hlo, hhi, hhop, hlim⟩ := hoff
  unfold State.storePort
  rw [hpctl, hlo, hhi, hhop, hlim]
  exact ⟨rfl, rfl, rfl, rfl, rfl⟩

/-! ### EPOCH (R396) -/

/-- A store that changes nothing that EPOCH follows leaves EPOCH. -/
theorem State.epochStep_same (h : ∀ p, s.epochKey p = t.epochKey p) : s.epochStep t = t := by
  unfold State.epochStep State.each
  refine List.foldlRecOn (motive := fun u => u = t) (List.range 2) _ rfl fun u hu p _ => ?_
  rw [if_neg (not_not.mpr (h p)), hu]

/-- EPOCH stands in a register of its own. -/
theorem State.getReg_epochStep (h : ∀ p < 2, a ≠ BELF.NETEPOCH p) : (s.epochStep t).getReg a = t.getReg a := by
  unfold State.epochStep State.each
  refine List.foldlRecOn (motive := fun (u : State) => u.getReg a = t.getReg a) (List.range 2) _ rfl fun u hu p hp => ?_
  split
  · exact (State.getReg_setFld_ne _ (h p (List.mem_range.mp hp))).trans hu
  · exact hu

end Sys2Proof.Machine
end

section
/-! O53: the registers of a port that act on it (R363, R371, R377, R381, R389). -/
namespace Sys2Proof.Machine

variable {s t : State} {c : CoreId} {p : Fin 2}

/-! ### PCTL (R363, R389, R391) -/

theorem pctl_fields : ∀ p : Fin 2, (regFind (BELF.PCTL p)).map (fun x => x.1.fields) =
    some [⟨31, 31, .rw, 0, 0, 1, false, [], false⟩, ⟨30, 30, .rw, 0, 0, 1, false, [], false⟩,
      ⟨29, 29, .rw, 0, 0, 1, false, [], false⟩, ⟨28, 27, .rw, 0, 0, 3, false, [3], false⟩,
      ⟨26, 26, .rw, 1, 0, 1, false, [], false⟩, ⟨24, 20, .rw, 8, 4, 31, false, [], false⟩,
      ⟨14, 12, .rw, 0, 0, 7, false, [], false⟩, ⟨10, 8, .rw, 3, 0, 7, false, [], false⟩,
      ⟨6, 0, .rw, 0, 0, 127, false, [], false⟩] := by decide +kernel

/-- A store to a register without SL fields changes that register alone (R5). -/
theorem State.storedAt_storeReg (h : twf regReset s.regs = true) {a : Nat} {l : List FieldSpec} (c : CoreId) (val : Word)
    (hr : (regFind a).map (fun x => x.1.fields) = some l) (hsl : l.any (fun f => decide (f.acc = .sl)) = false) :
    s.StoredAt a (s.storeReg c a val) := by
  rw [State.storeReg_fields val hr hsl]
  exact List.foldlRecOn (motive := fun t => s.StoredAt a t) l _ ⟨rfl, fun _ _ => rfl, h⟩
    fun t ht f _ => ht.storeField c val f

/-- PCTL with a word stored field by field, and EN as its conditions leave it (R363). -/
def State.pctlStored (s : State) (p : Nat) (val : Word) (en : Bool) : State :=
  (s.storeReg .nave (BELF.PCTL p) val).setFlag (BELF.PCTL_EN p) en

theorem State.pctlStored_fld (h : twf regReset s.regs = true) (val : Word) (en : Bool) {f : Fld} (hf : f.addr ≠ BELF.PCTL p) :
    (s.pctlStored p val en).fld f = s.fld f := by
  have hstored := State.storedAt_storeReg h .nave val (pctl_fields p) rfl
  unfold State.fld State.pctlStored
  rw [State.getReg_setFlag_ne _ hf, hstored.other _ hf]

/-- PSTAT, NETCTL and NETSTAT are no part of PCTL. -/
theorem State.pctlStored_port (h : twf regReset s.regs = true) (val : Word) (en : Bool) :
    (s.pctlStored p val en).fld (BELF.PSTAT_LIFE p) = s.fld (BELF.PSTAT_LIFE p) ∧
      (s.pctlStored p val en).role p = s.role p ∧ (s.pctlStored p val en).netState p = s.netState p := by
  refine ⟨State.pctlStored_fld h val en ?_, State.pctlStored_fld h val en ?_, State.pctlStored_fld h val en ?_⟩
  · simp only [BELF.PSTAT_LIFE, BELF.PSTAT, BELF.PCTL]; omega
  · simp only [BELF.NETCTL_ROLE, BELF.NETCTL, BELF.PCTL]; omega
  · simp only [BELF.NETSTAT_STATE, BELF.NETSTAT, BELF.PCTL]; omega

/-- The word that a store to PCTL takes while the port is not OFF: EN, SCAN and TEST alone change (R363, R389). -/
def pctlKept (old val : Word) : Word :=
  bitsPut (bitsPut (bitsPut old 31 31 (bitsOf val 31 31)) 29 29 (bitsOf val 29 29)) 28 27 (bitsOf val 28 27)

theorem pctlKept_bits (old val : Word) : bitsOf (pctlKept old val) 31 31 = bitsOf val 31 31 ∧
    bitsOf (pctlKept old val) 30 30 = bitsOf old 30 30 ∧ bitsOf (pctlKept old val) 14 12 = bitsOf old 14 12 := by
  unfold pctlKept
  refine ⟨?_, ?_, ?_⟩
  · rw [bitsOf_bitsPut_ne _ _ (by decide) (by decide) (by decide) (by decide), bitsOf_bitsPut_ne _ _ (by decide) (by decide)
      (by decide) (by decide), bitsOf_bitsPut _ _ (by decide) (by decide)]
    exact Nat.mod_eq_of_lt (bitsOf_lt val 31 31)
  all_goals
    rw [bitsOf_bitsPut_ne _ _ (by decide) (by decide) (by decide) (by decide), bitsOf_bitsPut_ne _ _ (by decide) (by decide)
      (by decide) (by decide), bitsOf_bitsPut_ne _ _ (by decide) (by decide) (by decide) (by decide)]

/-- EN may be set: the queues of the port are nave queues, and TIMESRC suits its role (R363, R391). -/
def State.pctlLegal (s : State) (p src : Nat) : Prop :=
  128 ≤ s.fld (BELF.QUEUES_RXQ p) ∧ 128 ≤ s.fld (BELF.QUEUES_TXSTATQ p) ∧ ¬(s.role p = 2 ∧ src = 1) ∧ ¬(s.role p = 1 ∧ src = 0)

/-- What follows a store to PCTL: a COORD port that is ON stays ON for its last beacon, any other follows EN (R363, R409). -/
def State.pctlFollows (t : State) (p : Nat) (en : Bool) : State :=
  if t.portOn p ∧ t.role p = 2 then (if t.netState p = 7 then t.setFlag (SYS.UNITSTATE_DEFER (unitPort p)) en else t)
  else (t.enableActs (unitPort p) en).xhfSync

theorem State.storePctl_eq {v : Word} (hv : v = if s.fld (BELF.PSTAT_LIFE p) = 0 then w else pctlKept (s.getReg (BELF.PCTL p)) w)
    (hplan : planChannels p (bitsOf v 14 12) = 0 → bitsOf v 14 12 = bitsOf (s.getReg (BELF.PCTL p)) 14 12)
    (hlegal : v.getLsbD 31 = true → s.pctlLegal p (bitsOf v 30 30)) :
    s.storePctl p w = (s.pctlStored p v (v.getLsbD 31)).pctlFollows p (v.getLsbD 31) := by
  have hv' : (if (s.fld (BELF.PSTAT_LIFE p) == 0) = true then w else bitsPut (bitsPut (bitsPut (s.getReg (BELF.PCTL p))
      31 31 (bitsOf w 31 31)) 29 29 (bitsOf w 29 29)) 28 27 (bitsOf w 28 27)) = v := by
    rw [hv]; simp only [beq_iff_eq]; rfl
  have hplan' : (if planChannels p (bitsOf v 14 12) = 0 then bitsPut v 14 12 (bitsOf (s.getReg (BELF.PCTL p)) 14 12)
      else v) = v := by
    split
    case isTrue h => rw [← hplan h, bitsPut_bitsOf_self v (by decide) (by decide)]
    case isFalse => rfl
  have hen : (bitsOf v 31 31 == 1 && (decide (128 ≤ s.fld (BELF.QUEUES_RXQ p) ∧ 128 ≤ s.fld (BELF.QUEUES_TXSTATQ p)) &&
      !(s.role p == 2 && bitsOf v 30 30 == 1) && !(s.role p == 1 && bitsOf v 30 30 == 0))) = v.getLsbD 31 := by
    rw [bitsOf_bit_beq v 31 (by decide)]
    cases h : v.getLsbD 31
    · rfl
    · obtain ⟨hrx, htx, hcoord, hnode⟩ := hlegal h
      simp [hrx, htx]
      exact ⟨not_and_or.mp hcoord, not_and_or.mp hnode⟩
  unfold State.storePctl
  simp only [hv', hplan', hen]
  rfl

/-- The port's unit reads its life in PSTAT (R456). -/
theorem State.life_port (s : State) (p : Fin 2) : s.life (unitPort p) = s.fld (BELF.PSTAT_LIFE p) := by
  unfold State.life
  rw [if_neg (by unfold unitPort; omega), if_neg (by unfold unitPort; omega)]
  have hfld : ∀ p : Fin 2, unitLifeFld (unitPort p) = some (BELF.PSTAT_LIFE p) := by decide
  rw [hfld p]

theorem State.pctlFollows_off (h : t.fld (BELF.PSTAT_LIFE p) = 0) :
    t.pctlFollows p true = ((t.setFlag (SYS.UNITSTATE_DEFER (unitPort p)) false).setLife (unitPort p) 1).xhfSync := by
  unfold State.pctlFollows State.portOn State.enableActs
  rw [State.life_port, h]
  rfl

/-- A port that is ON and no coordinator starts its fall when EN goes, and stays ON while EN stands. -/
theorem State.pctlFollows_on (h : t.fld (BELF.PSTAT_LIFE p) = 2) (hr : t.role p ≠ 2) :
    t.pctlFollows p false = (t.setLife (unitPort p) 3).xhfSync ∧ t.pctlFollows p true = t.xhfSync := by
  unfold State.pctlFollows State.enableActs
  rw [if_neg (not_and_of_not_right _ hr), if_neg (not_and_of_not_right _ hr), State.life_port, h]
  exact ⟨rfl, rfl⟩

theorem State.pctlFollows_coordinator (h : t.fld (BELF.PSTAT_LIFE p) = 2) (hr : t.role p = 2) (hn : t.netState p ≠ 7)
    (en : Bool) : t.pctlFollows p en = t := by
  unfold State.pctlFollows State.portOn
  rw [if_pos ⟨by rw [h]; rfl, hr⟩, if_neg hn]

/-- A store to PCTL by either command. -/
theorem execPctl (p : Fin 2) (w : Word) (h : s.allows c (BELF.PCTL p) true = true) :
    exec (.portEnableWrite c p w) s = .next (s.epochStep (s.storePctl p w)) ∧
      exec (.radioTest c p w) s = .next (s.epochStep (s.storePctl p w)) := by
  have hpoke := (State.poke_portReg p w (r := 0x00) h (by unfold BELF.PCTL; omega) (by decide) rfl).trans
    (congrArg s.epochStep (State.storePort_own p w).1)
  exact ⟨congrArg Host.Outcome.next hpoke, congrArg Host.Outcome.next hpoke⟩

/-- A store to PCTL of a port that is not OFF changes EN, SCAN and TEST alone. -/
theorem State.storePctl_notOff (val : Word) (hlife : s.fld (BELF.PSTAT_LIFE p) ≠ 0)
    (hlegal : val.getLsbD 31 = true → s.pctlLegal p (bitsOf (s.getReg (BELF.PCTL p)) 30 30)) :
    s.storePctl p val =
      (s.pctlStored p (pctlKept (s.getReg (BELF.PCTL p)) val) (val.getLsbD 31)).pctlFollows p (val.getLsbD 31) := by
  obtain ⟨hen, hsrc, hplan⟩ := pctlKept_bits (s.getReg (BELF.PCTL p)) val
  have hbit : (pctlKept (s.getReg (BELF.PCTL p)) val).getLsbD 31 = val.getLsbD 31 := by
    rw [← bitsOf_bit_beq _ 31 (by decide), ← bitsOf_bit_beq _ 31 (by decide), hen]
  have heq := State.storePctl_eq (s := s) (p := p) (w := val) (if_neg hlife).symm (fun _ => hplan)
    fun h => hsrc.symm ▸ hlegal (hbit ▸ h)
  rwa [hbit] at heq

/-! ### ASNHI and ASNLO (R377) -/

/-- EPOCH follows registers alone, and a store to a port outside the registers passes it by. -/
theorem State.epochStep_onPort (f : Port → Port) : s.epochStep (s.onPort p f) = s.onPort p f :=
  State.epochStep_same fun _ => rfl

theorem State.port_onPort_self {q : Nat} {f : Port → Port} (hne : f (s.port q) ≠ Port.empty) :
    (s.onPort q f).port q = f (s.port q) :=
  tget_tput_of_ne_default _ _ hne

theorem State.allows_asnLo (p : Fin 2) : s.allows c (BELF.ASNLO p) true = s.allows c (BELF.ASNHI p) true := by
  simp only [BELF.ASNLO, BELF.ASNHI]
  rw [State.allows_belfBlock (by omega) (by omega), State.allows_belfBlock (by omega) (by omega)]

theorem execAsnLoad_eq (hi lo : Word) (h : s.allows c (BELF.ASNHI p) true = true) :
    exec (.asnLoad c p hi lo) s = .next ((s.epochStep (s.storeAsnHi p hi)).poke c (BELF.ASNLO p) lo) :=
  congrArg (fun t => Host.Outcome.next (State.poke t c (BELF.ASNLO p) lo))
    ((State.poke_portReg p hi (r := 0x14) h (by unfold BELF.ASNHI; omega) (by decide) rfl).trans (congrArg s.epochStep (State.storePort_own p hi).2.2.1))

theorem State.poke_asnLo (lo : Word) (h : s.allows c (BELF.ASNHI p) true = true) :
    s.poke c (BELF.ASNLO p) lo = s.epochStep (s.storeAsnLo p lo) :=
  (State.poke_portReg p lo (r := 0x10) ((State.allows_asnLo p).trans h) (by unfold BELF.ASNLO; omega) (by decide) rfl).trans
    (congrArg s.epochStep (State.storePort_own p lo).2.1)

theorem execAsnLoad_own (hi lo : Word) (h : s.allows c (BELF.ASNHI p) true = true)
    (hsrc : s.flag (BELF.PCTL_TIMESRC p) = false) :
    exec (.asnLoad c p hi lo) s = .next ((s.onPort p (fun y => { y with asnHi := some (bitsOf hi 7 0) })).onPort p
      (fun y => { y with asnLoad := some (bitsOf hi 7 0 * 2 ^ 32 + lo.toNat), asnHi := none })) := by
  have hhi : s.storeAsnHi p hi = s.onPort p (fun y => { y with asnHi := some (bitsOf hi 7 0) }) := if_neg (by rw [hsrc]; decide)
  rw [execAsnLoad_eq hi lo h, hhi, State.epochStep_onPort]
  have hsrc' : (s.onPort p (fun y => { y with asnHi := some (bitsOf hi 7 0) })).flag (BELF.PCTL_TIMESRC p) = false := hsrc
  have h' : (s.onPort p (fun y => { y with asnHi := some (bitsOf hi 7 0) })).allows c (BELF.ASNHI p) true = true := h
  have hport := State.port_onPort_self (s := s) (q := p) (f := fun y => { y with asnHi := some (bitsOf hi 7 0) })
    fun h => Option.some_ne_none _ (congrArg Port.asnHi h)
  rw [State.poke_asnLo lo h']
  unfold State.storeAsnLo
  rw [if_neg (by rw [hsrc']; decide), State.epochStep_onPort]
  unfold State.onPort at hport ⊢
  rw [hport]
  rfl

theorem execAsnLoad_neighbour (hi lo : Word) (h : s.allows c (BELF.ASNHI p) true = true)
    (hsrc : s.flag (BELF.PCTL_TIMESRC p) = true) : exec (.asnLoad c p hi lo) s = .next s := by
  have hhi : s.storeAsnHi p hi = s := if_pos hsrc
  have hlo : s.storeAsnLo p lo = s := if_pos hsrc
  have hepoch : s.epochStep s = s := State.epochStep_same fun _ => rfl
  rw [execAsnLoad_eq hi lo h, hhi, hepoch, State.poke_asnLo lo h, hlo, hepoch]

/-! ### HOP (R371) -/

theorem State.storeHop_eq (val : Word) : s.storeHop p val =
    (let u := (s.setFld (BELF.HOP_HOPLEN p) (min 128 (bitsOf val 23 16))).setFld (BELF.HOP_SEED p) (bitsOf val 15 0)
    if val.getLsbD 31 then u.setFlag (BELF.HOP_BUSY p) true else u) := by
  have hbit : bitsOf val 31 31 = 1 ↔ val.getLsbD 31 = true := by rw [← bitsOf_bit_beq val 31 (by decide), beq_iff_eq]
  unfold State.storeHop
  simp only [hbit]
  rfl

theorem execHopGen_eq (val : Word) (h : s.allows c (BELF.HOP p) true = true) :
    exec (.hopGen c p val) s = .next (s.epochStep (s.storeHop p val)) :=
  congrArg Host.Outcome.next ((State.poke_portReg p val (r := 0x1C) h (by unfold BELF.HOP; omega) (by decide) rfl).trans
    (congrArg s.epochStep (State.storePort_own p val).2.2.2.1))

/-! ### LIMCFG (R381) -/

theorem execLimcfg_eq (val : Word) (h : s.allows c (BELF.LIMCFG p) true = true) :
    exec (.limcfgPresetWrite c p val) s = .next (s.epochStep (s.storeLimcfg p val)) :=
  congrArg Host.Outcome.next ((State.poke_portReg p val (r := 0x44) h (by unfold BELF.LIMCFG; omega) (by decide) rfl).trans
    (congrArg s.epochStep (State.storePort_own p val).2.2.2.2))

/-- The sub-band table is apart from LIMCFG. -/
theorem State.preset_loadBands (l : List (Nat × Nat × Nat)) : (s.loadBands p l).preset p = s.preset p := by
  unfold State.loadBands State.each
  refine List.foldlRecOn (motive := fun (u : State) => u.preset p = s.preset p) (List.range 8) _ rfl fun u hu i hi => ?_
  have hi : i < 8 := List.mem_range.mp hi
  have hlo : BELF.LIMCFG p ≠ sbLo p i := by simp only [BELF.LIMCFG, sbLo, BELF.SBLO0]; omega
  have hhi : BELF.LIMCFG p ≠ sbHi p i := by simp only [BELF.LIMCFG, sbHi, BELF.SBHI0]; omega
  rw [← hu]
  exact congrArg (bitsOf · 31 29) ((State.getReg_putReg_ne _ _ hhi).trans (State.getReg_putReg_ne _ _ hlo))

/-- PRESET shares its register with the other fields, and no bit with them. -/
theorem State.preset_setFld_apart (h : twf regReset s.regs = true) {f : Fld} (v : Nat)
    (hf : f.Apart (BELF.LIMCFG_PRESET p)) : (s.setFld f v).preset p = s.preset p :=
  State.fld_setFld_apart h v hf

theorem State.preset_setPreset (h : twf regReset s.regs = true) {n : Nat} (hn : n < 8) :
    (s.setFld (BELF.LIMCFG_PRESET p) n).preset p = n :=
  (State.fld_setFld_self h _ n (show 31 < 32 by decide) (show 29 ≤ 31 by decide)).trans (Nat.mod_eq_of_lt hn)

/-- LIMCFG with COLD stored. -/
def State.coldStored (s : State) (p : Nat) (val : Word) : State := s.setFld (BELF.LIMCFG_COLD p) (bitsOf val 28 28)

/-- DWIN and DLIM of the preset CUSTOM (R381). -/
def State.customWindow (s : State) (p : Nat) (val : Word) : State :=
  (s.setFld (BELF.LIMCFG_DWIN p) (max 1 (bitsOf val 23 16))).setFld (BELF.LIMCFG_DLIM p) (bitsOf val 15 0)

theorem State.preset_coldStored (h : twf regReset s.regs = true) (val : Word) : (s.coldStored p val).preset p = s.preset p :=
  State.preset_setFld_apart h _ ⟨rfl, show 31 < 32 by decide, Nat.le_refl 28, show 29 ≤ 31 by decide, .inr (show 28 < 29 by decide)⟩

theorem State.preset_setDlim (h : twf regReset s.regs = true) (v : Nat) :
    (s.setFld (BELF.LIMCFG_DLIM p) v).preset p = s.preset p :=
  State.preset_setFld_apart h _ ⟨rfl, show 31 < 32 by decide, Nat.zero_le 15, show 29 ≤ 31 by decide, .inr (show 15 < 29 by decide)⟩

theorem State.preset_setDwin (h : twf regReset s.regs = true) (v : Nat) :
    (s.setFld (BELF.LIMCFG_DWIN p) v).preset p = s.preset p :=
  State.preset_setFld_apart h _ ⟨rfl, show 31 < 32 by decide, show 16 ≤ 23 by decide, show 29 ≤ 31 by decide,
    .inr (show 23 < 29 by decide)⟩

/-- OFF and EU868 load their table; neither lets DWIN and DLIM be written. -/
theorem State.storeLimcfg_noDwell (h : twf regReset s.regs = true) (val : Word) :
    (bitsOf val 31 29 = 0 → s.storeLimcfg p val =
      (((s.coldStored p val).setFld (BELF.LIMCFG_PRESET p) 0).setFld (BELF.LIMCFG_DLIM p) 0).loadBands p []) ∧
    (bitsOf val 31 29 = 1 → p.val = 0 → s.storeLimcfg p val =
      (((s.coldStored p val).setFld (BELF.LIMCFG_PRESET p) 1).setFld (BELF.LIMCFG_DLIM p) 0).loadBands p eu868Bands) := by
  have hcold : twf regReset (s.coldStored p val).regs = true := State.twf_setFld h _ _
  have hpreset : ∀ (n : Nat) (l : List (Nat × Nat × Nat)), n < 3 →
      ¬ ((((s.coldStored p val).setFld (BELF.LIMCFG_PRESET p) n).setFld (BELF.LIMCFG_DLIM p) 0).loadBands p l).preset p = 3 := by
    intro n l hn
    rw [State.preset_loadBands, State.preset_setDlim (State.twf_setFld hcold _ _), State.preset_setPreset hcold (by omega)]
    omega
  unfold State.storeLimcfg
  refine ⟨fun hw => ?off, fun hw hp => ?eu868⟩
  case off =>
    simp only [hw]
    rw [if_neg (c := 4 ≤ 0 ∨ p.val = 1 ∧ (0 = 1 ∨ 0 = 2)) (by omega)]
    exact if_neg (hpreset 0 [] (by decide))
  case eu868 =>
    simp only [hw]
    rw [if_neg (c := 4 ≤ 1 ∨ p.val = 1 ∧ (True ∨ 1 = 2)) (by omega)]
    exact if_neg (hpreset 1 eu868Bands (by decide))

/-- FCC915 loads its window and an empty table. -/
theorem State.storeLimcfg_dwell (h : twf regReset s.regs = true) (val : Word) (hw : bitsOf val 31 29 = 2) (hp : p.val = 0) :
    s.storeLimcfg p val = ((((s.coldStored p val).setFld (BELF.LIMCFG_PRESET p) 2).setFld (BELF.LIMCFG_DWIN p) 20).setFld
      (BELF.LIMCFG_DLIM p) 400).loadBands p [] := by
  have hcold : twf regReset (s.coldStored p val).regs = true := State.twf_setFld h _ _
  have hset : twf regReset ((s.coldStored p val).setFld (BELF.LIMCFG_PRESET p) 2).regs = true := State.twf_setFld hcold _ _
  have hpreset : ¬ (((((s.coldStored p val).setFld (BELF.LIMCFG_PRESET p) 2).setFld (BELF.LIMCFG_DWIN p) 20).setFld
      (BELF.LIMCFG_DLIM p) 400).loadBands p []).preset p = 3 := by
    rw [State.preset_loadBands, State.preset_setDlim (State.twf_setFld hset _ _), State.preset_setDwin hset,
      State.preset_setPreset hcold (by decide)]
    decide
  unfold State.storeLimcfg
  simp only [hw]
  rw [if_neg (c := 4 ≤ 2 ∨ p.val = 1 ∧ (2 = 1 ∨ True)) (by omega)]
  exact if_neg hpreset

/-- CUSTOM takes DWIN and DLIM of the store and leaves the table. -/
theorem State.storeLimcfg_custom (h : twf regReset s.regs = true) (val : Word) (hw : bitsOf val 31 29 = 3) :
    s.storeLimcfg p val = ((s.coldStored p val).setFld (BELF.LIMCFG_PRESET p) 3).customWindow p val := by
  unfold State.storeLimcfg
  simp only [hw]
  rw [if_neg (c := 4 ≤ 3 ∨ p.val = 1 ∧ (3 = 1 ∨ 3 = 2)) (by omega)]
  exact if_pos (State.preset_setPreset (State.twf_setFld h _ _) (by decide))

/-- A PRESET that the port does not have leaves PRESET. -/
theorem State.storeLimcfg_refused (h : twf regReset s.regs = true) (val : Word)
    (hw : 4 ≤ bitsOf val 31 29 ∨ (p.val = 1 ∧ (bitsOf val 31 29 = 1 ∨ bitsOf val 31 29 = 2))) :
    s.storeLimcfg p val = if s.preset p = 3 then (s.coldStored p val).customWindow p val else s.coldStored p val := by
  unfold State.storeLimcfg
  simp only
  rw [if_pos hw]
  rw [← State.preset_coldStored h val]
  rfl

/-! ### NBRCMD (R425) -/

theorem State.poke_nbrcmd (val : Word) (h : s.allows c BELF.NBRCMD true = true) :
    s.poke c BELF.NBRCMD val = s.epochStep (s.storeNbrcmd val) := by
  have hblock := State.poke_belfBlock val h (by decide) (by decide) (by decide)
  have hstore : s.storeBelf BELF.NBRCMD val = s.epochStep (s.storeNbrcmd val) := by
    unfold State.storeBelf
    refine congrArg s.epochStep ?_
    rw [if_neg (by decide), if_neg (by decide), if_neg (by decide), if_neg (by decide), if_pos rfl]
  exact hblock.trans hstore

/-- Each command of NBRCMD. -/
theorem execNbrcmd (h : s.allows c BELF.NBRCMD true = true) :
    exec (.nbrRead c) s = .next (s.epochStep s.nbrRead) ∧ exec (.nbrWrite c) s = .next (s.epochStep s.nbrWrite) ∧
      exec (.nbrDelete c) s = .next (s.epochStep s.nbrDelete) :=
  ⟨congrArg Host.Outcome.next (State.poke_nbrcmd 1 h), congrArg Host.Outcome.next (State.poke_nbrcmd 2 h),
    congrArg Host.Outcome.next (State.poke_nbrcmd 3 h)⟩

/-- ERR is no part of NBRIDX. -/
theorem State.nbrIndex_setErr (e : Nat) : (s.setFld BELF.NBRCMD_ERR e).fld BELF.NBRIDX_INDEX = s.fld BELF.NBRIDX_INDEX :=
  State.fld_setFld_ne s e (by decide)

/-- READ and DELETE of an entry that does not exist. -/
theorem State.nbr_none (h : s.nbr (s.fld BELF.NBRIDX_INDEX) = none) :
    s.nbrRead = [BELF.NBRD0, BELF.NBRD1, BELF.NBRD2, BELF.NBRD3, BELF.NBRD4, BELF.NBRD5, BELF.NBRD6].foldl
      (fun t a => t.putReg a (regReset a)) (s.setFld BELF.NBRCMD_ERR 0) ∧
    s.nbrDelete = s.setFld BELF.NBRCMD_ERR 0 := by
  have herr : (s.setFld BELF.NBRCMD_ERR 0).nbr (s.fld BELF.NBRIDX_INDEX) = none := h
  unfold State.nbrRead State.nbrDelete
  simp only [State.nbrIndex_setErr, herr]
  trivial

theorem State.nbrDelete_some {e : Nbr} (h : s.nbr (s.fld BELF.NBRIDX_INDEX) = some e) :
    s.nbrDelete = (if e.leased then (s.setFld BELF.NBRCMD_ERR 0).endLease e.port e.lidx else s.setFld BELF.NBRCMD_ERR 0).setNbr
      (s.fld BELF.NBRIDX_INDEX) none := by
  have herr : (s.setFld BELF.NBRCMD_ERR 0).nbr (s.fld BELF.NBRIDX_INDEX) = some e := h
  unfold State.nbrDelete
  simp only [herr]

/-- READ of an entry: its lease in NBRD6, its EUI-64 in NBRD0 and NBRD1. -/
theorem State.nbrRead_some (hwf : twf regReset s.regs = true) {e : Nbr} (h : s.nbr (s.fld BELF.NBRIDX_INDEX) = some e) :
    s.nbrRead.getReg BELF.NBRD6 = BitVec.ofNat 32 (e.lrem % 2 ^ 24 + 2 ^ 24 * e.lidx) ∧
      ∀ k, e.eui = some k → s.nbrRead.getReg BELF.NBRD0 = BitVec.ofNat 32 k ∧
        s.nbrRead.getReg BELF.NBRD1 = BitVec.ofNat 32 (k / 2 ^ 32) := by
  have herr : (s.setFld BELF.NBRCMD_ERR 0).nbr (s.fld BELF.NBRIDX_INDEX) = some e := h
  have hw : ∀ {u : State} (a : Nat) (w : Word), twf regReset u.regs = true → twf regReset (u.putReg a w).regs = true :=
    fun a w hu => twf_tput hu a w
  have hspent : twf regReset ((s.setFld BELF.NBRCMD_ERR 0).spend.spend).regs = true := State.twf_setFld hwf _ _
  unfold State.nbrRead
  simp only [State.nbrIndex_setErr, herr]
  refine ⟨State.getReg_putReg_self ?_ _ _, fun k hk => ⟨?_, ?_⟩⟩
  · exact hw _ _ (hw _ _ (hw _ _ (hw _ _ (hw _ _ (hw _ _ hspent)))))
  · rw [hk, State.getReg_putReg_ne _ _ (by decide), State.getReg_putReg_ne _ _ (by decide),
      State.getReg_putReg_ne _ _ (by decide), State.getReg_putReg_ne _ _ (by decide), State.getReg_putReg_ne _ _ (by decide),
      State.getReg_putReg_ne _ _ (by decide), State.getReg_putReg_self hspent]
  · rw [hk, State.getReg_putReg_ne _ _ (by decide), State.getReg_putReg_ne _ _ (by decide),
      State.getReg_putReg_ne _ _ (by decide), State.getReg_putReg_ne _ _ (by decide), State.getReg_putReg_ne _ _ (by decide),
      State.getReg_putReg_self (hw _ _ hspent)]

/-- EPOCH is none of the registers that READ loads. -/
theorem nbrd_ne_netepoch (a : Nat) (h : 0x400A3790 ≤ a) : ∀ p < 2, a ≠ BELF.NETEPOCH p := by
  intro p hp
  unfold BELF.NETEPOCH
  omega

/-- The EUI-64 that NBRD0 and NBRD1 name. -/
def State.namedEui (s : State) : Nat := (s.getReg BELF.NBRD1).toNat * 2 ^ 32 + (s.getReg BELF.NBRD0).toNat

/-- Another entry of the named port with the named short address. -/
def State.rival (s : State) : Option Nat :=
  s.findNbr (fun m => m.port == s.fld BELF.NBRD2_PORT && m.short == s.fld BELF.NBRD2_SHORT && s.fld BELF.NBRD2_SHORT != 0xFFFF &&
    m.eui.isSome && m.eui != some s.namedEui)

/-- The entry that WRITE takes: the one of the named EUI-64, else a free one. -/
def State.placeOfEui (s : State) : Option Nat := (s.nbrOfEui s.namedEui).orElse (fun _ => s.freeNbr)

/-- The entry at an index before WRITE: an empty index gives a new one. -/
def State.entryAt (s : State) (j : Nat) : Nbr :=
  (s.nbr j).getD (Nbr.new (some s.namedEui) (s.fld BELF.NBRD2_SHORT) (s.fld BELF.NBRD2_PORT) s.now)

theorem State.nbrWrite_duplicate (h : s.rival ≠ none) : s.nbrWrite = s.setFld BELF.NBRCMD_ERR 3 :=
  if_pos (Option.isSome_iff_ne_none.mpr h)

theorem State.nbrWrite_full (h : s.rival = none) (hp : s.placeOfEui = none) : s.nbrWrite = s.setFld BELF.NBRCMD_ERR 1 := by
  have hrival : ¬ s.rival.isSome = true := by rw [h]; decide
  refine (if_neg hrival).trans ?_
  unfold State.placeOfEui at hp
  unfold State.namedEui at hp
  rw [hp]

theorem bool_and3_iff (a b : Bool) (q : Prop) [Decidable q] : (a && !b && decide q) = true ↔ a = true ∧ b = false ∧ q := by
  cases a <;> cases b <;> simp

/-- WRITE would pin an entry beyond the limit. -/
def State.PinsFull (s : State) (j : Nat) : Prop :=
  s.flag BELF.NBRD2_PINNED = true ∧ (s.entryAt j).pinned = false ∧ 128 ≤ s.pinnedCount

theorem State.nbrWrite_placed (h : s.rival = none) {j : Nat} (hp : s.placeOfEui = some j) :
    (s.PinsFull j → s.nbrWrite = s.setFld BELF.NBRCMD_ERR 2) ∧
    (¬ s.PinsFull j → s.nbrWrite = (s.setFld BELF.NBRCMD_ERR 0).setNbr j (some { s.entryAt j with
      eui := some s.namedEui, short := s.fld BELF.NBRD2_SHORT, port := s.fld BELF.NBRD2_PORT
      pinned := s.flag BELF.NBRD2_PINNED || (s.entryAt j).leased, allow := s.flag BELF.NBRD2_ALLOW })) := by
  have hrival : ¬ s.rival.isSome = true := by rw [h]; decide
  have hplace : s.nbrWrite = if (s.flag BELF.NBRD2_PINNED && !(s.entryAt j).pinned && decide (128 ≤ s.pinnedCount)) = true
      then s.setFld BELF.NBRCMD_ERR 2
      else (s.setFld BELF.NBRCMD_ERR 0).setNbr j (some { s.entryAt j with
        eui := some s.namedEui, short := s.fld BELF.NBRD2_SHORT, port := s.fld BELF.NBRD2_PORT
        pinned := s.flag BELF.NBRD2_PINNED || (s.entryAt j).leased, allow := s.flag BELF.NBRD2_ALLOW }) := by
    refine (if_neg hrival).trans ?_
    unfold State.placeOfEui State.namedEui at hp
    rw [hp]
    rfl
  exact ⟨fun hf => hplace.trans (if_pos ((bool_and3_iff _ _ _).mpr hf)),
    fun hf => hplace.trans (if_neg (mt (bool_and3_iff _ _ _).mp hf))⟩

end Sys2Proof.Machine

open Sys2Proof Sys2Proof.Machine in
/-- Settles O53: each command is the store of its register, as the belfry takes it, followed by EPOCH. -/
theorem belfryRegistersActOnPorts : Obligations.BelfryRegistersActOnPorts := by
  unfold Obligations.BelfryRegistersActOnPorts
  intro s c i val hi lo hs
  have hwf := hs.regs
  refine ⟨fun h hlife hen hleg hplan => ?rise, fun h hlife hrole hen => ?fall, fun h hlife hrole hen hleg => ?test,
    fun h hlife hrole hnet hleg => ?coordinator, fun h hsrc => execAsnLoad_own hi lo h hsrc,
    fun h hsrc => execAsnLoad_neighbour hi lo h hsrc, fun h => ?hop, fun hbusy => congrArg Host.Outcome.next (if_pos hbusy),
    fun h => ?limiter, fun h => ?neighbours, fun k hk => congrArg Host.Outcome.next (if_pos hk)⟩
  case rise =>
    have hport := State.pctlStored_port (p := i) hwf val true
    rw [(execPctl i val h).1, State.storePctl_eq (if_pos hlife).symm (fun h0 => absurd h0 hplan) (fun _ => hleg), hen,
      State.pctlFollows_off (hport.1.trans hlife)]
    rfl
  case fall =>
    obtain ⟨hp, hr, _⟩ := State.pctlStored_port (p := i) hwf (pctlKept (s.getReg (BELF.PCTL i)) val) false
    rw [(execPctl i val h).1, State.storePctl_notOff val (by omega) (fun h1 => absurd h1 (by rw [hen]; decide)), hen,
      (State.pctlFollows_on (hp.trans hlife) (hr ▸ hrole)).1]
    rfl
  case test =>
    obtain ⟨hp, hr, _⟩ := State.pctlStored_port (p := i) hwf (pctlKept (s.getReg (BELF.PCTL i)) val) true
    rw [(execPctl i val h).2, State.storePctl_notOff val (by omega) (fun _ => hleg), hen,
      (State.pctlFollows_on (hp.trans hlife) (hr ▸ hrole)).2]
    rfl
  case coordinator =>
    obtain ⟨hp, hr, hn⟩ := State.pctlStored_port (p := i) hwf (pctlKept (s.getReg (BELF.PCTL i)) val) (val.getLsbD 31)
    rw [(execPctl i val h).1, (execPctl i val h).2, State.storePctl_notOff val (by omega) (fun _ => hleg),
      State.pctlFollows_coordinator (hp.trans hlife) (hr.trans hrole) (hn ▸ hnet)]
    exact ⟨rfl, rfl⟩
  case hop => exact (execHopGen_eq val h).trans (by rw [State.storeHop_eq])
  case limiter =>
    obtain ⟨hoff, heu⟩ := State.storeLimcfg_noDwell (p := i) hwf val
    have hexec := execLimcfg_eq val h
    exact ⟨fun hw => hexec.trans (by rw [hoff hw]; rfl), fun hw hp => hexec.trans (by rw [heu hw hp]; rfl),
      fun hw hp => hexec.trans (by rw [State.storeLimcfg_dwell hwf val hw hp]; rfl),
      fun hw => hexec.trans (by rw [State.storeLimcfg_custom hwf val hw]; rfl),
      fun hw => hexec.trans (by rw [State.storeLimcfg_refused hwf val hw]; rfl)⟩
  case neighbours =>
    obtain ⟨hread, hwrite, hdelete⟩ := execNbrcmd h
    refine ⟨fun hn => ?_, fun e he => ⟨?_, _, hread, ?_⟩, fun hr => ?_, fun hr => ⟨fun hp => ?_, fun j hj => ⟨fun hfull => ?_, fun hroom => ?_⟩⟩⟩
    · rw [hread, hdelete, (State.nbr_none hn).1, (State.nbr_none hn).2]
      exact ⟨rfl, rfl⟩
    · rw [hdelete, State.nbrDelete_some he]
    · have hepoch := fun a h => State.getReg_epochStep (s := s) (t := s.nbrRead) (nbrd_ne_netepoch a h)
      rw [hepoch _ (by decide), hepoch _ (by decide), hepoch _ (by decide)]
      exact State.nbrRead_some hwf he
    · exact hwrite.trans (congrArg (fun t => Host.Outcome.next (s.epochStep t)) (State.nbrWrite_duplicate hr))
    · exact hwrite.trans (congrArg (fun t => Host.Outcome.next (s.epochStep t)) (State.nbrWrite_full hr hp))
    · exact hwrite.trans (congrArg (fun t => Host.Outcome.next (s.epochStep t)) ((State.nbrWrite_placed hr hj).1 hfull))
    · exact hwrite.trans (congrArg (fun t => Host.Outcome.next (s.epochStep t)) ((State.nbrWrite_placed hr hj).2 hroom))

end

section
/-! O54: the coordinator, the node, the relays and the seen cache of the network engine (R400 to R413). -/
namespace Sys2Proof.Machine

variable {s t : State} {p : Fin 2}

/-! ### Cells of a scanning node (R403) -/

theorem State.getReg_disableCell {a q c : Nat} (h : a ≠ cellA q c) : (s.disableCell q c).getReg a = s.getReg a := by
  unfold State.disableCell
  split
  · exact State.getReg_putReg_ne s _ h
  · rfl

theorem State.twf_disableCell (h : twf regReset s.regs = true) (q c : Nat) : twf regReset (s.disableCell q c).regs = true := by
  unfold State.disableCell
  split
  · exact twf_tput h _ _
  · exact h

/-- EN of a cell that is disabled reads 0. -/
theorem State.cellEn_disableCell (h : twf regReset s.regs = true) (q : Nat) {c : Nat} (hc : c < 256) :
    bitsOf ((s.disableCell q c).getReg (cellA q c)) 31 31 = 0 := by
  unfold State.disableCell
  rw [if_pos hc, State.getReg_putReg_self h, bitsOf_bitsPut _ _ (by decide) (by decide), Nat.zero_mod]

/-- Disabling some cells of a port disables these, leaves disabled cells disabled, and leaves every other register. -/
theorem State.each_disableCell (q : Nat) (l : List Nat) (hl : ∀ c ∈ l, c < 256) :
    ∀ s : State, twf regReset s.regs = true →
      let t := s.each l (fun s c => s.disableCell q c)
      twf regReset t.regs = true ∧ (∀ a, (∀ c ∈ l, a ≠ cellA q c) → t.getReg a = s.getReg a) ∧
        ∀ k, (k ∈ l ∨ bitsOf (s.getReg (cellA q k)) 31 31 = 0) → bitsOf (t.getReg (cellA q k)) 31 31 = 0 := by
  induction l with
  | nil => exact fun s h => ⟨h, fun _ _ => rfl, fun k hk => hk.resolve_left List.not_mem_nil⟩
  | cons c l ih =>
    intro s h
    obtain ⟨htwf, hother, hcells⟩ :=
      ih (fun c' h' => hl c' (List.mem_cons_of_mem c h')) (s.disableCell q c) (State.twf_disableCell h q c)
    refine ⟨htwf, fun a ha => ?_, fun k hk => hcells k ?_⟩
    · exact (hother a fun c' h' => ha c' (List.mem_cons_of_mem c h')).trans (State.getReg_disableCell (ha c List.mem_cons_self))
    · by_cases hkc : k = c
      · rw [hkc]
        exact .inr (State.cellEn_disableCell h q (hl c List.mem_cons_self))
      · have hne : cellA q k ≠ cellA q c := by simp only [cellA, BELF.CELLA0]; omega
        rw [State.getReg_disableCell hne]
        exact hk.imp_left fun hm => (List.mem_cons.mp hm).resolve_left hkc

/-- The engine while it starts to scan: STATE, SCAN and ANY are set, and no cell has been disabled yet. -/
def State.scanStarted (s : State) (p : Nat) : State :=
  ((s.setNetState p 1).setFlag (BELF.PCTL_SCAN p) true).setFlag (BELF.SYNC_ANY p) true

theorem State.twf_scanStarted (h : twf regReset s.regs = true) (q : Nat) : twf regReset (s.scanStarted q).regs = true :=
  State.twf_setFlag (State.twf_setFlag (State.twf_setFld h _ _) _ _) _ _

theorem State.scanStarted_reads (h : twf regReset s.regs = true) (p : Fin 2) :
    (s.scanStarted p).netState p = 1 ∧ (s.scanStarted p).flag (BELF.PCTL_SCAN p) = true ∧
      (s.scanStarted p).flag (BELF.SYNC_ANY p) = true := by
  have hstate := State.twf_setFld h (BELF.NETSTAT_STATE p) 1
  have hscan : twf regReset ((s.setNetState p 1).setFlag (BELF.PCTL_SCAN p) true).regs = true := State.twf_setFlag hstate _ _
  have hnetSync : BELF.NETSTAT p ≠ BELF.SYNC p := by simp only [BELF.NETSTAT, BELF.SYNC]; omega
  have hnetPctl : BELF.NETSTAT p ≠ BELF.PCTL p := by simp only [BELF.NETSTAT, BELF.PCTL]; omega
  have hpctlSync : BELF.PCTL p ≠ BELF.SYNC p := by simp only [BELF.PCTL, BELF.SYNC]; omega
  refine ⟨?_, ?_, State.flag_setFlag_self hscan _ _ (show 31 < 32 by decide) (Nat.le_refl 31)⟩
  · calc (s.scanStarted p).netState p
        = ((s.setNetState p 1).setFlag (BELF.PCTL_SCAN p) true).netState p := State.fld_setFld_ne _ _ hnetSync
      _ = (s.setNetState p 1).netState p := State.fld_setFld_ne _ _ hnetPctl
      _ = 1 := State.fld_setFld_self h _ 1 (show 31 < 32 by decide) (show 28 ≤ 31 by decide)
  · calc (s.scanStarted p).flag (BELF.PCTL_SCAN p)
        = ((s.setNetState p 1).setFlag (BELF.PCTL_SCAN p) true).flag (BELF.PCTL_SCAN p) :=
          congrArg (· == 1) (State.fld_setFld_ne _ _ hpctlSync)
      _ = true := State.flag_setFlag_self hstate _ _ (show 29 < 32 by decide) (Nat.le_refl 29)

/-- The engine with its cells disabled. -/
def State.scanned (s : State) (p : Nat) : State := (s.scanStarted p).each (List.range 6) (fun s c => s.disableCell p c)

theorem State.nodeScans_eq (q wanted : Nat) : s.nodeScans q wanted =
    ((s.scanned q).setFlag (BELF.PSTAT_SYNCED q) false).onPort q (fun x => { x with
      fails := 0, asking := 0, wanted := wanted, install := none, lease := none }) := rfl

theorem State.onPort_flag {q : Nat} (f : Port → Port) (g : Fld) : (s.onPort q f).flag g = s.flag g := rfl

theorem State.onPort_getReg {q a : Nat} (f : Port → Port) : (s.onPort q f).getReg a = s.getReg a := rfl

/-- What the registers read after a node starts to scan (R403). -/
theorem State.nodeScans_reads (h : twf regReset s.regs = true) (p : Fin 2) (wanted : Nat) :
    (s.nodeScans p wanted).netState p = 1 ∧ (s.nodeScans p wanted).flag (BELF.PCTL_SCAN p) = true ∧
      (s.nodeScans p wanted).flag (BELF.SYNC_ANY p) = true ∧ (s.nodeScans p wanted).flag (BELF.PSTAT_SYNCED p) = false ∧
      ∀ k < 6, bitsOf ((s.nodeScans p wanted).getReg (cellA p k)) 31 31 = 0 := by
  obtain ⟨hstate, hscan, hany⟩ := State.scanStarted_reads h p
  obtain ⟨htwf, hother, hcells⟩ := State.each_disableCell p (List.range 6) (fun c hc => by have := List.mem_range.mp hc; omega)
    (s.scanStarted p) (State.twf_scanStarted h p)
  have hget : ∀ a, a ≠ BELF.PSTAT p → (s.nodeScans p wanted).getReg a = (s.scanned p).getReg a := fun a ha =>
    (congrArg (State.getReg · a) (State.nodeScans_eq p wanted)).trans ((State.onPort_getReg _).trans (State.getReg_setFlag_ne false ha))
  have hfld : ∀ f : Fld, f.addr ≠ BELF.PSTAT p → (∀ c < 6, f.addr ≠ cellA p c) →
      (s.nodeScans p wanted).fld f = (s.scanStarted p).fld f := by
    intro f ha hc
    unfold State.fld
    rw [hget _ ha]
    unfold State.scanned
    rw [hother _ fun c h => hc c (List.mem_range.mp h)]
  have hp := p.isLt
  refine ⟨?_, ?_, ?_, ?_, fun k hk => ?_⟩
  · refine (hfld (BELF.NETSTAT_STATE p) ?_ fun c hc => ?_).trans hstate
    · simp only [BELF.NETSTAT_STATE, BELF.NETSTAT, BELF.PSTAT]; omega
    · simp only [BELF.NETSTAT_STATE, BELF.NETSTAT, cellA, BELF.CELLA0]; omega
  · refine (congrArg (· == 1) (hfld (BELF.PCTL_SCAN p) ?_ fun c hc => ?_)).trans hscan
    · simp only [BELF.PCTL_SCAN, BELF.PCTL, BELF.PSTAT]; omega
    · simp only [BELF.PCTL_SCAN, BELF.PCTL, cellA, BELF.CELLA0]; omega
  · refine (congrArg (· == 1) (hfld (BELF.SYNC_ANY p) ?_ fun c hc => ?_)).trans hany
    · simp only [BELF.SYNC_ANY, BELF.SYNC, BELF.PSTAT]; omega
    · simp only [BELF.SYNC_ANY, BELF.SYNC, cellA, BELF.CELLA0]; omega
  · rw [State.nodeScans_eq, State.onPort_flag]
    exact State.flag_setFlag_self (s := s.scanned p) htwf _ false (show 29 < 32 by decide) (Nat.le_refl 29)
  · have hne : cellA p k ≠ BELF.PSTAT p := by simp only [cellA, BELF.CELLA0, BELF.PSTAT]; omega
    rw [hget _ hne]
    exact hcells k (.inl (List.mem_range.mpr hk))

/-! ### Requests of a node (R403, R404) -/

/-- JOINFAIL and its event leave STATE as it stands. -/
theorem State.netState_joinFail (p : Fin 2) : (s.belfFault (BELF.NETFAULTS_JOINFAIL p)).netState p = s.netState p := by
  have hne : BELF.NETSTAT p ≠ BELF.NETFAULTS p := by simp only [BELF.NETSTAT, BELF.NETFAULTS]; omega
  exact (State.send_fld _ _ _ _ _).trans (State.fld_setFld_ne _ _ hne)

/-- The third failure of a node that is ASSOCIATING. -/
theorem State.requestFails_last (hf : 2 ≤ (s.port p).fails) (hst : s.netState p = 2) :
    s.requestFails p = (let u := (s.onPort p (fun y => { y with asking := 0, fails := 0 })).belfFault (BELF.NETFAULTS_JOINFAIL p)
      u.nodeScans p (u.port p).wanted) := by
  have hst' : ((s.onPort p (fun y => { y with asking := 0, fails := 0 })).belfFault (BELF.NETFAULTS_JOINFAIL p)).netState p = 2 :=
    (State.netState_joinFail p).trans hst
  unfold State.requestFails
  have hlt : ¬ (s.port p).fails + 1 < 3 := by omega
  simp only [if_neg hlt]
  exact if_pos hst'

/-- An earlier failure: the node asks again, REQ while it is ASSOCIATING and RENEW while it holds a lease. -/
theorem State.requestFails_again (hf : (s.port p).fails < 2) :
    (s.netState p = 2 → s.requestFails p =
      (s.onPort p (fun y => { y with asking := 0, fails := (s.port p).fails + 1 })).nodeRequest p 3) ∧
    (s.netState p = 3 ∨ s.netState p = 4 → s.requestFails p =
      (s.onPort p (fun y => { y with asking := 0, fails := (s.port p).fails + 1 })).nodeRequest p 4) := by
  have hlt : (s.port p).fails + 1 < 3 := by omega
  unfold State.requestFails
  simp only [if_pos hlt]
  exact ⟨fun h => if_pos h, fun h => (if_neg (show ¬ s.netState p = 2 by omega)).trans (if_pos h)⟩

/-- RENEW names the lease that the node holds. -/
theorem State.nodeRequest_renew {e : Nbr} {k left : Nat} (hn : s.nbr (s.fld (BELF.NETSTAT_PARENT p)) = some e)
    (hl : (s.port p).lease = some (k, left)) :
    s.nodeRequest p 4 = ((s.spend.spend).engineCommand p
      (if (s.port p).parentExt then .ext (e.eui.getD 0) else .short e.short) (.ext s.eui)
      (leaseOctets ⟨s.fld (BELF.ADDR_SHORT p), (Config.value (s.free + 1)).toNat, k, 4⟩)
      (leOctets 1 1 ++ leOctets 1 ((Config.value s.free).toNat % 256))).onPort p (fun y => { y with asking := 1 }) := by
  unfold State.nodeRequest
  simp only [hn, hl]

/-! ### Leases (R407) -/

theorem State.onNbr_some {j : Nat} {e : Nbr} (h : s.nbr j = some e) (f : Nbr → Nbr) : s.onNbr j f = s.setNbr j (some (f e)) := by
  unfold State.onNbr
  rw [h]
  rfl

/-- A lease whose holder is known ends. -/
theorem State.leaseExpires_held {n j : Nat} {e : Nbr} (hj : s.leaseHolder p n = some j) (he : s.nbr j = some e) :
    s.leaseExpires p n = ((((s.setNbr j (some { e with leased := false, pinned := false, lrem := 0 })).setQuarantine p n
      (e.eui.getD 0, s.fld (BELF.LEASECFG_QUAR p) * 60)).disableCell p (s.fld (BELF.CELLCFG_CELLBASE p) + n)).belfFault
        (BELF.NETFAULTS_LEASEEXP p)) := by
  unfold State.leaseExpires State.endLease
  simp only [hj, he, State.onNbr_some he]
  rfl

/-! ### The last beacon (R409) -/

theorem State.closePort_built (hm : s.pathMain = true) (hq : s.fld (QUE.STAT_LIFE (s.fld (BELF.NETQS_BCNQ p))) = 2) :
    s.closePort p = (((s.dropQueued p).setNetState p 7).queueBeacon p true).onPort p
      (fun y => { y with lastBuilt := false, lastDone := false }) := by
  unfold State.closePort
  rw [hm, hq]
  rfl

/-- No beacon can be built while the path is not MAIN or BCNQ is not ON. -/
theorem State.closePort_falls (h : s.pathMain = false ∨ s.fld (QUE.STAT_LIFE (s.fld (BELF.NETQS_BCNQ p))) ≠ 2) :
    s.closePort p = s.portFalls p := by
  unfold State.closePort
  refine if_neg ?_
  rw [Bool.and_eq_true, beq_iff_eq]
  rintro ⟨hm, hq⟩
  exact h.elim (fun h => absurd hm (by rw [h]; decide)) (absurd hq)

/-! ### Relays and the seen cache (R411, R413) -/

theorem execFloodRelay_due {r : Relay} (h : s.dueRelay p = some r) :
    exec (.floodRelay p) s = .next (
      let u := s.onRadio (fun y => { y with relays := y.relays.erase r })
      let k := s.fld (BELF.FLOODCFG_SUPK p)
      if k ≠ 0 ∧ k ≤ r.copies then u.bump (BELF.FLOODCNT_SUPPRESSED p) 1
      else (u.engineSend p (s.fld (BELF.NETQS_FLOODQ p))
        (if r.level.isSome then secureFields (s.fld (BELF.SECCFG_FKEY p)) else 0) (u.relayFrame p r)).bump
          (BELF.FLOODCNT_RELAYED p) 1) := by
  refine congrArg Host.Outcome.next ?_
  rw [h]
  rfl

/-- The key of the two whose CACHETTL ends first. -/
def State.dueFirst (s : State) (best : Option SeenKey) (x : SeenKey) : Option SeenKey :=
  match best with
  | some b => if s.overTtl b < s.overTtl x then some x else best
  | none => some x

/-- Of some keys and one found before, the one that is due first is among them, and none is due before it. -/
theorem State.foldl_dueFirst (l : List SeenKey) : ∀ {best : Option SeenKey} {k : SeenKey}, l.foldl s.dueFirst best = some k →
    (k ∈ l ∨ best = some k) ∧ (∀ y ∈ l, s.overTtl y ≤ s.overTtl k) ∧ ∀ b, best = some b → s.overTtl b ≤ s.overTtl k := by
  induction l with
  | nil => exact fun {best k} h => ⟨.inr h, fun _ hy => absurd hy List.not_mem_nil, fun b hb => by
      rw [Option.some.inj (hb.symm.trans h)]⟩
  | cons x l ih =>
    intro best k h
    obtain ⟨hmem, hall, hbest⟩ := ih (best := s.dueFirst best x) h
    have hstep : (s.dueFirst best x = some x ∨ s.dueFirst best x = best) ∧
        (∃ b, s.dueFirst best x = some b ∧ s.overTtl x ≤ s.overTtl b) ∧
        (∀ b, best = some b → ∃ b', s.dueFirst best x = some b' ∧ s.overTtl b ≤ s.overTtl b') := by
      cases best with
      | none => exact ⟨.inl rfl, ⟨x, rfl, Int.le_refl _⟩, fun b hb => (nomatch hb)⟩
      | some b =>
        unfold State.dueFirst
        dsimp only
        by_cases hlt : s.overTtl b < s.overTtl x
        · rw [if_pos hlt]
          exact ⟨.inl rfl, ⟨x, rfl, Int.le_refl _⟩, fun b' hb => ⟨x, rfl, Option.some.inj hb ▸ Int.le_of_lt hlt⟩⟩
        · rw [if_neg hlt]
          exact ⟨.inr rfl, ⟨b, rfl, Int.not_lt.mp hlt⟩, fun b' hb => ⟨b, rfl, Option.some.inj hb ▸ Int.le_refl _⟩⟩
    obtain ⟨hpick, ⟨b, hb, hxb⟩, hkeep⟩ := hstep
    refine ⟨?_, ?_, ?_⟩
    · rcases hmem with hm | hm
      · exact .inl (List.mem_cons_of_mem x hm)
      · rcases hpick with hp | hp
        · exact .inl (Option.some.inj (hp.symm.trans hm) ▸ List.mem_cons_self)
        · exact .inr (hp.symm.trans hm)
    · intro y hy
      rcases List.mem_cons.mp hy with rfl | hy
      · exact Int.le_trans hxb (hbest b hb)
      · exact hall y hy
    · intro b' hb'
      obtain ⟨b'', hb'', hle⟩ := hkeep b' hb'
      exact Int.le_trans hle (hbest b'' hb'')

/-- The key that is due first is one of the cache, and none is due before it. -/
theorem State.dueKey_first {k : SeenKey} (h : s.dueKey = some k) :
    k ∈ s.radio.seen ∧ ∀ y ∈ s.radio.seen, s.overTtl y ≤ s.overTtl k := by
  have hfold : s.radio.seen.foldl s.dueFirst none = some k := h
  obtain ⟨hmem, hall, _⟩ := State.foldl_dueFirst s.radio.seen hfold
  exact ⟨hmem.resolve_right (fun h => nomatch h), hall⟩

end Sys2Proof.Machine

open Sys2Proof Sys2Proof.Machine in
/-- Settles O54: each command finds its condition met and runs the engine's own step. -/
theorem networkEngineRunsItsCommands : Obligations.NetworkEngineRunsItsCommands := by
  unfold Obligations.NetworkEngineRunsItsCommands
  intro s i n hs
  refine ⟨fun hr hon hst => congrArg Host.Outcome.next (if_pos ⟨hr, hon, hst⟩),
    fun hst => congrArg Host.Outcome.next (if_pos hst), fun hr ha => ?requests,
    fun e k left hr hst ha he hl => ?renew,
    fun left hr hl => congrArg Host.Outcome.next (if_pos ⟨hr, by rw [hl]; rfl⟩), fun j e hr hj he => ?expiry, rfl,
    fun hr hst => congrArg Host.Outcome.next (if_pos ⟨hr, hst⟩), State.nodeScans_reads hs.regs i,
    fun hr hon hen hst => ?lastBeacon, fun r hr => ?relay, fun hnone => ?noKey, fun k hk => ?key⟩
  case requests =>
    have hexec : exec (.assocResponseTimeout i) s = .next (s.requestFails i) := congrArg Host.Outcome.next (if_pos ⟨hr, ha⟩)
    exact ⟨fun hf hst => hexec.trans (congrArg Host.Outcome.next (State.requestFails_last hf hst)),
      fun hf hst => hexec.trans (congrArg Host.Outcome.next ((State.requestFails_again hf).1 hst)),
      fun hf hst => hexec.trans (congrArg Host.Outcome.next ((State.requestFails_again hf).2 hst))⟩
  case renew => exact congrArg Host.Outcome.next ((if_pos ⟨hr, hst, ha⟩).trans (State.nodeRequest_renew he hl))
  case expiry => exact congrArg Host.Outcome.next ((if_neg (not_and_of_not_left _ hr)).trans (State.leaseExpires_held hj he))
  case lastBeacon =>
    have hexec : exec (.lastBeacon i) s = .next (s.closePort i) := congrArg Host.Outcome.next (if_pos ⟨hr, hon, hen, hst⟩)
    exact ⟨fun h => hexec.trans (congrArg Host.Outcome.next (State.closePort_falls h)),
      fun hm hq => hexec.trans (congrArg Host.Outcome.next (State.closePort_built hm hq))⟩
  case relay =>
    refine ⟨fun h0 hk => (execFloodRelay_due hr).trans (congrArg Host.Outcome.next (if_pos ⟨h0, hk⟩)),
      fun hk => (execFloodRelay_due hr).trans (congrArg Host.Outcome.next (if_neg ?_))⟩
    omega
  case noKey =>
    have hdue : s.dueKey = none := by unfold State.dueKey; rw [hnone]; rfl
    exact congrArg Host.Outcome.next (by rw [hdue])
  case key => exact ⟨(State.dueKey_first hk).1, (State.dueKey_first hk).2, congrArg Host.Outcome.next (by rw [hk])⟩

end

section
/-! O52: slots, frames on air, reception and acknowledgements of a port (R364 to R389). -/
namespace Sys2Proof.Machine

variable {s t : State} {p : Fin 2} {q : Nat}

/-! ### A slot starts (R370, R372, R388) -/

/-- The ASN advances, or takes the value loaded (R377). -/
def State.asnStep (s : State) (p : Nat) : State :=
  match (s.port p).asnLoad with
  | some a => ((s.setAsn p a).setFlag (BELF.PSTAT_SYNCED p) true).onPort p (fun y => { y with asnLoad := none })
  | none => s.setAsn p ((s.asn p + 1) % 2 ^ 40)

/-- A port that is free for the next slot. -/
def State.slotIdle (s : State) (p : Nat) : Prop :=
  s.portOn p = true ∧ s.flag CRYPT.CLKSTAT_XHFOK = true ∧ (s.port p).air = none ∧ (s.port p).awaits = none ∧ (s.port p).ack = none

theorem execSlotStart_runs (h : s.slotIdle p) (hdone : (s.port p).lastDone = false) (hinst : (s.port p).install = none) :
    exec (.slotStart p) s = .next (
      let v := ((s.asnStep p).applyCorr p).keepBeacon p
      let r := v.slotAction p
      (v.setFlag (BELF.PSTAT_RXON p) r.1.listens).onPort p (fun y => { y with
        act := r.1, channel := r.2, skip := y.skip - natOfBool (v.skipsShared p) })) := by
  refine congrArg Host.Outcome.next ((if_pos h).trans ((if_neg (by rw [hdone]; decide)).trans ?_))
  rw [hinst]
  rfl

/-- A cell that runs hops over HOPSEQ (R370). -/
theorem State.slotAction_cell (ht : s.testing q = false) (hscan : s.scanning q = false)
    (hsync : s.flag (BELF.PSTAT_SYNCED q) = true) (hlen : s.fld (BELF.HOP_HOPLEN q) ≠ 0) (hrole : ¬(s.role q = 2 ∧ s.netState q = 5)) :
    s.slotAction q = ((s.pickCell q).1, s.hopChannel q (s.pickCell q).2) := by
  have hruns : s.cellsRun q = true := by
    unfold State.cellsRun
    rw [ht, hscan, hsync, bne_iff_ne.mpr hlen]
    rfl
  have hcoord : ¬ (s.role q == 2 && s.netState q == 5) = true := by
    rw [Bool.and_eq_true, beq_iff_eq, beq_iff_eq]
    exact hrole
  unfold State.slotAction
  rw [ht, hscan, hruns]
  exact if_neg hcoord

/-! ### A frame goes on air (R367, R373, R378, R384) -/

/-- A port that may send or listen. -/
def State.slotLive (s : State) (p : Nat) : Prop :=
  s.portLive p = true ∧ s.flag CRYPT.CLKSTAT_XHFOK = true ∧ (s.port p).air = none ∧ s.testing p = false

/-- The port has taken what its slot chose. -/
def State.chosen (s : State) (p q : Nat) : State :=
  s.onPort p (fun y => { y with act := .idle, lastDone := y.lastDone || (y.lastBuilt && q == s.fld (BELF.NETQS_BCNQ p)) })

theorem execFrameTransmit_send {e : BitVec 8} {kind : Nat} {b : RetryBuf} (hlive : s.slotLive p)
    (hact : (s.port p).act = .send kind q) (hbuf : (s.port p).buf q = some b) (hmain : s.pathMain = true) :
    exec (.frameTransmit p e) s = .next ((if kind = 4 ∧ s.sfld (BELF.CCA_THR p) ≤ e.toInt then (s.chosen p q).backoff p
      else (s.chosen p q).sendBuf p kind q b).sharedListens p kind) := by
  refine congrArg Host.Outcome.next ?_
  have hmain' : ¬ (!(s.chosen p q).pathMain) = true := by
    have hpath : (s.chosen p q).pathMain = s.pathMain := rfl
    rw [hpath, hmain]
    decide
  rw [hact]
  dsimp only
  rw [hbuf]
  exact (if_pos hlive).trans (congrArg (State.sharedListens · p kind) (if_neg hmain'))

/-- A port with a retry buffer, or one that backs off, is not the empty port. -/
theorem State.port_chosen {b : RetryBuf} (hbuf : (s.port p).buf q = some b) (k : Nat) :
    ((s.chosen p k).port p).air = (s.port p).air := by
  have hne : ({ s.port p with act := .idle, lastDone := (s.port p).lastDone ||
      ((s.port p).lastBuilt && k == s.fld (BELF.NETQS_BCNQ p)) } : Port) ≠ Port.empty := by
    intro h
    have hbufs : (s.port p).bufs = [] := congrArg Port.bufs h
    unfold Port.buf at hbuf
    rw [hbufs] at hbuf
    exact nomatch hbuf
  have hport := State.port_onPort_self (s := s) (q := p) (f := fun y => { y with act := .idle, lastDone := y.lastDone ||
    (y.lastBuilt && k == s.fld (BELF.NETQS_BCNQ p)) }) hne
  have hair := congrArg Port.air hport
  exact hair

/-- A backoff leaves what is on air. -/
theorem State.air_backoff (k : Nat) : ((s.backoff k).port k).air = (s.port k).air := by
  have hport := State.port_onPort_self (s := s) (q := k) (f := fun x => { x with
    backoff := min 3 ((s.port k).backoff + 1), skip := Config.draw s.free % 2 ^ (min 3 ((s.port k).backoff + 1) + 1) }) fun h => by
      have hzero : min 3 ((s.port k).backoff + 1) = 0 := congrArg Port.backoff h
      omega
  have hair := congrArg Port.air hport
  exact hair

/-- A port whose frame went on air does not listen in its SHARED cell. -/
theorem State.sharedListens_goOnAir (a : Air) (size kind : Nat) : (s.goOnAir q a size).sharedListens q kind = s.goOnAir q a size := by
  have hair : ((s.goOnAir q a size).port q).air = some a :=
    congrArg Port.air (State.port_onPort_self (f := fun x => { x with air := some a })
      fun h => Option.some_ne_none _ (congrArg Port.air h))
  unfold State.sharedListens
  exact if_neg fun h => Option.some_ne_none _ (hair.symm.trans h.2)

/-- The octets of a frame as they leave the retry buffer: with the ASN where it is stamped (R367). -/
def State.stamped (s : State) (p : Nat) (b : RetryBuf) : List Octet :=
  if hdrStamp b.header then putOctets b.octets (hdrAsnOff b.header) (leOctets 5 (s.asn p)) else b.octets

/-- The octets m of a retry buffer's frame on air. -/
def State.bufOnAir (v : State) (p q kind : Nat) (b : RetryBuf) (upper : Bool) (m : List Octet) : State :=
  let w := v.setBuf p q (some { b with attempts := b.attempts + 1, upper := upper })
  w.goOnAir p ⟨some q, kind == 4, asksAck kind b.octets, m, w.framePower p (asksAck kind b.octets)⟩ (b.octets.length + 2)

/-- A frame that its slot and the limiter let go. -/
def State.mayGo (s : State) (p q kind : Nat) (b : RetryBuf) : Prop :=
  s.badFrame p b.header (some b.octets) (s.fitsCell p q b.octets) = 0 ∧
    s.fits p b.octets.length (asksAck kind b.octets) = true ∧
    s.limitAllows p (s.port p).channel (s.airtime p (b.octets.length + 2)) = true

theorem State.sendBuf_plain {kind : Nat} {b : RetryBuf} (h : s.mayGo p q kind b) (hsec : hdrSecure b.header = false) :
    s.sendBuf p kind q b = s.bufOnAir p q kind b (s.atUpper p) (s.stamped p b) := by
  obtain ⟨hok, hfits, hlim⟩ := h
  unfold State.sendBuf
  simp only [hok, hfits, hlim, hsec]
  rfl

theorem State.sendBuf_secured {kind : Nat} {b : RetryBuf} {h : Mhr} {k : BitVec 128} (hgo : s.mayGo p q kind b)
    (hsec : hdrSecure b.header = true) (hctr : s.counterReady (8 + hdrKey b.header) = true)
    (hmhr : parseMhr (s.stamped p b) = some h) (hkey : s.aesKey (8 + hdrKey b.header) = some k) :
    s.sendBuf p kind q b = (s.takeCounter (8 + hdrKey b.header)).1.bufOnAir p q kind b (s.atUpper p)
      (secureFrame k s.eui (s.takeCounter (8 + hdrKey b.header)).2 h ((s.stamped p b).take ((s.stamped p b).length - micLen h.level))) := by
  obtain ⟨hok, hfits, hlim⟩ := hgo
  unfold State.stamped at hmhr ⊢
  unfold State.sendBuf
  simp only [hok, hfits, hlim, hsec, hctr, hmhr, hkey]
  rfl

/-! ### Reception (R364, R365, R375) -/

theorem parseFrame_mhr (h : Mhr) (l : List Octet) : (parseFrame h l).mhr = h := by
  unfold parseFrame
  split
  · dsimp only
    split <;> rfl
  · rfl

/-- A port that listens hears a frame on its channel that starts in time. -/
theorem execFrameReceive_heard {f : RxFrame} {c : Bool} (hlive : s.slotLive p) (hch : f.channel.toNat = (s.port p).channel)
    (haw : (s.port p).awaits = none) (hact : (s.port p).act = .listen false c)
    (htime : c = true ∨ ((f.start : Int) - s.txMicros p).natAbs ≤ s.guardMicros p) :
    exec (.frameReceive p f) s =
      .next (if f.fcsGood = false then s.bump (BELF.RXCNT_FCSERR p) 1 else s.receive p f false) := by
  obtain ⟨hport, hxhf, hair, htest⟩ := hlive
  refine congrArg Host.Outcome.next ((if_neg ?_).trans ?_)
  · rw [hport, hxhf, htest]
    rintro (h | h | h | h | h)
    · exact nomatch h
    · exact nomatch h
    · exact h hch
    · exact h hair
    · exact nomatch h
  · rw [haw]
    dsimp only
    rw [hact]
    refine if_neg ?_
    rintro ⟨hc, hlate⟩
    exact htime.elim (fun h => nomatch hc.symm.trans h) (Nat.not_le.mpr hlate)

/-- A good data frame in plain octets that passes the filter is accepted under the entry of its sender. -/
theorem State.receive_data {f : RxFrame} {h : Mhr} (hp : parseMhr f.octets = some h) (ht : h.type = macData) (hv : h.version ≠ 3)
    (hs : h.secured = false) (hfilter : s.passesFilter p h = true) :
    s.receive p f false = (s.heardFrom p h.src f.rssi.toNat).1.accept p f h (s.heardFrom p h.src f.rssi.toNat).2 f.octets := by
  unfold State.receive
  rw [hp]
  have htype : ¬ h.type = macAck := by rw [ht]; decide
  have hkind : ¬ (4 ≤ h.type ∨ h.version = 3) := by
    rintro (h4 | h3)
    · exact absurd (ht ▸ h4) (by decide)
    · exact hv h3
  simp only [hs, hfilter, if_neg htype, if_neg hkind]
  rfl

/-- Hearing a frame leaves every register but NETFAULTS. -/
theorem State.fld_heardFrom (src : MacAddr) (rssi : Nat) {f : Fld} (hf : f.addr ≠ BELF.NETFAULTS p) :
    (s.heardFrom p src rssi).1.fld f = s.fld f := by
  unfold State.heardFrom
  split
  · rfl
  · split
    · rfl
    · dsimp only
      split
      · rfl
      · exact (State.send_fld _ _ _ _ _).trans (State.fld_setFld_ne _ _ hf)

/-- The addresses of the port stand as they stood. -/
theorem State.toPort_heardFrom (src : MacAddr) (rssi : Nat) (dst : MacAddr) :
    (s.heardFrom p src rssi).1.toPort p dst = s.toPort p dst := by
  have hshort : (s.heardFrom p src rssi).1.fld (BELF.ADDR_SHORT p) = s.fld (BELF.ADDR_SHORT p) :=
    State.fld_heardFrom src rssi (by simp only [BELF.ADDR_SHORT, BELF.ADDR, BELF.NETFAULTS]; omega)
  have heui : ∀ k < 2, (s.heardFrom p src rssi).1.fld (SACR.EUI_EUI k) = s.fld (SACR.EUI_EUI k) := fun k hk =>
    State.fld_heardFrom src rssi (by simp only [SACR.EUI_EUI, SACR.EUI, BELF.NETFAULTS]; omega)
  unfold State.toPort State.eui
  rw [hshort, heui 0 (by decide), heui 1 (by decide)]

/-- Data for one receiver is delivered, with the acknowledgement it is owed. -/
theorem State.accept_data {f : RxFrame} {h : Mhr} {entry : Option Nat} (l : List Octet) (ht : h.type = macData)
    (hdst : h.dst ≠ .short 0xFFFF) (hsrc : (s.oweAck p h f.start).1.fromSource p h entry = false) :
    s.accept p f h entry l = (s.oweAck p h f.start).1.deliver p
      ((s.oweAck p h f.start).1.rxWords p f h.secured (s.oweAck p h f.start).2 l) := by
  have hsync : (s.oweAck p h f.start).1.syncFrom p (parseFrame h l) entry f.start = (s.oweAck p h f.start).1 :=
    if_pos (by rw [parseFrame_mhr, hsrc]; rfl)
  have hengine : (s.oweAck p h f.start).1.forEngine p (parseFrame h l) = false := by
    have hcmd : (h.type == macCommand) = false := by rw [ht]; rfl
    unfold State.forEngine
    rw [parseFrame_mhr, hcmd, Bool.and_false]
    rfl
  have hbeacon : ¬ h.type = macBeacon := by rw [ht]; decide
  unfold State.accept
  simp only [hsync, hengine, if_neg hbeacon, if_neg (not_and_of_not_right _ hdst)]
  rfl

theorem State.oweAck_none {h : Mhr} (har : h.ar = false) (start : Nat) : s.oweAck p h start = (s, false) := by
  unfold State.oweAck
  refine if_neg ?_
  rintro ⟨_, h', _⟩
  exact nomatch har.symm.trans h'

/-- A plain data frame to the port is owed an immediate ack of 5 octets, where the limiter lets it go. -/
theorem State.oweAck_imm {h : Mhr} (start : Nat) (ht : h.type = macData) (har : h.ar = true) (hto : s.toPort p h.dst = true)
    (hv : h.version < 2) (hs : h.secured = false) (hmain : s.pathMain = true)
    (hlim : s.limitAllows p (s.port p).channel (s.airtime p 5) = true) :
    s.oweAck p h start = (s.onPort p (fun y => { y with ack := some ⟨immAck (h.seq.getD 0), none⟩ }), true) := by
  have hlen : (immAck (h.seq.getD 0)).length + 0 + 2 = 5 := rfl
  have hv2 : ¬ h.version = 2 := by omega
  unfold State.oweAck
  rw [if_pos ⟨.inl ht, har, hto⟩]
  simp only [hs, if_neg hv2]
  have hgo : (s.pathMain && s.limitAllows p (s.port p).channel (s.airtime p ((immAck (h.seq.getD 0)).length + 0 + 2)) && true &&
      decide ((immAck (h.seq.getD 0)).length + 0 + 2 ≤ ackLimit)) = true := by
    rw [hlen, hmain, hlim]
    rfl
  exact if_pos hgo

/-! ### The frame ends, its acknowledgement, and the fall of the port (R369, R376, R388) -/

/-- The last symbol of what was on air is out. -/
def State.offAir (s : State) (p : Nat) : State :=
  (s.setFlag (BELF.PSTAT_TXON p) false).onPort p (fun y => { y with air := none })

theorem execFrameTransmitEnd_air {a : Air} (h : (s.port p).air = some a) :
    (∀ q, a.queue = some q → a.ar = true → exec (.frameTransmitEnd p) s = .next (((s.offAir p).setFlag (BELF.PSTAT_RXON p)
      true).onPort p (fun y => { y with awaits := some (q, a.shared) }))) ∧
    (∀ q b, a.queue = some q → a.ar = false → ((s.offAir p).port p).buf q = some b →
      exec (.frameTransmitEnd p) s = .next ((s.offAir p).finishFrame p q b 1 0)) ∧
    (a.queue = none → exec (.frameTransmitEnd p) s = .next (s.offAir p)) := by
  refine ⟨fun q hq har => congrArg Host.Outcome.next ?_, fun q b hq har hb => congrArg Host.Outcome.next ?_,
    fun hq => congrArg Host.Outcome.next ?_⟩
  all_goals
    rw [h]
    dsimp only
    rw [hq]
  · exact if_pos har
  · refine (if_neg (by rw [har]; decide)).trans ?_
    unfold State.offAir at hb
    rw [hb]
    rfl
  · rfl

/-- An owed acknowledgement in plain octets goes out. -/
theorem execAckTransmit_plain {l : List Octet} (hack : (s.port p).ack = some ⟨l, none⟩) (hport : s.portLive p = true)
    (hxhf : s.flag CRYPT.CLKSTAT_XHFOK = true) (htest : s.testing p = false) (hmain : s.pathMain = true) :
    exec (.ackTransmit p) s = .next (((s.onPort p (fun y => { y with ack := none })).setFlag (BELF.PSTAT_RXON p) false).goOnAir p
      ⟨none, false, false, l, s.framePower p true⟩ (l.length + 2)) := by
  have hlive : ¬ (s.portLive p = false ∨ s.flag CRYPT.CLKSTAT_XHFOK = false ∨ s.testing p = true) := by
    rw [hport, hxhf, htest]
    decide
  have hpath : ¬ (!s.pathMain) = true := by rw [hmain]; decide
  refine congrArg Host.Outcome.next ?_
  rw [hack]
  exact (if_neg hlive).trans (if_neg hpath)

theorem execAckTimeout_awaited {shared : Bool} {b : RetryBuf} (haw : (s.port p).awaits = some (q, shared)) :
    let u := ((s.setFlag (BELF.PSTAT_RXON p) false).onPort p (fun y => { y with awaits := none, run := 0 })).adaptPower p 3
    let v := if shared then u.backoff p else u
    (v.port p).buf q = some b → exec (.ackTimeout p) s =
      .next (if 1 + v.fld (BELF.PCTL_MAXRETRY p) ≤ b.attempts then v.finishFrame p q b 2 0 else v) := by
  intro u v hb
  refine congrArg Host.Outcome.next ?_
  rw [haw]
  dsimp only
  rw [hb]

/-- The engine's role and state stand outside PSTAT and FAULTS. -/
theorem State.engine_syncLost (p : Fin 2) :
    let u := (s.setFlag (BELF.PSTAT_SYNCED p) false).belfFault (BELF.FAULTS_SYNCLOST p)
    u.role p = s.role p ∧ u.netState p = s.netState p := by
  have hread : ∀ f : Fld, f.addr ≠ BELF.PSTAT p → f.addr ≠ BELF.FAULTS p →
      ((s.setFlag (BELF.PSTAT_SYNCED p) false).belfFault (BELF.FAULTS_SYNCLOST p)).fld f = s.fld f := fun f hstat hfault =>
    (State.send_fld _ _ _ _ _).trans ((State.fld_setFld_ne _ _ hfault).trans (State.fld_setFld_ne _ _ hstat))
  refine ⟨hread (BELF.NETCTL_ROLE p) ?_ ?_, hread (BELF.NETSTAT_STATE p) ?_ ?_⟩
  all_goals
    simp only [BELF.NETCTL_ROLE, BELF.NETCTL, BELF.NETSTAT_STATE, BELF.NETSTAT, BELF.PSTAT, BELF.FAULTS]
    omega

theorem State.fld_xhfSync {f : Fld} (h : f.addr ≠ CRYPT.CLKSTAT) : s.xhfSync.fld f = s.fld f := by
  have hset : ∀ (u : State) (g : Fld) (b : Bool), g.addr = CRYPT.CLKSTAT → (u.setFlag g b).fld f = u.fld f :=
    fun u g b hg => State.fld_setFld_ne u _ (by rw [hg]; exact h)
  have hholds : ∀ a b c : Bool, (((s.setFlag CRYPT.CLKSTAT_HISLE a).setFlag CRYPT.CLKSTAT_HBELF b).setFlag
      CRYPT.CLKSTAT_HCHOIR c).fld f = s.fld f := fun a b c => by rw [hset _ _ _ rfl, hset _ _ _ rfl, hset _ _ _ rfl]
  have hcrypt : ∀ (u : State) (g : Crypt → Crypt), (u.onCrypt g).fld f = u.fld f := fun _ _ => rfl
  unfold State.xhfSync
  dsimp only
  split
  · split
    · rw [hset _ _ _ rfl, hcrypt, hholds]
    · rw [hcrypt, hholds]
  · split
    · rw [hcrypt, hholds]
    · rw [hholds]

/-- MODE.G stands outside the port. -/
theorem State.modeG_portOff (h : (s.port p).bufs = []) : (s.portOff p).flag SYS.MODE_G = s.flag SYS.MODE_G := by
  have hunit : unitLifeFld (unitPort p) = some (BELF.PSTAT_LIFE p) := by
    have : ∀ p : Fin 2, unitLifeFld (unitPort p) = some (BELF.PSTAT_LIFE p) := by decide
    exact this p
  have hlife : ∀ (u : State) (v : Nat), (u.setLife (unitPort p) v).fld SYS.MODE_G = u.fld SYS.MODE_G := fun u v =>
    State.setLife_fld hunit (by simp only [SYS.MODE_G, SYS.MODE, BELF.PSTAT_LIFE, BELF.PSTAT]; omega) v
  have hoff : ∀ u : State, (u.unitOff (unitPort p)).fld SYS.MODE_G = u.fld SYS.MODE_G := by
    intro u
    unfold State.unitOff
    dsimp only
    split
    · exact (hlife _ _).trans ((State.fld_setFld_ne _ _ (by simp only [SYS.MODE_G, SYS.MODE, SYS.UNITSTATE_DEFER, SYS.UNITSTATE]; omega)).trans
        (hlife u 0))
    · exact hlife u 0
  have hstat : ∀ (u : State) (f : Fld) (v : Nat), 0x400A0000 ≤ f.addr → (u.setFld f v).fld SYS.MODE_G = u.fld SYS.MODE_G :=
    fun u f v hf => State.fld_setFld_ne u v (by simp only [SYS.MODE_G, SYS.MODE]; omega)
  have hport : ∀ (u : State) (g : Port → Port), (u.onPort p g).fld SYS.MODE_G = u.fld SYS.MODE_G := fun _ _ => rfl
  unfold State.portOff
  rw [h]
  refine congrArg (· == 1) ?_
  rw [State.fld_xhfSync (by decide), hoff, hport]
  unfold State.setNetState State.setFlag State.each
  rw [hstat _ _ _ (by simp only [BELF.NETSTAT_STATE, BELF.NETSTAT]; omega), hstat _ _ _ (by simp only [BELF.PSTAT_RXON, BELF.PSTAT]; omega),
    hstat _ _ _ (by simp only [BELF.PSTAT_TXON, BELF.PSTAT]; omega), hstat _ _ _ (by simp only [BELF.PSTAT_SYNCED, BELF.PSTAT]; omega)]
  rfl

/-- A port that has no frame to flush falls without more while G is clear. -/
theorem execPortFallDone_empty (hlife : s.fld (BELF.PSTAT_LIFE p) = 3) (hg : s.flag SYS.MODE_G = false)
    (hbufs : (s.port p).bufs = []) : exec (.portFallDone p) s = .next (s.portOff p) := by
  refine congrArg Host.Outcome.next ((if_pos hlife).trans ?_)
  unfold State.portFallen
  refine if_neg ?_
  rw [State.modeG_portOff hbufs, hg]
  exact Bool.false_ne_true

/-- A SHARED cell that finds its channel busy backs off and listens. -/
theorem State.sharedListens_backoff {b : RetryBuf} (hlive : s.slotLive p) (hbuf : (s.port p).buf q = some b) :
    ((s.chosen p q).backoff p).sharedListens p 4 = (((s.chosen p q).backoff p).setFlag (BELF.PSTAT_RXON p) true).onPort p
      (fun y => { y with act := .listen false false }) :=
  if_pos ⟨rfl, (State.air_backoff p).trans ((State.port_chosen hbuf q).trans hlive.2.2.1)⟩

theorem State.sharedListens_bufOnAir (kind : Nat) (b : RetryBuf) (upper : Bool) (m : List Octet) :
    (s.bufOnAir p q kind b upper m).sharedListens p kind = s.bufOnAir p q kind b upper m :=
  State.sharedListens_goOnAir _ _ _

end Sys2Proof.Machine

open Sys2Proof Sys2Proof.Machine in
/-- Settles O52: each command of a port finds its condition met and runs that part of the slot. -/
theorem slotsSendReceiveAndAcknowledge : Obligations.SlotsSendReceiveAndAcknowledge := by
  unfold Obligations.SlotsSendReceiveAndAcknowledge
  intro s i e f h hs
  refine ⟨fun hidle hdone hinst => execSlotStart_runs hidle hdone hinst,
    fun hidle hdone => congrArg Host.Outcome.next ((if_pos hidle).trans (if_pos hdone)),
    fun ht hscan hsync hlen hrole act choff hpick => ?cell,
    fun kind q b hlive hact hbuf hmain => ⟨fun hk hbusy => ?busy, fun hfree hok hfits hlim => ?onAir⟩,
    fun a ha => execFrameTransmitEnd_air ha, fun c hlive hch haw hact htime => ⟨fun hbad => ?bad, ?good⟩,
    fun l hack hport hxhf htest hmain => execAckTransmit_plain hack hport hxhf htest hmain,
    fun q shared b haw => execAckTimeout_awaited haw, fun hsync hsrc => ?synclost, rfl, rfl,
    fun hlife hg hbufs => ?fall⟩
  case cell =>
    rw [State.slotAction_cell ht hscan hsync hlen hrole, hpick]
    rfl
  case busy =>
    refine (execFrameTransmit_send hlive hact hbuf hmain).trans (congrArg Host.Outcome.next ?_)
    rw [if_pos ⟨hk, hbusy⟩, hk, State.sharedListens_backoff hlive hbuf]
    rfl
  case onAir =>
    have hgo : (s.chosen i q).mayGo i q kind b := ⟨hok, hfits, hlim⟩
    have hexec := (execFrameTransmit_send (e := e) hlive hact hbuf hmain).trans
      (congrArg (fun u => Host.Outcome.next (State.sharedListens u i kind)) (if_neg hfree))
    refine ⟨fun hsec => hexec.trans (congrArg Host.Outcome.next ?_),
      fun k hsec hctr hmhr hkey => hexec.trans (congrArg Host.Outcome.next ?_)⟩
    · rw [State.sendBuf_plain hgo hsec, State.sharedListens_bufOnAir]
      rfl
    · rw [State.sendBuf_secured hgo hsec hctr hmhr hkey, State.sharedListens_bufOnAir]
      rfl
  case bad => exact (execFrameReceive_heard hlive hch haw hact htime).trans (congrArg Host.Outcome.next (if_pos hbad))
  case good =>
    intro hfcs hmhr htype hver hsec hfilter r t take hsrc
    have hexec := (execFrameReceive_heard hlive hch haw hact htime).trans (congrArg Host.Outcome.next
      ((if_neg (by rw [hfcs]; decide)).trans (State.receive_data hmhr htype hver hsec hfilter)))
    refine ⟨fun har hdst => hexec.trans (congrArg Host.Outcome.next ?_),
      fun har hto hdst hv hmain hlim => hexec.trans (congrArg Host.Outcome.next ?_)⟩
    · have howe := State.oweAck_none (s := t) (p := i) har f.start
      rw [State.accept_data (s := t) f.octets htype hdst (by rw [howe]; exact hsrc), howe, hsec]
      rfl
    · have hto' : t.toPort i h.dst = true := (State.toPort_heardFrom h.src f.rssi.toNat h.dst).trans hto
      have howe := State.oweAck_imm (s := t) f.start htype har hto' hv hsec hmain hlim
      rw [State.accept_data (s := t) f.octets htype hdst (by rw [howe]; exact hsrc), howe, hsec]
      rfl
  case synclost =>
    obtain ⟨hrole, hstate⟩ := State.engine_syncLost (s := s) i
    refine congrArg Host.Outcome.next ((if_pos ⟨hsync, hsrc⟩).trans ?_)
    rw [← hrole, ← hstate]
    rfl
  case fall =>
    refine (execPortFallDone_empty hlife hg hbufs).trans (congrArg Host.Outcome.next ?_)
    unfold State.portOff
    rw [hbufs]
    rfl

end

section
/-! O3: no command touches the queue of waiting commands. One law for each function of the machine that answers a state, under the
name of the machine's file that defines it: the queue of the state that it answers is that of the state it is given. -/
namespace Sys2Proof.Machine

/-- The queue of waiting commands, under a name of its own: its laws are equations that rewriting applies one by one, where a law
that holds by computation would have the kernel compare whole states. -/
def State.waiting (s : State) : List Instr := s.pending

variable (s : State)

@[simp] theorem State.pending_eq_waiting : s.pending = s.waiting := id rfl

@[simp] theorem State.mk_waiting (pending : List Instr) (free : Nat) (reply : Word) (regs : List (Nat × Word))
    (choir nave : Core) (crypt : Crypt) (wires : List Wire) (straits : List (Nat × StraitState)) (qsel : List (Nat × Nat))
    (waddr : List (Nat × Option WriteAddr)) (period : Period) (mute : List Nat) (queues : List (Nat × Queue)) (isles : Isles)
    (cim : Cim) (qty : Qty) (outp : Outp) (radio : Radio) (sacr : Sacr) (log : List LogEntry) :
    (State.mk pending free reply regs choir nave crypt wires straits qsel waddr period mute queues isles cim qty outp radio sacr
      log).waiting = pending := id rfl

@[simp] theorem State.putReg_waiting (a : Nat) (w : Word) : (s.putReg a w).waiting = s.waiting := id rfl

@[simp] theorem State.setCore_waiting (c : CoreId) (k : Core) : (s.setCore c k).waiting = s.waiting := by
  cases c <;> exact id rfl

@[simp] theorem State.onCore_waiting (c : CoreId) (f : Core → Core) : (s.onCore c f).waiting = s.waiting :=
  s.setCore_waiting c _

@[simp] theorem State.onSacr_waiting (f : Sacr → Sacr) : (s.onSacr f).waiting = s.waiting := id rfl

@[simp] theorem State.ite_waiting (c : Prop) [Decidable c] (t u : State) :
    (if c then t else u).waiting = if c then t.waiting else u.waiting := apply_ite State.waiting c t u

@[simp] theorem State.ite_fst_waiting {α : Type} (c : Prop) [Decidable c] (t u : State × α) :
    (if c then t else u).1.waiting = if c then t.1.waiting else u.1.waiting := apply_ite (fun r => State.waiting r.1) c t u

/-- A fold whose steps keep the queue keeps it. -/
@[simp] theorem State.foldl_waiting {α : Type} {s : State} (l : List α) {f : State → α → State}
    (hf : ∀ s a, (f s a).waiting = s.waiting) : (l.foldl f s).waiting = s.waiting :=
  List.foldlRecOn (motive := fun t => t.waiting = s.waiting) l _ rfl fun t ht a _ => (hf t a).trans ht

@[simp] theorem State.each_waiting {α : Type} {s : State} (l : List α) {f : State → α → State}
    (hf : ∀ s a, (f s a).waiting = s.waiting) : (s.each l f).waiting = s.waiting := State.foldl_waiting l hf

/-- The state of a result whose two halves a match has named. -/
theorem State.waiting_of_fst {α : Type} {r : State × α} {t : State} {x : α} {l : List Instr} (e : r = (t, x))
    (h : r.1.waiting = l) : t.waiting = l := by
  rw [e] at h; exact h

/-! ### Ops.lean -/

@[simp] theorem State.setFld_waiting (a1 a2) : (s.setFld a1 a2).waiting = s.waiting := by simp [State.setFld]
@[simp] theorem State.setFlag_waiting (a1 a2) : (s.setFlag a1 a2).waiting = s.waiting := by simp [State.setFlag]
@[simp] theorem State.bump_waiting (a1 a2) : (s.bump a1 a2).waiting = s.waiting := by simp [State.bump]
@[simp] theorem State.raiseBit_waiting (a1) : (s.raiseBit a1).waiting = s.waiting := by simp [State.raiseBit]
@[simp] theorem State.tally32_waiting (a1 a2) : (s.tally32 a1 a2).waiting = s.waiting := by simp [State.tally32]

@[simp] theorem State.joinCounts_waiting : s.joinCounts.waiting = s.waiting := by
  unfold State.joinCounts
  refine State.foldl_waiting _ fun s e => ?_
  split <;> simp

@[simp] theorem State.endPeriod_waiting : s.endPeriod.waiting = s.waiting := by simp [State.endPeriod]
@[simp] theorem State.bumpWrap_waiting (a1 a2) : (s.bumpWrap a1 a2).waiting = s.waiting := by simp [State.bumpWrap]
@[simp] theorem State.spend_waiting : s.spend.waiting = s.waiting := by simp [State.spend]
@[simp] theorem State.onCrypt_waiting (a1) : (s.onCrypt a1).waiting = s.waiting := by simp [State.onCrypt]
@[simp] theorem State.setDom_waiting (a1 a2) : (s.setDom a1 a2).waiting = s.waiting := by simp [State.setDom]
@[simp] theorem State.setStrait_waiting (a1 a2 a3) : (s.setStrait a1 a2 a3).waiting = s.waiting := by simp [State.setStrait]
@[simp] theorem State.closeStrait_waiting (a1 a2) : (s.closeStrait a1 a2).waiting = s.waiting := by simp [State.closeStrait]

@[simp] theorem State.handshakeDone_waiting (a1 a2) : (s.handshakeDone a1 a2).waiting = s.waiting := by
  unfold State.handshakeDone
  split <;> simp

@[simp] theorem State.send_waiting (a1 a2 a3 a4) : (s.send a1 a2 a3 a4).waiting = s.waiting := by simp [State.send]

@[simp] theorem State.sendAll_waiting (a1 a2 a3) (l : List Word) : (s.sendAll a1 a2 a3 l).waiting = s.waiting := by
  induction l generalizing s with
  | nil => rfl
  | cons w rest ih => exact (ih _).trans (s.send_waiting a1 a2 a3 w)

@[simp] theorem State.raiseEvent_waiting (a1 a2 a3) : (s.raiseEvent a1 a2 a3).waiting = s.waiting := by simp [State.raiseEvent]
@[simp] theorem State.raiseBoth_waiting (a1 a2) : (s.raiseBoth a1 a2).waiting = s.waiting := by simp [State.raiseBoth]
@[simp] theorem State.setEpoch_waiting (a1 a2) : (s.setEpoch a1 a2).waiting = s.waiting := by simp [State.setEpoch]
@[simp] theorem State.announce_waiting (a1) : (s.announce a1).waiting = s.waiting := by simp [State.announce]

@[simp] theorem State.setLife_waiting (a1 a2) : (s.setLife a1 a2).waiting = s.waiting := by
  unfold State.setLife
  split <;> simp

@[simp] theorem State.setRun_waiting (a1 a2) : (s.setRun a1 a2).waiting = s.waiting := by simp [State.setRun]
@[simp] theorem State.activity_waiting (a1) : (s.activity a1).waiting = s.waiting := by simp [State.activity]

@[simp] theorem State.enableActs_waiting (a1 a2) : (s.enableActs a1 a2).waiting = s.waiting := by
  unfold State.enableActs
  split <;> simp

@[simp] theorem State.unitOff_waiting (a1) : (s.unitOff a1).waiting = s.waiting := by simp [State.unitOff]
@[simp] theorem State.ledgerWrite_waiting (a1) : (s.ledgerWrite a1).waiting = s.waiting := by simp [State.ledgerWrite]
@[simp] theorem State.logEvent_waiting (a1 a2 a3) : (s.logEvent a1 a2 a3).waiting = s.waiting := by simp [State.logEvent]
@[simp] theorem State.flushHeldLog_waiting : s.flushHeldLog.waiting = s.waiting := by simp [State.flushHeldLog]

/-! ### Access.lean -/

@[simp] theorem State.storeField_waiting (a1 a2 a3 a4) : (s.storeField a1 a2 a3 a4).waiting = s.waiting := by
  simp [State.storeField]
  (repeat' split) <;> simp

@[simp] theorem State.storeReg_waiting (a1 a2 a3) : (s.storeReg a1 a2 a3).waiting = s.waiting := by
  unfold State.storeReg
  split <;> simp

@[simp] theorem State.loadReg_waiting (a1) : (s.loadReg a1).1.waiting = s.waiting := by
  unfold State.loadReg
  split <;> simp

/-! ### Operands.lean -/

@[simp] theorem State.setReg_waiting (a1 a2 a3) : (s.setReg a1 a2 a3).waiting = s.waiting := by simp [State.setReg]

/-! ### Queues.lean -/

@[simp] theorem State.setQueue_waiting (a1 a2) : (s.setQueue a1 a2).waiting = s.waiting := by simp [State.setQueue]
@[simp] theorem State.rebalance_waiting : s.rebalance.waiting = s.waiting := by simp [State.rebalance]
@[simp] theorem State.setBlocks_waiting (a1 a2) : (s.setBlocks a1 a2).waiting = s.waiting := by simp [State.setBlocks]
@[simp] theorem State.trim_waiting (a1) : (s.trim a1).waiting = s.waiting := by simp [State.trim]
@[simp] theorem State.notePeak_waiting (a1) : (s.notePeak a1).waiting = s.waiting := by simp [State.notePeak]
@[simp] theorem State.grantBlock_waiting (a1) : (s.grantBlock a1).waiting = s.waiting := by simp [State.grantBlock]
@[simp] theorem State.countRefused_waiting (a1) : (s.countRefused a1).waiting = s.waiting := by simp [State.countRefused]
@[simp] theorem State.poolCycle_waiting (a1) : (s.poolCycle a1).1.waiting = s.waiting := by simp [State.poolCycle]

@[simp] theorem State.notifyWatches_waiting (a1 a2) : (s.notifyWatches a1 a2).waiting = s.waiting := by
  simp [State.notifyWatches]

@[simp] theorem State.queueEvent_waiting (a1) : (s.queueEvent a1).waiting = s.waiting := by simp [State.queueEvent]

@[simp] theorem State.queueUe_waiting (a1 a2) : (s.queueUe a1 a2).waiting = s.waiting := by
  unfold State.queueUe
  dsimp only
  split <;> simp

@[simp] theorem State.queueCorr_waiting (a1 a2) : (s.queueCorr a1 a2).waiting = s.waiting := by simp [State.queueCorr]

@[simp] theorem State.checkWord_waiting (a1 a2) : (s.checkWord a1 a2).1.waiting = s.waiting := by
  unfold State.checkWord
  split <;> simp

@[simp] theorem State.moveWords_waiting (a1 n) : (s.moveWords a1 n).waiting = s.waiting := by
  induction n generalizing s with
  | zero => rfl
  | succ n ih =>
    unfold State.moveWords
    split <;> simp [ih]

@[simp] theorem State.settled_waiting (a1) : (s.settled a1).waiting = s.waiting := by simp [State.settled]
@[simp] theorem State.dropTail_waiting (a1 a2 a3 a4) : (s.dropTail a1 a2 a3 a4).waiting = s.waiting := by simp [State.dropTail]
@[simp] theorem State.dropLater_waiting (a1 a2) : (s.dropLater a1 a2).waiting = s.waiting := by simp [State.dropLater]
@[simp] theorem State.storeWord_waiting (a1 a2 a3) : (s.storeWord a1 a2 a3).waiting = s.waiting := by simp [State.storeWord]
@[simp] theorem State.dropStuck_waiting (a1) : (s.dropStuck a1).waiting = s.waiting := by simp [State.dropStuck]

@[simp] theorem State.sourceActive_waiting (a1) : (s.sourceActive a1).waiting = s.waiting := by
  unfold State.sourceActive
  split <;> simp

@[simp] theorem State.storeOrDrop_waiting (a1 a2 a3) : (s.storeOrDrop a1 a2 a3).1.waiting = s.waiting := by
  simp [State.storeOrDrop]

@[simp] theorem State.offer_waiting (a1 a2 a3) : (s.offer a1 a2 a3).1.waiting = s.waiting := by simp [State.offer]

@[simp] theorem State.readWord_waiting (a1 a2 n) : (s.readWord a1 a2 n).1.waiting = s.waiting := by
  induction n generalizing s with
  | zero => rfl
  | succ n ih =>
    unfold State.readWord
    split
    · rfl
    · split <;> simp [ih]

@[simp] theorem State.readAt_waiting (a1 a2) : (s.readAt a1 a2).1.waiting = s.waiting := by simp [State.readAt]

@[simp] theorem State.takeWord_waiting (a1) : (s.takeWord a1).1.waiting = s.waiting := by
  simp [State.takeWord]
  split <;> simp

@[simp] theorem State.peekWord_waiting (a1 a2) : (s.peekWord a1 a2).1.waiting = s.waiting := by
  unfold State.peekWord
  dsimp only
  split <;> simp

@[simp] theorem State.popPacket_waiting (a1) : (s.popPacket a1).waiting = s.waiting := by
  unfold State.popPacket
  dsimp only
  split <;> simp

@[simp] theorem State.breakOff_waiting (a1) : (s.breakOff a1).waiting = s.waiting := by simp [State.breakOff]
@[simp] theorem State.setQueueLife_waiting (a1 a2) : (s.setQueueLife a1 a2).waiting = s.waiting := by simp [State.setQueueLife]
@[simp] theorem State.queueFalls_waiting (a1) : (s.queueFalls a1).waiting = s.waiting := by simp [State.queueFalls]
@[simp] theorem State.queueRises_waiting (a1) : (s.queueRises a1).waiting = s.waiting := by simp [State.queueRises]

@[simp] theorem State.queueEnable_waiting (a1 a2) : (s.queueEnable a1 a2).waiting = s.waiting := by
  unfold State.queueEnable
  split <;> simp

@[simp] theorem State.setQuota_waiting (a1 a2) : (s.setQuota a1 a2).waiting = s.waiting := by simp [State.setQuota]
@[simp] theorem State.storeDesc_waiting (a1 a2) : (s.storeDesc a1 a2).waiting = s.waiting := by simp [State.storeDesc]
@[simp] theorem State.countFlushed_waiting : s.countFlushed.waiting = s.waiting := by simp [State.countFlushed]
@[simp] theorem State.queuesFall_waiting : s.queuesFall.waiting = s.waiting := by simp [State.queuesFall]
@[simp] theorem State.queuesOff_waiting : s.queuesOff.waiting = s.waiting := by simp [State.queuesOff]

@[simp] theorem State.queuesOn_waiting : s.queuesOn.waiting = s.waiting := by
  unfold State.queuesOn
  dsimp only
  (repeat' split) <;> simp

@[simp] theorem State.queuesLose_waiting (a1) : (s.queuesLose a1).waiting = s.waiting := by
  unfold State.queuesLose
  refine State.each_waiting _ fun s n => ?_
  simp
  split <;> simp

@[simp] theorem State.select_waiting (a1 a2) : (s.select a1 a2).waiting = s.waiting := by simp [State.select]
@[simp] theorem State.recvQsel_waiting (a1 a2) : (s.recvQsel a1 a2).waiting = s.waiting := by simp [State.recvQsel]

@[simp] theorem State.recvQselBad_waiting (a1) : (s.recvQselBad a1).waiting = s.waiting := by
  simp [State.recvQselBad]
  split <;> simp

@[simp] theorem State.recvQword_waiting (a1 a2) : (s.recvQword a1 a2).waiting = s.waiting := by simp [State.recvQword]
@[simp] theorem State.recvQwordBad_waiting (a1 a2) : (s.recvQwordBad a1 a2).waiting = s.waiting := by simp [State.recvQwordBad]
@[simp] theorem State.sendQueue_waiting (a1 a2 a3) : (s.sendQueue a1 a2 a3).waiting = s.waiting := by simp [State.sendQueue]

/-! ### CoreOps.lean -/

@[simp] theorem State.recordRefusal_waiting (a1 a2 a3 a4) : (s.recordRefusal a1 a2 a3 a4).waiting = s.waiting := by
  simp [State.recordRefusal]

@[simp] theorem State.clearWdog_waiting (a1) : (s.clearWdog a1).waiting = s.waiting := by simp [State.clearWdog]
@[simp] theorem State.coreReset_waiting (a1 a2) : (s.coreReset a1 a2).waiting = s.waiting := by simp [State.coreReset]
@[simp] theorem State.fault_waiting (a1 a2 a3) : (s.fault a1 a2 a3).waiting = s.waiting := by simp [State.fault]
@[simp] theorem State.refuse_waiting (a1 a2 a3 a4) : (s.refuse a1 a2 a3 a4).waiting = s.waiting := by simp [State.refuse]
@[simp] theorem State.memEcc_waiting (a1 a2) : (s.memEcc a1 a2).waiting = s.waiting := by simp [State.memEcc]
@[simp] theorem State.forbid_waiting (a1 a2) : (s.forbid a1 a2).waiting = s.waiting := by simp [State.forbid]
@[simp] theorem State.devFault_waiting (a1 a2 a3) : (s.devFault a1 a2 a3).waiting = s.waiting := by simp [State.devFault]

@[simp] theorem State.runOne_waiting (i : Issue) (l : List Reg) {body : State → State}
    (hb : ∀ s : State, (body s).waiting = s.waiting) :
    (s.runOne i l body).waiting = s.waiting := by
  unfold State.runOne
  cases h : fetchCause i.core (s.core i.core).pc.toNat <;> simp [hb, h]

@[simp] theorem State.endStep_waiting (a1) : (s.endStep a1).waiting = s.waiting := by simp [State.endStep]

@[simp] theorem State.issue_waiting (i : Issue) (l : List Reg) {body : State → State}
    (hb : ∀ s : State, (body s).waiting = s.waiting) :
    (s.issue i l body).waiting = s.waiting := by
  simp [State.issue, hb]

@[simp] theorem State.retire_waiting (c : CoreId) (n : Nat) : (s.retire c n).waiting = s.waiting := by simp [State.retire]

@[simp] theorem State.jump_waiting (c : CoreId) {w : Word} (n : Nat) : (s.jump c w n).waiting = s.waiting := by
  simp [State.jump]

@[simp] theorem State.waitFor_waiting (a1 a2 a3) : (s.waitFor a1 a2 a3).waiting = s.waiting := by simp [State.waitFor]
@[simp] theorem State.waitReply_waiting (a1) : (s.waitReply a1).waiting = s.waiting := by simp [State.waitReply]
@[simp] theorem State.waitTimeout_waiting (a1) : (s.waitTimeout a1).waiting = s.waiting := by simp [State.waitTimeout]
@[simp] theorem State.waitRefuse_waiting (a1 a2) : (s.waitRefuse a1 a2).waiting = s.waiting := by simp [State.waitRefuse]
@[simp] theorem State.clearEvents_waiting (a1 a2) : (s.clearEvents a1 a2).waiting = s.waiting := by simp [State.clearEvents]

@[simp] theorem State.wake_waiting (a1) : (s.wake a1).waiting = s.waiting := by
  unfold State.wake
  split <;> simp

@[simp] theorem State.wakeDeadline_waiting (a1) : (s.wakeDeadline a1).waiting = s.waiting := by
  unfold State.wakeDeadline
  dsimp only
  split <;> simp

@[simp] theorem State.recvEvent_waiting (a1 a2) : (s.recvEvent a1 a2).waiting = s.waiting := by
  unfold State.recvEvent
  split <;> simp

@[simp] theorem State.fireTimer_waiting (a1) : (s.fireTimer a1).waiting = s.waiting := by simp [State.fireTimer]

theorem State.readSpecial_waiting {t : State} {x : Word} {a1 a2} (e : (s.readSpecial a1 a2) = some (t, x)) :
    t.waiting = s.waiting := by
  unfold State.readSpecial at e
  dsimp only at e
  split at e
  on_goal 13 => split at e
  all_goals cases e
  all_goals simp

theorem State.writeSpecial_waiting {t : State} {a1 a2 a3} (e : (s.writeSpecial a1 a2 a3) = some t) : t.waiting = s.waiting := by
  unfold State.writeSpecial at e
  dsimp only at e
  split at e
  on_goal 13 =>
    split at e
    on_goal 1 => split at e
  all_goals cases e
  all_goals simp

/-! ### Conduits.lean -/

@[simp] theorem State.onQty_waiting (a1) : (s.onQty a1).waiting = s.waiting := by simp [State.onQty]
@[simp] theorem State.setConduit_waiting (a1 a2) : (s.setConduit a1 a2).waiting = s.waiting := by simp [State.setConduit]
@[simp] theorem State.takeCfg_waiting (a1) : (s.takeCfg a1).waiting = s.waiting := by simp [State.takeCfg]

/-! ### Xhf.lean -/

@[simp] theorem State.xhfSync_waiting : s.xhfSync.waiting = s.waiting := by simp [State.xhfSync]

/-! ### Isles.lean -/

@[simp] theorem State.onIsles_waiting (a1) : (s.onIsles a1).waiting = s.waiting := by simp [State.onIsles]
@[simp] theorem State.setIsle_waiting (a1 a2) : (s.setIsle a1 a2).waiting = s.waiting := by simp [State.setIsle]
@[simp] theorem State.setCur_waiting (a1 a2) : (s.setCur a1 a2).waiting = s.waiting := by simp [State.setCur]
@[simp] theorem State.isleSync_waiting (a1) : (s.isleSync a1).waiting = s.waiting := by simp [State.isleSync]
@[simp] theorem State.emit_waiting (a1 a2) : (s.emit a1 a2).waiting = s.waiting := by simp [State.emit]

@[simp] theorem State.refuseShots_waiting (a1 a2 a3 a4) : (s.refuseShots a1 a2 a3 a4).waiting = s.waiting := by
  simp [State.refuseShots]

@[simp] theorem State.refuseLatched_waiting (a1) : (s.refuseLatched a1).waiting = s.waiting := by simp [State.refuseLatched]
@[simp] theorem State.fallRefuse_waiting (a1) : (s.fallRefuse a1).waiting = s.waiting := by simp [State.fallRefuse]

@[simp] theorem State.isleFault_waiting (a1 a2 a3) : (s.isleFault a1 a2 a3).waiting = s.waiting := by
  unfold State.isleFault
  split <;> simp

@[simp] theorem State.setStreams_waiting (a1 a2) : (s.setStreams a1 a2).waiting = s.waiting := by simp [State.setStreams]
@[simp] theorem State.abandon_waiting (a1 a2) : (s.abandon a1 a2).waiting = s.waiting := by simp [State.abandon]
@[simp] theorem State.tokenDone_waiting (a1) : (s.tokenDone a1).waiting = s.waiting := by simp [State.tokenDone]
@[simp] theorem State.withdraw_waiting (a1) : (s.withdraw a1).waiting = s.waiting := by simp [State.withdraw]

@[simp] theorem State.failShot_waiting (a1 a2 a3 a4 a5 a6) : (s.failShot a1 a2 a3 a4 a5 a6).waiting = s.waiting := by
  simp [State.failShot]

@[simp] theorem State.failPair_waiting (a1 a2 a3 a4) : (s.failPair a1 a2 a3 a4).waiting = s.waiting := by simp [State.failPair]
@[simp] theorem State.unclaim_waiting (a1) : (s.unclaim a1).waiting = s.waiting := by simp [State.unclaim]

@[simp] theorem State.agc_waiting (a1) : (s.agc a1).waiting = s.waiting := by
  unfold State.agc
  split <;> simp

@[simp] theorem State.endSet_waiting (a1) : (s.endSet a1).waiting = s.waiting := by
  simp [State.endSet]
  (repeat' split) <;> simp

@[simp] theorem State.nextShot_waiting (a1) : (s.nextShot a1).waiting = s.waiting := by
  unfold State.nextShot
  dsimp only
  split <;> simp

@[simp] theorem State.sendItem_waiting (a1 a2 a3 a4) : (s.sendItem a1 a2 a3 a4).waiting = s.waiting := by simp [State.sendItem]

@[simp] theorem State.flush_waiting (a1 n) : (s.flush a1 n).waiting = s.waiting := by
  induction n generalizing s with
  | zero => rfl
  | succ n ih =>
    unfold State.flush
    dsimp only
    split
    · rw [ih]
      (repeat' split) <;> simp
    · rfl

@[simp] theorem State.isleRun_waiting (a1) : (s.isleRun a1).waiting = s.waiting := by simp [State.isleRun]
@[simp] theorem State.recvShot_waiting (a1 a2) : (s.recvShot a1 a2).waiting = s.waiting := by simp [State.recvShot]
@[simp] theorem State.countDelay_waiting (a1 a2 a3) : (s.countDelay a1 a2 a3).waiting = s.waiting := by simp [State.countDelay]
@[simp] theorem State.tokenSync_waiting : s.tokenSync.waiting = s.waiting := by simp [State.tokenSync]
@[simp] theorem State.tokenHeld_waiting (a1) : (s.tokenHeld a1).waiting = s.waiting := by simp [State.tokenHeld]

@[simp] theorem State.phaseStep_waiting (a1 a2 a3) : (s.phaseStep a1 a2 a3).waiting = s.waiting := by
  unfold State.phaseStep
  split <;> simp

@[simp] theorem State.overload_waiting (a1 a2) : (s.overload a1 a2).waiting = s.waiting := by simp [State.overload]
@[simp] theorem State.overloads_waiting (a1 a2) : (s.overloads a1 a2).waiting = s.waiting := by simp [State.overloads]

@[simp] theorem State.finishShot_waiting (a1 a2 a3 a4 a5) : (s.finishShot a1 a2 a3 a4 a5).waiting = s.waiting := by
  unfold State.finishShot
  refine (State.isleRun_waiting _ _).trans ((State.emit_waiting _ _ _).trans ((State.setCur_waiting _ _ _).trans ?_))
  split
  · split <;> simp
  · simp

@[simp] theorem State.recvLag_waiting (a1 a2 a3) : (s.recvLag a1 a2 a3).waiting = s.waiting := by
  unfold State.recvLag
  split <;> simp

@[simp] theorem State.ignoreReplies_waiting (a1 a2) : (s.ignoreReplies a1 a2).waiting = s.waiting := by
  simp [State.ignoreReplies]

@[simp] theorem State.recvReply_waiting (a1 a2) : (s.recvReply a1 a2).waiting = s.waiting := by
  unfold State.recvReply
  dsimp only
  split <;> simp

@[simp] theorem State.rtdRecord_waiting (a1 a2 a3 a4 a5 a6 a7) : (s.rtdRecord a1 a2 a3 a4 a5 a6 a7).waiting = s.waiting := by
  simp [State.rtdRecord]

@[simp] theorem State.storePortmode_waiting (a1 a2) : (s.storePortmode a1 a2).waiting = s.waiting := by
  simp [State.storePortmode]

@[simp] theorem State.storeDescriptor_waiting (a1 a2 a3 a4) : (s.storeDescriptor a1 a2 a3 a4).waiting = s.waiting := by
  simp [State.storeDescriptor]

@[simp] theorem State.isleFollow_waiting (a1) : (s.isleFollow a1).waiting = s.waiting := by simp [State.isleFollow]

@[simp] theorem State.storeIsleCtl_waiting (a1 a2 a3) : (s.storeIsleCtl a1 a2 a3).waiting = s.waiting := by
  simp [State.storeIsleCtl]

@[simp] theorem State.islesFollow_waiting : s.islesFollow.waiting = s.waiting := by simp [State.islesFollow]
@[simp] theorem State.isleRisen_waiting (a1) : (s.isleRisen a1).waiting = s.waiting := by simp [State.isleRisen]

@[simp] theorem State.islesXhfLost_waiting : s.islesXhfLost.waiting = s.waiting := by
  unfold State.islesXhfLost
  refine State.each_waiting _ fun s x => ?_
  split <;> simp

@[simp] theorem State.islesLost_waiting : s.islesLost.waiting = s.waiting := by simp [State.islesLost]

/-! ### Cim.lean -/

@[simp] theorem State.onCim_waiting (a1) : (s.onCim a1).waiting = s.waiting := by simp [State.onCim]

@[simp] theorem State.cimEvent_waiting (a1) : (s.cimEvent a1).waiting = s.waiting := by
  unfold State.cimEvent
  split <;> simp

@[simp] theorem State.tileSync_waiting (a1) : (s.tileSync a1).waiting = s.waiting := by simp [State.tileSync]
@[simp] theorem State.pendSync_waiting (a1) : (s.pendSync a1).waiting = s.waiting := by simp [State.pendSync]
@[simp] theorem State.wroteRow_waiting (a1 a2) : (s.wroteRow a1 a2).waiting = s.waiting := by simp [State.wroteRow]
@[simp] theorem State.poison_waiting (a1) : (s.poison a1).waiting = s.waiting := by simp [State.poison]
@[simp] theorem State.correctRow_waiting (a1) : (s.correctRow a1).waiting = s.waiting := by simp [State.correctRow]
@[simp] theorem State.copyRow_waiting (a1) : (s.copyRow a1).waiting = s.waiting := by simp [State.copyRow]
@[simp] theorem State.copyPending_waiting (a1) : (s.copyPending a1).waiting = s.waiting := by simp [State.copyPending]

@[simp] theorem State.storeGolden_waiting (a1 a2 a3) : (s.storeGolden a1 a2 a3).waiting = s.waiting := by
  simp [State.storeGolden]

@[simp] theorem State.loadGolden_waiting (a1 a2) : (s.loadGolden a1 a2).1.waiting = s.waiting := by simp [State.loadGolden]
@[simp] theorem State.loadRow_waiting (a1 a2) : (s.loadRow a1 a2).waiting = s.waiting := by simp [State.loadRow]
@[simp] theorem State.touchTiles_waiting (a1) : (s.touchTiles a1).waiting = s.waiting := by simp [State.touchTiles]

@[simp] theorem State.scanTiles_waiting (a1 a2 a3) : (s.scanTiles a1 a2 a3).waiting = s.waiting := by
  unfold State.scanTiles
  refine (State.each_waiting _ fun s d => ?_).trans (s.bump_waiting _ _)
  dsimp only
  split <;> simp

@[simp] theorem State.markScan_waiting (a1 a2 a3) : (s.markScan a1 a2 a3).waiting = s.waiting := by simp [State.markScan]
@[simp] theorem State.adaptWork_waiting (a1 a2) : (s.adaptWork a1 a2).waiting = s.waiting := by simp [State.adaptWork]
@[simp] theorem State.runScan_waiting (a1 a2) : (s.runScan a1 a2).waiting = s.waiting := by simp [State.runScan]
@[simp] theorem State.setScans_waiting (a1 a2) : (s.setScans a1 a2).waiting = s.waiting := by simp [State.setScans]
@[simp] theorem State.setEval_waiting (a1 a2) : (s.setEval a1 a2).waiting = s.waiting := by simp [State.setEval]
@[simp] theorem State.startEval_waiting (a1 a2 a3) : (s.startEval a1 a2 a3).waiting = s.waiting := by simp [State.startEval]

@[simp] theorem State.bankNext_waiting (a1 n) : (s.bankNext a1 n).waiting = s.waiting := by
  induction n generalizing s with
  | zero => rfl
  | succ n ih =>
    unfold State.bankNext
    dsimp only
    split
    · rfl
    · split <;> simp [ih]

@[simp] theorem State.bankRun_waiting (a1) : (s.bankRun a1).waiting = s.waiting := by simp [State.bankRun]
@[simp] theorem State.scanDue_waiting (a1 a2 a3 a4) : (s.scanDue a1 a2 a3 a4).waiting = s.waiting := by simp [State.scanDue]

@[simp] theorem State.storeRefnow_waiting (a1 a2 a3) : (s.storeRefnow a1 a2 a3).waiting = s.waiting := by
  simp [State.storeRefnow]

@[simp] theorem State.setHolder_waiting (a1 a2) : (s.setHolder a1 a2).waiting = s.waiting := by simp [State.setHolder]
@[simp] theorem State.setPend_waiting (a1 a2 a3) : (s.setPend a1 a2 a3).waiting = s.waiting := by simp [State.setPend]
@[simp] theorem State.leaseApplies_waiting (a1) : (s.leaseApplies a1).waiting = s.waiting := by simp [State.leaseApplies]
@[simp] theorem State.setAcks_waiting (a1 a2) : (s.setAcks a1 a2).waiting = s.waiting := by simp [State.setAcks]
@[simp] theorem State.leaseSync_waiting (a1) : (s.leaseSync a1).waiting = s.waiting := by simp [State.leaseSync]
@[simp] theorem State.wipeFor_waiting (a1 a2) : (s.wipeFor a1 a2).waiting = s.waiting := by simp [State.wipeFor]

@[simp] theorem State.leaseTake_waiting (a1 a2) : (s.leaseTake a1 a2).1.waiting = s.waiting := by
  simp [State.leaseTake]
  (repeat' split) <;> simp

@[simp] theorem State.leaseGive_waiting (a1 a2 a3) : (s.leaseGive a1 a2 a3).1.waiting = s.waiting := by
  unfold State.leaseGive
  split <;> simp

@[simp] theorem State.leaseRelease_waiting (a1 a2) : (s.leaseRelease a1 a2).1.waiting = s.waiting := by
  simp [State.leaseRelease]

@[simp] theorem State.setStream_waiting (a1 a2) : (s.setStream a1 a2).waiting = s.waiting := by simp [State.setStream]

@[simp] theorem State.headerTaken_waiting (a1) : (s.headerTaken a1).waiting = s.waiting := by
  unfold State.headerTaken
  split <;> simp

@[simp] theorem State.recvHeader_waiting (a1 a2 a3) : (s.recvHeader a1 a2 a3).waiting = s.waiting := by simp [State.recvHeader]

@[simp] theorem State.recvGate_waiting (a1 a2 a3) : (s.recvGate a1 a2 a3).waiting = s.waiting := by
  unfold State.recvGate
  split <;> simp

@[simp] theorem State.recvSample_waiting (a1 a2 a3 a4) : (s.recvSample a1 a2 a3 a4).waiting = s.waiting := by
  unfold State.recvSample
  split <;> simp

@[simp] theorem State.bankFalls_waiting (a1) : (s.bankFalls a1).waiting = s.waiting := by simp [State.bankFalls]

@[simp] theorem State.settleAll_waiting (a1) : (s.settleAll a1).waiting = s.waiting := by
  unfold State.settleAll
  refine State.each_waiting _ fun s x => ?_
  split <;> simp

@[simp] theorem State.verdictTaken_waiting (a1) : (s.verdictTaken a1).waiting = s.waiting := by
  simp [State.verdictTaken]
  (repeat' split) <;> simp

@[simp] theorem State.recvSummary_waiting (a1 a2 a3 a4) : (s.recvSummary a1 a2 a3 a4).waiting = s.waiting := by
  unfold State.recvSummary
  dsimp only
  split <;> simp

@[simp] theorem State.sendLag_waiting (a1 a2 a3) : (s.sendLag a1 a2 a3).waiting = s.waiting := by
  unfold State.sendLag
  split <;> simp

@[simp] theorem State.evalEnds_waiting (a1 a2) : (s.evalEnds a1 a2).1.waiting = s.waiting := by
  unfold State.evalEnds
  dsimp only
  split <;> simp

@[simp] theorem State.evalOver_waiting (a1) : (s.evalOver a1).waiting = s.waiting := by simp [State.evalOver]

@[simp] theorem State.digitalRun_waiting (a1 a2 a3 a4 a5) : (s.digitalRun a1 a2 a3 a4 a5).1.waiting = s.waiting := by
  unfold State.digitalRun
  dsimp only
  split
  · simp
  · split <;> simp

@[simp] theorem State.cimev_waiting (a1 a2 a3 a4) : (s.cimev a1 a2 a3 a4).1.waiting = s.waiting := by
  simp [State.cimev]
  split <;> simp

@[simp] theorem State.readThr_waiting (a1) : (s.readThr a1).1.waiting = s.waiting := by simp [State.readThr]
@[simp] theorem State.writeThr_waiting (a1 a2) : (s.writeThr a1 a2).waiting = s.waiting := by simp [State.writeThr]

@[simp] theorem State.storeBankCtl_waiting (a1 a2 a3) : (s.storeBankCtl a1 a2 a3).waiting = s.waiting := by
  simp [State.storeBankCtl]

@[simp] theorem State.storeTileCtl_waiting (a1 a2 a3) : (s.storeTileCtl a1 a2 a3).waiting = s.waiting := by
  simp [State.storeTileCtl]

@[simp] theorem State.bankRisen_waiting (a1) : (s.bankRisen a1).waiting = s.waiting := by simp [State.bankRisen]

@[simp] theorem State.bankStat_waiting (a1) : (s.bankStat a1).1.waiting = s.waiting := by
  unfold State.bankStat
  split <;> simp

@[simp] theorem State.tileLost_waiting (a1) : (s.tileLost a1).waiting = s.waiting := by simp [State.tileLost]
@[simp] theorem State.tileRisen_waiting (a1) : (s.tileRisen a1).waiting = s.waiting := by simp [State.tileRisen]
@[simp] theorem State.cimLost_waiting : s.cimLost.waiting = s.waiting := by simp [State.cimLost]

@[simp] theorem State.streamsLost_waiting : s.streamsLost.waiting = s.waiting := by
  unfold State.streamsLost
  refine State.each_waiting _ fun s b => ?_
  simp
  split <;> simp

/-! ### Outputs.lean -/

@[simp] theorem State.onOut_waiting (a1) : (s.onOut a1).waiting = s.waiting := by simp [State.onOut]
@[simp] theorem State.outEvent_waiting : s.outEvent.waiting = s.waiting := by simp [State.outEvent]
@[simp] theorem State.feedPair_waiting (a1 a2) : (s.feedPair a1 a2).waiting = s.waiting := by simp [State.feedPair]

@[simp] theorem State.feedSplit_waiting (a1 a2 n) : (s.feedSplit a1 a2 n).waiting = s.waiting := by
  induction n generalizing s a2 with
  | zero => rfl
  | succ n ih => simp [State.feedSplit, ih]

@[simp] theorem State.feedTally_waiting (a1 a2) : (s.feedTally a1 a2).waiting = s.waiting := by simp [State.feedTally]
@[simp] theorem State.feedItem_waiting (a1 a2) : (s.feedItem a1 a2).waiting = s.waiting := by simp [State.feedItem]

@[simp] theorem State.feedReopen_waiting : s.feedReopen.waiting = s.waiting := by
  unfold State.feedReopen
  refine (State.feedPair_waiting _ _ _).trans ((State.each_waiting _ fun s e => ?_).trans ?_)
  · split <;> simp
  · simp

@[simp] theorem State.feedUnsend_waiting (a1 a2) : (s.feedUnsend a1 a2).waiting = s.waiting := by simp [State.feedUnsend]

@[simp] theorem State.feedUnsendAll_waiting (a1) (l : List Wire) : (s.feedUnsendAll a1 l).waiting = s.waiting := by
  induction l generalizing s a1 with
  | nil => rfl
  | cons x rest ih =>
    unfold State.feedUnsendAll
    split
    · exact ih _ _
    · split <;> simp [ih]

@[simp] theorem State.feedRecall_waiting : s.feedRecall.waiting = s.waiting := by
  unfold State.feedRecall
  dsimp only
  split <;> simp

@[simp] theorem State.addDebt_waiting (a1 a2) : (s.addDebt a1 a2).waiting = s.waiting := by simp [State.addDebt]
@[simp] theorem State.emitAdd_waiting (a1 a2) : (s.emitAdd a1 a2).waiting = s.waiting := by simp [State.emitAdd]
@[simp] theorem State.quiet_waiting (a1) : (s.quiet a1).waiting = s.waiting := by simp [State.quiet]
@[simp] theorem State.storePinadd_waiting (a1 a2) : (s.storePinadd a1 a2).waiting = s.waiting := by simp [State.storePinadd]

@[simp] theorem State.storePinctl_waiting (a1 a2 a3) : (s.storePinctl a1 a2 a3).waiting = s.waiting := by
  simp [State.storePinctl]

@[simp] theorem State.setLoop_waiting (a1 a2) : (s.setLoop a1 a2).waiting = s.waiting := by simp [State.setLoop]

@[simp] theorem State.loopSync_waiting (a1) : (s.loopSync a1).waiting = s.waiting := by
  simp [State.loopSync]
  split <;> simp

@[simp] theorem State.loopRefresh_waiting (a1 a2) : (s.loopRefresh a1 a2).waiting = s.waiting := by simp [State.loopRefresh]
@[simp] theorem State.storeLpctl_waiting (a1 a2 a3) : (s.storeLpctl a1 a2 a3).waiting = s.waiting := by simp [State.storeLpctl]

@[simp] theorem State.storeLoopReg_waiting (a1 a2 a3 a4) : (s.storeLoopReg a1 a2 a3 a4).waiting = s.waiting := by
  simp [State.storeLoopReg]

@[simp] theorem State.storeLpstat_waiting (a1 a2 a3) : (s.storeLpstat a1 a2 a3).waiting = s.waiting := by
  simp [State.storeLpstat]

@[simp] theorem State.loadLpmeas_waiting (a1) : (s.loadLpmeas a1).1.waiting = s.waiting := by simp [State.loadLpmeas]
@[simp] theorem State.loopMeas_waiting (a1 a2 a3) : (s.loopMeas a1 a2 a3).waiting = s.waiting := by simp [State.loopMeas]

@[simp] theorem State.takeIncrement_waiting (a1 a2) : (s.takeIncrement a1 a2).waiting = s.waiting := by
  simp [State.takeIncrement]

@[simp] theorem State.takeHeartbeat_waiting (a1) : (s.takeHeartbeat a1).waiting = s.waiting := by simp [State.takeHeartbeat]
@[simp] theorem State.feedTake_waiting (a1 a2) : (s.feedTake a1 a2).waiting = s.waiting := by simp [State.feedTake]
@[simp] theorem State.feedBad_waiting : s.feedBad.waiting = s.waiting := by simp [State.feedBad]
@[simp] theorem State.outRecords_waiting : s.outRecords.waiting = s.waiting := by simp [State.outRecords]
@[simp] theorem State.outLost_waiting : s.outLost.waiting = s.waiting := by simp [State.outLost]

@[simp] theorem State.pinRestore_waiting (a1) : (s.pinRestore a1).waiting = s.waiting := by
  unfold State.pinRestore
  split <;> simp

@[simp] theorem State.outRestore_waiting : s.outRestore.waiting = s.waiting := by simp [State.outRestore]
@[simp] theorem State.loopRisen_waiting (a1) : (s.loopRisen a1).waiting = s.waiting := by simp [State.loopRisen]

@[simp] theorem State.outRetentionStore_waiting (a1 a2) : (s.outRetentionStore a1 a2).waiting = s.waiting := by
  simp [State.outRetentionStore]

/-! ### Qty.lean -/

@[simp] theorem State.qtyEvent_waiting : s.qtyEvent.waiting = s.waiting := by simp [State.qtyEvent]
@[simp] theorem State.putSigned_waiting (a1 a2) : (s.putSigned a1 a2).waiting = s.waiting := by simp [State.putSigned]
@[simp] theorem State.putUnsigned_waiting (a1 a2) : (s.putUnsigned a1 a2).waiting = s.waiting := by simp [State.putUnsigned]
@[simp] theorem State.setMark_waiting (a1 a2) : (s.setMark a1 a2).waiting = s.waiting := by simp [State.setMark]
@[simp] theorem State.setTallyReg_waiting (a1 a2) : (s.setTallyReg a1 a2).waiting = s.waiting := by simp [State.setTallyReg]
@[simp] theorem State.bumpTally_waiting (a1 a2) : (s.bumpTally a1 a2).waiting = s.waiting := by simp [State.bumpTally]
@[simp] theorem State.bill_waiting (a1 a2) : (s.bill a1 a2).waiting = s.waiting := by simp [State.bill]
@[simp] theorem State.whole_waiting (a1 a2) : (s.whole a1 a2).1.waiting = s.waiting := by simp [State.whole]
@[simp] theorem State.clearTests_waiting : s.clearTests.waiting = s.waiting := by simp [State.clearTests]
@[simp] theorem State.readTallies_waiting (a1) : (s.readTallies a1).1.waiting = s.waiting := by simp [State.readTallies]
@[simp] theorem State.storeAuxadd_waiting (a1 a2) : (s.storeAuxadd a1 a2).waiting = s.waiting := by simp [State.storeAuxadd]

@[simp] theorem State.setVelocity_waiting (a1 a2 a3) : (s.setVelocity a1 a2 a3).waiting = s.waiting := by
  simp [State.setVelocity]

@[simp] theorem State.takeCandidate_waiting (a1 a2) : (s.takeCandidate a1 a2).waiting = s.waiting := by
  simp [State.takeCandidate]

@[simp] theorem State.classify_waiting (a1 a2 a3) : (s.classify a1 a2 a3).waiting = s.waiting := by
  simp [State.classify]
  (repeat' split) <;> simp

@[simp] theorem State.qtyFault_waiting (a1 a2) : (s.qtyFault a1 a2).waiting = s.waiting := by simp [State.qtyFault]

@[simp] theorem State.guardAdd_waiting (a1 a2 a3 a4 a5 a6) : (s.guardAdd a1 a2 a3 a4 a5 a6).waiting = s.waiting := by
  unfold State.guardAdd
  split <;> simp

@[simp] theorem State.guardOpen_waiting (a1) : (s.guardOpen a1).waiting = s.waiting := by
  unfold State.guardOpen
  split <;> simp

@[simp] theorem State.setLastTicks_waiting (a1 a2) : (s.setLastTicks a1 a2).waiting = s.waiting := by simp [State.setLastTicks]

@[simp] theorem State.billVolume_waiting (a1 a2 a3) : (s.billVolume a1 a2 a3).1.waiting = s.waiting := by
  simp [State.billVolume]

@[simp] theorem State.billEnergy_waiting (a1 a2) : (s.billEnergy a1 a2).waiting = s.waiting := by simp [State.billEnergy]

@[simp] theorem State.showLevel_waiting (a1 a2) : (s.showLevel a1 a2).waiting = s.waiting := by
  unfold State.showLevel
  split <;> simp

@[simp] theorem State.showPaths_waiting (a1 a2 a3) : (s.showPaths a1 a2 a3).waiting = s.waiting := by simp [State.showPaths]

@[simp] theorem State.billSet_waiting (a1 a2 a3 a4 a5 a6) : (s.billSet a1 a2 a3 a4 a5 a6).waiting = s.waiting := by
  unfold State.billSet
  dsimp only
  split <;> simp

@[simp] theorem State.showSet_waiting (a1 a2) : (s.showSet a1 a2).waiting = s.waiting := by simp [State.showSet]
@[simp] theorem State.closeSet_waiting (k : Nat) : (s.closeSet k).waiting = s.waiting := by simp [State.closeSet]
@[simp] theorem State.dropSet_waiting (a1) : (s.dropSet a1).waiting = s.waiting := by simp [State.dropSet]
@[simp] theorem State.closeIfFull_waiting (a1) : (s.closeIfFull a1).waiting = s.waiting := by simp [State.closeIfFull]
@[simp] theorem State.addTo_waiting (a1 a2 a3) : (s.addTo a1 a2 a3).waiting = s.waiting := by simp [State.addTo]
@[simp] theorem State.addResult_waiting (a1 a2) : (s.addResult a1 a2).waiting = s.waiting := by simp [State.addResult]
@[simp] theorem State.failedPath_waiting (a1 a2) : (s.failedPath a1 a2).waiting = s.waiting := by simp [State.failedPath]
@[simp] theorem State.setHalf_waiting (a1 a2) : (s.setHalf a1 a2).waiting = s.waiting := by simp [State.setHalf]

@[simp] theorem State.breakHalf_waiting (a1) : (s.breakHalf a1).waiting = s.waiting := by
  unfold State.breakHalf
  split <;> simp

@[simp] theorem State.calAdd_waiting (a1 a2 a3) : (s.calAdd a1 a2 a3).waiting = s.waiting := by
  unfold State.calAdd
  split <;> simp

@[simp] theorem State.storeCalctl_waiting (a1 a2) : (s.storeCalctl a1 a2).waiting = s.waiting := by simp [State.storeCalctl]
@[simp] theorem State.addPair_waiting (a1 a2 a3) : (s.addPair a1 a2 a3).waiting = s.waiting := by simp [State.addPair]

@[simp] theorem State.takeTransit_waiting (a1 a2 a3) : (s.takeTransit a1 a2 a3).waiting = s.waiting := by
  unfold State.takeTransit
  split <;> simp

@[simp] theorem State.takeSingle_waiting (a1 a2) : (s.takeSingle a1 a2).waiting = s.waiting := by
  simp [State.takeSingle]
  split <;> simp

@[simp] theorem State.rejectPacket_waiting (a1) : (s.rejectPacket a1).waiting = s.waiting := by simp [State.rejectPacket]

@[simp] theorem State.storeClvote_waiting (a1 a2 a3) : (s.storeClvote a1 a2 a3).waiting = s.waiting := by
  simp [State.storeClvote]

@[simp] theorem State.storeCdcfg_waiting (a1 a2 a3) : (s.storeCdcfg a1 a2 a3).waiting = s.waiting := by simp [State.storeCdcfg]
@[simp] theorem State.storeQtyCtl_waiting (a1 a2) : (s.storeQtyCtl a1 a2).waiting = s.waiting := by simp [State.storeQtyCtl]
@[simp] theorem State.qtySecond_waiting : s.qtySecond.waiting = s.waiting := by simp [State.qtySecond]
@[simp] theorem State.qtyGuardEnter_waiting : s.qtyGuardEnter.waiting = s.waiting := by simp [State.qtyGuardEnter]
@[simp] theorem State.qtyLost_waiting : s.qtyLost.waiting = s.waiting := by simp [State.qtyLost]

/-! ### Ledger.lean -/

@[simp] theorem State.putSl_waiting (a1 a2) : (s.putSl a1 a2).waiting = s.waiting := by simp [State.putSl]
@[simp] theorem State.restoreSl_waiting (a1) : (s.restoreSl a1).waiting = s.waiting := by simp [State.restoreSl]
@[simp] theorem State.beginCommit_waiting (a1 a2) : (s.beginCommit a1 a2).waiting = s.waiting := by simp [State.beginCommit]

@[simp] theorem State.askCommit_waiting (a1 a2) : (s.askCommit a1 a2).waiting = s.waiting := by
  simp [State.askCommit]
  split <;> simp

@[simp] theorem State.startCommit_waiting (a1) : (s.startCommit a1).waiting = s.waiting := by simp [State.startCommit]

@[simp] theorem State.followUp_waiting : s.followUp.waiting = s.waiting := by
  unfold State.followUp
  split <;> simp

@[simp] theorem State.guardCommitted_waiting (a1) : (s.guardCommitted a1).waiting = s.waiting := by simp [State.guardCommitted]
@[simp] theorem State.writeGuardWord_waiting : s.writeGuardWord.waiting = s.waiting := by simp [State.writeGuardWord]
@[simp] theorem State.guardTorn_waiting : s.guardTorn.waiting = s.waiting := by simp [State.guardTorn]
@[simp] theorem State.addIndex_waiting (a1 a2) : (s.addIndex a1 a2).waiting = s.waiting := by simp [State.addIndex]
@[simp] theorem State.addGuard_waiting (a1 a2) : (s.addGuard a1 a2).waiting = s.waiting := by simp [State.addGuard]
@[simp] theorem State.guardRestart_waiting (a1) : (s.guardRestart a1).waiting = s.waiting := by simp [State.guardRestart]

@[simp] theorem State.restoreConduit_waiting (a1 a2) : (s.restoreConduit a1 a2).waiting = s.waiting := by
  simp [State.restoreConduit]

@[simp] theorem State.restoreMarks_waiting : s.restoreMarks.waiting = s.waiting := by simp [State.restoreMarks]
@[simp] theorem State.logTorn_waiting (a1 a2) : (s.logTorn a1 a2).waiting = s.waiting := by simp [State.logTorn]

@[simp] theorem State.ledgerRestore_waiting (a1) : (s.ledgerRestore a1).waiting = s.waiting := by
  unfold State.ledgerRestore
  simp
  split
  · simp
    refine (State.each_waiting _ fun s e => ?_).trans ?_
    · split <;> simp
    · simp
  · simp

/-! ### Air.lean -/

@[simp] theorem State.onRadio_waiting (a1) : (s.onRadio a1).waiting = s.waiting := by simp [State.onRadio]
@[simp] theorem State.setPort_waiting (a1 a2) : (s.setPort a1 a2).waiting = s.waiting := by simp [State.setPort]
@[simp] theorem State.onPort_waiting (a1 a2) : (s.onPort a1 a2).waiting = s.waiting := by simp [State.onPort]
@[simp] theorem State.belfEvent_waiting : s.belfEvent.waiting = s.waiting := by simp [State.belfEvent]
@[simp] theorem State.belfFault_waiting (a1) : (s.belfFault a1).waiting = s.waiting := by simp [State.belfFault]

@[simp] theorem State.writeCell_waiting (a1 a2 a3 a4) : (s.writeCell a1 a2 a3 a4).waiting = s.waiting := by
  simp [State.writeCell]

@[simp] theorem State.setAsn_waiting (a1 a2) : (s.setAsn a1 a2).waiting = s.waiting := by simp [State.setAsn]
@[simp] theorem State.charge_waiting (a1 a2 a3) : (s.charge a1 a2 a3).waiting = s.waiting := by simp [State.charge]

@[simp] theorem State.limitRestore_waiting (a1) : (s.limitRestore a1).waiting = s.waiting := by
  simp [State.limitRestore]
  split <;> simp

@[simp] theorem State.setPower_waiting (a1 a2) : (s.setPower a1 a2).waiting = s.waiting := by simp [State.setPower]
@[simp] theorem State.adaptPower_waiting (a1 a2) : (s.adaptPower a1 a2).waiting = s.waiting := by simp [State.adaptPower]
@[simp] theorem State.setAesKey_waiting (a1 a2) : (s.setAesKey a1 a2).waiting = s.waiting := by simp [State.setAesKey]
@[simp] theorem State.takeCounter_waiting (a1) : (s.takeCounter a1).1.waiting = s.waiting := by simp [State.takeCounter]
@[simp] theorem State.counterRise_waiting : s.counterRise.waiting = s.waiting := by simp [State.counterRise]
@[simp] theorem State.setNbr_waiting (a1 a2) : (s.setNbr a1 a2).waiting = s.waiting := by simp [State.setNbr]
@[simp] theorem State.onNbr_waiting (a1 a2) : (s.onNbr a1 a2).waiting = s.waiting := by simp [State.onNbr]

@[simp] theorem State.heardFrom_waiting (a1 a2 a3) : (s.heardFrom a1 a2 a3).1.waiting = s.waiting := by
  unfold State.heardFrom
  (repeat' split) <;> simp

@[simp] theorem State.nbrSecond_waiting : s.nbrSecond.waiting = s.waiting := by simp [State.nbrSecond]
@[simp] theorem State.setBuf_waiting (a1 a2 a3) : (s.setBuf a1 a2 a3).waiting = s.waiting := by simp [State.setBuf]

@[simp] theorem State.outcome_waiting (a1 a2 a3 a4 a5) : (s.outcome a1 a2 a3 a4 a5).waiting = s.waiting := by
  simp [State.outcome]

@[simp] theorem State.enterSeen_waiting (a1 a2 a3) : (s.enterSeen a1 a2 a3).waiting = s.waiting := by simp [State.enterSeen]

@[simp] theorem State.loadBuf_waiting (a1 a2 a3 a4) : (s.loadBuf a1 a2 a3 a4).waiting = s.waiting := by
  simp [State.loadBuf]
  (repeat' split) <;> simp

/-! ### CoreAlu.lean -/

@[simp] theorem State.finish_waiting (c : CoreId) (rd : Reg) (r : Word) (f : Flags) (n : Nat) :
    (s.finish c rd r f n).waiting = s.waiting := by
  simp [State.finish]

@[simp] theorem State.finishPlain_waiting (a1 a2 a3 a4) : (s.finishPlain a1 a2 a3 a4).waiting = s.waiting := by
  simp [State.finishPlain]

@[simp] theorem State.alu_waiting (a1 a2 a3 a4 a5 a6 a7) : (s.alu a1 a2 a3 a4 a5 a6 a7).waiting = s.waiting := by
  simp [State.alu]

@[simp] theorem State.divide_waiting (a1 a2 a3 a4 a5) : (s.divide a1 a2 a3 a4 a5).waiting = s.waiting := by simp [State.divide]

/-! ### CoreCtl.lean -/

@[simp] theorem State.branch_waiting (c : CoreId) (b : Bool) {w : Word} : (s.branch c b w).waiting = s.waiting := by
  simp [State.branch]

/-! ### Net.lean -/

@[simp] theorem State.setNetState_waiting (a1 a2) : (s.setNetState a1 a2).waiting = s.waiting := by simp [State.setNetState]
@[simp] theorem State.cFollows_waiting : s.cFollows.waiting = s.waiting := by simp [State.cFollows]
@[simp] theorem State.epochUp_waiting (a1) : (s.epochUp a1).waiting = s.waiting := by simp [State.epochUp]

@[simp] theorem State.engineSend_waiting (a1 a2 a3 a4) : (s.engineSend a1 a2 a3 a4).waiting = s.waiting := by
  simp [State.engineSend]

@[simp] theorem State.setQuarantine_waiting (a1 a2 a3) : (s.setQuarantine a1 a2 a3).waiting = s.waiting := by
  simp [State.setQuarantine]

@[simp] theorem State.engineCell_waiting (a1 a2 a3 a4 a5 a6) : (s.engineCell a1 a2 a3 a4 a5 a6).waiting = s.waiting := by
  simp [State.engineCell]

@[simp] theorem State.disableCell_waiting (a1 a2) : (s.disableCell a1 a2).waiting = s.waiting := by simp [State.disableCell]

@[simp] theorem State.endLease_waiting (a1 a2) : (s.endLease a1 a2).waiting = s.waiting := by
  unfold State.endLease
  split <;> simp

@[simp] theorem State.engineCommand_waiting (a1 a2 a3 a4 a5) : (s.engineCommand a1 a2 a3 a4 a5).waiting = s.waiting := by
  simp [State.engineCommand]

@[simp] theorem State.answer_waiting (a1 a2 a3 a4) : (s.answer a1 a2 a3 a4).waiting = s.waiting := by simp [State.answer]
@[simp] theorem State.freeShort_waiting (a1 a2) : (s.freeShort a1 a2).waiting = s.waiting := by simp [State.freeShort]

@[simp] theorem State.grantLease_waiting (a1 a2 a3 a4) : (s.grantLease a1 a2 a3 a4).waiting = s.waiting := by
  simp [State.grantLease]

@[simp] theorem State.answerReq_waiting (a1 a2 a3 a4 a5) : (s.answerReq a1 a2 a3 a4 a5).waiting = s.waiting := by
  simp [State.answerReq]
  split <;> simp

@[simp] theorem State.coordCommand_waiting (a1 a2 a3) : (s.coordCommand a1 a2 a3).waiting = s.waiting := by
  simp [State.coordCommand]
  (repeat' split) <;> simp

@[simp] theorem State.leaseExpires_waiting (a1 a2) : (s.leaseExpires a1 a2).waiting = s.waiting := by
  unfold State.leaseExpires
  split <;> simp

@[simp] theorem State.queueBeacon_waiting (a1 a2) : (s.queueBeacon a1 a2).waiting = s.waiting := by simp [State.queueBeacon]
@[simp] theorem State.keepBeacon_waiting (a1) : (s.keepBeacon a1).waiting = s.waiting := by simp [State.keepBeacon]

@[simp] theorem State.popAll_waiting (a1 n) : (s.popAll a1 n).waiting = s.waiting := by
  induction n generalizing s with
  | zero => rfl
  | succ n ih => exact (ih _).trans (s.popPacket_waiting a1)

@[simp] theorem State.dropQueued_waiting (a1) : (s.dropQueued a1).waiting = s.waiting := by simp [State.dropQueued]
@[simp] theorem State.dropBeacons_waiting (a1) : (s.dropBeacons a1).waiting = s.waiting := by simp [State.dropBeacons]
@[simp] theorem State.portFalls_waiting (a1) : (s.portFalls a1).waiting = s.waiting := by simp [State.portFalls]
@[simp] theorem State.closePort_waiting (a1) : (s.closePort a1).waiting = s.waiting := by simp [State.closePort]
@[simp] theorem State.lastBeaconStart_waiting : s.lastBeaconStart.waiting = s.waiting := by simp [State.lastBeaconStart]
@[simp] theorem State.nodeScans_waiting (a1 a2) : (s.nodeScans a1 a2).waiting = s.waiting := by simp [State.nodeScans]
@[simp] theorem State.nodeOrphan_waiting (a1) : (s.nodeOrphan a1).waiting = s.waiting := by simp [State.nodeOrphan]

@[simp] theorem State.nodeRequest_waiting (a1 a2) : (s.nodeRequest a1 a2).waiting = s.waiting := by
  unfold State.nodeRequest
  split <;> simp

@[simp] theorem State.requestFails_waiting (a1) : (s.requestFails a1).waiting = s.waiting := by simp [State.requestFails]
@[simp] theorem State.startHopGen_waiting (a1) : (s.startHopGen a1).waiting = s.waiting := by simp [State.startHopGen]
@[simp] theorem State.epochStep_waiting (o : State) : (o.epochStep s).waiting = s.waiting := by simp [State.epochStep]
@[simp] theorem State.nodeInstall_waiting (a1 a2) : (s.nodeInstall a1 a2).waiting = s.waiting := by simp [State.nodeInstall]
@[simp] theorem State.nodeFollows_waiting (a1 a2) : (s.nodeFollows a1 a2).waiting = s.waiting := by simp [State.nodeFollows]
@[simp] theorem State.orphanHears_waiting (a1) : (s.orphanHears a1).waiting = s.waiting := by simp [State.orphanHears]

@[simp] theorem State.nodeBeacon_waiting (a1 a2 a3 a4 a5) : (s.nodeBeacon a1 a2 a3 a4 a5).waiting = s.waiting := by
  unfold State.nodeBeacon
  split <;> simp

@[simp] theorem State.assignCells_waiting (a1 a2) : (s.assignCells a1 a2).waiting = s.waiting := by simp [State.assignCells]
@[simp] theorem State.requestRefused_waiting (a1) : (s.requestRefused a1).waiting = s.waiting := by simp [State.requestRefused]

@[simp] theorem State.nodeCommand_waiting (a1 a2 a3) : (s.nodeCommand a1 a2 a3).waiting = s.waiting := by
  simp [State.nodeCommand]
  (repeat' split) <;> simp

@[simp] theorem State.requestOutcome_waiting (a1 a2 a3) : (s.requestOutcome a1 a2 a3).waiting = s.waiting := by
  simp [State.requestOutcome]

@[simp] theorem State.demote_waiting (a1 a2) : (s.demote a1 a2).waiting = s.waiting := by simp [State.demote]

@[simp] theorem State.coordBeacon_waiting (a1 a2 a3 a4) : (s.coordBeacon a1 a2 a3 a4).waiting = s.waiting := by
  simp [State.coordBeacon]

@[simp] theorem State.floodIn_waiting (a1 a2 a3 a4 a5 a6) : (s.floodIn a1 a2 a3 a4 a5 a6).1.waiting = s.waiting := by
  simp [State.floodIn]

@[simp] theorem State.netSecond_waiting : s.netSecond.waiting = s.waiting := by simp [State.netSecond]

/-! ### Radio.lean -/

@[simp] theorem State.applyCorr_waiting (a1) : (s.applyCorr a1).waiting = s.waiting := by simp [State.applyCorr]
@[simp] theorem State.backoff_waiting (a1) : (s.backoff a1).waiting = s.waiting := by simp [State.backoff]

@[simp] theorem State.finishFrame_waiting (a1 a2 a3 a4 a5) : (s.finishFrame a1 a2 a3 a4 a5).waiting = s.waiting := by
  simp [State.finishFrame]

@[simp] theorem State.goOnAir_waiting (a1 a2 a3) : (s.goOnAir a1 a2 a3).waiting = s.waiting := by simp [State.goOnAir]

@[simp] theorem State.sendBuf_waiting (a1 a2 a3 a4) : (s.sendBuf a1 a2 a3 a4).waiting = s.waiting := by
  simp [State.sendBuf]
  split <;> simp

@[simp] theorem State.sharedListens_waiting (a1 a2) : (s.sharedListens a1 a2).waiting = s.waiting := by
  simp [State.sharedListens]

@[simp] theorem State.cutPort_waiting (a1) : (s.cutPort a1).waiting = s.waiting := by
  unfold State.cutPort
  split <;> simp

@[simp] theorem State.radioPathLost_waiting : s.radioPathLost.waiting = s.waiting := by simp [State.radioPathLost]
@[simp] theorem State.radioXhfLost_waiting : s.radioXhfLost.waiting = s.waiting := by simp [State.radioXhfLost]

@[simp] theorem State.checkSecured_waiting (a1 a2 a3 a4 a5) : (s.checkSecured a1 a2 a3 a4 a5).1.waiting = s.waiting := by
  simp [State.checkSecured]
  (repeat' split) <;> simp

@[simp] theorem State.correct_waiting (a1 a2) : (s.correct a1 a2).waiting = s.waiting := by simp [State.correct]

@[simp] theorem State.syncFrom_waiting (a1 a2 a3 a4) : (s.syncFrom a1 a2 a3 a4).waiting = s.waiting := by
  simp [State.syncFrom]
  split <;> simp

@[simp] theorem State.oweAck_waiting (a1 a2 a3) : (s.oweAck a1 a2 a3).1.waiting = s.waiting := by simp [State.oweAck]

@[simp] theorem State.engineTakes_waiting (a1 a2 a3) : (s.engineTakes a1 a2 a3).waiting = s.waiting := by
  simp [State.engineTakes]

@[simp] theorem State.engineHears_waiting (a1 a2 a3) : (s.engineHears a1 a2 a3).waiting = s.waiting := by
  unfold State.engineHears
  split <;> simp

@[simp] theorem State.deliver_waiting (a1 a2) : (s.deliver a1 a2).waiting = s.waiting := by simp [State.deliver]

@[simp] theorem State.accept_waiting (a1 a2 a3 a4 a5) : (s.accept a1 a2 a3 a4 a5).waiting = s.waiting := by
  simp [State.accept]
  split <;> simp

@[simp] theorem State.receive_waiting (a1 a2 a3) : (s.receive a1 a2 a3).waiting = s.waiting := by
  simp [State.receive]
  (repeat' split) <;> simp

@[simp] theorem State.receiveAck_waiting (a1 a2 a3) : (s.receiveAck a1 a2 a3).waiting = s.waiting := by
  simp [State.receiveAck]
  (repeat' split) <;> simp

theorem State.sealAck_waiting {t : State} {x : List Octet} {a1} (e : s.sealAck a1 = some (t, x)) : t.waiting = s.waiting := by
  unfold State.sealAck at e
  split at e
  · cases e; rfl
  · split at e
    · split at e
      · cases e; simp
      · cases e
    · cases e

@[simp] theorem State.belfTake_waiting (a1 a2 a3 a4) : (s.belfTake a1 a2 a3 a4).waiting = s.waiting := by
  simp [State.belfTake]
  split <;> simp

@[simp] theorem State.portRisen_waiting (a1) : (s.portRisen a1).waiting = s.waiting := by simp [State.portRisen]

@[simp] theorem State.portOff_waiting (a1) : (s.portOff a1).waiting = s.waiting := by
  unfold State.portOff
  simp
  refine State.each_waiting _ fun s e => ?_
  split <;> simp

@[simp] theorem State.belfryRecords_waiting : s.belfryRecords.waiting = s.waiting := by simp [State.belfryRecords]
@[simp] theorem State.belfryLost_waiting : s.belfryLost.waiting = s.waiting := by simp [State.belfryLost]

@[simp] theorem State.belfryRisen_waiting : s.belfryRisen.waiting = s.waiting := by
  unfold State.belfryRisen
  dsimp only
  split <;> simp

@[simp] theorem State.storePctl_waiting (a1 a2) : (s.storePctl a1 a2).waiting = s.waiting := by simp [State.storePctl]
@[simp] theorem State.storeAsnHi_waiting (a1 a2) : (s.storeAsnHi a1 a2).waiting = s.waiting := by simp [State.storeAsnHi]
@[simp] theorem State.storeAsnLo_waiting (a1 a2) : (s.storeAsnLo a1 a2).waiting = s.waiting := by simp [State.storeAsnLo]
@[simp] theorem State.storeHop_waiting (a1 a2) : (s.storeHop a1 a2).waiting = s.waiting := by simp [State.storeHop]

@[simp] theorem State.storeCell_waiting (a1 a2 a3 a4) : (s.storeCell a1 a2 a3 a4).waiting = s.waiting := by
  simp [State.storeCell]

@[simp] theorem State.storePwr_waiting (a1 a2) : (s.storePwr a1 a2).waiting = s.waiting := by simp [State.storePwr]
@[simp] theorem State.loadBands_waiting (a1 a2) : (s.loadBands a1 a2).waiting = s.waiting := by simp [State.loadBands]

@[simp] theorem State.storeLimcfg_waiting (a1 a2) : (s.storeLimcfg a1 a2).waiting = s.waiting := by
  simp [State.storeLimcfg]
  split <;> simp

@[simp] theorem State.storeNetctl_waiting (a1 a2) : (s.storeNetctl a1 a2).waiting = s.waiting := by simp [State.storeNetctl]

@[simp] theorem State.nbrRead_waiting : s.nbrRead.waiting = s.waiting := by
  unfold State.nbrRead
  dsimp only
  split <;> simp

@[simp] theorem State.nbrWrite_waiting : s.nbrWrite.waiting = s.waiting := by
  simp [State.nbrWrite]
  split <;> simp

@[simp] theorem State.nbrDelete_waiting : s.nbrDelete.waiting = s.waiting := by
  unfold State.nbrDelete
  dsimp only
  split <;> simp

@[simp] theorem State.storeNbrcmd_waiting (a1) : (s.storeNbrcmd a1).waiting = s.waiting := by
  unfold State.storeNbrcmd
  split <;> simp

@[simp] theorem State.loadNetstat_waiting (a1) : (s.loadNetstat a1).1.waiting = s.waiting := by simp [State.loadNetstat]

/-! ### Words.lean -/

@[simp] theorem State.holdAddr_waiting (a1 a2 a3) : (s.holdAddr a1 a2 a3).waiting = s.waiting := by simp [State.holdAddr]
@[simp] theorem State.recvLife_waiting (a1) : (s.recvLife a1).waiting = s.waiting := by simp [State.recvLife]

@[simp] theorem State.headerLeaves_waiting (a1 a2 a3) : (s.headerLeaves a1 a2 a3).waiting = s.waiting := by
  unfold State.headerLeaves
  split <;> simp

@[simp] theorem State.recvWaddr_waiting (a1 a2 a3) : (s.recvWaddr a1 a2 a3).waiting = s.waiting := by simp [State.recvWaddr]

@[simp] theorem State.recvWdata_waiting (a1 a2 a3 a4) : (s.recvWdata a1 a2 a3 a4).waiting = s.waiting := by
  simp [State.recvWdata]
  (repeat' split) <;> simp

@[simp] theorem State.recvWord_waiting (a1 a2 a3 a4) : (s.recvWord a1 a2 a3 a4).waiting = s.waiting := by
  simp [State.recvWord]
  (repeat' split) <;> simp

@[simp] theorem State.portActive_waiting (a1 a2) : (s.portActive a1 a2).waiting = s.waiting := by
  simp [State.portActive]
  split <;> simp

@[simp] theorem State.takeFront_waiting (a1 a2) : (s.takeFront a1 a2).waiting = s.waiting := by
  unfold State.takeFront
  split <;> simp

@[simp] theorem State.drainInbound_waiting (a1) : (s.drainInbound a1).waiting = s.waiting := by
  unfold State.drainInbound
  refine State.each_waiting _ fun s x => ?_
  split <;> simp

@[simp] theorem State.drainOutbound_waiting (a1) : (s.drainOutbound a1).waiting = s.waiting := by simp [State.drainOutbound]

/-! ### Domains.lean -/

@[simp] theorem State.eachInbound_waiting (d : Domain) {f : State → Island → Island → State}
    (hf : ∀ s x y, (f s x y).waiting = s.waiting) :
    (s.eachInbound d f).waiting = s.waiting := by
  simp [State.eachInbound, hf]

@[simp] theorem State.setInbound_waiting (a1 a2) : (s.setInbound a1 a2).waiting = s.waiting := by simp [State.setInbound]
@[simp] theorem State.closeInbound_waiting (a1) : (s.closeInbound a1).waiting = s.waiting := by simp [State.closeInbound]
@[simp] theorem State.naveRecords_waiting : s.naveRecords.waiting = s.waiting := by simp [State.naveRecords]
@[simp] theorem State.deliveriesStop_waiting (a1) : (s.deliveriesStop a1).waiting = s.waiting := by simp [State.deliveriesStop]
@[simp] theorem State.unitsFall_waiting (a1) : (s.unitsFall a1).waiting = s.waiting := by simp [State.unitsFall]
@[simp] theorem State.domainFalls_waiting (a1) : (s.domainFalls a1).waiting = s.waiting := by simp [State.domainFalls]
@[simp] theorem State.sharedFollows_waiting : s.sharedFollows.waiting = s.waiting := by simp [State.sharedFollows]
@[simp] theorem State.coreLost_waiting (a1) : (s.coreLost a1).waiting = s.waiting := by simp [State.coreLost]
@[simp] theorem State.choirLost_waiting : s.choirLost.waiting = s.waiting := by simp [State.choirLost]
@[simp] theorem State.naveLost_waiting : s.naveLost.waiting = s.waiting := by simp [State.naveLost]
@[simp] theorem State.banksLost_waiting : s.banksLost.waiting = s.waiting := by simp [State.banksLost]

@[simp] theorem State.fallStart_waiting (a1) : (s.fallStart a1).waiting = s.waiting := by
  unfold State.fallStart
  split <;> simp

@[simp] theorem State.mirrorOff_waiting (a1) : (s.mirrorOff a1).waiting = s.waiting := by simp [State.mirrorOff]

@[simp] theorem State.drain_waiting (a1) : (s.drain a1).waiting = s.waiting := by
  unfold State.drain
  split <;> simp

@[simp] theorem State.powerOff_waiting (a1) : (s.powerOff a1).waiting = s.waiting := by
  unfold State.powerOff
  split <;> simp

@[simp] theorem State.fallFinish_waiting (a1) : (s.fallFinish a1).waiting = s.waiting := by
  unfold State.fallFinish
  split <;> simp

@[simp] theorem State.takeDown_waiting (a1) : (s.takeDown a1).waiting = s.waiting := by simp [State.takeDown]
@[simp] theorem State.takeAllDown_waiting : s.takeAllDown.waiting = s.waiting := by simp [State.takeAllDown]
@[simp] theorem State.askRise_waiting (a1) : (s.askRise a1).waiting = s.waiting := by simp [State.askRise]
@[simp] theorem State.startDomains_waiting (a1 a2) : (s.startDomains a1 a2).waiting = s.waiting := by simp [State.startDomains]
@[simp] theorem State.wakeUp_waiting (a1) : (s.wakeUp a1).waiting = s.waiting := by simp [State.wakeUp]

/-! ### Guard.lean -/

@[simp] theorem State.suspend_waiting : s.suspend.waiting = s.waiting := by simp [State.suspend]
@[simp] theorem State.naveFollows_waiting : s.naveFollows.waiting = s.waiting := by simp [State.naveFollows]
@[simp] theorem State.setV_waiting (a1) : (s.setV a1).waiting = s.waiting := by simp [State.setV]
@[simp] theorem State.guardEnter_waiting : s.guardEnter.waiting = s.waiting := by simp [State.guardEnter]
@[simp] theorem State.guardExit_waiting : s.guardExit.waiting = s.waiting := by simp [State.guardExit]
@[simp] theorem State.guardSync_waiting : s.guardSync.waiting = s.waiting := by simp [State.guardSync]
@[simp] theorem State.portFallen_waiting (a1) : (s.portFallen a1).waiting = s.waiting := by simp [State.portFallen]

/-! ### Flash.lean -/

@[simp] theorem State.sealMirror_waiting : s.sealMirror.waiting = s.waiting := by simp [State.sealMirror]

@[simp] theorem State.flashPut_waiting (u : FlashUnit) (a : Nat) (l : List Octet) : (s.flashPut u a l).waiting = s.waiting := by
  unfold State.flashPut
  split <;> simp

@[simp] theorem State.setFlashOp_waiting (a1 a2) : (s.setFlashOp a1 a2).waiting = s.waiting := by simp [State.setFlashOp]
@[simp] theorem State.flashCommand_waiting (a1 a2) : (s.flashCommand a1 a2).waiting = s.waiting := by simp [State.flashCommand]

@[simp] theorem State.flashDone_waiting (a1 a2) : (s.flashDone a1 a2).waiting = s.waiting := by
  unfold State.flashDone
  dsimp only
  split
  · split
    · exact (State.flashPut_waiting _ _ _ _).trans (by simp)
    · split
      · exact (State.flashPut_waiting _ _ _ _).trans (by simp)
      · simp
    · simp
  · rfl

@[simp] theorem State.storeImgctl_waiting (a1 a2) : (s.storeImgctl a1 a2).waiting = s.waiting := by
  unfold State.storeImgctl
  split <;> simp

@[simp] theorem State.storeCfgctl_waiting (a1) : (s.storeCfgctl a1).waiting = s.waiting := by simp [State.storeCfgctl]
@[simp] theorem State.readCfgdata_waiting : s.readCfgdata.1.waiting = s.waiting := by simp [State.readCfgdata]

/-! ### Power.lean -/

@[simp] theorem State.supplies_waiting (a1 a2) : (s.supplies a1 a2).waiting = s.waiting := by simp [State.supplies]
@[simp] theorem State.compareAgain_waiting : s.compareAgain.waiting = s.waiting := by simp [State.compareAgain]
@[simp] theorem State.boostSync_waiting : s.boostSync.waiting = s.waiting := by simp [State.boostSync]
@[simp] theorem State.bandSync_waiting : s.bandSync.waiting = s.waiting := by simp [State.bandSync]
@[simp] theorem State.storeVpulcfg_waiting (a1) : (s.storeVpulcfg a1).waiting = s.waiting := by simp [State.storeVpulcfg]
@[simp] theorem State.storeVpulstat_waiting (a1) : (s.storeVpulstat a1).waiting = s.waiting := by simp [State.storeVpulstat]
@[simp] theorem State.boostFault_waiting (a1) : (s.boostFault a1).waiting = s.waiting := by simp [State.boostFault]
@[simp] theorem State.measure_waiting : s.measure.waiting = s.waiting := by simp [State.measure]
@[simp] theorem State.storePwrcfg_waiting (a1) : (s.storePwrcfg a1).waiting = s.waiting := by simp [State.storePwrcfg]
@[simp] theorem State.enterHold_waiting : s.enterHold.waiting = s.waiting := by simp [State.enterHold]
@[simp] theorem State.pathEvents_waiting : s.pathEvents.waiting = s.waiting := by simp [State.pathEvents]
@[simp] theorem State.toBackup_waiting : s.toBackup.waiting = s.waiting := by simp [State.toBackup]
@[simp] theorem State.toMain_waiting : s.toMain.waiting = s.waiting := by simp [State.toMain]
@[simp] theorem State.cryptReset_waiting : s.cryptReset.waiting = s.waiting := by simp [State.cryptReset]
@[simp] theorem State.cryptStarts_waiting (a1 a2) : (s.cryptStarts a1 a2).waiting = s.waiting := by simp [State.cryptStarts]

@[simp] theorem State.cryptUnpowered_waiting (a1 a2) : (s.cryptUnpowered a1 a2).waiting = s.waiting := by
  simp [State.cryptUnpowered]

/-! ### Time.lean -/

@[simp] theorem State.commitStaged_waiting : s.commitStaged.waiting = s.waiting := by
  unfold State.commitStaged
  split <;> simp

@[simp] theorem State.secondEdge_waiting : s.secondEdge.waiting = s.waiting := by
  unfold State.secondEdge
  dsimp only
  (repeat' split) <;> simp

@[simp] theorem State.wdogTicks_waiting (a1 a2) : (s.wdogTicks a1 a2).waiting = s.waiting := by simp [State.wdogTicks]
@[simp] theorem State.moveTicks_waiting (a1) : (s.moveTicks a1).waiting = s.waiting := by simp [State.moveTicks]
@[simp] theorem State.passTo_waiting (a1) : (s.passTo a1).waiting = s.waiting := by simp [State.passTo]

@[simp] theorem State.passTicks_waiting (a1 n) : (s.passTicks a1 n).waiting = s.waiting := by
  induction n generalizing s a1 with
  | zero => simp [State.passTicks]
  | succ n ih => simp [State.passTicks, ih]

@[simp] theorem State.advance_waiting (a1) : (s.advance a1).waiting = s.waiting := by simp [State.advance]
@[simp] theorem State.storeTimeNew_waiting (a1) : (s.storeTimeNew a1).waiting = s.waiting := by simp [State.storeTimeNew]
@[simp] theorem State.setLatch_waiting (a1 a2) : (s.setLatch a1 a2).waiting = s.waiting := by simp [State.setLatch]
@[simp] theorem State.readTimeSub_waiting (a1) : (s.readTimeSub a1).1.waiting = s.waiting := by simp [State.readTimeSub]

@[simp] theorem State.readTimeSec_waiting (a1) : (s.readTimeSec a1).1.waiting = s.waiting := by
  unfold State.readTimeSec
  split <;> simp

/-! ### Seal.lean -/

@[simp] theorem State.storeSealctl_waiting (a1) : (s.storeSealctl a1).waiting = s.waiting := by simp [State.storeSealctl]
@[simp] theorem State.endDebug_waiting : s.endDebug.waiting = s.waiting := by simp [State.endDebug]
@[simp] theorem State.tamper_waiting (a1 a2 a3 a4 a5) : (s.tamper a1 a2 a3 a4 a5).waiting = s.waiting := by simp [State.tamper]
@[simp] theorem State.tamperReport_waiting : s.tamperReport.waiting = s.waiting := by simp [State.tamperReport]

@[simp] theorem State.logDebugRefusal_waiting (a1 a2) : (s.logDebugRefusal a1 a2).waiting = s.waiting := by
  simp [State.logDebugRefusal]

@[simp] theorem State.clearKbuf_waiting (a1 a2) : (s.clearKbuf a1 a2).waiting = s.waiting := by simp [State.clearKbuf]
@[simp] theorem State.keyError_waiting (a1) : (s.keyError a1).waiting = s.waiting := by simp [State.keyError]
@[simp] theorem State.keyStart_waiting (a1) : (s.keyStart a1).waiting = s.waiting := by simp [State.keyStart]
@[simp] theorem State.loadAes_waiting (a1) : (s.loadAes a1).waiting = s.waiting := by simp [State.loadAes]
@[simp] theorem State.clearAes_waiting (a1) : (s.clearAes a1).waiting = s.waiting := by simp [State.clearAes]
@[simp] theorem State.programVk_waiting (a1 a2 a3) : (s.programVk a1 a2 a3).waiting = s.waiting := by simp [State.programVk]
@[simp] theorem State.loadVk_waiting (a1) : (s.loadVk a1).waiting = s.waiting := by simp [State.loadVk]
@[simp] theorem State.revokeVk_waiting (a1) : (s.revokeVk a1).waiting = s.waiting := by simp [State.revokeVk]

@[simp] theorem State.storeKeycmd_waiting (a1) : (s.storeKeycmd a1).waiting = s.waiting := by
  unfold State.storeKeycmd
  split <;> simp

@[simp] theorem State.loadNave_waiting (a1) : (s.loadNave a1).waiting = s.waiting := by simp [State.loadNave]
@[simp] theorem State.clearNave_waiting (a1) : (s.clearNave a1).waiting = s.waiting := by simp [State.clearNave]

@[simp] theorem State.storeNkeycmd_waiting (a1) : (s.storeNkeycmd a1).waiting = s.waiting := by
  unfold State.storeNkeycmd
  split <;> simp

@[simp] theorem State.macFinish_waiting : s.macFinish.waiting = s.waiting := by
  unfold State.macFinish
  split <;> simp

@[simp] theorem State.storeMacctl_waiting (a1) : (s.storeMacctl a1).waiting = s.waiting := by simp [State.storeMacctl]
@[simp] theorem State.storeDin_waiting (a1) : (s.storeDin a1).waiting = s.waiting := by simp [State.storeDin]
@[simp] theorem State.imgCheck_waiting : s.imgCheck.waiting = s.waiting := by simp [State.imgCheck]
@[simp] theorem State.imgActivate_waiting : s.imgActivate.waiting = s.waiting := by simp [State.imgActivate]
@[simp] theorem State.storeImgchk_waiting (a1) : (s.storeImgchk a1).waiting = s.waiting := by simp [State.storeImgchk]
@[simp] theorem State.navePost_waiting (a1 a2) : (s.navePost a1 a2).1.waiting = s.waiting := by simp [State.navePost]
@[simp] theorem State.choirPost_waiting (a1 a2) : (s.choirPost a1 a2).1.waiting = s.waiting := by simp [State.choirPost]

@[simp] theorem State.mailTake_waiting (a1) : (s.mailTake a1).1.waiting = s.waiting := by
  simp [State.mailTake]
  (repeat' split) <;> simp

/-! ### Bus.lean -/

@[simp] theorem State.loadLive_waiting (a1 a2 a3 a4) : (s.loadLive a1 a2 a3 a4).1.waiting = s.waiting := by
  simp [State.loadLive]

@[simp] theorem State.loadQueueReg_waiting (a1) : (s.loadQueueReg a1).1.waiting = s.waiting := by
  unfold State.loadQueueReg
  split <;> simp

@[simp] theorem State.loadQue_waiting (a1) : (s.loadQue a1).1.waiting = s.waiting := by simp [State.loadQue]
@[simp] theorem State.loadIsle_waiting (a1) : (s.loadIsle a1).1.waiting = s.waiting := by simp [State.loadIsle]

@[simp] theorem State.loadQty_waiting (a1) : (s.loadQty a1).1.waiting = s.waiting := by
  simp [State.loadQty]
  (repeat' split) <;> simp

@[simp] theorem State.loadLogdata_waiting (a1) : (s.loadLogdata a1).1.waiting = s.waiting := by simp [State.loadLogdata]
@[simp] theorem State.loadLedg_waiting (a1) : (s.loadLedg a1).1.waiting = s.waiting := by simp [State.loadLedg]
@[simp] theorem State.loadRood_waiting (a1) : (s.loadRood a1).1.waiting = s.waiting := by simp [State.loadRood]
@[simp] theorem State.loadSacr_waiting (a1) : (s.loadSacr a1).1.waiting = s.waiting := by simp [State.loadSacr]
@[simp] theorem State.loadCrypt_waiting (a1 a2) : (s.loadCrypt a1 a2).1.waiting = s.waiting := by simp [State.loadCrypt]
@[simp] theorem State.loadOut_waiting (a1) : (s.loadOut a1).1.waiting = s.waiting := by simp [State.loadOut]
@[simp] theorem State.loadBelf_waiting (a1) : (s.loadBelf a1).1.waiting = s.waiting := by simp [State.loadBelf]
@[simp] theorem State.loadBank_waiting (a1 a2) : (s.loadBank a1 a2).1.waiting = s.waiting := by simp [State.loadBank]
@[simp] theorem loaded_waiting (r : State × Word) : (loaded r).1.waiting = r.1.waiting := by simp [loaded]

@[simp] theorem State.loadWindow_waiting (a1 a2) : (s.loadWindow a1 a2).1.waiting = s.waiting := by
  unfold State.loadWindow
  dsimp only
  split <;> simp

@[simp] theorem State.loadAt_waiting (c : CoreId) (a : Nat) (r : Region) : (s.loadAt c a r).1.waiting = s.waiting := by
  unfold State.loadAt
  split <;> simp

@[simp] theorem State.storeWdog_waiting (a1 a2) : (s.storeWdog a1 a2).waiting = s.waiting := by simp [State.storeWdog]
@[simp] theorem State.domainReset_waiting (a1) : (s.domainReset a1).waiting = s.waiting := by simp [State.domainReset]

@[simp] theorem State.storeRstreq_waiting (a1 a2) : (s.storeRstreq a1 a2).waiting = s.waiting := by
  simp [State.storeRstreq]
  split <;> simp

@[simp] theorem State.storeMode_waiting (a1) : (s.storeMode a1).waiting = s.waiting := by simp [State.storeMode]
@[simp] theorem State.storeSys_waiting (a1 a2 a3) : (s.storeSys a1 a2 a3).waiting = s.waiting := by simp [State.storeSys]
@[simp] theorem State.storeQue_waiting (a1 a2 a3) : (s.storeQue a1 a2 a3).waiting = s.waiting := by simp [State.storeQue]
@[simp] theorem State.storeIsle_waiting (a1 a2 a3) : (s.storeIsle a1 a2 a3).waiting = s.waiting := by simp [State.storeIsle]

@[simp] theorem State.storeBank_waiting (a1 a2 a3 a4 a5) : (s.storeBank a1 a2 a3 a4 a5).waiting = s.waiting := by
  simp [State.storeBank]

@[simp] theorem State.storeQty_waiting (a1 a2 a3) : (s.storeQty a1 a2 a3).waiting = s.waiting := by simp [State.storeQty]
@[simp] theorem State.storeOut_waiting (a1 a2 a3) : (s.storeOut a1 a2 a3).waiting = s.waiting := by simp [State.storeOut]
@[simp] theorem State.storeSacr_waiting (a1 a2 a3) : (s.storeSacr a1 a2 a3).waiting = s.waiting := by simp [State.storeSacr]

@[simp] theorem State.storeRetention_waiting (a1 a2) : (s.storeRetention a1 a2).waiting = s.waiting := by
  simp [State.storeRetention]

@[simp] theorem State.storeCrypt_waiting (a1 a2 a3) : (s.storeCrypt a1 a2 a3).waiting = s.waiting := by simp [State.storeCrypt]

@[simp] theorem State.storePort_waiting (a1 a2 a3) : (s.storePort a1 a2 a3).waiting = s.waiting := by
  unfold State.storePort
  split <;> simp

@[simp] theorem State.storeBelf_waiting (a1 a2) : (s.storeBelf a1 a2).waiting = s.waiting := by simp [State.storeBelf]

@[simp] theorem State.storeAt_waiting (a1 a2 a3 a4 a5) : (s.storeAt a1 a2 a3 a4 a5).waiting = s.waiting := by
  unfold State.storeAt
  split <;> simp

@[simp] theorem State.busLoad_waiting (a1 a2) : (s.busLoad a1 a2).1.waiting = s.waiting := by
  unfold State.busLoad
  split
  · rfl
  · split
    · next e => simpa using State.waiting_of_fst e (State.loadAt_waiting _ _ _ _)
    · next e =>
      have ht := State.waiting_of_fst e (State.loadAt_waiting _ _ _ _)
      simp [ht]
  · rfl

@[simp] theorem State.busStoreWith_waiting (a1 a2 a3 a4) : (s.busStoreWith a1 a2 a3 a4).1.waiting = s.waiting := by
  unfold State.busStoreWith
  split <;> simp

@[simp] theorem State.busStore_waiting (a1 a2 a3) : (s.busStore a1 a2 a3).1.waiting = s.waiting := by simp [State.busStore]

@[simp] theorem State.refuseAccess_waiting (a1 a2 a3 a4) : (s.refuseAccess a1 a2 a3 a4).waiting = s.waiting := by
  simp [State.refuseAccess]

/-! ### CoreMem.lean -/

@[simp] theorem State.retireLive_waiting (a1 a2) : (s.retireLive a1 a2).waiting = s.waiting := by simp [State.retireLive]

theorem State.readOwn_waiting {t : State} {x : Nat} {a1 a2 a3} (e : (s.readOwn a1 a2 a3) = some (t, x)) :
    t.waiting = s.waiting := by
  unfold State.readOwn at e
  dsimp only at e
  split at e
  · cases e
  · cases e; simp

@[simp] theorem State.load_waiting (a1 a2 a3 a4 a5 a6) : (s.load a1 a2 a3 a4 a5 a6).waiting = s.waiting := by
  unfold State.load
  split
  · rfl
  · refine State.issue_waiting _ _ _ fun s => ?_
    dsimp only
    split; · simp
    split; · simp
    split
    · split
      · simp
      · next e => simp [State.readOwn_waiting _ e]
    · split
      · next e => simp [State.waiting_of_fst e (State.busLoad_waiting _ _ _)]
      · next e => simp [State.waiting_of_fst e (State.busLoad_waiting _ _ _)]

@[simp] theorem State.writeOwn_waiting (c : CoreId) (a n : Nat) (v : Word) : (s.writeOwn c a n v).waiting = s.waiting := by
  simp [State.writeOwn]

@[simp] theorem State.store_waiting (a1 a2 a3 a4 a5) : (s.store a1 a2 a3 a4 a5).waiting = s.waiting := by
  unfold State.store
  refine State.issue_waiting _ _ _ fun s => ?_
  dsimp only
  split; · simp
  split; · simp
  split
  · split
    · simp
    · split
      · simp
      · next e => simp [State.readOwn_waiting _ e]
  split
  · simp
  · split
    · next e => simp [State.waiting_of_fst e (State.busStore_waiting _ _ _ _)]
    · next e => simp [State.waiting_of_fst e (State.busStore_waiting _ _ _ _)]

theorem State.stackFault_waiting {t : State} {a1 a2 a3 a4} (e : (s.stackFault a1 a2 a3 a4) = some t) :
    t.waiting = s.waiting := by
  unfold State.stackFault at e
  split at e
  · cases e; simp
  · split at e <;> cases e <;> simp

@[simp] theorem State.pushRegs_waiting (a1 a2) (l : List Reg) : (s.pushRegs a1 a2 l).waiting = s.waiting := by
  induction l generalizing s a2 with
  | nil => rfl
  | cons r rest ih => exact (ih _ _).trans (s.writeOwn_waiting _ _ _ _)

@[simp] theorem State.popRegs_waiting (a1 a2) (l : List Reg) : (s.popRegs a1 a2 l).waiting = s.waiting := by
  induction l generalizing s a2 with
  | nil => rfl
  | cons r rest ih => simp [State.popRegs, ih]

/-! ### DeviceInstr.lean -/

@[simp] theorem State.refuseRequest_waiting (a1 a2 a3 a4) : (s.refuseRequest a1 a2 a3 a4).waiting = s.waiting := by
  simp [State.refuseRequest]

@[simp] theorem State.toIsland_waiting (c : CoreId) (i : Island) (a k : Nat) {body : State → State}
    (hb : ∀ s : State, (body s).waiting = s.waiting) :
    (s.toIsland c i a k body).waiting = s.waiting := by
  simp [State.toIsland, hb]

@[simp] theorem State.toReplying_waiting (c : CoreId) (i : Island) (a k : Nat) {body : State → State}
    (hb : ∀ s : State, (body s).waiting = s.waiting) :
    (s.toReplying c i a k body).waiting = s.waiting := by
  simp [State.toReplying, hb]

@[simp] theorem State.choirOnly_waiting (c : CoreId) (n : Nat) {body : State → State}
    (hb : ∀ s : State, (body s).waiting = s.waiting) :
    (s.choirOnly c n body).waiting = s.waiting := by
  simp [State.choirOnly, hb]

@[simp] theorem State.deviceDone_waiting (a1 a2 a3 a4) : (s.deviceDone a1 a2 a3 a4).waiting = s.waiting := by
  simp [State.deviceDone]

@[simp] theorem State.fire_waiting (a1) : (s.fire a1).waiting = s.waiting := by simp [State.fire]
@[simp] theorem State.shot_waiting (a1 a2 a3 a4 a5 a6) : (s.shot a1 a2 a3 a4 a5 a6).waiting = s.waiting := by simp [State.shot]

@[simp] theorem State.coreDeselects_waiting (a1 a2) : (s.coreDeselects a1 a2).waiting = s.waiting := by
  simp [State.coreDeselects]

@[simp] theorem State.queueRequest_waiting (c : CoreId) (n : Nat) (b : Bool) (k : Nat) {body : State → State}
    (hb : ∀ s : State, (body s).waiting = s.waiting) :
    (s.queueRequest c n b k body).waiting = s.waiting := by
  simp [State.queueRequest, hb]

@[simp] theorem State.queueReply_waiting (c : CoreId) (rd : Reg) (w : Word) : (s.queueReply c rd w).waiting = s.waiting := by
  simp [State.queueReply]

@[simp] theorem State.bankDenies_waiting (a1 a2 a3 a4 a5) : (s.bankDenies a1 a2 a3 a4 a5).waiting = s.waiting := by
  simp [State.bankDenies]

@[simp] theorem State.countCorrected_waiting (a1 a2 a3) : (s.countCorrected a1 a2 a3).waiting = s.waiting := by
  simp [State.countCorrected]

@[simp] theorem State.copyRows_waiting (a1 a2 a3 n) : (s.copyRows a1 a2 a3 n).1.waiting = s.waiting := by
  induction n generalizing s a2 a3 with
  | zero => rfl
  | succ n ih =>
    unfold State.copyRows
    dsimp only
    split <;> simp [ih]

@[simp] theorem State.lease_waiting (i : Issue) (rd ra rb : Reg) {f : State → CoreId → Nat → Nat → State × Word}
    (hf : ∀ s c a b, (f s c a b).1.waiting = s.waiting) :
    (s.lease i rd ra rb f).waiting = s.waiting := by
  simp [State.lease, hf]

@[simp] theorem State.writeValues_waiting (a1 a2) (l : List Nat) : (s.writeValues a1 a2 l).waiting = s.waiting := by
  induction l generalizing s a2 with
  | nil => rfl
  | cons v rest ih => simp [State.writeValues, ih]

@[simp] theorem State.tallyRequest_waiting (i : Issue) (rd ra rb : Reg) (names : Nat → Option (List Nat))
    {f : State → List Nat → State × List Nat} (hf : ∀ s l, (f s l).1.waiting = s.waiting) (most : Nat) :
    (s.tallyRequest i rd ra rb names f most).waiting = s.waiting := by
  unfold State.tallyRequest
  refine State.issue_waiting _ _ _ fun s => State.choirOnly_waiting _ _ _ fun s => ?_
  dsimp only
  split <;> simp [hf]

@[simp] theorem State.readIndices_waiting (a1) : (s.readIndices a1).1.waiting = s.waiting := by simp [State.readIndices]
@[simp] theorem State.usync_waiting (a1) : (s.usync a1).1.waiting = s.waiting := by simp [State.usync]

/-! ### Startup.lean -/

@[simp] theorem State.storeUnsealed_waiting (a1 a2 a3) : (s.storeUnsealed a1 a2 a3).waiting = s.waiting := by
  simp [State.storeUnsealed]

@[simp] theorem State.configEntry_waiting (a1 a2) : (s.configEntry a1 a2).waiting = s.waiting := by
  simp [State.configEntry]
  split <;> simp

@[simp] theorem State.applyCopy_waiting (a1) : (s.applyCopy a1).waiting = s.waiting := by simp [State.applyCopy]
@[simp] theorem State.configure_waiting : s.configure.waiting = s.waiting := by simp [State.configure]
@[simp] theorem State.domainOn_waiting (a1) : (s.domainOn a1).waiting = s.waiting := by simp [State.domainOn]
@[simp] theorem State.coreRises_waiting (a1) : (s.coreRises a1).waiting = s.waiting := by simp [State.coreRises]
@[simp] theorem State.choirRisen_waiting : s.choirRisen.waiting = s.waiting := by simp [State.choirRisen]
@[simp] theorem State.naveRisen_waiting : s.naveRisen.waiting = s.waiting := by simp [State.naveRisen]

@[simp] theorem State.latchedDown_waiting (a1) : (s.latchedDown a1).waiting = s.waiting := by
  unfold State.latchedDown
  split <;> simp

@[simp] theorem State.domainsRise_waiting : s.domainsRise.waiting = s.waiting := by simp [State.domainsRise]

@[simp] theorem State.identify_waiting (a1) : (s.identify a1).waiting = s.waiting := by
  unfold State.identify
  dsimp only
  split <;> simp

@[simp] theorem State.bootSlot_waiting (c : CoreId) (b : Bool) : (s.bootSlot c b).waiting = s.waiting := by
  unfold State.bootSlot
  split <;> simp

@[simp] theorem State.risenFollows_waiting (a1) : (s.risenFollows a1).waiting = s.waiting := by
  unfold State.risenFollows
  split <;> simp

@[simp] theorem State.masterLoad_waiting (a1 a2) : (s.masterLoad a1 a2).1.waiting = s.waiting := by
  unfold State.masterLoad
  split
  · split
    · next e => exact State.readOwn_waiting _ e
    · rfl
  · simp

@[simp] theorem State.masterStore_waiting (a1 a2) : (s.masterStore a1 a2).1.waiting = s.waiting := by simp [State.masterStore]

@[simp] theorem State.masterRefusal_waiting (a1 a2 a3 a4) : (s.masterRefusal a1 a2 a3 a4).waiting = s.waiting := by
  simp [State.masterRefusal]

@[simp] theorem State.masterAccess_waiting (a1 a2 a3) : (s.masterAccess a1 a2 a3).waiting = s.waiting := by
  unfold State.masterAccess
  extract_lets a c
  split
  · rfl
  · split
    · split
      · next e => exact State.waiting_of_fst e (State.masterStore_waiting _ _ _)
      · next e => simp [State.waiting_of_fst e (State.masterStore_waiting _ _ _)]
    · split
      · rfl
      · split
        · next e => simp [State.waiting_of_fst e (State.masterLoad_waiting _ _ _)]
        · next e => simp [State.waiting_of_fst e (State.masterLoad_waiting _ _ _)]

/-! ### Straits.lean -/

@[simp] theorem State.recvRefused_waiting (a1 a2 a3 a4 a5 a6) : (s.recvRefused a1 a2 a3 a4 a5 a6).waiting = s.waiting := by
  simp [State.recvRefused]

@[simp] theorem State.recvWrite_waiting (a1 a2 a3 a4 a5) : (s.recvWrite a1 a2 a3 a4 a5).waiting = s.waiting := by
  unfold State.recvWrite
  split
  · next e => simp [State.waiting_of_fst e (State.busStore_waiting _ _ _ _)]
  · next e => simp [State.waiting_of_fst e (State.busStore_waiting _ _ _ _)]

@[simp] theorem State.recvRead_waiting (a1 a2 a3 a4) : (s.recvRead a1 a2 a3 a4).waiting = s.waiting := by
  unfold State.recvRead
  split
  · next e => simp [State.waiting_of_fst e (State.busLoad_waiting _ _ _)]
  · next e => simp [State.waiting_of_fst e (State.busLoad_waiting _ _ _)]

@[simp] theorem State.handOver_waiting (a1 a2 a3) : (s.handOver a1 a2 a3).waiting = s.waiting := by
  simp [State.handOver]
  (repeat' split) <;> simp

@[simp] theorem State.deliverWord_waiting (a1) : (s.deliverWord a1).1.waiting = s.waiting := by
  simp [State.deliverWord]
  split <;> simp

@[simp] theorem State.deliverAll_waiting (a1 n) : (s.deliverAll a1 n).waiting = s.waiting := by
  induction n generalizing s with
  | zero => rfl
  | succ n ih => simp [State.deliverAll, ih]

@[simp] theorem State.recvGood_waiting (a1 a2 a3 a4) : (s.recvGood a1 a2 a3 a4).waiting = s.waiting := by
  unfold State.recvGood
  split <;> simp

@[simp] theorem State.damagedPair_waiting (a1 a2 a3) : (s.damagedPair a1 a2 a3).waiting = s.waiting := by
  simp [State.damagedPair]
  (repeat' split) <;> simp

@[simp] theorem State.badReply_waiting (a1) : (s.badReply a1).waiting = s.waiting := by
  unfold State.badReply
  split <;> simp

@[simp] theorem State.badQword_waiting (a1 a2 a3) : (s.badQword a1 a2 a3).waiting = s.waiting := by
  simp [State.badQword]
  split <;> simp

@[simp] theorem State.recvBad_waiting (a1 a2 a3 a4 a5) : (s.recvBad a1 a2 a3 a4 a5).waiting = s.waiting := by
  simp [State.recvBad]
  (repeat' split) <;> simp

@[simp] theorem State.recvAny_waiting (a1 a2 a3 a4) : (s.recvAny a1 a2 a3 a4).waiting = s.waiting := by
  unfold State.recvAny
  split <;> simp

@[simp] theorem State.scrub_waiting (a1 n) : (s.scrub a1 n).waiting = s.waiting := by
  induction n generalizing s with
  | zero => rfl
  | succ n ih =>
    unfold State.scrub
    split <;> simp [ih]

@[simp] theorem State.eventIf_waiting (b : Bool) {f : State → State} (hb : ∀ s : State, (f s).waiting = s.waiting) :
    (s.eventIf b f).waiting = s.waiting := by
  simp [State.eventIf, hb]

@[simp] theorem State.repeatBank_waiting (a1) : (s.repeatBank a1).waiting = s.waiting := by simp [State.repeatBank]
@[simp] theorem State.repeatChoir_waiting : s.repeatChoir.waiting = s.waiting := by simp [State.repeatChoir]
@[simp] theorem State.repeatNave_waiting : s.repeatNave.waiting = s.waiting := by simp [State.repeatNave]
@[simp] theorem State.repeatCrypt_waiting : s.repeatCrypt.waiting = s.waiting := by simp [State.repeatCrypt]

/-! ### Commands.lean -/

@[simp] theorem State.accessFault_waiting (a1 a2 a3) : (s.accessFault a1 a2 a3).waiting = s.waiting := by
  simp [State.accessFault]

@[simp] theorem State.commandStoreWith_waiting (a1 a2 a3 a4) : (s.commandStoreWith a1 a2 a3 a4).waiting = s.waiting := by
  unfold State.commandStoreWith
  split; · rfl
  split; · simp
  split; · simp
  split
  · next e => exact State.waiting_of_fst e (State.busStoreWith_waiting _ _ _ _ _)
  · next e => simp [State.waiting_of_fst e (State.busStoreWith_waiting _ _ _ _ _)]

@[simp] theorem State.commandStore_waiting (a1 a2 a3) : (s.commandStore a1 a2 a3).waiting = s.waiting := by
  simp [State.commandStore]

@[simp] theorem State.commandLoad_waiting (a1 a2) : (s.commandLoad a1 a2).waiting = s.waiting := by
  unfold State.commandLoad
  split; · rfl
  split; · simp
  split; · rfl
  split
  · split
    · simp
    · next e => simp [State.readOwn_waiting _ e]
  · split
    · next e => simp [State.waiting_of_fst e (State.busLoad_waiting _ _ _)]
    · next e => simp [State.waiting_of_fst e (State.busLoad_waiting _ _ _)]

@[simp] theorem State.poke_waiting (a1 a2 a3) : (s.poke a1 a2 a3).waiting = s.waiting := by simp [State.poke]
@[simp] theorem State.peek_waiting (a1 a2) : (s.peek a1 a2).waiting = s.waiting := by simp [State.peek]

/-! ### Commands -/

/-- An outcome is a next state whose queue is l. -/
inductive OutWaits (l : List Instr) : Out → Prop
  | next {t : State} (h : t.waiting = l) : OutWaits l (.next t)

theorem execMfs_keepsQueue (i : Issue) (rd : Reg) (sreg : BitVec 8) : OutWaits s.waiting (execMfs i rd sreg s) := by
  refine .next (State.issue_waiting _ _ _ fun s => ?_)
  split
  · next e => simp [State.readSpecial_waiting _ e]
  · simp

theorem execMts_keepsQueue (i : Issue) (sreg : BitVec 8) (ra : Reg) : OutWaits s.waiting (execMts i sreg ra s) := by
  refine .next (State.issue_waiting _ _ _ fun s => ?_)
  split
  · next e => simp [State.writeSpecial_waiting _ e]
  · simp

theorem execPush_keepsQueue (i : Issue) (mask : BitVec 16) : OutWaits s.waiting (execPush i mask s) := by
  refine .next (State.issue_waiting _ _ _ fun s => ?_)
  dsimp only
  split
  · simp
  · split
    · next e => exact State.stackFault_waiting _ e
    · simp

theorem execPop_keepsQueue (i : Issue) (mask : BitVec 16) : OutWaits s.waiting (execPop i mask s) := by
  refine .next (State.issue_waiting _ _ _ fun s => ?_)
  dsimp only
  split
  · simp
  · split
    · next e => exact State.stackFault_waiting _ e
    · split <;> simp

theorem execCimld_keepsQueue (i : Issue) (rd ra rb : Reg) : OutWaits s.waiting (execCimld i rd ra rb s) := by
  refine .next (State.issue_waiting _ _ _ fun s => ?_)
  dsimp only
  split; · simp
  split; · simp
  split; · simp
  refine State.toIsland_waiting _ _ _ _ _ fun s => ?_
  split
  · split <;> simp
  · simp

theorem execCimev_keepsQueue (i : Issue) (rd ra rb : Reg) : OutWaits s.waiting (execCimev i rd ra rb s) := by
  unfold execCimev
  refine .next (State.issue_waiting _ _ _ fun s => ?_)
  dsimp only
  (repeat' split) <;> simp

theorem execLedgCommit_keepsQueue (i : Issue) (rd : Reg) : OutWaits s.waiting (execLedgCommit i rd s) := by
  refine .next (State.issue_waiting _ _ _ fun s => ?_)
  simp

theorem execLedgLog_keepsQueue (i : Issue) (rd ra rb : Reg) : OutWaits s.waiting (execLedgLog i rd ra rb s) := by
  refine .next (State.issue_waiting _ _ _ fun s => ?_)
  simp

theorem execRoodPost_keepsQueue (i : Issue) (rd ra rb : Reg) : OutWaits s.waiting (execRoodPost i rd ra rb s) := by
  unfold execRoodPost
  dsimp only
  refine .next ?_
  split <;> simp

theorem execIsleCommandStart_keepsQueue (n : Fin 16) : OutWaits s.waiting (execIsleCommandStart n s) := by
  refine .next ?_
  (repeat' split) <;> simp

theorem execTwinClaimGrant_keepsQueue (n : Fin 16) (late : Bool) : OutWaits s.waiting (execTwinClaimGrant n late s) := by
  refine .next ?_
  split <;> simp

theorem execExclusionGrant_keepsQueue (g : Fin 16) (late : Bool) : OutWaits s.waiting (execExclusionGrant g late s) := by
  unfold execExclusionGrant
  dsimp only
  refine .next ?_
  (repeat' split) <;> simp

theorem execExclusionRelease_keepsQueue (g : Fin 16) : OutWaits s.waiting (execExclusionRelease g s) := by
  refine .next ?_
  split <;> simp

theorem execExwait_keepsQueue (n : Fin 16) : OutWaits s.waiting (execExwait n s) := by
  refine .next ?_
  split <;> simp

theorem execBurstStart_keepsQueue (n : Fin 16) (clast : Nat) : OutWaits s.waiting (execBurstStart n clast s) := by
  refine .next ?_
  split <;> simp

theorem execShort_keepsQueue (n : Fin 16) : OutWaits s.waiting (execShort n s) := by
  refine .next ?_
  split <;> simp

theorem execWindowOpen_keepsQueue (n : Fin 16) (first : List Sample) (o : List (BitVec 3)) :
    OutWaits s.waiting (execWindowOpen n first o s) := by
  unfold execWindowOpen
  dsimp only
  refine .next ?_
  simp
  (repeat' split) <;> simp

theorem execWindowClose_keepsQueue (n : Fin 16) (rest : List Sample) (crossings : List Nat) (o : List (BitVec 3)) :
    OutWaits s.waiting (execWindowClose n rest crossings o s) := by
  refine .next ?_
  (repeat' split) <;> simp

theorem execLagTimeout_keepsQueue (n : Fin 16) : OutWaits s.waiting (execLagTimeout n s) := by
  refine .next ?_
  split <;> simp

theorem execNoverdict_keepsQueue (n : Fin 16) : OutWaits s.waiting (execNoverdict n s) := by
  refine .next ?_
  split <;> simp

theorem execRtdChargeDone_keepsQueue (n : Fin 16) (chargeNs : Nat) : OutWaits s.waiting (execRtdChargeDone n chargeNs s) := by
  refine .next ?_
  split <;> simp

theorem execRtdCrossing_keepsQueue (n : Fin 16) (taps : Nat) : OutWaits s.waiting (execRtdCrossing n taps s) := by
  refine .next ?_
  split <;> simp

theorem execRtdopen_keepsQueue (n : Fin 16) : OutWaits s.waiting (execRtdopen n s) := by
  refine .next ?_
  split <;> simp

theorem execCapshort_keepsQueue (n : Fin 16) : OutWaits s.waiting (execCapshort n s) := by
  refine .next ?_
  split <;> simp

theorem execTimeDomainEval_keepsQueue (bk : Fin 4) : OutWaits s.waiting (execTimeDomainEval bk s) := by
  refine .next ?_
  (repeat' split) <;> simp

theorem execDigitalEval_keepsQueue (bk : Fin 4) (bad1 : List CellAt) (drifted : List RowAt) (bad2 : List CellAt) :
    OutWaits s.waiting (execDigitalEval bk bad1 drifted bad2 s) := by
  refine .next ?_
  (repeat' split) <;> simp

theorem execThrdataAccess_keepsQueue (c : CoreId) (bk : Fin 4) (write : Option Word) :
    OutWaits s.waiting (execThrdataAccess c bk write s) := by
  cases write
  · exact .next (s.peek_waiting c _)
  · exact .next (s.poke_waiting c _ _)

theorem execQtyTakePacket_keepsQueue : OutWaits s.waiting (execQtyTakePacket s) := by
  unfold execQtyTakePacket
  dsimp only
  refine .next ?_
  (repeat' split) <;> simp

theorem execCommitComplete_keepsQueue (readsBack : Bool) : OutWaits s.waiting (execCommitComplete readsBack s) := by
  refine .next ?_
  split <;> simp

theorem execFloodRelay_keepsQueue (q : Fin 2) : OutWaits s.waiting (execFloodRelay q s) := by
  refine .next ?_
  split <;> simp

theorem execSeenCacheExpiry_keepsQueue : OutWaits s.waiting (execSeenCacheExpiry s) := by
  refine .next ?_
  split <;> simp

theorem execSlotStart_keepsQueue (q : Fin 2) : OutWaits s.waiting (execSlotStart q s) := by
  refine .next ?_
  (repeat' split) <;> simp

theorem execFrameTransmit_keepsQueue (q : Fin 2) (energy : BitVec 8) : OutWaits s.waiting (execFrameTransmit q energy s) := by
  refine .next ?_
  (repeat' split) <;> simp

theorem execFrameTransmitEnd_keepsQueue (q : Fin 2) : OutWaits s.waiting (execFrameTransmitEnd q s) := by
  unfold execFrameTransmitEnd
  dsimp only
  refine .next ?_
  (repeat' split) <;> simp

theorem execAckTimeout_keepsQueue (q : Fin 2) : OutWaits s.waiting (execAckTimeout q s) := by
  unfold execAckTimeout
  dsimp only
  refine .next ?_
  (repeat' split) <;> simp

theorem execFrameReceive_keepsQueue (q : Fin 2) (f : RxFrame) : OutWaits s.waiting (execFrameReceive q f s) := by
  refine .next ?_
  (repeat' split) <;> simp

theorem execAckTransmit_keepsQueue (q : Fin 2) : OutWaits s.waiting (execAckTransmit q s) := by
  refine .next ?_
  dsimp only
  split
  · split; · simp
    split; · simp
    split
    · simp
    · next e => simp [State.sealAck_waiting _ e]
  · rfl

theorem execEvwaitTimeout_keepsQueue (c : CoreId) : OutWaits s.waiting (execEvwaitTimeout c s) := by
  refine .next ?_
  split <;> simp

theorem execKeyCommandDone_keepsQueue (half : SacrHalf) : OutWaits s.waiting (execKeyCommandDone half s) := by
  refine .next ?_
  split <;> simp

theorem execMacTagReady_keepsQueue : OutWaits s.waiting (execMacTagReady s) := by
  refine .next ?_
  split <;> simp

theorem execServiceLoaderFrame_keepsQueue (c : CoreId) (f : LoaderFrame) :
    OutWaits s.waiting (execServiceLoaderFrame c f s) := by
  refine .next ?_
  (repeat' split) <;> simp

theorem execNrstReset_keepsQueue : OutWaits s.waiting (execNrstReset s) := by
  refine .next ?_
  (repeat' split) <;> simp

theorem execQueueDeliver_keepsQueue (q : Fin 256) : OutWaits s.waiting (execQueueDeliver q s) := by
  refine .next ?_
  split <;> simp

theorem execNrstRelease_keepsQueue : OutWaits s.waiting (execNrstRelease s) := by
  refine .next ?_
  split <;> simp

/-- Every command leaves the queue of waiting commands as it stands. -/
theorem exec_keepsQueue (i : Instr) : OutWaits s.waiting (exec i s) := by
  cases i
  case mfs => exact execMfs_keepsQueue s _ _ _
  case mts => exact execMts_keepsQueue s _ _ _
  case push => exact execPush_keepsQueue s _ _
  case pop => exact execPop_keepsQueue s _ _
  case cimld => exact execCimld_keepsQueue s _ _ _ _
  case cimev => exact execCimev_keepsQueue s _ _ _ _
  case ledgCommit => exact execLedgCommit_keepsQueue s _ _
  case ledgLog => exact execLedgLog_keepsQueue s _ _ _ _
  case roodPost => exact execRoodPost_keepsQueue s _ _ _ _
  case isleCommandStart => exact execIsleCommandStart_keepsQueue s _
  case twinClaimGrant => exact execTwinClaimGrant_keepsQueue s _ _
  case exclusionGrant => exact execExclusionGrant_keepsQueue s _ _
  case exclusionRelease => exact execExclusionRelease_keepsQueue s _
  case exwait => exact execExwait_keepsQueue s _
  case burstStart => exact execBurstStart_keepsQueue s _ _
  case short => exact execShort_keepsQueue s _
  case windowOpen => exact execWindowOpen_keepsQueue s _ _ _
  case windowClose => exact execWindowClose_keepsQueue s _ _ _ _
  case lagTimeout => exact execLagTimeout_keepsQueue s _
  case noverdict => exact execNoverdict_keepsQueue s _
  case rtdChargeDone => exact execRtdChargeDone_keepsQueue s _ _
  case rtdCrossing => exact execRtdCrossing_keepsQueue s _ _
  case rtdopen => exact execRtdopen_keepsQueue s _
  case capshort => exact execCapshort_keepsQueue s _
  case timeDomainEval => exact execTimeDomainEval_keepsQueue s _
  case digitalEval => exact execDigitalEval_keepsQueue s _ _ _ _
  case thrdataAccess => exact execThrdataAccess_keepsQueue s _ _ _
  case qtyTakePacket => exact execQtyTakePacket_keepsQueue s
  case commitComplete => exact execCommitComplete_keepsQueue s _
  case floodRelay => exact execFloodRelay_keepsQueue s _
  case seenCacheExpiry => exact execSeenCacheExpiry_keepsQueue s
  case slotStart => exact execSlotStart_keepsQueue s _
  case frameTransmit => exact execFrameTransmit_keepsQueue s _ _
  case frameTransmitEnd => exact execFrameTransmitEnd_keepsQueue s _
  case ackTimeout => exact execAckTimeout_keepsQueue s _
  case frameReceive => exact execFrameReceive_keepsQueue s _ _
  case ackTransmit => exact execAckTransmit_keepsQueue s _
  case evwaitTimeout => exact execEvwaitTimeout_keepsQueue s _
  case keyCommandDone => exact execKeyCommandDone_keepsQueue s _
  case macTagReady => exact execMacTagReady_keepsQueue s
  case serviceLoaderFrame => exact execServiceLoaderFrame_keepsQueue s _ _
  case nrstReset => exact execNrstReset_keepsQueue s
  case queueDeliver => exact execQueueDeliver_keepsQueue s _
  case nrstRelease => exact execNrstRelease_keepsQueue s
  all_goals
    refine .next ?_
    simp

end Sys2Proof.Machine

open Sys2Proof Sys2Proof.Machine in
/-- Settles O3: the law of the functions, command by command. -/
theorem execKeepsTheQueue : Obligations.ExecKeepsTheQueue := by
  unfold Obligations.ExecKeepsTheQueue
  intro i s t h
  have hout := exec_keepsQueue s i
  rw [h] at hout
  obtain ⟨hwaiting⟩ := hout
  exact hwaiting

end

section
/-! O6: the words of the core instructions (R115 to R119, R124, R147): the fields of a word of each format, the word that
has given fields, and the two directions of the encoding. -/
namespace Sys2Proof

/-! ### The fields of a word of each format (R115) -/

theorem extractLsb'_toNat_div {m : Nat} (w : BitVec m) (lo n : Nat) : (w.extractLsb' lo n).toNat = w.toNat / 2 ^ lo % 2 ^ n := by
  rw [BitVec.extractLsb'_toNat, Nat.shiftRight_eq_div_pow]

/-- Bits of the immediate, taken from the word at once. -/
theorem extractLsb'_imm18Of (w : Word) {lo n : Nat} (h : lo + n ≤ 18) : w.extractLsb' lo n = (imm18Of w).extractLsb' lo n := by
  apply BitVec.eq_of_getLsbD_eq
  intro j hj
  simp only [imm18Of, BitVec.getLsbD_extractLsb', show lo + j < 18 by omega, hj, decide_true, Bool.true_and, Nat.zero_add]

section Fields

variable {op rd ra rb fn imm : Nat}

theorem opOf_formJ (hop : op < 64) (himm : imm < 2 ^ 26) : opOf (formJ op imm) = op := by
  simp only [opOf, formJ, extractLsb'_toNat_div, BitVec.toNat_ofNat]; omega

theorem off26Of_formJ : off26Of (formJ op imm) = BitVec.ofNat 26 imm := by
  simp only [off26Of, formJ, BitVec.toNat_eq, extractLsb'_toNat_div, BitVec.toNat_ofNat]; omega

theorem opOf_formU (hop : op < 64) (hrd : rd < 16) (himm : imm < 2 ^ 22) : opOf (formU op rd imm) = op := by
  simp only [opOf, formU, extractLsb'_toNat_div, BitVec.toNat_ofNat]; omega

theorem rdOf_formU (himm : imm < 2 ^ 22) : rdOf (formU op rd imm) = BitVec.ofNat 4 rd := by
  simp only [rdOf, formU, BitVec.toNat_eq, extractLsb'_toNat_div, BitVec.toNat_ofNat]; omega

theorem imm22Of_formU : imm22Of (formU op rd imm) = BitVec.ofNat 22 imm := by
  simp only [imm22Of, formU, BitVec.toNat_eq, extractLsb'_toNat_div, BitVec.toNat_ofNat]; omega

/-- The immediate of `lui` has 16 bits (R117). -/
theorem imm16_formU : (formU op rd imm).extractLsb' 0 16 = BitVec.ofNat 16 imm := by
  simp only [formU, BitVec.toNat_eq, extractLsb'_toNat_div, BitVec.toNat_ofNat]; omega

/-- The six bits above the immediate of `lui` are reserved (R117). -/
theorem luiReserved_formU (himm : imm < 2 ^ 16) : (formU op rd imm).extractLsb' 16 6 = 0 := by
  simp only [formU, BitVec.toNat_eq, extractLsb'_toNat_div, BitVec.toNat_ofNat, BitVec.ofNat_eq_ofNat]; omega

theorem opOf_formI (hop : op < 64) (hrd : rd < 16) (hra : ra < 16) (himm : imm < 2 ^ 18) : opOf (formI op rd ra imm) = op := by
  simp only [opOf, formI, extractLsb'_toNat_div, BitVec.toNat_ofNat]; omega

theorem rdOf_formI (hra : ra < 16) (himm : imm < 2 ^ 18) : rdOf (formI op rd ra imm) = BitVec.ofNat 4 rd := by
  simp only [rdOf, formI, BitVec.toNat_eq, extractLsb'_toNat_div, BitVec.toNat_ofNat]; omega

theorem raOf_formI (himm : imm < 2 ^ 18) : raOf (formI op rd ra imm) = BitVec.ofNat 4 ra := by
  simp only [raOf, formI, BitVec.toNat_eq, extractLsb'_toNat_div, BitVec.toNat_ofNat]; omega

theorem imm18Of_formI : imm18Of (formI op rd ra imm) = BitVec.ofNat 18 imm := by
  simp only [imm18Of, formI, BitVec.toNat_eq, extractLsb'_toNat_div, BitVec.toNat_ofNat]; omega

/-- Bits of the immediate of format I. -/
theorem extractLsb'_formI (himm : imm < 2 ^ 18) {lo n : Nat} (h : lo + n ≤ 18) :
    (formI op rd ra imm).extractLsb' lo n = BitVec.ofNat n (imm / 2 ^ lo) := by
  rw [extractLsb'_imm18Of _ h, imm18Of_formI]
  simp only [BitVec.toNat_eq, BitVec.extractLsb'_toNat, BitVec.toNat_ofNat, Nat.shiftRight_eq_div_pow, Nat.mod_eq_of_lt himm]

theorem fnOf_formI (himm : imm < 2 ^ 18) : fnOf (formI op rd ra imm) = imm % 16 := by
  rw [fnOf, extractLsb'_formI himm (by decide), BitVec.toNat_ofNat, Nat.pow_zero, Nat.div_one]

/-- The mask of `push` and `pop` has 16 bits; those above it up to the opcode are reserved (R129). -/
theorem maskReserved_formI (himm : imm < 2 ^ 16) : (formI op 0 0 imm).extractLsb' 16 10 = 0 := by
  simp only [formI, BitVec.toNat_eq, extractLsb'_toNat_div, BitVec.toNat_ofNat, BitVec.ofNat_eq_ofNat]; omega

theorem opOf_formT (hop : op < 64) (hrd : rd < 16) (hra : ra < 16) (hrb : rb < 16) (hfn : fn < 16) :
    opOf (formT op rd ra rb fn) = op := by
  simp only [opOf, formT, extractLsb'_toNat_div, BitVec.toNat_ofNat]; omega

theorem rdOf_formT (hra : ra < 16) (hrb : rb < 16) (hfn : fn < 16) : rdOf (formT op rd ra rb fn) = BitVec.ofNat 4 rd := by
  simp only [rdOf, formT, BitVec.toNat_eq, extractLsb'_toNat_div, BitVec.toNat_ofNat]; omega

theorem raOf_formT (hrb : rb < 16) (hfn : fn < 16) : raOf (formT op rd ra rb fn) = BitVec.ofNat 4 ra := by
  simp only [raOf, formT, BitVec.toNat_eq, extractLsb'_toNat_div, BitVec.toNat_ofNat]; omega

theorem rbOf_formT (hfn : fn < 16) : rbOf (formT op rd ra rb fn) = BitVec.ofNat 4 rb := by
  simp only [rbOf, formT, BitVec.toNat_eq, extractLsb'_toNat_div, BitVec.toNat_ofNat]; omega

theorem resOf_formT (hfn : fn < 16) : resOf (formT op rd ra rb fn) = 0 := by
  simp only [resOf, formT, BitVec.toNat_eq, extractLsb'_toNat_div, BitVec.toNat_ofNat, BitVec.ofNat_eq_ofNat]; omega

theorem fnOf_formT (hfn : fn < 16) : fnOf (formT op rd ra rb fn) = fn := by
  simp only [fnOf, formT, extractLsb'_toNat_div, BitVec.toNat_ofNat]; omega

end Fields

/-! ### The words of the shifts, of `shot` and of `brk` (R117, R124, R147) -/

theorem shiftWord_fields {kind : Nat} (hk : kind < 4) (rd ra : BitVec 4) (n : BitVec 5) :
    let w := formI 0x06 rd.toNat ra.toNat (shiftImm kind n.toNat)
    opOf w = 0x06 ∧ rdOf w = rd ∧ raOf w = ra ∧ w.extractLsb' 7 11 = 0 ∧ w.extractLsb' 5 2 = BitVec.ofNat 2 kind ∧
      w.extractLsb' 0 5 = n := by
  simp only [opOf, rdOf, raOf, formI, shiftImm, BitVec.toNat_eq, extractLsb'_toNat_div, BitVec.toNat_ofNat, BitVec.ofNat_eq_ofNat]
  omega

theorem shotWord_fields {op : Nat} (hop : op < 64) (ra : BitVec 4) (seq : BitVec 8) (dir : Bool) :
    let w := formI op 0 ra.toNat (shotImm seq.toNat dir)
    opOf w = op ∧ rdOf w = 0 ∧ raOf w = ra ∧ w.extractLsb' 9 9 = 0 ∧ w.getLsbD 8 = dir ∧ w.extractLsb' 0 8 = seq := by
  have hbit : ∀ w : Word, w.getLsbD 8 = decide (w.toNat / 2 ^ 8 % 2 = 1) := fun w => Nat.testBit_eq_decide_div_mod_eq
  simp only [opOf, rdOf, raOf, formI, shotImm, hbit, BitVec.toNat_eq, extractLsb'_toNat_div, BitVec.toNat_ofNat, BitVec.ofNat_eq_ofNat]
  cases dir <;> simp only [Bool.false_eq_true, if_true, if_false, decide_eq_true_eq, decide_eq_false_iff_not] <;> omega

theorem brkImm_div (code : BitVec 14) : (code.toNat * 16 + 1) / 16 = code.toNat := by omega

/-! ### From the instruction to its word and back -/

theorem decode_encode {c : CoreId} {w : Word} {i : Instr} (hi : i.issue? = some ⟨c, true⟩) (hw : encodeProlu i = some w) :
    decodeProlu c w = i := by
  cases i <;> cases hi <;> cases hw
  case add | sub | adc | sbc | and | or | xor | andn | shl | shr | sar | ror | mul | mulh | mulhu =>
    simp (disch := omega) [decodeProlu, decodeAlu, opOf_formT, rdOf_formT, raOf_formT, rbOf_formT, resOf_formT, fnOf_formT]
  case div | divu | rem | remu | clz | rev | sxb | sxh =>
    simp (disch := omega) [decodeProlu, decodeExt, opOf_formT, rdOf_formT, raOf_formT, rbOf_formT, resOf_formT, fnOf_formT]
  case addi | andi | ori | xori | cmpi | ldw | ldh | ldhs | ldb | ldbs | stw | sth | stb =>
    simp (disch := omega) [decodeProlu, opOf_formI, rdOf_formI, raOf_formI, imm18Of_formI]
  case shli rd ra n | shri rd ra n | sari rd ra n | rori rd ra n =>
    simp [decodeProlu, decodeShift, shiftWord_fields]
  case ldi | adr | bcc | cbz | cbnz =>
    simp (disch := omega) [decodeProlu, opOf_formU, rdOf_formU, imm22Of_formU]
  case lui => simp (disch := omega) [decodeProlu, opOf_formU, rdOf_formU, imm16_formU, luiReserved_formU]
  case b | jal => simp (disch := omega) [decodeProlu, opOf_formJ, off26Of_formJ]
  case push | pop => simp (disch := omega) [decodeProlu, opOf_formI, extractLsb'_formI, maskReserved_formI]
  case jalr | mfs | mts =>
    simp (disch := omega) [decodeProlu, opOf_formI, rdOf_formI, raOf_formI, extractLsb'_formI, Nat.div_eq_of_lt]
  case nop | brk | rfe | evset | evclr | evpoll =>
    simp (disch := omega) [decodeProlu, decodeSys, opOf_formI, rdOf_formI, raOf_formI, fnOf_formI, extractLsb'_formI, brkImm_div]
  case shot ra seq dir | shot2 ra seq dir =>
    simp [decodeProlu, decodeDevice, shotWord_fields, -BitVec.getLsbD_eq_getElem]
  all_goals
    simp (disch := omega) [decodeProlu, decodeDevice, opOf_formT, rdOf_formT, raOf_formT, rbOf_formT, resOf_formT, fnOf_formT]

/-! ### The word of given fields (R115) -/

section Words

variable {w : Word} {op fn : Nat} (hop : opOf w = op)
include hop

theorem formT_eq (hres : resOf w = 0) (hfn : fnOf w = fn) : formT op (rdOf w).toNat (raOf w).toNat (rbOf w).toNat fn = w := by
  subst hop hfn
  simp only [resOf, BitVec.toNat_eq, extractLsb'_toNat_div, BitVec.ofNat_eq_ofNat, BitVec.toNat_ofNat] at hres
  simp only [formT, opOf, rdOf, raOf, rbOf, fnOf, BitVec.toNat_eq, extractLsb'_toNat_div, BitVec.toNat_ofNat]
  omega

theorem formI_eq : formI op (rdOf w).toNat (raOf w).toNat (imm18Of w).toNat = w := by
  subst hop
  simp only [formI, opOf, rdOf, raOf, imm18Of, BitVec.toNat_eq, extractLsb'_toNat_div, BitVec.toNat_ofNat]
  omega

theorem formU_eq : formU op (rdOf w).toNat (imm22Of w).toNat = w := by
  subst hop
  simp only [formU, opOf, rdOf, imm22Of, BitVec.toNat_eq, extractLsb'_toNat_div, BitVec.toNat_ofNat]
  omega

theorem formJ_eq : formJ op (off26Of w).toNat = w := by
  subst hop
  simp only [formJ, opOf, off26Of, BitVec.toNat_eq, extractLsb'_toNat_div, BitVec.toNat_ofNat]
  omega

/-- A word of format T whose rb is reserved. -/
theorem formT_eq_noRb (hres : resOf w = 0) (hrb : rbOf w = 0) (hfn : fnOf w = fn) :
    formT op (rdOf w).toNat (raOf w).toNat 0 fn = w := by
  have hword := formT_eq hop hres hfn
  rwa [hrb] at hword

/-- A word of format T whose ra and rb are reserved. -/
theorem formT_eq_noRa (hres : resOf w = 0) (hrb : rbOf w = 0) (hra : raOf w = 0) (hfn : fnOf w = fn) :
    formT op (rdOf w).toNat 0 0 fn = w := by
  have hword := formT_eq_noRb hop hres hrb hfn
  rwa [hra] at hword

/-- A word of format I whose rd and ra are reserved, with those bits of its immediate. -/
theorem formI_eq_off26 : formI op 0 0 (off26Of w).toNat = w := by
  unfold formI
  rw [Nat.zero_mul, Nat.zero_mul, Nat.add_zero]
  exact formJ_eq hop

end Words

/-- Above a field of reserved bits that are 0, the low bits say the same. -/
theorem low_of_reserved {w : Word} {n m : Nat} (h : w.extractLsb' n m = 0) :
    (w.extractLsb' 0 n).toNat = (w.extractLsb' 0 (n + m)).toNat := by
  have hzero : w.toNat / 2 ^ n % 2 ^ m = 0 := by rw [← extractLsb'_toNat_div, h]; exact BitVec.toNat_zero
  rw [extractLsb'_toNat_div, extractLsb'_toNat_div, Nat.pow_zero, Nat.div_one, Nat.pow_add, Nat.mod_mul, hzero,
    Nat.mul_zero, Nat.add_zero]

/-! ### From the word to its instruction and back, group by group -/

section Groups

variable {c : CoreId} {w : Word}

theorem encode_decodeAlu (hop : opOf w = 0x00) (h : (decodeAlu ⟨c, resOf w == 0⟩ w).issue? = some ⟨c, true⟩) :
    encodeProlu (decodeAlu ⟨c, resOf w == 0⟩ w) = some w := by
  revert h
  unfold decodeAlu
  split <;> intro h
  case h_16 => cases h
  all_goals
    simp only [Instr.issue?, Option.some.injEq, Issue.mk.injEq, beq_iff_eq, true_and] at h
    exact congrArg some (formT_eq hop h ‹_›)

theorem encode_decodeExt (hop : opOf w = 0x01) (h : (decodeExt ⟨c, resOf w == 0⟩ w).issue? = some ⟨c, true⟩) :
    encodeProlu (decodeExt ⟨c, resOf w == 0⟩ w) = some w := by
  revert h
  unfold decodeExt
  dsimp only
  split <;> intro h
  case h_9 => cases h
  all_goals
    simp only [Instr.issue?, Option.some.injEq, Issue.mk.injEq, Bool.and_eq_true, beq_iff_eq, true_and] at h
  case h_1 | h_2 | h_3 | h_4 => exact congrArg some (formT_eq hop h ‹_›)
  case h_5 | h_6 | h_7 | h_8 => exact congrArg some (formT_eq_noRb hop h.1 h.2 ‹_›)

theorem encode_decodeShift (hop : opOf w = 0x06) (h : (decodeShift c w).issue? = some ⟨c, true⟩) :
    encodeProlu (decodeShift c w) = some w := by
  have himm : w.extractLsb' 7 11 = 0 →
      shiftImm (w.extractLsb' 5 2).toNat (w.extractLsb' 0 5).toNat = (imm18Of w).toNat := by
    simp only [shiftImm, imm18Of, BitVec.toNat_eq, extractLsb'_toNat_div, BitVec.ofNat_eq_ofNat, BitVec.toNat_ofNat]
    omega
  have hkind := (w.extractLsb' 5 2).isLt
  revert h
  unfold decodeShift
  dsimp only
  split <;> intro h <;> simp only [Instr.issue?, Option.some.injEq, Issue.mk.injEq, beq_iff_eq, true_and] at h
  case h_1 hk | h_2 hk | h_3 hk =>
    rw [hk] at himm
    exact congrArg some ((congrArg _ (himm h)).trans (formI_eq hop))
  case h_4 h0 h1 h2 =>
    simp only [imp_false] at h0 h1 h2
    have hthree : (w.extractLsb' 5 2).toNat = 3 := by omega
    rw [hthree] at himm
    exact congrArg some ((congrArg _ (himm h)).trans (formI_eq hop))

theorem encode_decodeSys (hop : opOf w = 0x1B) (h : (decodeSys c w).issue? = some ⟨c, true⟩) :
    encodeProlu (decodeSys c w) = some w := by
  have hword := formI_eq hop
  have himm : (imm18Of w).toNat = (w.extractLsb' 4 14).toNat * 16 + fnOf w := by
    simp only [fnOf, imm18Of, extractLsb'_toNat_div]
    omega
  revert h
  unfold decodeSys
  dsimp only
  split <;> intro h
  case h_7 => cases h
  all_goals
    next hfn =>
    simp only [Instr.issue?, Option.some.injEq, Issue.mk.injEq, Bool.and_eq_true, beq_iff_eq, true_and] at h
    rw [himm, hfn] at hword
    refine congrArg some (Eq.trans ?_ hword)
    simp only [h, BitVec.ofNat_eq_ofNat, BitVec.toNat_ofNat, Nat.zero_mod, Nat.zero_mul, Nat.zero_add]

theorem encode_decodeDevice (h : (decodeDevice c w).issue? = some ⟨c, true⟩) :
    encodeProlu (decodeDevice c w) = some w := by
  have himm : w.extractLsb' 9 9 = 0 → shotImm (w.extractLsb' 0 8).toNat (w.getLsbD 8) = (imm18Of w).toNat := by
    have hbit : w.getLsbD 8 = decide (w.toNat / 2 ^ 8 % 2 = 1) := Nat.testBit_eq_decide_div_mod_eq
    simp only [shotImm, imm18Of, hbit, BitVec.toNat_eq, extractLsb'_toNat_div, BitVec.ofNat_eq_ofNat, BitVec.toNat_ofNat,
      decide_eq_true_eq]
    split <;> omega
  revert h
  unfold decodeDevice
  dsimp only
  split <;> intro h
  case h_1 hop | h_2 hop =>
    simp only [Instr.issue?, Option.some.injEq, Issue.mk.injEq, Bool.and_eq_true, beq_iff_eq, true_and] at h
    have hword := formI_eq hop
    rw [h.1] at hword
    exact congrArg some ((congrArg _ (himm h.2)).trans hword)
  case h_3 hop | h_12 hop =>
    simp only [Instr.issue?, Option.some.injEq, Issue.mk.injEq, Bool.and_eq_true, beq_iff_eq, true_and] at h
    exact congrArg some (formT_eq_noRb hop h.1.1 h.1.2 h.2)
  case h_4 hop | h_5 hop | h_6 hop | h_7 hop =>
    simp only [Instr.issue?, Option.some.injEq, Issue.mk.injEq, Bool.and_eq_true, beq_iff_eq, true_and] at h
    exact congrArg some (formT_eq hop h.1 h.2)
  case h_8 hop =>
    revert h
    split <;> intro h <;> simp only [Instr.issue?, Option.some.injEq, Issue.mk.injEq, beq_iff_eq, true_and] at h
    case h_1 hfn | h_2 hfn | h_3 hfn => exact congrArg some (formT_eq hop h hfn)
    case h_4 => cases h
  case h_9 hop =>
    revert h
    split <;> intro h <;> simp only [Instr.issue?, Option.some.injEq, Issue.mk.injEq, beq_iff_eq, true_and] at h
    case h_1 hfn | h_2 hfn | h_3 hfn | h_4 hfn => exact congrArg some (formT_eq hop h hfn)
    case h_5 => cases h
  case h_10 hop =>
    revert h
    split <;> intro h <;> simp only [Instr.issue?, Option.some.injEq, Issue.mk.injEq, Bool.and_eq_true, beq_iff_eq, true_and] at h
    case h_1 hfn => exact congrArg some (formT_eq_noRa hop h.1.1 h.1.2 h.2 hfn)
    case h_2 hfn => exact congrArg some (formT_eq hop h hfn)
    case h_3 => cases h
  case h_11 hop =>
    revert h
    split <;> intro h <;> simp only [Instr.issue?, Option.some.injEq, Issue.mk.injEq, Bool.and_eq_true, beq_iff_eq, true_and] at h
    case h_1 hfn => exact congrArg some (formT_eq_noRb hop h.1 h.2 hfn)
    case h_2 hfn => exact congrArg some (formT_eq_noRa hop h.1.1 h.1.2 h.2 hfn)
    case h_3 => cases h
  case h_13 hop =>
    revert h
    split <;> intro h <;> simp only [Instr.issue?, Option.some.injEq, Issue.mk.injEq, Bool.and_eq_true, beq_iff_eq, true_and] at h
    case h_1 hfn => exact congrArg some (formT_eq hop h hfn)
    case h_2 hfn => exact congrArg some (formT_eq_noRb hop h.1 h.2 hfn)
    case h_3 => cases h
  case h_14 => cases h

theorem encode_decode (h : (decodeProlu c w).issue? = some ⟨c, true⟩) : encodeProlu (decodeProlu c w) = some w := by
  revert h
  unfold decodeProlu
  dsimp only
  split
  case h_1 hop => exact encode_decodeAlu hop
  case h_2 hop => exact encode_decodeExt hop
  case h_7 hop => exact encode_decodeShift hop
  case h_28 hop => exact encode_decodeSys hop
  case h_32 => exact encode_decodeDevice
  all_goals intro h
  case h_3 hop | h_4 hop | h_5 hop | h_6 hop | h_11 hop | h_12 hop | h_13 hop | h_14 hop | h_15 hop | h_16 hop | h_17 hop |
      h_18 hop => exact congrArg some (formI_eq hop)
  case h_9 hop | h_21 hop | h_22 hop | h_26 hop | h_27 hop => exact congrArg some (formU_eq hop)
  case h_23 hop | h_24 hop => exact congrArg some (formJ_eq hop)
  all_goals simp only [Instr.issue?, Option.some.injEq, Issue.mk.injEq, Bool.and_eq_true, beq_iff_eq, true_and] at h
  case h_8 hop =>
    have hword := formI_eq hop
    rw [h] at hword
    exact congrArg some hword
  case h_10 hop => exact congrArg some ((congrArg _ (low_of_reserved h)).trans (formU_eq hop))
  case h_19 hop | h_20 hop => exact congrArg some ((congrArg _ (low_of_reserved h)).trans (formI_eq_off26 hop))
  case h_25 hop =>
    have hword := formI_eq hop
    rw [show imm18Of w = 0 from h] at hword
    exact congrArg some hword
  case h_29 hop | h_30 hop =>
    have hword := formI_eq hop
    rw [h.1] at hword
    exact congrArg some ((congrArg _ (low_of_reserved h.2)).trans hword)
  case h_31 hop => exact congrArg some (formT_eq hop h.1 h.2)

theorem decodeDevice_of_reserved (hop : opOf w < 0x20 ∨ 0x2D ≤ opOf w) : decodeDevice c w = illegalWord c := by
  unfold decodeDevice
  dsimp only
  split
  case h_14 => rfl
  all_goals
    next h =>
    rw [h] at hop
    exact absurd hop (by decide)

/-- A reserved opcode is an illegal word (R117). -/
theorem decodeProlu_of_reserved (hop : opOf w = 0x1E ∨ opOf w = 0x1F ∨ 0x2E ≤ opOf w) : decodeProlu c w = illegalWord c := by
  have hdevice : decodeDevice c w = illegalWord c := decodeDevice_of_reserved (by omega)
  unfold decodeProlu
  dsimp only
  split
  case h_32 => exact hdevice
  all_goals
    next h =>
    rw [h] at hop
    exact absurd hop (by decide)

end Groups

end Sys2Proof
end

open Sys2Proof Sys2Proof.Machine in
/-- Settles O6, from the two directions of the encoding and the decoding of a reserved opcode. -/
theorem instructionWordsDecodeToTheirInstructions : Obligations.InstructionWordsDecodeToTheirInstructions := by
  unfold Obligations.InstructionWordsDecodeToTheirInstructions
  intro c w
  refine ⟨fun i => decode_encode, encode_decode, fun n hop hn => decodeProlu_of_reserved ?_⟩
  have hop : opOf w = n.val := by
    unfold opOf
    rw [hop, BitVec.toNat_ofNat]
    omega
  omega

section
/-! Laws of the core instructions that change their core alone: the state that the issue leaves, what stands in it, and the
ends in the next word, in a jump and in a fault (R113, R120, R139, R143). -/
namespace Sys2Proof.Machine

/-! ### The core after each shared operation -/

/-- MEMERR once the fetched word is corrected (R131). -/
def Core.fetchErr (k : Core) : Word := if k.isSingle k.pc.toNat then (k.countCorr k.pc.toNat).memerr else k.memerr

theorem Core.fetched_eq (k : Core) (srcs : List Reg) :
    k.fetched srcs = { k with memerr := k.fetchErr, cycle := k.cycle + loadStall k srcs, lastLoad := none } := by
  unfold Core.fetched Core.fetchErr
  split <;> rfl

theorem Core.stepped_eq (k : Core) : k.stepped = { k with halted := k.halted || k.stepping, stepping := false } := by
  unfold Core.stepped
  cases k
  split <;> simp_all

/-- The general registers after a write; a write to w0 is discarded (R111). -/
def putGeneral (w : Vector Word 16) (r : Reg) (v : Word) : Vector Word 16 := if r = 0 then w else w.set r.toNat v r.isLt

theorem Core.setReg_eq (k : Core) (r : Reg) (v : Word) : k.setReg r v = { k with w := putGeneral k.w r v } := by
  unfold Core.setReg putGeneral
  split <;> rfl

/-- What a general register reads after a write. -/
theorem Core.reg_setReg (k : Core) (r q : Reg) (v : Word) : (k.setReg r v).reg q = if q = r ∧ r ≠ 0 then v else k.reg q := by
  split
  case isTrue h => rw [h.1]; exact k.reg_setReg_self v h.2
  case isFalse h =>
    by_cases hr : r = 0
    · rw [hr, Core.setReg_zero]
    · exact k.reg_setReg_ne v fun hq => h ⟨hq, hr⟩

/-! ### The state that an instruction leaves -/

/-- The state after an instruction that leaves its core as l, and nothing else changed. -/
def State.left (s : State) (c : CoreId) (l : Core) : State := (s.activity (coreNum c)).setCore c l.stepped

section Left

variable {s : State} {c : CoreId} {l : Core}

theorem State.core_left : (s.left c l).core c = { l with halted := l.halted || l.stepping, stepping := false } := by
  rw [← Core.stepped_eq]
  exact State.core_setCore_self _ _ _

theorem State.psr_left : ((s.left c l).core c).psr = l.psr := by rw [State.core_left]

theorem State.pc_left : ((s.left c l).core c).pc = l.pc := by rw [State.core_left]

theorem State.reg_left (q : Reg) : (s.left c l).reg c q = l.reg q := by
  unfold State.reg
  rw [State.core_left]
  rfl

theorem keepsDevice_left : KeepsDevice s (s.left c l) c := by
  unfold KeepsDevice
  rw [State.core_left, ← Core.stepped_eq]
  rfl

theorem runsOn_left (he : s.executes c = true) (hrun : l.run = (s.core c).run := by rfl)
    (hhalted : l.halted = (s.core c).halted := by rfl) (hstepping : l.stepping = (s.core c).stepping := by rfl) :
    RunsOn s (s.left c l) c := by
  unfold State.executes at he
  simp only [Bool.and_eq_true, decide_eq_true_eq, Bool.not_eq_true'] at he
  obtain ⟨⟨hrunning, hlive⟩, -⟩ := he
  unfold RunsOn
  rw [State.core_left]
  exact ⟨hrun.trans hrunning, by simp only [hhalted, hstepping, hlive, Bool.false_or], rfl⟩

theorem keepsRegs_left (hw : l.w = (s.core c).w := by rfl) : KeepsRegs s (s.left c l) c := by
  intro q
  rw [State.reg_left]
  unfold State.reg Core.reg
  rw [hw]

theorem writes_left {rd : Reg} {v : Word} (hw : l.w = putGeneral (s.core c).w rd v := by rfl) : Writes s (s.left c l) c rd v := by
  intro q
  have hreg : l.reg q = ((s.core c).setReg rd v).reg q := by
    rw [Core.setReg_eq]
    unfold Core.reg
    rw [hw]
  rw [State.reg_left, hreg, Core.reg_setReg]
  rfl

theorem keepsMemory_left (hmem : l.mem = (s.core c).mem := by rfl) (hsingle : l.single = (s.core c).single := by rfl)
    (hdouble : l.double = (s.core c).double := by rfl) : KeepsMemory s (s.left c l) c := by
  unfold KeepsMemory Core.byte
  rw [State.core_left]
  exact ⟨fun a => congrArg (tget memDefault · a) hmem, hsingle, hdouble⟩

theorem keepsSaved_left (hepsr : l.epsr = (s.core c).epsr := by rfl) (hepc : l.epc = (s.core c).epc := by rfl)
    (hfcause : l.fcause = (s.core c).fcause := by rfl) (hfaddr : l.faddr = (s.core c).faddr := by rfl) :
    KeepsSaved s (s.left c l) c := by
  unfold KeepsSaved
  rw [State.core_left]
  exact ⟨hepsr, hepc, hfcause, hfaddr⟩

theorem keepsControl_left (hfvec : l.fvec = (s.core c).fvec := by rfl) (hsplim : l.splim = (s.core c).splim := by rfl)
    (htimer : l.timer = (s.core c).timer := by rfl) (hqw : l.qw = (s.core c).qw := by rfl) :
    KeepsControl s (s.left c l) c := by
  unfold KeepsControl
  rw [State.core_left]
  exact ⟨hfvec, hsplim, htimer, hqw⟩

theorem corrects_left (hmemerr : l.memerr = (s.core c).fetchErr := by rfl) :
    Corrects s (s.left c l) c [(s.core c).pc.toNat] := by
  unfold Corrects
  rw [State.core_left]
  refine hmemerr.trans ?_
  unfold Core.fetchErr
  rw [List.foldl_cons, List.foldl_nil]
  split <;> rfl

theorem takes_left {srcs : List Reg} {n : Nat}
    (hcycle : l.cycle = (s.core c).cycle + loadStall (s.core c) srcs + BitVec.ofNat 32 n := by rfl) :
    Takes s (s.left c l) c srcs n := by
  unfold Takes
  rw [State.core_left]
  exact hcycle

theorem keepsSpecial_left (hfvec : l.fvec = (s.core c).fvec := by rfl) (hsplim : l.splim = (s.core c).splim := by rfl)
    (htimer : l.timer = (s.core c).timer := by rfl) (hqw : l.qw = (s.core c).qw := by rfl)
    (hevpend : l.evpend = (s.core c).evpend := by rfl) (hmemerr : l.memerr = (s.core c).fetchErr := by rfl) :
    KeepsSpecial s (s.left c l) c :=
  ⟨keepsControl_left hfvec hsplim htimer hqw, (congrArg Core.evpend State.core_left).trans hevpend, corrects_left hmemerr⟩

end Left

/-- A core that has worked on its general registers, its PSR, its PC and its cycle count alone. -/
def Core.worked (k : Core) (w : Vector Word 16) (psr pc cycle : Word) : Core :=
  { k with w := w, psr := psr, pc := pc, cycle := cycle, memerr := k.fetchErr, lastLoad := none }

section Ends

variable {s : State} {i : Issue}

theorem frame_worked {c : CoreId} (he : s.executes c = true) (w : Vector Word 16) (psr pc cycle : Word) :
    Frame s (s.left c ((s.core c).worked w psr pc cycle)) c :=
  ⟨keepsMemory_left, keepsSaved_left, keepsSpecial_left, keepsDevice_left, runsOn_left he⟩

theorem State.executes_of_fetches {c : CoreId} (h : s.fetches c = true) : s.executes c = true := by
  unfold State.fetches at h
  simp only [Bool.and_eq_true] at h
  exact h.1.1.1

theorem State.fetches_of_ready (h : s.ready i = true) : s.fetches i.core = true := (Bool.and_eq_true_iff.mp h).1

theorem State.executes_of_ready (h : s.ready i = true) : s.executes i.core = true :=
  State.executes_of_fetches (State.fetches_of_ready h)

/-- An instruction that is ready leaves what its body makes of the core. -/
theorem State.issue_left (h : s.ready i = true) {srcs : List Reg} {body : State → State} {l : Core}
    (hb : body (s.issued i.core srcs) = (s.issued i.core srcs).setCore i.core l) : s.issue i srcs body = s.left i.core l := by
  rw [State.issue_of_ready h, hb, State.endStep_eq, State.core_setCore_self, State.setCore_setCore]
  unfold State.issued State.left
  rw [State.setCore_setCore]

/-- What holds of the state that a ready instruction leaves. -/
theorem State.issue_next_left (h : s.ready i = true) {srcs : List Reg} {body : State → State} {P : State → Prop} (l : Core)
    (hb : body (s.issued i.core srcs) = (s.issued i.core srcs).setCore i.core l) (hp : P (s.left i.core l)) :
    ∃ t, (.next (s.issue i srcs body) : Out) = .next t ∧ P t :=
  ⟨_, congrArg Host.Outcome.next (State.issue_left h hb), hp⟩

/-! ### A result and its flags (R120) -/

theorem flagsOf_eq (psr : Word) :
    flagsOf psr = ⟨psr.getLsbD 31, psr.getLsbD 30, psr.getLsbD 29, psr.getLsbD 28⟩ := by
  unfold flagsOf
  rw [bitsOf_bit_beq _ _ (by decide), bitsOf_bit_beq _ _ (by decide), bitsOf_bit_beq _ _ (by decide),
    bitsOf_bit_beq _ _ (by decide)]

theorem flagsBecome_putFlags (psr : Word) (f : Flags) : FlagsBecome psr (putFlags psr f) f.n f.z f.c f.v := by
  have hbit : ∀ j < 32, (putFlags psr f).getLsbD j = if 28 ≤ j ∧ j ≤ 31 then
      (8 * natOfBool f.n + 4 * natOfBool f.z + 2 * natOfBool f.c + natOfBool f.v).testBit (j - 28) else psr.getLsbD j :=
    fun j hj => bitsPut_getLsbD psr _ j hj (by decide)
  have hflags : ∀ n z c v : Bool, let x := 8 * natOfBool n + 4 * natOfBool z + 2 * natOfBool c + natOfBool v
      x.testBit 3 = n ∧ x.testBit 2 = z ∧ x.testBit 1 = c ∧ x.testBit 0 = v := by decide
  obtain ⟨hn, hz, hc, hv⟩ := hflags f.n f.z f.c f.v
  exact ⟨(hbit 31 (by decide)).trans hn, (hbit 30 (by decide)).trans hz, (hbit 29 (by decide)).trans hc,
    (hbit 28 (by decide)).trans hv, fun j hj => (hbit j (by omega)).trans (if_neg (by omega))⟩

theorem State.finish_eq (c : CoreId) (rd : Reg) (r : Word) (f : Flags) (n : Nat) : s.finish c rd r f n = s.setCore c
    { s.core c with
      w := putGeneral (s.core c).w rd r, psr := putFlags (s.core c).psr f, pc := (s.core c).pc + 4
      cycle := (s.core c).cycle + BitVec.ofNat 32 n } := by
  unfold State.finish State.retire State.setReg State.onCore
  simp only [State.core_setCore_self, State.setCore_setCore, Core.setReg_eq]

/-- A ready instruction whose body ends in a result and its flags. -/
theorem State.issue_finishes (h : s.ready i = true) {srcs : List Reg} {body : State → State} {rd : Reg} {r : Word} {f : Flags}
    {n : Nat} (hb : body (s.issued i.core srcs) = (s.issued i.core srcs).finish i.core rd r f n) :
    ∃ t, (.next (s.issue i srcs body) : Out) = .next t ∧ Writes s t i.core rd r ∧
      FlagsBecome (s.core i.core).psr (t.core i.core).psr f.n f.z f.c f.v ∧ Retires s t i.core srcs n := by
  rw [State.finish_eq, State.core_issued, Core.fetched_eq] at hb
  refine ⟨_, congrArg Host.Outcome.next (State.issue_left h hb), writes_left, ?_, State.pc_left, takes_left,
    frame_worked (State.executes_of_ready h) ..⟩
  rw [State.psr_left]
  exact flagsBecome_putFlags _ _

/-- An ALU instruction ends in what its function gives. -/
theorem State.alu_ends (h : s.ready i = true) {srcs : List Reg} {rd : Reg} {a b r : Word} {f : Word → Word → Flags → Word × Flags}
    {fn fz fc fv : Bool} {n : Nat} (hf : f a b (flagsOf (s.core i.core).psr) = (r, ⟨fn, fz, fc, fv⟩)) :
    ∃ t, (.next (s.alu i srcs rd a b f n) : Out) = .next t ∧ Writes s t i.core rd r ∧
      FlagsBecome (s.core i.core).psr (t.core i.core).psr fn fz fc fv ∧ Retires s t i.core srcs n := by
  refine State.issue_finishes (f := ⟨fn, fz, fc, fv⟩) h ?_
  have hflags : (s.issued i.core srcs).flags i.core = flagsOf (s.core i.core).psr := by
    unfold State.flags
    rw [State.core_issued, Core.fetched_eq]
  dsimp only
  rw [hflags, hf]

end Ends
end Sys2Proof.Machine
end

section
/-! O7: additions and subtractions (R117, R118, R120): the signed overflow as the signs show it. -/
namespace Sys2Proof.Machine

theorem msb_eq (a : Word) : a.msb = decide (2 ^ 31 ≤ a.toNat) := BitVec.msb_eq_decide a

theorem toInt_eq (a : Word) : a.toInt = if 2 ^ 31 ≤ a.toNat then (a.toNat : Int) - 2 ^ 32 else (a.toNat : Int) := by
  rw [BitVec.toInt_eq_msb_cond, msb_eq]
  simp only [decide_eq_true_eq]
  rfl

theorem ofNat_natOfBool (b : Bool) : BitVec.ofNat 32 (natOfBool b) = if b then 1 else 0 := by cases b <;> rfl

/-- A sum overflows where its terms agree in sign and the result does not (R120). -/
theorem addOverflow_eq (a b : Word) (cin : Bool) : let r := a + b + (if cin then 1 else 0)
    decide (a.toInt + b.toInt + natOfBool cin ≠ r.toInt) = (a.msb == b.msb && r.msb != a.msb) := by
  intro r
  have hr : r.toNat = (a.toNat + b.toNat + natOfBool cin) % 2 ^ 32 := by
    simp only [r, ← ofNat_natOfBool, BitVec.toNat_add, BitVec.toNat_ofNat]
    omega
  have hcin : natOfBool cin ≤ 1 := by cases cin <;> decide
  rw [Bool.eq_iff_iff, msb_eq, msb_eq, msb_eq, toInt_eq, toInt_eq, toInt_eq]
  simp only [decide_eq_true_eq, Bool.and_eq_true, beq_iff_eq, bne_iff_ne, ne_eq, decide_eq_decide]
  split_ifs <;> omega

/-- A difference overflows where its terms differ in sign and the result differs from the first (R120). -/
theorem subOverflow_eq (a b : Word) (cin : Bool) : let r := a - b - (if cin then 0 else 1)
    decide (a.toInt - b.toInt - (1 - natOfBool cin : Nat) ≠ r.toInt) = (a.msb != b.msb && r.msb != a.msb) := by
  intro r
  have hr : r.toNat = (a.toNat + 2 ^ 33 - b.toNat - (1 - natOfBool cin)) % 2 ^ 32 := by
    cases cin <;> simp [r, natOfBool, BitVec.toNat_sub] <;> omega
  rw [Bool.eq_iff_iff, msb_eq, msb_eq, msb_eq, toInt_eq, toInt_eq, toInt_eq]
  simp only [decide_eq_true_eq, Bool.and_eq_true, bne_iff_ne, ne_eq, decide_eq_decide]
  omega

theorem addWithFlags_eq {a b r : Word} {cin : Bool} (hr : r = a + b + (if cin then 1 else 0)) : addWithFlags a b cin =
    (r, ⟨r.msb, r == 0, decide (2 ^ 32 ≤ a.toNat + b.toNat + cin.toNat), a.msb == b.msb && r.msb != a.msb⟩) := by
  subst hr
  rw [← addOverflow_eq]
  unfold addWithFlags
  rw [ofNat_natOfBool]
  cases cin <;> rfl

theorem subWithFlags_eq {a b r : Word} {cin : Bool} (hr : r = a - b - (if cin then 0 else 1)) : subWithFlags a b cin =
    (r, ⟨r.msb, r == 0, decide (b.toNat + (!cin).toNat ≤ a.toNat), a.msb != b.msb && r.msb != a.msb⟩) := by
  subst hr
  rw [← subOverflow_eq]
  unfold subWithFlags
  cases cin <;> rfl

theorem sub_beq_zero (a b : Word) : (a - b == 0) = (a == b) := by
  rw [Bool.eq_iff_iff, beq_iff_eq, beq_iff_eq]
  exact sub_eq_zero

end Sys2Proof.Machine
end

open Sys2Proof Sys2Proof.Machine in
/-- Settles O7, from the end of an ALU instruction and the flags of a sum and of a difference. -/
theorem addAndSubtractSetResultAndFlags : Obligations.AddAndSubtractSetResultAndFlags := by
  unfold Obligations.AddAndSubtractSetResultAndFlags
  intro s i rd ra rb imm h c a b x cin psr addV subV ends
  have hcin : (flagsOf (s.core i.core).psr).c = cin := by rw [flagsOf_eq]; rfl
  have sum : ∀ y : Word, addWithFlags a y false = (a + y, ⟨(a + y).msb, a + y == 0, decide (2 ^ 32 ≤ a.toNat + y.toNat),
      addV a y (a + y)⟩) := fun y => addWithFlags_eq (BitVec.add_zero _).symm
  have difference : ∀ y : Word, subWithFlags a y true = (a - y, ⟨(a - y).msb, a - y == 0, decide (y ≤ a),
      subV a y (a - y)⟩) := fun y => subWithFlags_eq (BitVec.sub_zero _).symm
  refine ⟨State.alu_ends h (sum b), State.alu_ends h (difference b), ?adc,
    ?sbc, State.alu_ends h (sum x), ?cmpi⟩
  case adc => exact State.alu_ends h ((congrArg (addWithFlags a b) hcin).trans (addWithFlags_eq rfl))
  case sbc => exact State.alu_ends h ((congrArg (subWithFlags a b) hcin).trans (subWithFlags_eq rfl))
  case cmpi =>
    obtain ⟨t, hexec, hkeep, hflags, hretires⟩ :=
      State.alu_ends h (difference x) (f := fun a b _ => subWithFlags a b true) (srcs := [ra]) (rd := 0) (n := 1)
    refine ⟨t, hexec, fun q => (hkeep q).trans (if_neg fun h0 => h0.2 rfl), ?_, hretires⟩
    rw [← sub_beq_zero]
    exact hflags

section
/-! O8: logic operations, multiplies and the unary functions (R117 to R120). -/
namespace Sys2Proof.Machine

/-- N and Z by the result, C and V as they were (R120). -/
theorem flagsNZ_eq {psr r v : Word} (hr : v = r) : (v, flagsNZ (flagsOf psr) v) =
    (r, ⟨r.msb, r == 0, psr.getLsbD 29, psr.getLsbD 28⟩) := by
  rw [flagsOf_eq, hr]
  rfl

theorem mul_eq_ofNat (a b : Word) : a * b = BitVec.ofNat 32 (a.toNat * b.toNat) :=
  BitVec.eq_of_toNat_eq (by rw [BitVec.toNat_mul, BitVec.toNat_ofNat])

/-- The high word of the signed product of the sign-extended operands. -/
theorem mulHigh_eq (a b : Word) : mulHigh a b = (a.signExtend 64 * b.signExtend 64).extractLsb' 32 32 := by
  unfold mulHigh BitVec.signExtend
  rw [← BitVec.ofInt_mul, BitVec.toNat_eq, extractLsb'_toNat_div, BitVec.toNat_ofInt, BitVec.toNat_ofInt]
  generalize a.toInt * b.toInt = z
  omega

theorem mulHighU_eq (a b : Word) : mulHighU a b = (a.setWidth 64 * b.setWidth 64).extractLsb' 32 32 := by
  unfold mulHighU
  rw [BitVec.toNat_eq]
  simp only [BitVec.extractLsb'_toNat, BitVec.toNat_mul, BitVec.toNat_setWidth, BitVec.toNat_ofNat, Nat.shiftRight_eq_div_pow]
  rw [Nat.mod_eq_of_lt (a := a.toNat) (by omega), Nat.mod_eq_of_lt (a := b.toNat) (by omega)]
  generalize a.toNat * b.toNat = z
  omega

theorem setWidth_eq_extractLsb' (a : Word) (n : Nat) : a.setWidth n = a.extractLsb' 0 n :=
  BitVec.eq_of_toNat_eq (by rw [BitVec.toNat_setWidth, BitVec.extractLsb'_toNat, Nat.shiftRight_zero])

/-- The number of leading zero bits: bit 31 − n is the highest one bit, and none is there where n is 32 (R119). -/
theorem leadingZeros_spec (a : Word) : ∃ n : Nat, n ≤ 32 ∧ (∀ j < 32, 31 - n < j → a.getLsbD j = false) ∧
    (n = 32 → a.getLsbD 0 = false) ∧ (n < 32 → a.getLsbD (31 - n) = true) ∧ leadingZeros a = BitVec.ofNat 32 n := by
  by_cases h0 : a = 0
  · subst h0
    exact ⟨32, Nat.le_refl _, fun j _ _ => BitVec.getLsbD_zero, fun _ => rfl, fun h => absurd h (Nat.lt_irrefl _), rfl⟩
  · have hne : a.toNat ≠ 0 := fun h => h0 (BitVec.eq_of_toNat_eq h)
    have hlog : a.toNat.log2 < 32 := (Nat.log2_lt hne).mpr a.isLt
    refine ⟨31 - a.toNat.log2, by omega, fun j _ hj => ?_, fun h => absurd h (by omega), fun _ => ?_,
      congrArg (BitVec.ofNat 32) (if_neg h0)⟩
    · exact Nat.testBit_lt_two_pow (Nat.lt_of_lt_of_le Nat.lt_log2_self (Nat.pow_le_pow_right (by decide) (by omega)))
    · rw [show 31 - (31 - a.toNat.log2) = a.toNat.log2 by omega]
      exact Nat.testBit_log2 hne

end Sys2Proof.Machine
end

open Sys2Proof Sys2Proof.Machine in
/-- Settles O8, from the end of an ALU instruction: each result as the statement writes it, and N and Z by it. -/
theorem logicMultiplyAndUnaryResults : Obligations.LogicMultiplyAndUnaryResults := by
  unfold Obligations.LogicMultiplyAndUnaryResults
  intro s i rd ra rb imm h c a b x ends
  obtain ⟨n, hn, hzeros, hall, hone, hclz⟩ := leadingZeros_spec a
  exact ⟨State.alu_ends h (flagsNZ_eq rfl), State.alu_ends h (flagsNZ_eq rfl), State.alu_ends h (flagsNZ_eq rfl),
    State.alu_ends h (flagsNZ_eq rfl), State.alu_ends h (flagsNZ_eq rfl), State.alu_ends h (flagsNZ_eq rfl),
    State.alu_ends h (flagsNZ_eq rfl), State.alu_ends h (flagsNZ_eq (mul_eq_ofNat a b)),
    State.alu_ends h (flagsNZ_eq (mulHigh_eq a b)), State.alu_ends h (flagsNZ_eq (mulHighU_eq a b)),
    State.alu_ends h (flagsNZ_eq rfl), State.alu_ends h (flagsNZ_eq (congrArg (·.signExtend 32) (setWidth_eq_extractLsb' a 8))),
    State.alu_ends h (flagsNZ_eq (congrArg (·.signExtend 32) (setWidth_eq_extractLsb' a 16))),
    n, hn, hzeros, hall, hone, State.alu_ends h (flagsNZ_eq hclz)⟩

section
/-! O9: shifts and rotates (R117, R118, R120, R121). -/
namespace Sys2Proof.Machine

variable {a r : Word} {k : ShiftKind} {n : Nat}

/-- The result and flags of a shift: a shift by 0 leaves C (R120). -/
theorem shiftWithFlags_eq {psr : Word} {cy : Bool} (hr : shiftResult k a n = r)
    (hc : (if n = 0 then psr.getLsbD 29 else shiftCarry k a n) = cy) :
    shiftWithFlags k (flagsOf psr) a n = (r, ⟨r.msb, r == 0, cy, psr.getLsbD 28⟩) := by
  unfold shiftWithFlags flagsNZ
  rw [hr, flagsOf_eq, ← hc]
  split <;> rfl

/-! ### Shifts by more than a word (R121) -/

theorem shiftResult_shl (a : Word) (n : Nat) : shiftResult .shl a n = a <<< n :=
  ite_eq_right_iff.mpr fun h => (BitVec.shiftLeft_eq_zero h).symm

theorem shiftResult_shr (a : Word) (n : Nat) : shiftResult .shr a n = a >>> n :=
  ite_eq_right_iff.mpr fun h => (BitVec.ushiftRight_eq_zero h).symm

theorem shiftResult_sar (a : Word) (n : Nat) : shiftResult .sar a n = a.sshiftRight n := by
  refine ite_eq_right_iff.mpr fun h => BitVec.eq_of_getLsbD_eq fun j hj => ?_
  rw [BitVec.getLsbD_sshiftRight, BitVec.getLsbD_sshiftRight]
  by_cases h0 : j = 0
  · subst h0
    simp [show ¬ n < 32 by omega, BitVec.msb_eq_getLsbD_last]
  · simp [show ¬ 31 + j < 32 by omega, show ¬ n + j < 32 by omega]

theorem shiftResult_ror (a : Word) (h : n < 32) : shiftResult .ror a n = a.rotateRight n :=
  congrArg a.rotateRight (Nat.mod_eq_of_lt h)

/-- The last bit that a rotation by less than a word moves round (R121). -/
theorem shiftCarry_ror (a : Word) (h : n < 32) (x : Bool) : (if n = 0 then x else shiftCarry .ror a n) =
    if n = 0 then x else a.getLsbD (n - 1) :=
  ite_congr rfl (fun _ => rfl) fun h0 => congrArg a.getLsbD (by omega)

end Sys2Proof.Machine
end

open Sys2Proof Sys2Proof.Machine in
/-- Settles O9, from the end of an ALU instruction and what each kind of shift gives. -/
theorem shiftsAndTheirCarry : Obligations.ShiftsAndTheirCarry := by
  unfold Obligations.ShiftsAndTheirCarry
  intro s i rd ra rb n h c a m ror cin ends shlC shrC sarC rorC
  have hm : bitsOf (s.reg i.core rb) 7 0 = m := bitsOf_low _ (by decide)
  have hror : bitsOf (s.reg i.core rb) 4 0 = ror := bitsOf_low _ (by decide)
  have hlt : bitsOf (s.reg i.core rb) 4 0 < 32 := bitsOf_lt _ _ _
  have hn : n.toNat < 32 := n.isLt
  refine ⟨?shl, ?shr, ?sar, ?ror, State.alu_ends h (shiftWithFlags_eq (shiftResult_shl ..) rfl),
    State.alu_ends h (shiftWithFlags_eq (shiftResult_shr ..) rfl),
    State.alu_ends h (shiftWithFlags_eq (shiftResult_sar ..) rfl),
    State.alu_ends h (shiftWithFlags_eq (shiftResult_ror a hn) (shiftCarry_ror a hn _))⟩
  case shl => exact State.alu_ends h (hm ▸ shiftWithFlags_eq (shiftResult_shl ..) rfl)
  case shr => exact State.alu_ends h (hm ▸ shiftWithFlags_eq (shiftResult_shr ..) rfl)
  case sar => exact State.alu_ends h (hm ▸ shiftWithFlags_eq (shiftResult_sar ..) rfl)
  case ror => exact State.alu_ends h (hror ▸ shiftWithFlags_eq (shiftResult_ror a hlt) (shiftCarry_ror a hlt _))

section
/-! Laws of the instructions that set no flag: a result alone, no result, a jump (R117, R123, R143, R144); O11. -/
namespace Sys2Proof.Machine

variable {s : State} {i : Issue} {srcs : List Reg} {body : State → State} {n : Nat}

/-! ### Ends without flags -/

theorem State.setReg_eq (c : CoreId) (rd : Reg) (r : Word) :
    s.setReg c rd r = s.setCore c { s.core c with w := putGeneral (s.core c).w rd r } :=
  congrArg (s.setCore c) (Core.setReg_eq ..)

theorem State.finishPlain_eq (c : CoreId) (rd : Reg) (r : Word) (n : Nat) : s.finishPlain c rd r n = s.setCore c
    { s.core c with
      w := putGeneral (s.core c).w rd r, pc := (s.core c).pc + 4, cycle := (s.core c).cycle + BitVec.ofNat 32 n } := by
  unfold State.finishPlain State.retire State.onCore
  rw [State.setReg_eq, State.core_setCore_self, State.setCore_setCore]

/-- A ready instruction that writes a register and sets no flag. -/
theorem State.issue_finishesPlain (h : s.ready i = true) {rd : Reg} {r : Word}
    (hb : body (s.issued i.core srcs) = (s.issued i.core srcs).finishPlain i.core rd r n) :
    ∃ t, (.next (s.issue i srcs body) : Out) = .next t ∧ Writes s t i.core rd r ∧
      (t.core i.core).psr = (s.core i.core).psr ∧ Retires s t i.core srcs n := by
  rw [State.finishPlain_eq, State.core_issued, Core.fetched_eq] at hb
  exact ⟨_, congrArg Host.Outcome.next (State.issue_left h hb), writes_left, State.psr_left,
    State.pc_left, takes_left, frame_worked (State.executes_of_ready h) ..⟩

/-- A ready instruction that only retires. -/
theorem State.issue_retires (h : s.ready i = true)
    (hb : body (s.issued i.core srcs) = (s.issued i.core srcs).retire i.core n) :
    ∃ t, (.next (s.issue i srcs body) : Out) = .next t ∧ KeepsRegs s t i.core ∧
      (t.core i.core).psr = (s.core i.core).psr ∧ Retires s t i.core srcs n := by
  unfold State.retire State.onCore at hb
  rw [State.core_issued, Core.fetched_eq] at hb
  exact ⟨_, congrArg Host.Outcome.next (State.issue_left h hb), keepsRegs_left, State.psr_left,
    State.pc_left, takes_left, frame_worked (State.executes_of_ready h) ..⟩

/-! ### Values -/

theorem ofInt_shiftLeft_two (z : Int) : BitVec.ofInt 32 z <<< 2 = BitVec.ofInt 32 (4 * z) := by
  rw [BitVec.toNat_eq, BitVec.toNat_shiftLeft, BitVec.toNat_ofInt, BitVec.toNat_ofInt, Nat.shiftLeft_eq]
  omega

/-- Offsets count words (R117). -/
theorem off22_eq (off : BitVec 22) : off22 off = BitVec.ofInt 32 (4 * off.toInt) := ofInt_shiftLeft_two _

theorem off26_eq (off : BitVec 26) : off26 off = BitVec.ofInt 32 (4 * off.toInt) := ofInt_shiftLeft_two _

theorem upper_eq_append (hi : BitVec 16) : hi.setWidth 32 <<< 16 = hi ++ 0#16 := by
  rw [BitVec.toNat_eq, BitVec.toNat_shiftLeft, BitVec.toNat_append, BitVec.toNat_setWidth, Nat.shiftLeft_eq, Nat.shiftLeft_eq]
  simp
  omega

/-- The issue leaves the PC at the instruction itself (R113). -/
theorem State.pc_issued (c : CoreId) (srcs : List Reg) : ((s.issued c srcs).core c).pc = (s.core c).pc := by
  rw [State.core_issued, Core.fetched_eq]

theorem State.psr_issued (c : CoreId) (srcs : List Reg) : ((s.issued c srcs).core c).psr = (s.core c).psr := by
  rw [State.core_issued, Core.fetched_eq]

end Sys2Proof.Machine
end

open Sys2Proof Sys2Proof.Machine in
/-- Settles O11, from the ends of an instruction that sets no flag. -/
theorem constantsAndNopRetire : Obligations.ConstantsAndNopRetire := by
  unfold Obligations.ConstantsAndNopRetire
  intro s i rd imm hi h c ends
  have hadr : ((s.issued c []).core c).pc + off22 imm = (s.core c).pc + BitVec.ofInt 32 (4 * imm.toInt) := by
    rw [State.pc_issued, off22_eq]
  exact ⟨State.issue_finishesPlain h rfl, State.issue_finishesPlain h (congrArg (State.finishPlain _ _ _ · _) (upper_eq_append hi)),
    State.issue_finishesPlain h (congrArg (State.finishPlain _ _ _ · _) hadr), State.issue_retires h rfl⟩

section
/-! Laws of the faults of a core instruction (R116, R138 to R142); O12. -/
namespace Sys2Proof.Machine

variable {s : State} {i : Issue} {srcs : List Reg} {body : State → State}

/-- FH is the lowest bit of PSR (R114). -/
theorem bitsPut_fh_set (w : Word) : bitsPut w 0 0 1 = w ||| 1 := by
  apply BitVec.eq_of_getLsbD_eq
  intro j hj
  rw [bitsPut_getLsbD _ _ _ hj (by decide), BitVec.getLsbD_or]
  cases j <;> simp

theorem bitsPut_fh_clear (w : Word) : bitsPut w 0 0 0 = w &&& ~~~1#32 := by
  apply BitVec.eq_of_getLsbD_eq
  intro j hj
  rw [bitsPut_getLsbD _ _ _ hj (by decide), BitVec.getLsbD_and, BitVec.getLsbD_not]
  cases j <;> simp [hj]

/-- A fault inside a handler resets its core (R142). -/
theorem State.core_fault_inside {c : CoreId} (h : (s.core c).psr.getLsbD 0 = true) (cause : Nat) (addr : Word) :
    (s.fault c cause addr).core c = (s.core c).afterReset c := by
  have hreset : s.fault c cause addr =
      (s.logEvent logDoubleFault (BitVec.ofNat 32 (coreNum c + 256 * cause)) (s.core c).pc).coreReset c 1 :=
    if_pos (by rw [fhOf_eq, h])
  rw [hreset, State.coreReset_core, State.logEvent_core]

theorem faultEntered_left {c : CoreId} (he : s.executes c = true) (cause : Nat) (addr : Word) :
    FaultEntered s (s.left c (((s.core c).fetched srcs).enterFault cause addr)) c srcs cause addr := by
  unfold Core.enterFault
  rw [Core.fetched_eq, bitsPut_fh_set]
  unfold FaultEntered
  simp only [State.core_left, true_and]
  exact ⟨takes_left, keepsRegs_left, keepsMemory_left, keepsSpecial_left, keepsDevice_left, runsOn_left he⟩

/-- A ready instruction whose body ends in a fault enters the handler. -/
theorem State.issue_faults (h : s.ready i = true) (hout : s.outsideHandler i.core = true) {cause : Nat} {addr : Word}
    (hb : body (s.issued i.core srcs) = (s.issued i.core srcs).fault i.core cause addr) :
    ∃ t, (.next (s.issue i srcs body) : Out) = .next t ∧ FaultEntered s t i.core srcs cause addr := by
  have hissued : (s.issued i.core srcs).outsideHandler i.core = true := by
    unfold State.outsideHandler
    rw [State.psr_issued]
    exact hout
  rw [State.fault_outside hissued, State.core_issued] at hb
  exact ⟨_, congrArg Host.Outcome.next (State.issue_left h hb), faultEntered_left (State.executes_of_ready h) cause addr⟩

/-- With a reserved field that is not 0, the instruction is ILLEGAL in place of its body (R116). -/
theorem State.issue_reserved (hz : i.zero = false) (srcs : List Reg) (body : State → State) :
    s.issue i srcs body = s.issue ⟨i.core, true⟩ srcs (fun m => m.fault i.core faultIllegal 0) := by
  unfold State.issue State.runOne
  simp only [hz, Bool.false_eq_true, if_false, if_true]

theorem State.issue_reserved_faults (hf : s.fetches i.core = true) (hz : i.zero = false) (hout : s.outsideHandler i.core = true)
    (srcs : List Reg) (body : State → State) :
    ∃ t, (.next (s.issue i srcs body) : Out) = .next t ∧ FaultEntered s t i.core srcs faultIllegal 0 := by
  rw [State.issue_reserved hz]
  exact State.issue_faults (i := ⟨i.core, true⟩) (Bool.and_eq_true_iff.mpr ⟨hf, rfl⟩) hout rfl

/-- A load with a reserved field that is not 0 does not wait for a flash operation: it faults (R116, R176). -/
theorem State.load_reserved (hz : i.zero = false) (rd ra : Reg) (off : BitVec 18) (n : Nat) (wide : Nat → Word) :
    ∃ body, s.load i rd ra off n wide = s.issue i [ra] body := by
  have hwait : s.loadWaits i ra off n = false := by
    unfold State.loadWaits
    rw [hz]
    rfl
  exact ⟨_, if_neg (Bool.eq_false_iff.mp hwait)⟩

/-- A core instruction with a reserved field that is not 0 is the issue of its body. -/
theorem exec_eq_issue_of_reserved {x : Instr} (hx : x.issue? = some i) (hz : i.zero = false) (s : State) :
    ∃ (srcs : List Reg) (body : State → State), exec x s = .next (s.issue i srcs body) := by
  have load : ∀ rd ra off n wide, ∃ (srcs : List Reg) (body : State → State),
      (.next (s.load i rd ra off n wide) : Out) = .next (s.issue i srcs body) := fun rd ra off n wide =>
    have ⟨body, hbody⟩ := State.load_reserved hz rd ra off n wide
    ⟨[ra], body, congrArg Host.Outcome.next hbody⟩
  cases x with
  | ldw j rd ra off | ldh j rd ra off | ldhs j rd ra off | ldb j rd ra off | ldbs j rd ra off => cases hx; exact load ..
  | _ => cases hx <;> exact ⟨_, _, rfl⟩

end Sys2Proof.Machine
end

open Sys2Proof Sys2Proof.Machine in
/-- Settles O12: every core instruction goes through its issue, which checks the reserved fields. -/
theorem nonZeroReservedFieldIsIllegal : Obligations.NonZeroReservedFieldIsIllegal := by
  unfold Obligations.NonZeroReservedFieldIsIllegal
  intro x i s hx hf hz hout
  obtain ⟨srcs, body, hexec⟩ := exec_eq_issue_of_reserved hx hz s
  obtain ⟨t, hissue, hfault⟩ := State.issue_reserved_faults hf hz hout srcs body
  exact ⟨t, srcs, hexec.trans hissue, hfault⟩

section
/-! O10: divisions, the overflowing one and those by 0 (R119, R122, R142). -/
namespace Sys2Proof.Machine

variable {s : State} {i : Issue}

/-- A fault of a ready instruction inside a handler resets its core (R142). -/
theorem State.issue_doubleFaults (h : s.ready i = true) (hin : s.outsideHandler i.core = false) {srcs : List Reg}
    {body : State → State} {cause : Nat} {addr : Word}
    (hb : body (s.issued i.core srcs) = (s.issued i.core srcs).fault i.core cause addr) :
    ∃ t, (.next (s.issue i srcs body) : Out) = .next t ∧ t.core i.core = (s.core i.core).afterReset i.core := by
  refine ⟨_, congrArg Host.Outcome.next (State.issue_of_ready h srcs body), ?_⟩
  have hfh : ((s.issued i.core srcs).core i.core).psr.getLsbD 0 = true := by
    rw [State.psr_issued]
    exact Bool.not_eq_false' _ ▸ hin
  rw [hb, State.endStep_eq, State.core_setCore_self, State.core_fault_inside hfh, State.core_issued, Core.fetched_eq]
  cases hc : i.core <;> rfl

/-- The body of a division: DIVZERO for a zero divisor, else a result after 34 cycles (R122). -/
theorem State.divide_ends (h : s.ready i = true) {rd ra rb : Reg} {f : Word → Word → Flags → Word × Flags} {r : Word}
    {fn fz fc fv : Bool} (hb : s.reg i.core rb ≠ 0)
    (hf : f (s.reg i.core ra) (s.reg i.core rb) (flagsOf (s.core i.core).psr) = (r, ⟨fn, fz, fc, fv⟩)) :
    ∃ t, (.next (s.divide i rd ra rb f) : Out) = .next t ∧ Writes s t i.core rd r ∧
      FlagsBecome (s.core i.core).psr (t.core i.core).psr fn fz fc fv ∧ Retires s t i.core [ra, rb] 34 := by
  refine State.issue_finishes (f := ⟨fn, fz, fc, fv⟩) h ?_
  have hflags : (s.issued i.core [ra, rb]).flags i.core = flagsOf (s.core i.core).psr := by
    unfold State.flags
    rw [State.psr_issued]
  have hreg : ∀ q, (s.issued i.core [ra, rb]).reg i.core q = s.reg i.core q := State.reg_issued i.core [ra, rb]
  dsimp only
  rw [hreg, hreg, hflags, if_neg hb, hf]

theorem State.divide_zero (rd ra rb : Reg) (f : Word → Word → Flags → Word × Flags) (hb : s.reg i.core rb = 0) :
    ∃ body : State → State, s.divide i rd ra rb f = s.issue i [ra, rb] body ∧
      body (s.issued i.core [ra, rb]) = (s.issued i.core [ra, rb]).fault i.core faultDivzero 0 :=
  ⟨_, rfl, if_pos ((State.reg_issued i.core [ra, rb] rb).trans hb)⟩

/-! ### The overflowing division -/

theorem divSigned_eq (a b : Word) : divSigned a b =
    if a = 0x80000000 ∧ b = 0xFFFFFFFF then 0x80000000 else BitVec.ofInt 32 (a.toInt.tdiv b.toInt) := by
  split
  · next h => rw [h.1, h.2]; decide
  · rfl

theorem remSigned_eq (a b : Word) : remSigned a b =
    if a = 0x80000000 ∧ b = 0xFFFFFFFF then 0 else BitVec.ofInt 32 (a.toInt.tmod b.toInt) := by
  split
  · next h => rw [h.1, h.2]; decide
  · rfl

/-- V of a signed division tells the overflowing one (R122). -/
theorem divFlags_eq {psr a b r v : Word} (hr : v = r) : (v, divFlags (flagsOf psr) a b v) =
    (r, ⟨r.msb, r == 0, psr.getLsbD 29, a == 0x80000000 && b == 0xFFFFFFFF⟩) := by
  unfold divFlags flagsNZ
  rw [hr, flagsOf_eq, Bool.decide_and]
  rfl

theorem udiv_eq_ofNat (a b : Word) : a / b = BitVec.ofNat 32 (a.toNat / b.toNat) := by
  rw [← BitVec.toNat_udiv, BitVec.ofNat_toNat, BitVec.setWidth_eq]

theorem umod_eq_ofNat (a b : Word) : a % b = BitVec.ofNat 32 (a.toNat % b.toNat) := by
  rw [← BitVec.toNat_umod, BitVec.ofNat_toNat, BitVec.setWidth_eq]

end Sys2Proof.Machine
end

open Sys2Proof Sys2Proof.Machine in
/-- Settles O10, from the two ends of a division and the fault inside and outside a handler. -/
theorem divisionsAndDivideByZero : Obligations.DivisionsAndDivideByZero := by
  unfold Obligations.DivisionsAndDivideByZero
  intro s i rd ra rb h c a b ends keep
  have hzero : b = 0 → ∀ x ∈ [Instr.div i rd ra rb, .divu i rd ra rb, .rem i rd ra rb, .remu i rd ra rb],
      ∃ body : State → State, exec x s = .next (s.issue i [ra, rb] body) ∧
        body (s.issued c [ra, rb]) = (s.issued c [ra, rb]).fault c faultDivzero 0 := fun hb x hx => by
    have hdivide := fun f => State.divide_zero (i := i) rd ra rb f hb
    simp only [List.mem_cons, List.not_mem_nil, or_false] at hx
    rcases hx with rfl | rfl | rfl | rfl <;>
    · obtain ⟨body, hissue, hbody⟩ := hdivide _
      exact ⟨body, congrArg Host.Outcome.next hissue, hbody⟩
  refine ⟨fun hb => ⟨State.divide_ends h hb (divFlags_eq (divSigned_eq a b)), State.divide_ends h hb (flagsNZ_eq (udiv_eq_ofNat a b)),
    State.divide_ends h hb (flagsNZ_eq (remSigned_eq a b)), State.divide_ends h hb (flagsNZ_eq (umod_eq_ofNat a b))⟩,
    fun hb hout x hx => ?outside, fun hb hin x hx => ?inside⟩
  case outside =>
    obtain ⟨body, hexec, hbody⟩ := hzero hb x hx
    rw [hexec]
    exact State.issue_faults h hout hbody
  case inside =>
    obtain ⟨body, hexec, hbody⟩ := hzero hb x hx
    rw [hexec]
    exact State.issue_doubleFaults h hin hbody

section
/-! O14: branches and jumps (R117, R123, R143, R144). -/
namespace Sys2Proof.Machine

variable {s : State} {i : Issue} {srcs : List Reg} {body : State → State}

/-- A core goes to w after n cycles, one more into flash on the nave core (R143, R144). -/
def GoesTo (s t : State) (c : CoreId) (srcs : List Reg) (w : Word) (n : Nat) : Prop :=
  (t.core c).pc = w ∧ (t.core c).psr = (s.core c).psr ∧ Takes s t c srcs (n + branchExtra c w) ∧ Frame s t c

/-- A ready instruction that writes a register and jumps. -/
theorem State.issue_links (h : s.ready i = true) {rd : Reg} {v w : Word} {n : Nat}
    (hb : body (s.issued i.core srcs) = ((s.issued i.core srcs).setReg i.core rd v).jump i.core w n) :
    ∃ t, (.next (s.issue i srcs body) : Out) = .next t ∧ Writes s t i.core rd v ∧ GoesTo s t i.core srcs w n := by
  unfold State.jump State.onCore at hb
  rw [State.setReg_eq, State.core_setCore_self, State.setCore_setCore, State.core_issued, Core.fetched_eq] at hb
  exact ⟨_, congrArg Host.Outcome.next (State.issue_left h hb), writes_left, State.pc_left, State.psr_left, takes_left,
    frame_worked (State.executes_of_ready h) ..⟩

theorem State.setReg_zero (c : CoreId) (v : Word) : s.setReg c 0 v = s := State.setCore_core_self c

theorem keepsRegs_of_writes_zero {t : State} {c : CoreId} {v : Word} (h : Writes s t c 0 v) : KeepsRegs s t c :=
  fun q => (h q).trans (if_neg fun h0 => h0.2 rfl)

/-- A ready instruction that jumps and writes no register. -/
theorem State.issue_jumps (h : s.ready i = true) {w : Word} {n : Nat}
    (hb : body (s.issued i.core srcs) = (s.issued i.core srcs).jump i.core w n) :
    ∃ t, (.next (s.issue i srcs body) : Out) = .next t ∧ KeepsRegs s t i.core ∧ GoesTo s t i.core srcs w n := by
  have hnone := congrArg (State.jump · i.core w n) ((s.issued i.core srcs).setReg_zero i.core 0)
  obtain ⟨t, hnext, hwrites, hgoes⟩ := State.issue_links h (hb.trans hnone.symm)
  exact ⟨t, hnext, keepsRegs_of_writes_zero hwrites, hgoes⟩

/-- A ready branch: taken to its target, or on to the next word (R117, R143). -/
theorem State.issue_branches (h : s.ready i = true) {taken : Bool} {off z : Word} (hz : (s.core i.core).pc + off = z)
    (hb : body (s.issued i.core srcs) = (s.issued i.core srcs).branch i.core taken off) :
    ∃ t, (.next (s.issue i srcs body) : Out) = .next t ∧ KeepsRegs s t i.core ∧
      if taken then GoesTo s t i.core srcs z 2 else (t.core i.core).psr = (s.core i.core).psr ∧ Retires s t i.core srcs 1 := by
  unfold State.branch at hb
  rw [State.pc_issued, hz] at hb
  cases taken
  case true => exact State.issue_jumps h hb
  case false => exact State.issue_retires h hb

/-- The condition codes over the flags and QT.V (R123). -/
theorem condHolds_eq (psr : Word) (cond : BitVec 4) : condHolds psr cond = condition psr cond := by
  have hq : (qtOf psr / 8 == 1) = psr.getLsbD 27 := by
    have hbit := bitAt_bitsOf psr (hi := 27) (lo := 24) 3 (by decide) (by decide)
    have hlt := bitsOf_lt psr 27 24
    have hsmall : qtOf psr / 8 % 2 = qtOf psr / 8 := Nat.mod_eq_of_lt (by unfold qtOf; omega)
    rw [← hsmall]
    exact hbit
  unfold condHolds condition
  rw [flagsOf_eq]
  dsimp only
  rw [hq]
  generalize psr.getLsbD 31 = n, psr.getLsbD 30 = z, psr.getLsbD 29 = c, psr.getLsbD 28 = v, psr.getLsbD 27 = q
  revert cond n z c v q
  decide

theorem and_three_eq_zero (w : Word) : w &&& 3 = 0 ↔ w.toNat % 4 = 0 := by
  rw [BitVec.toNat_eq, BitVec.toNat_and, show (3 : Word).toNat = 2 ^ 2 - 1 from rfl, Nat.and_two_pow_sub_one_eq_mod]
  rfl

end Sys2Proof.Machine
end

open Sys2Proof Sys2Proof.Machine in
/-- Settles O14, from the ends of a branch and of a jump, and ALIGN for a target between words. -/
theorem branchesAndJumpsGoToTheirTargets : Obligations.BranchesAndJumpsGoToTheirTargets := by
  unfold Obligations.BranchesAndJumpsGoToTheirTargets
  intro s i rd ra cond off far h c pc a near long extra goes branch
  have hnear : pc + off22 off = near := congrArg (pc + ·) (off22_eq off)
  have hlong : ∀ srcs, ((s.issued c srcs).core c).pc + off26 far = long := fun srcs => by rw [State.pc_issued, off26_eq]
  have hlink : ∀ srcs, ((s.issued c srcs).core c).pc + 4 = pc + 4 := fun srcs => by rw [State.pc_issued]
  have hreg : ∀ srcs, (s.issued c srcs).reg c ra = a := fun srcs => State.reg_issued c srcs ra
  have htarget : ∀ srcs, (s.issued c srcs).reg c ra &&& 3 ≠ 0 ↔ a.toNat % 4 ≠ 0 := fun srcs => by
    rw [hreg, ne_eq, and_three_eq_zero]
  refine ⟨State.issue_branches h hnear ?bcc, State.issue_branches h hnear ?cbz, State.issue_branches h hnear ?cbnz,
    State.issue_jumps h ?jump, State.issue_links h ?jal, fun hal => State.issue_links h ?jalr,
    fun hal hout => State.issue_faults h hout ?align⟩
  case bcc => rw [State.psr_issued, condHolds_eq]
  case cbz => rw [hreg]; rfl
  case cbnz => rw [hreg, decide_not]; rfl
  case jump => rw [← hlong []]; rfl
  case jal => dsimp only; rw [hlong, hlink]
  case jalr => dsimp only; rw [if_neg (not_not.mpr ((and_three_eq_zero _).mpr (by rw [hreg]; exact hal))), hlink, hreg]
  case align => dsimp only; rw [if_pos ((htarget _).mpr hal), hreg]

section
/-! O15: brk and rfe (R124, R139 to R141, R343). -/
namespace Sys2Proof.Machine

variable {s : State} {i : Issue}

/-- The issue touches no register but the activity mark of its core's unit (R460). -/
theorem State.issued_flag {c : CoreId} (srcs : List Reg) {f : Fld} (hf : f.addr ≠ SYS.UNITSTATE (coreNum c)) :
    (s.issued c srcs).flag f = s.flag f := by
  unfold State.flag State.issued
  rw [State.setCore_fld, State.activity_fld _ hf]

theorem State.issued_debugHolds (c : CoreId) (srcs : List Reg) :
    (s.issued c srcs).debugHolds c = (decide (c = .choir) && s.flag SACR.SEAL_DBG) := by
  unfold State.debugHolds
  rw [State.issued_flag srcs (by cases c <;> decide)]

/-- A core that a debug session holds halts after its brk (R124, R343). -/
theorem execBrk_held (h : s.ready i = true) (code : BitVec 14)
    (hheld : (decide (i.core = .choir) && s.flag SACR.SEAL_DBG) = true) :
    ∃ t, exec (.brk i code) s = .next t ∧ (t.core i.core).halted = true ∧ (t.core i.core).pc = (s.core i.core).pc + 4 ∧
      (t.core i.core).psr = (s.core i.core).psr ∧ KeepsRegs s t i.core ∧ KeepsMemory s t i.core ∧ KeepsSaved s t i.core ∧
      KeepsSpecial s t i.core ∧ KeepsDevice s t i.core := by
  have hstall := State.issued_debugHolds (s := s) i.core []
  refine State.issue_next_left h
    { (s.core i.core).worked (s.core i.core).w (s.core i.core).psr ((s.core i.core).pc + 4)
        ((s.core i.core).cycle + loadStall (s.core i.core) [] + 1) with
      halted := true }
    ?_ ⟨?_, State.pc_left, State.psr_left, keepsRegs_left, keepsMemory_left, keepsSaved_left, keepsSpecial_left, keepsDevice_left⟩
  · refine (if_pos (hstall.trans hheld)).trans ?_
    unfold State.retire State.onCore
    rw [State.core_setCore_self, State.setCore_setCore, State.core_issued, Core.fetched_eq]
    rfl
  · rw [State.core_left]
    rfl

/-- rfe inside a handler restores the status and continues at EPC (R141). -/
theorem execRfe_returns (h : s.ready i = true) (hin : s.outsideHandler i.core = false) :
    ∃ t, exec (.rfe i) s = .next t ∧ (t.core i.core).pc = (s.core i.core).epc ∧
      (t.core i.core).psr = (s.core i.core).epsr &&& ~~~1#32 ∧
      Takes s t i.core [] (3 + branchExtra i.core (s.core i.core).epc) ∧ KeepsRegs s t i.core ∧ Frame s t i.core := by
  have hfh : fhOf ((s.issued i.core []).core i.core).psr = true := by
    rw [State.psr_issued, fhOf_eq]
    exact Bool.not_eq_false' _ ▸ hin
  refine State.issue_next_left h
    ((s.core i.core).worked (s.core i.core).w ((s.core i.core).epsr &&& ~~~1#32) (s.core i.core).epc
      ((s.core i.core).cycle + loadStall (s.core i.core) [] + BitVec.ofNat 32 (3 + branchExtra i.core (s.core i.core).epc)))
    ((if_pos hfh).trans ?_)
    ⟨State.pc_left, State.psr_left, takes_left, keepsRegs_left, frame_worked (State.executes_of_ready h) ..⟩
  unfold Core.leaveFault
  rw [State.core_issued, Core.fetched_eq, bitsPut_fh_clear]
  rfl

end Sys2Proof.Machine
end

open Sys2Proof Sys2Proof.Machine in
/-- Settles O15, from the two ends of brk and of rfe. -/
theorem breakAndReturnFromFault : Obligations.BreakAndReturnFromFault := by
  unfold Obligations.BreakAndReturnFromFault
  intro s i code h c held
  have hholds : (s.issued c []).debugHolds c = held := State.issued_debugHolds _ _
  refine ⟨fun hout hfree => State.issue_faults h hout ?_, execBrk_held h code, execRfe_returns h,
    fun hout => State.issue_faults h hout ?_⟩
  · exact if_neg (by rw [hholds, hfree]; decide)
  · refine if_neg ?_
    rw [State.psr_issued, fhOf_eq]
    unfold State.outsideHandler at hout
    simpa using hout

section
/-! O16: the events of a core (R124, R132 to R136). -/
namespace Sys2Proof.Machine

variable {s : State} {i : Issue} {c : CoreId}

/-! ### EVPEND as a core reads it (R134) -/

/-- The queue watches are bits 16 to 23. -/
theorem State.watchBits_outside (c : CoreId) {j : Nat} (hj : j < 32) (h : ¬(16 ≤ j ∧ j < 24)) :
    (s.watchBits c).getLsbD j = false := by
  refine List.foldlRecOn (motive := fun w : Word => w.getLsbD j = false) _ _ BitVec.getLsbD_zero fun w hw k hk => ?_
  have hk8 : k < 8 := List.mem_range.mp hk
  dsimp only
  split
  · rw [bitsPut_getLsbD _ _ _ hj (Nat.le_refl _), if_neg (by omega), hw]
  · exact hw

theorem State.evpend_getLsbD (c : CoreId) {j : Nat} (hj : j < 32) : (s.evpend c).getLsbD j =
    if 16 ≤ j ∧ j < 24 then (s.watchBits c).getLsbD j else (s.core c).evpend.getLsbD j := by
  have hmask : ∀ j : Fin 32, (0xFF00FFFF : Word).getLsbD j = decide ¬(16 ≤ j.val ∧ j.val < 24) := by decide
  unfold State.evpend
  rw [BitVec.getLsbD_or, BitVec.getLsbD_and, hmask ⟨j, hj⟩]
  split
  case isTrue h => simp [h]
  case isFalse h => simp [h, State.watchBits_outside c hj h]

/-- The activity mark of a core and a change of the core leave what a queue watch looks at (R134, R460). -/
theorem State.hasWord_setCore_activity (c : CoreId) (k : Core) (n : Nat) :
    ((s.activity (coreNum c)).setCore c k).hasWord n = s.hasWord n := by
  have haddr : QUE.DESC n ≠ SYS.UNITSTATE (coreNum c) := by
    cases c <;> simp only [QUE.DESC, SYS.UNITSTATE, coreNum] <;> omega
  have hcore : ((s.activity (coreNum c)).setCore c k).queue n = (s.activity (coreNum c)).queue n := by cases c <;> rfl
  have hqueue := hcore.trans (State.activity_queue (coreNum c) n)
  unfold State.hasWord State.flag
  rw [State.setCore_fld, State.setCore_fld, State.activity_fld _ (f := QUE.DESC_CONSUMER n) haddr,
    State.activity_fld _ (f := QUE.DESC_DELIVER n) haddr, hqueue]

theorem State.watchBits_setCore_activity {k : Core} (hqw : k.qw = (s.core c).qw) :
    ((s.activity (coreNum c)).setCore c k).watchBits c = s.watchBits c := by
  unfold State.watchBits
  rw [State.core_setCore_self, hqw]
  simp only [State.hasWord_setCore_activity]

theorem State.issued_evpend (c : CoreId) (srcs : List Reg) : (s.issued c srcs).evpend c = s.evpend c := by
  have hfetched : ((s.core c).fetched srcs).evpend = (s.core c).evpend := by rw [Core.fetched_eq]
  unfold State.evpend
  rw [State.core_issued, hfetched]
  exact congrArg (_ ||| ·) (State.watchBits_setCore_activity (by rw [Core.fetched_eq]))

/-! ### The ends of the event instructions -/

/-- An instruction that goes on to the next word after n cycles and leaves ev of the edge events of its core. -/
structure EventsBecome (s t : State) (c : CoreId) (srcs : List Reg) (ev : Word) (n : Nat) : Prop where
  psr : (t.core c).psr = (s.core c).psr
  pc : (t.core c).pc = (s.core c).pc + 4
  takes : Takes s t c srcs n
  evpend : (t.core c).evpend = ev
  watches : t.watchBits c = s.watchBits c
  memory : KeepsMemory s t c
  saved : KeepsSaved s t c
  control : KeepsControl s t c
  device : KeepsDevice s t c
  runs : RunsOn s t c

/-- A ready instruction that changes the edge events of its core and writes a register. -/
theorem State.issue_events (h : s.ready i = true) {srcs : List Reg} {body : State → State} {rd : Reg} {v ev : Word} {n : Nat}
    (hb : body (s.issued i.core srcs) =
      ((s.issued i.core srcs).onCore i.core (fun k => { k with evpend := ev })).finishPlain i.core rd v n) :
    ∃ t, (.next (s.issue i srcs body) : Out) = .next t ∧ Writes s t i.core rd v ∧ EventsBecome s t i.core srcs ev n := by
  refine State.issue_next_left h
    { (s.core i.core).worked (putGeneral (s.core i.core).w rd v) (s.core i.core).psr ((s.core i.core).pc + 4)
        ((s.core i.core).cycle + loadStall (s.core i.core) srcs + BitVec.ofNat 32 n) with
      evpend := ev }
    (hb.trans ?_) ⟨writes_left, State.psr_left, State.pc_left, takes_left, ?_, State.watchBits_setCore_activity ?_,
      keepsMemory_left, keepsSaved_left, keepsControl_left, keepsDevice_left, runsOn_left (State.executes_of_ready h)⟩
  · rw [State.finishPlain_eq]
    unfold State.onCore
    rw [State.core_setCore_self, State.setCore_setCore, State.core_issued, Core.fetched_eq]
    rfl
  · rw [State.core_left]
  · rw [Core.stepped_eq]
    rfl

/-- The same where no register is written. -/
theorem State.issue_events_noResult (h : s.ready i = true) {srcs : List Reg} {body : State → State} {ev : Word} {n : Nat}
    (hb : body (s.issued i.core srcs) =
      ((s.issued i.core srcs).onCore i.core (fun k => { k with evpend := ev })).retire i.core n) :
    ∃ t, (.next (s.issue i srcs body) : Out) = .next t ∧ KeepsRegs s t i.core ∧ EventsBecome s t i.core srcs ev n := by
  have hplain : ∀ u : State, u.finishPlain i.core 0 0 n = u.retire i.core n := fun u =>
    congrArg (State.retire · i.core n) (u.setReg_zero i.core 0)
  obtain ⟨t, hnext, hwrites, hevents⟩ := State.issue_events h (rd := 0) (v := 0) (hb.trans (hplain _).symm)
  exact ⟨t, hnext, keepsRegs_of_writes_zero hwrites, hevents⟩

/-- Clearing edge events leaves the levels of the queue watches (R134). -/
theorem EventsBecome.cleared {t : State} {srcs : List Reg} {mask : Word} {n : Nat}
    (h : EventsBecome s t c srcs ((s.core c).evpend &&& ~~~mask) n) {j : Nat} (hj : j < 32) :
    (t.evpend c).getLsbD j = ((s.evpend c).getLsbD j && (decide (16 ≤ j ∧ j < 24) || !mask.getLsbD j)) := by
  rw [State.evpend_getLsbD c hj, State.evpend_getLsbD c hj, h.watches, h.evpend]
  split
  case isTrue hw => simp [hw]
  case isFalse hw => simp [hw, hj]

/-- Setting soft events leaves the others (R124). -/
theorem EventsBecome.softSet {t : State} {srcs : List Reg} {a : Word} {n : Nat}
    (h : EventsBecome s t c srcs ((s.core c).evpend ||| (a &&& 0xFF000000)) n) {j : Nat} (hj : j < 32) :
    (t.evpend c).getLsbD j = ((s.evpend c).getLsbD j || (decide (24 ≤ j) && a.getLsbD j)) := by
  have hmask : ∀ j : Fin 32, (0xFF000000 : Word).getLsbD j = decide (24 ≤ j.val) := by decide
  rw [State.evpend_getLsbD c hj, State.evpend_getLsbD c hj, h.watches, h.evpend, BitVec.getLsbD_or, BitVec.getLsbD_and,
    hmask ⟨j, hj⟩]
  split
  case isTrue hw => simp [show ¬24 ≤ j by omega]
  case isFalse => rw [Bool.and_comm (a.getLsbD j)]

/-- A core that runs goes to sleep in its evwait, and its unit stays ON (R136, R456). -/
theorem State.issue_sleeps (h : s.ready i = true) {srcs : List Reg} {body : State → State} {rd : Reg} {mask : Word}
    {d : Option (BitVec 40)}
    (hb : body (s.issued i.core srcs) = (s.issued i.core srcs).setRun i.core (.asleep rd mask d)) :
    ∃ t, (.next (s.issue i srcs body) : Out) = .next t ∧ (t.core i.core).run = .asleep rd mask d ∧ KeepsRegs s t i.core ∧
      (t.core i.core).psr = (s.core i.core).psr ∧ (t.core i.core).pc = (s.core i.core).pc ∧ KeepsMemory s t i.core ∧
      KeepsSaved s t i.core ∧ KeepsSpecial s t i.core ∧ KeepsDevice s t i.core := by
  have hrunning : (s.core i.core).run = .running := by
    have he := State.executes_of_ready h
    unfold State.executes at he
    simp only [Bool.and_eq_true, decide_eq_true_eq] at he
    exact he.1.1
  refine State.issue_next_left h
    { (s.core i.core).worked (s.core i.core).w (s.core i.core).psr (s.core i.core).pc
        ((s.core i.core).cycle + loadStall (s.core i.core) srcs) with
      run := .asleep rd mask d }
    (hb.trans ?_) ⟨?_, keepsRegs_left, State.psr_left, State.pc_left, keepsMemory_left, keepsSaved_left, keepsSpecial_left,
      keepsDevice_left⟩
  · unfold State.setRun
    rw [State.core_issued, Core.fetched_eq]
    exact if_pos (congrArg runLife hrunning)
  · rw [State.core_left]

/-! ### The instructions -/

theorem State.issued_core_evpend (c : CoreId) (srcs : List Reg) : ((s.issued c srcs).core c).evpend = (s.core c).evpend := by
  rw [State.core_issued, Core.fetched_eq]

/-- Clearing edge events right after the issue. -/
theorem State.issued_clearEvents (c : CoreId) (srcs : List Reg) (mask : Word) : (s.issued c srcs).clearEvents c mask =
    (s.issued c srcs).onCore c (fun k => { k with evpend := (s.core c).evpend &&& ~~~mask }) := by
  unfold State.clearEvents State.onCore
  dsimp only
  rw [State.issued_core_evpend]

section Instructions

variable (h : s.ready i = true) (rd ra : Reg)
include h

theorem execEvset_events : ∃ t, exec (.evset i ra) s = .next t ∧ KeepsRegs s t i.core ∧
    EventsBecome s t i.core [ra] ((s.core i.core).evpend ||| (s.reg i.core ra &&& 0xFF000000)) 1 := by
  refine State.issue_events_noResult h ?_
  unfold State.onCore
  dsimp only
  rw [State.issued_core_evpend, show (s.issued i.core [ra]).reg i.core ra = s.reg i.core ra from State.reg_issued ..]

theorem execEvclr_events : ∃ t, exec (.evclr i ra) s = .next t ∧ KeepsRegs s t i.core ∧
    EventsBecome s t i.core [ra] ((s.core i.core).evpend &&& ~~~s.reg i.core ra) 1 := by
  refine State.issue_events_noResult h ?_
  rw [State.issued_clearEvents, show (s.issued i.core [ra]).reg i.core ra = s.reg i.core ra from State.reg_issued ..]

theorem execEvpoll_events : ∃ t, exec (.evpoll i rd ra) s = .next t ∧ Writes s t i.core rd (s.evpend i.core &&& s.reg i.core ra) ∧
    EventsBecome s t i.core [ra] ((s.core i.core).evpend &&& ~~~(s.evpend i.core &&& s.reg i.core ra)) 1 := by
  refine State.issue_events h ?_
  dsimp only
  rw [State.issued_evpend, show (s.issued i.core [ra]).reg i.core ra = s.reg i.core ra from State.reg_issued ..,
    State.issued_clearEvents]

end Instructions

/-- What the body of evwait does, over the registers and events that it finds (R136). -/
theorem execEvwait_eq (rd ra rb : Reg) : ∃ body : State → State, exec (.evwait i rd ra rb) s = .next (s.issue i [ra, rb] body) ∧
    body (s.issued i.core [ra, rb]) =
      let mask := s.reg i.core ra
      let wait := (s.reg i.core rb).toNat % 2 ^ 28
      let hit := s.evpend i.core &&& mask
      let m := s.issued i.core [ra, rb]
      if mask = 0 ∧ wait = 0 then m.fault i.core faultIllegal 0
      else if hit ≠ 0 then
        (m.onCore i.core (fun k => { k with evpend := (s.core i.core).evpend &&& ~~~hit })).finishPlain i.core rd hit 2
      else m.setRun i.core
        (.asleep rd mask (if wait = 0 then none else some (s.crypt.ticks + BitVec.ofNat 40 wait))) := by
  refine ⟨_, rfl, ?_⟩
  have hreg : ∀ q, (s.issued i.core [ra, rb]).reg i.core q = s.reg i.core q := State.reg_issued i.core [ra, rb]
  have hwait : bitsOf (s.reg i.core rb) 27 0 = (s.reg i.core rb).toNat % 2 ^ 28 := bitsOf_low _ (by decide)
  dsimp only
  rw [hreg, hreg, hwait, State.issued_evpend, State.issued_crypt, State.issued_clearEvents]

end Sys2Proof.Machine
end

open Sys2Proof Sys2Proof.Machine in
/-- Settles O16, from the ends of the event instructions on EVPEND and the three ends of evwait. -/
theorem eventInstructionsAndEvwait : Obligations.EventInstructionsAndEvwait := by
  unfold Obligations.EventInstructionsAndEvwait
  refine ⟨?events, ?evwait⟩
  case events =>
    intro s i rd ra h c a watch goes
    have hgoes : ∀ {t : State} {ev : Word}, EventsBecome s t c [ra] ev 1 → goes t [ra] := fun e =>
      ⟨e.pc, e.psr, e.takes, e.memory, e.saved, e.control, e.device, e.runs⟩
    refine ⟨?evset, ?evclr, ?evpoll⟩
    case evset =>
      obtain ⟨t, hnext, hkeep, hevents⟩ := execEvset_events h ra
      exact ⟨t, hnext, hkeep, hgoes hevents, fun j hj => hevents.softSet hj⟩
    case evclr =>
      obtain ⟨t, hnext, hkeep, hevents⟩ := execEvclr_events h ra
      exact ⟨t, hnext, hkeep, hgoes hevents, fun j hj => hevents.cleared hj⟩
    case evpoll =>
      obtain ⟨t, hnext, hwrites, hevents⟩ := execEvpoll_events h rd ra
      refine ⟨t, hnext, hwrites, hgoes hevents, fun j hj => ?_⟩
      rw [hevents.cleared hj, BitVec.getLsbD_and]
      cases (s.evpend c).getLsbD j <;> rfl
  case evwait =>
    intro s i rd ra rb h c mask wait hit o
    obtain ⟨body, hexec, hbody⟩ := execEvwait_eq (s := s) (i := i) rd ra rb
    have ho : o = .next (s.issue i [ra, rb] body) := hexec
    rw [ho]
    refine ⟨fun hmask hwait hout => State.issue_faults h hout (hbody.trans (if_pos ⟨hmask, hwait⟩)), fun hhit => ?_,
      fun hhit hsome => State.issue_sleeps h (hbody.trans ((if_neg hsome).trans (if_neg (not_not.mpr hhit))))⟩
    have hmask : ¬(mask = 0 ∧ wait = 0) := fun h0 => hhit ((congrArg (s.evpend c &&& ·) h0.1).trans BitVec.and_zero)
    obtain ⟨t, hnext, hwrites, e⟩ := State.issue_events h (hbody.trans ((if_neg hmask).trans (if_pos hhit)))
    exact ⟨t, hnext, hwrites, e.psr, e.pc, e.takes, e.evpend, e.memory, e.saved, e.control, e.device, e.runs⟩

section
/-! O18: mfs and mts (R134, R146). -/
namespace Sys2Proof.Machine

variable {s : State} {i : Issue} {c : CoreId}

/-! ### mfs -/

/-- A special register has been read into rd, and MEMERR is left as err (R146). -/
structure SpecialRead (s t : State) (c : CoreId) (rd : Reg) (v err : Word) : Prop where
  writes : Writes s t c rd v
  psr : (t.core c).psr = (s.core c).psr
  pc : (t.core c).pc = (s.core c).pc + 4
  takes : Takes s t c [] 1
  specials : specials (t.core c) = specials (s.core c)
  memerr : (t.core c).memerr = err
  memory : KeepsMemory s t c
  device : KeepsDevice s t c
  runs : RunsOn s t c

theorem execMfs_reads (h : s.ready i = true) {rd : Reg} {n : BitVec 8} {v err : Word}
    (hread : (s.issued i.core []).readSpecial i.core n.toNat =
      some ((s.issued i.core []).onCore i.core (fun k => { k with memerr := err }), v)) :
    ∃ t, exec (.mfs i rd n) s = .next t ∧ SpecialRead s t i.core rd v err := by
  refine State.issue_next_left h
    { (s.core i.core).worked (putGeneral (s.core i.core).w rd v) (s.core i.core).psr ((s.core i.core).pc + 4)
        ((s.core i.core).cycle + loadStall (s.core i.core) [] + BitVec.ofNat 32 1) with
      memerr := err }
    ?_ ⟨writes_left, State.psr_left, State.pc_left, takes_left, ?_, ?_, keepsMemory_left, keepsDevice_left,
      runsOn_left (State.executes_of_ready h)⟩
  · rw [hread]
    dsimp only
    rw [State.finishPlain_eq]
    unfold State.onCore
    rw [State.core_setCore_self, State.setCore_setCore, State.core_issued, Core.fetched_eq]
    rfl
  · rw [State.core_left]
    rfl
  · rw [State.core_left]

/-- The issue has left MEMERR with the correction of the fetched word. -/
theorem State.issued_withFetchErr (c : CoreId) (srcs : List Reg) :
    (s.issued c srcs).onCore c (fun k => { k with memerr := (s.core c).fetchErr }) = s.issued c srcs := by
  have hcore := State.setCore_core_self (s := s.issued c srcs) c
  unfold State.onCore
  rw [State.core_issued, Core.fetched_eq] at hcore ⊢
  exact hcore

/-- A read of every special register but MEMERR leaves MEMERR. -/
theorem execMfs_readsOnly (h : s.ready i = true) {rd : Reg} {n : BitVec 8} {v : Word}
    (hread : (s.issued i.core []).readSpecial i.core n.toNat = some (s.issued i.core [], v)) :
    ∃ t, exec (.mfs i rd n) s = .next t ∧ SpecialRead s t i.core rd v (s.core i.core).fetchErr :=
  execMfs_reads h (by rw [hread, State.issued_withFetchErr])

/-- An instruction that reads no register meets no load-use stall (R143). -/
theorem loadStall_nil (k : Core) : loadStall k [] = 0 := by
  unfold loadStall
  split <;> rfl

theorem Core.qw_getD (k : Core) (j : Fin 8) : k.qw.getD j 0 = k.qw[j] :=
  (Array.getElem_eq_getD (h := by rw [k.qw.size_toArray]; exact j.isLt) 0).symm

theorem State.readSpecial_watch (j : Fin 8) : s.readSpecial c (0x10 + j.val) = some (s, (s.core c).qw[j]) := by
  have hin : 0x10 ≤ 0x10 + j.val ∧ 0x10 + j.val < 0x18 := by omega
  unfold State.readSpecial
  dsimp only
  split
  case h_13 => rw [if_pos hin, Nat.add_sub_cancel_left, Core.qw_getD]
  all_goals omega

theorem State.readSpecial_reserved {n : Nat} (hlo : 0x0C ≤ n) (h : n < 0x10 ∨ 0x18 ≤ n) : s.readSpecial c n = none := by
  have hout : ¬(0x10 ≤ n ∧ n < 0x18) := by omega
  unfold State.readSpecial
  dsimp only
  split
  case h_13 => exact if_neg hout
  all_goals exact absurd hlo (by decide)

/-! ### mts -/

/-- The core with its writable special registers replaced. -/
def Core.special (k : Core) (psr epsr epc fvec splim evpend timer : Word) (qw : Vector Word 8) : Core :=
  { k with psr := psr, epsr := epsr, epc := epc, fvec := fvec, splim := splim, evpend := evpend, timer := timer, qw := qw }

/-- Special registers have been written, and the rest of the core stands (R146). -/
structure SpecialWritten (s t : State) (c : CoreId) (srcs : List Reg) (l : List Word) : Prop where
  specials : specials (t.core c) = l
  regs : KeepsRegs s t c
  pc : (t.core c).pc = (s.core c).pc + 4
  takes : Takes s t c srcs 1
  corrects : Corrects s t c [(s.core c).pc.toNat]
  memory : KeepsMemory s t c
  device : KeepsDevice s t c
  runs : RunsOn s t c

/-- mts makes the change f of the core: what f gives of the fetched core are the new special registers. -/
theorem execMts_writes (h : s.ready i = true) {ra : Reg} {n : BitVec 8} (f : Core → Core)
    {psr epsr epc fvec splim evpend timer : Word} {qw : Vector Word 8}
    (hwrite : (s.issued i.core [ra]).writeSpecial i.core n.toNat (s.reg i.core ra) = some ((s.issued i.core [ra]).onCore i.core f))
    (hf : let k := s.core i.core
      let l : Core := { k with memerr := k.fetchErr, cycle := k.cycle + loadStall k [ra], lastLoad := none }
      f l = l.special psr epsr epc fvec splim evpend timer qw) :
    ∃ t, exec (.mts i n ra) s = .next t ∧ SpecialWritten s t i.core [ra]
      ([psr, epsr, epc, (s.core i.core).fcause, (s.core i.core).faddr, fvec, splim, evpend, timer] ++ qw.toList) := by
  refine State.issue_next_left h
    (((s.core i.core).worked (s.core i.core).w psr ((s.core i.core).pc + 4)
        ((s.core i.core).cycle + loadStall (s.core i.core) [ra] + BitVec.ofNat 32 1)).special psr epsr epc fvec splim evpend
      timer qw)
    ?_ ⟨?_, keepsRegs_left, State.pc_left, takes_left, corrects_left, keepsMemory_left, keepsDevice_left,
      runsOn_left (State.executes_of_ready h)⟩
  · have hreg : (s.issued i.core [ra]).reg i.core ra = s.reg i.core ra := State.reg_issued ..
    rw [hreg, hwrite]
    unfold State.retire State.onCore
    dsimp only
    rw [State.core_setCore_self, State.setCore_setCore, State.core_issued, Core.fetched_eq, hf]
    rfl
  · rw [State.core_left]
    rfl

/-- A read-only register ignores the write (R146). -/
theorem execMts_ignored (h : s.ready i = true) {ra : Reg} {n : BitVec 8}
    (hwrite : (s.issued i.core [ra]).writeSpecial i.core n.toNat (s.reg i.core ra) = some (s.issued i.core [ra])) :
    ∃ t, exec (.mts i n ra) s = .next t ∧ SpecialWritten s t i.core [ra] (specials (s.core i.core)) :=
  execMts_writes h id (hwrite.trans (congrArg some (State.setCore_core_self _).symm)) rfl

theorem State.writeSpecial_watch (v : Word) (j : Fin 8) : s.writeSpecial c (0x10 + j.val) v =
    some (if queueReader c (v.toNat % 256) then
      s.onCore c (fun k => { k with qw := k.qw.setIfInBounds j (v &&& 0x800000FF) }) else s) := by
  have hin : 0x10 ≤ 0x10 + j.val ∧ 0x10 + j.val < 0x18 := by omega
  have hqueue : watchQueue v = v.toNat % 256 := bitsOf_low v (by decide)
  unfold State.writeSpecial
  dsimp only
  split
  case h_13 =>
    rw [if_pos hin, hqueue, Nat.add_sub_cancel_left]
    split <;> rfl
  all_goals omega

theorem State.writeSpecial_reserved {n : Nat} (v : Word) (hlo : 0x0C ≤ n) (h : n < 0x10 ∨ 0x18 ≤ n) :
    s.writeSpecial c n v = none := by
  have hout : ¬(0x10 ≤ n ∧ n < 0x18) := by omega
  unfold State.writeSpecial
  dsimp only
  split
  case h_13 => exact if_neg hout
  all_goals exact absurd hlo (by decide)

end Sys2Proof.Machine
end

open Sys2Proof Sys2Proof.Machine in
/-- Settles O18, from what a special register reads as and what a write makes of it. -/
theorem mfsAndMtsAccessSpecialRegisters : Obligations.MfsAndMtsAccessSpecialRegisters := by
  unfold Obligations.MfsAndMtsAccessSpecialRegisters
  refine ⟨?mfs, ?mts⟩
  case mfs =>
    intro s i rd n h c k err reads
    have hread : ∀ {v err' : Word}, (∃ t, exec (.mfs i rd n) s = .next t ∧ SpecialRead s t c rd v err') →
        err' = (if n = 0x0B then 0 else err) → reads v := by
      rintro v err' ⟨t, hnext, r⟩ herr
      exact ⟨t, hnext, r.writes, r.psr, r.pc, r.takes, r.specials, r.memerr.trans herr, r.memory, r.device, r.runs⟩
    have only : ∀ {v : Word}, (s.issued c []).readSpecial c n.toNat = some (s.issued c [], v) → n ≠ 0x0B → reads v :=
      fun hv hn => hread (execMfs_readsOnly h hv) (if_neg hn).symm
    have hcore := (State.core_issued (s := s) c []).trans (Core.fetched_eq k [])
    have field : ∀ f : Core → Word, (s.issued c []).readSpecial c n.toNat = some (s.issued c [], f ((s.issued c []).core c)) →
        n ≠ 0x0B → reads (f { k with memerr := k.fetchErr, cycle := k.cycle + loadStall k [], lastLoad := none }) :=
      fun f hv hn => only (hcore ▸ hv) hn
    refine ⟨?psr, ?epsr, ?epc, ?fcause, ?faddr, ?fvec, ?splim, ?evpend, ?timer, ?cycle, ?core, ?memerr, fun j hj => ?watch,
      fun hlo hn hout => State.issue_faults h hout (by rw [State.readSpecial_reserved hlo hn])⟩
    case psr => rintro rfl; exact field Core.psr rfl (by decide)
    case epsr => rintro rfl; exact field Core.epsr rfl (by decide)
    case epc => rintro rfl; exact field Core.epc rfl (by decide)
    case fcause => rintro rfl; exact field Core.fcause rfl (by decide)
    case faddr => rintro rfl; exact field Core.faddr rfl (by decide)
    case fvec => rintro rfl; exact field Core.fvec rfl (by decide)
    case splim => rintro rfl; exact field Core.splim rfl (by decide)
    case evpend => rintro rfl; exact only (congrArg (fun v => some (_, v)) (State.issued_evpend c [])) (by decide)
    case timer => rintro rfl; exact field Core.timer rfl (by decide)
    case cycle =>
      rintro rfl
      have hstall : k.cycle + loadStall k [] = k.cycle := (congrArg (k.cycle + ·) (loadStall_nil k)).trans (BitVec.add_zero _)
      exact hstall ▸ field Core.cycle rfl (by decide)
    case core => rintro rfl; exact only rfl (by decide)
    case memerr =>
      rintro rfl
      refine hread (execMfs_reads h (err := 0) (congrArg (fun v => some (_, v)) ?_)) rfl
      rw [hcore]
      rfl
    case watch =>
      have hlt := j.isLt
      have hv : (s.issued c []).readSpecial c n.toNat = some (s.issued c [], ((s.issued c []).core c).qw[j]) := by
        rw [hj, State.readSpecial_watch]
      exact field (fun l => l.qw[j]) hv (fun hn => by rw [hn] at hj; simp at hj; omega)
  case mts =>
    intro s i ra n h c k v becomes sp
    have hwritten : ∀ {l : List Word}, (∃ t, exec (.mts i n ra) s = .next t ∧ SpecialWritten s t c [ra] l) → becomes l := by
      rintro l ⟨t, hnext, w⟩
      exact ⟨t, hnext, w.specials, w.regs, w.pc, w.takes, w.corrects, w.memory, w.device, w.runs⟩
    refine ⟨?psr, ?epsr, ?epc, ?fvec, ?splim, ?evpend, ?timer, ?readOnly, fun j hj => ?watch,
      fun hlo hn hout => State.issue_faults h hout ?reserved⟩
    case psr =>
      rintro rfl
      exact hwritten (execMts_writes h (fun k => { k with psr := (v &&& 0xFF000000) ||| (k.psr &&& 1) }) rfl rfl)
    case epsr =>
      rintro rfl
      exact hwritten (execMts_writes h (fun k => { k with epsr := v &&& 0xFF000001 }) rfl rfl)
    case epc =>
      rintro rfl
      exact hwritten (execMts_writes h (fun k => { k with epc := v &&& 0xFFFFFFFC }) rfl rfl)
    case fvec =>
      rintro rfl
      exact hwritten (execMts_writes h (fun k => { k with fvec := v &&& 0xFFFFFFFC }) rfl rfl)
    case splim =>
      rintro rfl
      exact hwritten (execMts_writes h (fun k => { k with splim := v &&& 0xFFFFFFFC }) rfl rfl)
    case evpend =>
      rintro rfl
      exact hwritten (execMts_writes h (fun k => { k with evpend := k.evpend &&& ~~~v }) rfl rfl)
    case timer =>
      rintro rfl
      exact hwritten (execMts_writes h (fun k => { k with timer := v &&& 0x8FFFFFFF }) rfl rfl)
    case readOnly => rintro (rfl | rfl | rfl | rfl | rfl) <;> exact hwritten (execMts_ignored h rfl)
    case watch =>
      have hwrite := State.writeSpecial_watch (s := s.issued c [ra]) (c := c) v j
      rw [← hj] at hwrite
      split <;> rename_i hq
      · rw [if_pos hq] at hwrite
        have hset : sp.set (9 + j.val) (v &&& 0x800000FF) =
            [k.psr, k.epsr, k.epc, k.fcause, k.faddr, k.fvec, k.splim, k.evpend, k.timer] ++
              (k.qw.setIfInBounds j (v &&& 0x800000FF)).toList := by
          rw [Vector.toList_setIfInBounds]
          exact (List.set_append_right (9 + j.val) _ (Nat.le_add_right 9 _)).trans
            (congrArg (fun x => _ ++ k.qw.toList.set x _) (Nat.add_sub_cancel_left 9 _))
        rw [hset]
        exact hwritten (execMts_writes h _ hwrite rfl)
      · rw [if_neg hq] at hwrite
        exact hwritten (execMts_ignored h hwrite)
    case reserved =>
      have hreg : (s.issued c [ra]).reg c ra = v := State.reg_issued c [ra] ra
      rw [hreg, State.writeSpecial_reserved v hlo hn]

section
/-! O19: loads from own flash and own SRAM (R117, R131, R143). -/
namespace Sys2Proof.Machine

variable {s : State} {i : Issue} {c : CoreId}

/-! ### The bytes of own memory as numbers (R3) -/

theorem toNat_append_eq_add {n m : Nat} (x : BitVec n) (y : BitVec m) : (x ++ y).toNat = x.toNat * 2 ^ m + y.toNat := by
  rw [BitVec.toNat_append, ← Nat.shiftLeft_add_eq_or_of_lt y.isLt, Nat.shiftLeft_eq]

section Values

variable (k : Core) (a : Nat)

theorem Core.leValue_one : k.leValue a 1 = (k.byte a).toNat := by
  change (k.byte a).toNat + 256 * 0 = _
  omega

theorem Core.leValue_two : k.leValue a 2 = (k.byte (a + 1) ++ k.byte a).toNat := by
  change (k.byte a).toNat + 256 * ((k.byte (a + 1)).toNat + 256 * 0) = _
  rw [toNat_append_eq_add]
  omega

theorem Core.leValue_four : k.leValue a 4 = (k.byte (a + 3) ++ k.byte (a + 2) ++ k.byte (a + 1) ++ k.byte a).toNat := by
  change (k.byte a).toNat + 256 * ((k.byte (a + 1)).toNat + 256 * ((k.byte (a + 2)).toNat +
    256 * ((k.byte (a + 3)).toNat + 256 * 0))) = _
  simp only [toNat_append_eq_add]
  omega

end Values

/-- Own memory lies below every region of R33, so that any width of access is allowed there (R126). -/
theorem wordOnly_ownMemory {a : Nat} (h : inFlash c a = true ∨ inSram c a = true) : wordOnly a = false := by
  have hlow : a < 0x40000000 := by
    simp only [inFlash, inSram, decide_eq_true_eq] at h
    cases c <;> simp only [flashSize, sramSize, sramBase] at h <;> omega
  unfold wordOnly
  simp only [Bool.or_eq_false_iff, decide_eq_false_iff_not]
  omega

theorem misaligned_ownMemory {w : Word} {n : Nat} (h : inFlash c w.toNat = true ∨ inSram c w.toNat = true)
    (hal : w.toNat % n = 0) : misaligned w n = false := by
  unfold misaligned
  rw [wordOnly_ownMemory h, hal]
  rfl

/-! ### The load -/

/-- MEMERR once the fetched word and the word at an address are corrected (R131). -/
def Core.loadErr (k : Core) (a : Nat) : Word :=
  ([k.pc.toNat, a].foldl (fun l x => if l.isSingle x then l.countCorr x else l) k).memerr

/-- A correction after that of the fetched word. -/
theorem Core.loadErr_eq (k : Core) (a : Nat) (cycle : Word) (last : Option Reg) :
    (let l : Core := { k with memerr := k.fetchErr, cycle := cycle, lastLoad := last }
     if l.isSingle a then l.countCorr a else l) =
      { k with memerr := k.loadErr a, cycle := cycle, lastLoad := last } := by
  unfold Core.loadErr Core.fetchErr
  simp only [List.foldl_cons, List.foldl_nil]
  by_cases hp : k.isSingle k.pc.toNat = true <;> by_cases ha : k.isSingle a = true <;>
    simp_all [Core.isSingle, Core.countCorr]

/-- The cycles of a load of own memory (R143). -/
theorem loadCycles_eq (c : CoreId) (a : Nat) :
    loadCycles c a = if 0x20000000 ≤ a then 1 else match c with | .choir => 2 | .nave => 3 := by
  unfold loadCycles sramBase
  by_cases ha : a < 0x20000000
  · refine (if_pos ha).trans (Eq.trans ?_ (if_neg (by omega)).symm)
    cases c <;> rfl
  · exact (if_neg ha).trans (if_pos (by omega)).symm

/-- A value has been loaded from own memory into rd (R131, R143). -/
structure Loaded (s t : State) (c : CoreId) (rd ra : Reg) (a : Nat) (v : Word) : Prop where
  writes : Writes s t c rd v
  psr : (t.core c).psr = (s.core c).psr
  pc : (t.core c).pc = (s.core c).pc + 4
  takes : Takes s t c [ra] (loadCycles c a)
  lastLoad : (t.core c).lastLoad = if 0x20000000 ≤ a then some rd else none
  memory : KeepsMemory s t c
  saved : KeepsSaved s t c
  control : KeepsControl s t c
  evpend : (t.core c).evpend = (s.core c).evpend
  corrects : Corrects s t c [(s.core c).pc.toNat, a]
  device : KeepsDevice s t c
  runs : RunsOn s t c

/-- A read of own memory right after the issue: the word's correction is counted (R131). -/
theorem State.issued_readOwn {srcs : List Reg} {a : Nat} (n : Nat) (hdouble : (s.core c).isDouble a = false) :
    (s.issued c srcs).readOwn c a n = some ((s.issued c srcs).setCore c
      { s.core c with
        memerr := (s.core c).loadErr a, cycle := (s.core c).cycle + loadStall (s.core c) srcs, lastLoad := none },
      (s.core c).leValue a n) := by
  have hcore := (State.core_issued (s := s) c srcs).trans (Core.fetched_eq (s.core c) srcs)
  have hread : (s.issued c srcs).readOwn c a n = some ((s.issued c srcs).setCore c
      (let l := (s.issued c srcs).core c
       if l.isSingle a then l.countCorr a else l), (s.core c).leValue a n) := by
    unfold State.readOwn
    dsimp only
    rw [show ((s.issued c srcs).core c).isDouble a = false by rw [hcore]; exact hdouble,
      show ((s.issued c srcs).core c).leValue a n = (s.core c).leValue a n by rw [hcore]; rfl, if_neg (by decide)]
    split
    · rfl
    · rw [State.setCore_core_self]
  rw [hread, hcore, Core.loadErr_eq]

theorem State.issued_effective (srcs : List Reg) (ra : Reg) (off : BitVec 18) :
    (s.issued c srcs).effective c ra off = s.effective c ra off :=
  congrArg (· + sext18 off) (State.reg_issued c srcs ra)

theorem State.issued_belowLimit (srcs : List Reg) (ra : Reg) (w : Word) :
    (s.issued c srcs).belowLimit c ra w = s.belowLimit c ra w := by
  unfold State.belowLimit
  rw [State.core_issued, Core.fetched_eq]

theorem State.load_own (h : s.ready i = true) {rd ra : Reg} {off : BitVec 18} {n : Nat} (wide : Nat → Word) {w : Word}
    (hw : s.effective i.core ra off = w) (hown : inFlash i.core w.toNat = true ∨ inSram i.core w.toNat = true)
    (hstall : s.flashStall i.core w.toNat = false) (hdouble : (s.core i.core).isDouble w.toNat = false)
    (hlimit : s.belowLimit i.core ra w = false) (hal : w.toNat % n = 0) :
    ∃ t, (.next (s.load i rd ra off n wide) : Out) = .next t ∧
      Loaded s t i.core rd ra w.toNat (wide ((s.core i.core).leValue w.toNat n)) := by
  have hwait : s.loadWaits i ra off n = false := by
    unfold State.loadWaits
    dsimp only
    rw [hw, hstall, Bool.and_false]
  have hmem : (inFlash i.core w.toNat || inSram i.core w.toNat) = true := Bool.or_eq_true_iff.mpr hown
  unfold State.load
  rw [if_neg (Bool.eq_false_iff.mp hwait)]
  refine State.issue_next_left h
    { (s.core i.core).worked (putGeneral (s.core i.core).w rd (wide ((s.core i.core).leValue w.toNat n))) (s.core i.core).psr
        ((s.core i.core).pc + 4)
        ((s.core i.core).cycle + loadStall (s.core i.core) [ra] + BitVec.ofNat 32 (loadCycles i.core w.toNat)) with
      memerr := (s.core i.core).loadErr w.toNat
      lastLoad := if sramBase ≤ w.toNat then some rd else none }
    ?body ⟨writes_left, State.psr_left, State.pc_left, takes_left, ?last, keepsMemory_left, keepsSaved_left, keepsControl_left,
      ?evpend, ?corrects, keepsDevice_left, runsOn_left (State.executes_of_ready h)⟩
  case body =>
    dsimp only
    rw [State.issued_effective, hw, State.issued_belowLimit, misaligned_ownMemory hown hal, hlimit, hmem,
      State.issued_readOwn n hdouble]
    simp only [Bool.false_eq_true, if_false, if_true, State.setReg_eq, State.retire, State.onCore, State.core_setCore_self,
      State.setCore_setCore]
    split <;> rfl
  case last => rw [State.core_left]; rfl
  case evpend => rw [State.core_left]; rfl
  case corrects => unfold Corrects; rw [State.core_left]; rfl

end Sys2Proof.Machine
end

open Sys2Proof Sys2Proof.Machine in
/-- Settles O19, from the load of a word, a halfword or a byte of own memory. -/
theorem loadsReadOwnMemory : Obligations.LoadsReadOwnMemory := by
  unfold Obligations.LoadsReadOwnMemory
  intro s i rd ra off h c k w a hown hstall hdouble hlimit loads
  have hbelow : s.belowLimit c ra w = false := by
    unfold State.belowLimit
    rw [← Bool.decide_and]
    exact decide_eq_false hlimit
  have load : ∀ (n : Nat) (wide : Nat → Word) (v : Word), a % n = 0 → wide (k.leValue a n) = v →
      loads (.next (s.load i rd ra off n wide)) v := by
    rintro n wide v hal rfl
    obtain ⟨t, hnext, l⟩ := State.load_own h (rd := rd) wide rfl hown hstall hdouble hbelow hal
    exact ⟨t, hnext, l.writes, l.psr, l.pc, loadCycles_eq c a ▸ l.takes, l.lastLoad, l.memory, l.saved, l.control, l.evpend, l.corrects,
      l.device, l.runs⟩
  refine ⟨fun hal => load 4 _ _ hal ?word, fun hal => ⟨load 2 _ _ hal ?half, load 2 _ _ hal ?signedHalf⟩,
    load 1 _ _ (Nat.mod_one a) ?byte, load 1 _ _ (Nat.mod_one a) ?signedByte⟩
  case word => rw [Core.leValue_four, BitVec.ofNat_toNat, BitVec.setWidth_eq]
  case half => rw [Core.leValue_two, BitVec.ofNat_toNat]
  case signedHalf => rw [Core.leValue_two, BitVec.ofNat_toNat, BitVec.setWidth_eq]
  case byte => rw [Core.leValue_one, BitVec.ofNat_toNat]
  case signedByte => rw [Core.leValue_one, BitVec.ofNat_toNat, BitVec.setWidth_eq]

section
/-! O22: the faults of a load or store before any access (R125, R126, R130, R478). -/
namespace Sys2Proof.Machine

variable {s : State} {i : Issue} {ra : Reg} {off : BitVec 18} {n cause : Nat}

/-- The cause with which an access of n bytes through a base register faults before it is made: ALIGN, then STACK. -/
def FaultsAs (s : State) (c : CoreId) (ra : Reg) (w : Word) (n cause : Nat) : Prop :=
  if misaligned w n then cause = faultAlign else s.belowLimit c ra w = true ∧ cause = faultStack

/-- The faults of an access stand before all that it does otherwise. -/
theorem State.fault_of_faultsAs {c : CoreId} {w : Word} (hf : FaultsAs s c ra w n cause) (m other : State) :
    (if misaligned w n then m.fault c faultAlign w else if s.belowLimit c ra w then m.fault c faultStack w else other) =
      m.fault c cause w := by
  unfold FaultsAs at hf
  split at hf
  case isTrue hal => rw [if_pos hal, hf]
  case isFalse hal => rw [if_neg hal, if_pos hf.1, hf.2]

/-- A load that faults waits for no flash operation (R170). -/
theorem State.loadWaits_of_faultsAs (hf : FaultsAs s i.core ra (s.effective i.core ra off) n cause) :
    s.loadWaits i ra off n = false := by
  unfold FaultsAs at hf
  unfold State.loadWaits
  dsimp only
  split at hf
  case isTrue hal => rw [hal, Bool.not_true, Bool.and_false, Bool.false_and, Bool.false_and]
  case isFalse hal => rw [hf.1, Bool.not_true, Bool.and_false, Bool.false_and]

theorem State.load_faults (h : s.ready i = true) (hout : s.outsideHandler i.core = true)
    (hf : FaultsAs s i.core ra (s.effective i.core ra off) n cause) (rd : Reg) (wide : Nat → Word) :
    ∃ t, (.next (s.load i rd ra off n wide) : Out) = .next t ∧
      FaultEntered s t i.core [ra] cause (s.effective i.core ra off) := by
  unfold State.load
  rw [if_neg (Bool.eq_false_iff.mp (State.loadWaits_of_faultsAs hf))]
  refine State.issue_faults h hout ?_
  dsimp only
  rw [State.issued_effective, State.issued_belowLimit, State.fault_of_faultsAs hf]

theorem State.store_faults (h : s.ready i = true) (hout : s.outsideHandler i.core = true)
    (hf : FaultsAs s i.core ra (s.effective i.core ra off) n cause) (rs : Reg) :
    ∃ t, (.next (s.store i rs ra off n) : Out) = .next t ∧
      FaultEntered s t i.core [rs, ra] cause (s.effective i.core ra off) := by
  refine State.issue_faults h hout ?_
  dsimp only
  rw [State.issued_effective, State.issued_belowLimit, State.fault_of_faultsAs hf]

theorem wordOnly_iff (a : Nat) :
    wordOnly a = true ↔ (0x40000000 ≤ a ∧ a < 0x400C0000) ∨ (0x60000000 ≤ a ∧ a < 0x60040000) := by
  unfold wordOnly
  rw [Bool.or_eq_true, decide_eq_true_eq, decide_eq_true_eq]

theorem misaligned_iff (w : Word) (n : Nat) :
    misaligned w n = true ↔ w.toNat % n ≠ 0 ∨ wordOnly w.toNat = true ∧ n ≠ 4 := by
  unfold misaligned
  rw [Bool.or_eq_true, Bool.and_eq_true, decide_eq_true_eq, decide_eq_true_eq]

end Sys2Proof.Machine
end

open Sys2Proof Sys2Proof.Machine in
/-- Settles O22, from the order of the checks of an access and the fault that either check enters. -/
theorem misalignedAndStackAccessesFault : Obligations.MisalignedAndStackAccessesFault := by
  unfold Obligations.MisalignedAndStackAccessesFault
  intro s i r ra off h hout c w a device faults y hy
  have entered : ∀ {cause : Nat}, FaultsAs s c ra w y.2.1 cause → faults y.1 y.2.2 cause := by
    intro cause hf
    simp only [List.mem_cons, List.not_mem_nil, or_false] at hy
    rcases hy with rfl | rfl | rfl | rfl | rfl | rfl | rfl | rfl
    iterate 5 exact State.load_faults h hout hf r _
    iterate 3 exact State.store_faults h hout hf r
  have hal : misaligned w y.2.1 = true ↔ a % y.2.1 ≠ 0 ∨ (device ∧ y.2.1 ≠ 4) := by
    rw [misaligned_iff, wordOnly_iff]
  refine ⟨fun hbad => entered ?align, fun hmod hword hra hlow => entered ?stack⟩
  case align =>
    unfold FaultsAs
    rw [if_pos (hal.mpr hbad)]
  case stack =>
    unfold FaultsAs State.belowLimit
    rw [if_neg (hal.not.mpr (not_or.mpr ⟨not_not.mpr hmod, hword⟩)), hra, decide_eq_true hlow]
    exact ⟨rfl, rfl⟩

section
/-! O17: the deadline of an evwait and the armed timer (R136, R137). -/
namespace Sys2Proof.Machine

variable {s : State} {c : CoreId} {n : Nat}

/-! ### The ticks of a calm crypt -/

/-- n ticks pass at once where no edge and no core's act lies nearer. -/
theorem State.nextStop_of_far (hsub : s.timeSub + n < 32766) (hcore : ∀ d, ∀ k ∈ s.coreAhead d, n ≤ max 1 k) :
    s.nextStop n = n := by
  refine foldl_min_of_le fun k hk => ?_
  obtain ⟨j, hj, rfl⟩ := List.mem_map.mp hk
  simp only [List.mem_append, List.mem_singleton] at hj
  rcases hj with (rfl | hj) | hj
  · have hedge : s.edgeAhead = 32766 - s.timeSub := if_pos (by omega)
    omega
  · exact hcore .choir j hj
  · exact hcore .nave j hj

theorem wdogRuns_of_calm (h : calmBut s c) (d : CoreId) : s.wdogRuns d = false := by
  unfold State.wdogRuns
  rw [(h.2.2 d).1, Bool.false_and]

/-- The other core stays quiet whatever core c becomes. -/
theorem coreQuiet_of_calm (h : calmBut s c) {d : CoreId} (hd : d ≠ c) (k : Core) : ((s.ticked n).setCore c k).coreQuiet d := by
  unfold State.coreQuiet
  rw [State.core_setCore_ne _ _ hd, State.ticked_core]
  exact (h.2.2 d).2 hd

theorem State.ticked_setCore_self : (s.ticked n).setCore c (s.core c) = s.ticked n := by
  rw [← State.ticked_core n c, State.setCore_core_self]

/-- What the last of n ticks does in a calm crypt: core c's timer, then its deadline. -/
theorem State.passTo_of_calm (h : calmBut s c) (hn : n ≠ 0) (hsub : s.timeSub + n < 32766) {fired woken : Core}
    (hfire : (s.ticked n).fireTimer c = (s.ticked n).setCore c fired)
    (hwake : ((s.ticked n).setCore c fired).wakeDeadline c = (s.ticked n).setCore c woken) :
    s.passTo n = (s.ticked n).setCore c woken := by
  have htime : (s.ticked n).timeSub = s.timeSub + n := State.timeSub_ticked (by omega)
  have hself : s.ticked n = (s.ticked n).setCore c (s.core c) := State.ticked_setCore_self.symm
  have hquiet : ∀ d ≠ c, ∀ k, ((s.ticked n).setCore c k).coreQuiet d := fun d hd k => coreQuiet_of_calm h hd k
  have hfireOther : ∀ d ≠ c, ∀ k, ((s.ticked n).setCore c k).fireTimer d = (s.ticked n).setCore c k :=
    fun d hd k => State.fireTimer_of_quiet (hquiet d hd k)
  have hwakeOther : ∀ d ≠ c, ∀ k, ((s.ticked n).setCore c k).wakeDeadline d = (s.ticked n).setCore c k :=
    fun d hd k => State.wakeDeadline_of_quiet (hquiet d hd k)
  have hwdog : ∀ d, ((s.ticked n).setCore c woken).wdogTicks d n = (s.ticked n).setCore c woken := fun d => by
    refine State.wdogTicks_of_not_runs ?_ n
    unfold State.wdogRuns
    rw [show ((s.ticked n).setCore c woken).flag (SYS.WDOG_EN (coreNum d)) = s.flag (SYS.WDOG_EN (coreNum d)) by cases c <;> rfl,
      (h.2.2 d).1, Bool.false_and]
  unfold State.passTo State.each
  rw [State.moveTicks_of_empty h.2.1]
  dsimp only
  rw [if_neg (by omega), if_neg (by omega)]
  simp only [List.foldl_cons, List.foldl_nil]
  cases c with
  | choir =>
    rw [hfire, hfireOther .nave (by decide), hwake, hwakeOther .nave (by decide), hwdog, hwdog]
  | nave =>
    have hchoir : (s.ticked n).fireTimer .choir = s.ticked n := by
      rw [hself, hfireOther .choir (by decide)]
    rw [hchoir, hfire, hwakeOther .choir (by decide), hwake, hwdog, hwdog]

/-- In a calm crypt, n ticks pass at once where core c acts at none before the last. -/
theorem State.advance_of_far (h : calmBut s c) (hn : n ≠ 0) (hsub : s.timeSub + n < 32766)
    (hahead : ∀ k ∈ s.coreAhead c, n ≤ max 1 k) : s.advance n = s.passTo n := by
  refine State.advance_eq_passTo h.1 hn (State.nextStop_of_far hsub fun d k hk => ?_)
  by_cases hd : d = c
  · exact hahead k (hd ▸ hk)
  · rw [State.coreAhead_of_quiet ((h.2.2 d).2 hd), wdogRuns_of_calm h] at hk
    exact absurd hk List.not_mem_nil

/-! ### The deadline of an evwait (R136) -/

/-- A core that a deadline has woken: rd reads 0, and its evwait has retired in 3 cycles. -/
def Core.timedOut (k : Core) (rd : Reg) : Core :=
  { k with run := .running, w := putGeneral k.w rd 0, pc := k.pc + 4, cycle := k.cycle + 3 }

theorem Core.reg_timedOut (k : Core) (rd q : Reg) : (k.timedOut rd).reg q = if q = rd ∧ rd ≠ 0 then 0 else k.reg q := by
  have hset : (k.timedOut rd).reg q = (k.setReg rd 0).reg q := by
    rw [Core.setReg_eq]
    rfl
  rw [hset, Core.reg_setReg]

section Deadline

variable {rd : Reg} {m : Word} {d : BitVec 40}

theorem State.wakeDeadline_due (hrun : (s.core c).run = .asleep rd m (some d)) (hlive : (s.core c).halted = false)
    (hhit : s.evpend c &&& m = 0) (hd : d ≤ s.crypt.ticks) : s.wakeDeadline c = s.setCore c ((s.core c).timedOut rd) := by
  have hwake : s.wake c = s := by
    unfold State.wake
    rw [hrun]
    exact if_pos (.inl hhit)
  have hset : s.setRun c .running = s.setCore c { s.core c with run := .running } := by
    unfold State.setRun
    exact if_pos (by rw [hrun]; rfl)
  unfold State.wakeDeadline
  rw [hwake]
  dsimp only
  rw [hrun]
  dsimp only
  rw [hset, if_pos ⟨hd, by rw [hlive]; rfl⟩]
  unfold State.retire State.setReg State.onCore
  simp only [State.core_setCore_self, State.setCore_setCore, Core.setReg_eq]
  rfl

theorem State.fireTimer_of_disarmed (h : (s.core c).timer.getLsbD 31 = false) : s.fireTimer c = s := by
  have hdue : timerDue (s.core c).timer s.crypt.ticks = false := by
    unfold timerDue
    rw [bitsOf_bit _ _ (by decide), h]
    rfl
  unfold State.fireTimer
  dsimp only
  rw [hdue, Bool.and_false]
  rfl

theorem State.ticked_zero : s.ticked 0 = s := by
  have hticks : s.crypt.ticks + BitVec.ofNat 40 0 = s.crypt.ticks := BitVec.add_zero _
  unfold State.ticked State.onCrypt
  dsimp only
  rw [hticks]

theorem State.watchBits_ticked : (s.ticked n).watchBits c = s.watchBits c := by
  unfold State.watchBits
  rw [State.ticked_core]
  rfl

theorem State.evpend_ticked : (s.ticked n).evpend c = s.evpend c := by
  unfold State.evpend
  rw [State.watchBits_ticked, State.ticked_core]

/-- A sleeping core with no timer and no watchdog waits for its deadline alone. -/
theorem State.coreAhead_of_asleep (h : calmBut s c) (hrun : (s.core c).run = .asleep rd m (some d))
    (hlive : (s.core c).halted = false) (htimer : (s.core c).timer.getLsbD 31 = false) :
    s.coreAhead c = [d.toNat - s.crypt.ticks.toNat] := by
  unfold State.coreAhead
  dsimp only
  rw [hrun, hlive, (h.2.2 c).1, bitsOf_bit _ _ (by decide), htimer]
  rfl

/-- The ticks up to the deadline pass, if any, and wake the core. -/
theorem execEvwaitTimeout_eq (h : calmBut s c) (hrun : (s.core c).run = .asleep rd m (some d))
    (hlive : (s.core c).halted = false) (htimer : (s.core c).timer.getLsbD 31 = false) (hhit : s.evpend c &&& m = 0)
    (hd : s.crypt.ticks ≤ d) (hsub : s.timeSub + (d.toNat - s.crypt.ticks.toNat) < 32766) :
    execEvwaitTimeout c s = .next ((s.ticked (d.toNat - s.crypt.ticks.toNat)).setCore c ((s.core c).timedOut rd)) := by
  have hle : s.crypt.ticks.toNat ≤ d.toNat := hd
  unfold execEvwaitTimeout
  rw [hrun]
  dsimp only
  by_cases hlt : s.crypt.ticks < d
  case neg =>
    have heq : s.crypt.ticks = d := BitVec.le_antisymm hd (BitVec.not_lt.mp hlt)
    rw [if_neg hlt, State.wakeDeadline_due hrun hlive hhit (heq ▸ BitVec.le_refl _), heq, Nat.sub_self, State.ticked_zero]
  case pos =>
    have hpos : d.toNat - s.crypt.ticks.toNat ≠ 0 := Nat.sub_ne_zero_of_lt hlt
    generalize hn : d.toNat - s.crypt.ticks.toNat = n at *
    have hahead : s.coreAhead c = [n] := hn ▸ State.coreAhead_of_asleep h hrun hlive htimer
    have hreach : d ≤ (s.ticked n).crypt.ticks := by
      change d.toNat ≤ (s.crypt.ticks + BitVec.ofNat 40 n).toNat
      rw [BitVec.toNat_add, BitVec.toNat_ofNat]
      omega
    have hfire : (s.ticked n).fireTimer c = (s.ticked n).setCore c (s.core c) := by
      rw [State.fireTimer_of_disarmed (by rw [State.ticked_core]; exact htimer), State.ticked_setCore_self]
    have hwake : ((s.ticked n).setCore c (s.core c)).wakeDeadline c = (s.ticked n).setCore c ((s.core c).timedOut rd) := by
      rw [State.ticked_setCore_self, State.wakeDeadline_due (by rw [State.ticked_core]; exact hrun)
        (by rw [State.ticked_core]; exact hlive) (by rw [State.evpend_ticked]; exact hhit) hreach, State.ticked_core]
    rw [if_pos hlt, State.advance_of_far h hpos hsub (by rw [hahead]; exact List.forall_mem_singleton.mpr (Nat.le_max_right ..)),
      State.passTo_of_calm h hpos hsub hfire hwake]

end Deadline

/-! ### The armed timer (R137) -/

/-- A core whose timer has raised event 0 and is disarmed. -/
def Core.timerFired (k : Core) : Core := { k with timer := k.timer &&& 0x7FFFFFFF, evpend := k.evpend ||| 1 }

theorem bitsPut_top_clear (w : Word) : bitsPut w 31 31 0 = w &&& 0x7FFFFFFF := by
  have hmask : ∀ i < 32, (0x7FFFFFFF : Word).getLsbD i = !decide (31 ≤ i ∧ i ≤ 31) := by decide
  refine BitVec.eq_of_getLsbD_eq fun i hi => ?_
  rw [bitsPut_getLsbD _ _ _ hi (le_refl 31), BitVec.getLsbD_and, hmask i hi]
  split
  case isTrue h => rw [Nat.zero_testBit, decide_eq_true h, Bool.not_true, Bool.and_false]
  case isFalse h => rw [decide_eq_false h, Bool.not_false, Bool.and_true]

theorem State.fireTimer_due (hrun : (s.core c).run = .running) (hdue : timerDue (s.core c).timer s.crypt.ticks = true) :
    s.fireTimer c = s.setCore c (s.core c).timerFired := by
  unfold State.fireTimer State.recvEvent State.wake State.onCore
  simp only [hdue, hrun, ne_eq, reduceCtorEq, not_false_eq_true, decide_true, Bool.and_self, if_true, State.core_setCore_self,
    State.setCore_setCore, show (0 < 12) by decide, bitsPut_top_clear, Core.timerFired]
  rfl

theorem State.wakeDeadline_of_running (hrun : (s.core c).run = .running) : s.wakeDeadline c = s := by
  unfold State.wakeDeadline State.wake
  simp only [hrun]

theorem timerAhead_eq (timer : Word) (ticks : Nat) :
    timerAhead timer (ticks % 2 ^ 28) =
      let d := (timer.toNat % 2 ^ 28 + 2 ^ 28 - ticks % 2 ^ 28) % 2 ^ 28
      if d = 0 ∨ 2 ^ 27 < d then 1 else d := by
  unfold timerAhead
  rw [bitsOf_low _ (by decide), ← Nat.add_sub_assoc (Nat.mod_lt _ (by decide)).le]

/-- The timer is due when the ticks ahead of it have passed. -/
theorem timerDue_ahead {timer : Word} (harmed : timer.getLsbD 31 = true) (ticks : BitVec 40) :
    timerDue timer (ticks + BitVec.ofNat 40 (timerAhead timer (ticks.toNat % 2 ^ 28))) = true := by
  have hn : ∀ n, n = timerAhead timer (ticks.toNat % 2 ^ 28) →
      (let d := (timer.toNat % 2 ^ 28 + (2 ^ 28 - (ticks.toNat + n % 2 ^ 40) % 2 ^ 40 % 2 ^ 28)) % 2 ^ 28
       d = 0 ∨ 2 ^ 27 ≤ d) := by
    rintro n hn
    rw [timerAhead_eq] at hn
    dsimp only at hn ⊢
    split at hn <;> omega
  unfold timerDue
  rw [bitsOf_bit _ _ (by decide), harmed, bitsOf_low _ (by decide), BitVec.toNat_add, BitVec.toNat_ofNat]
  refine Bool.and_eq_true_iff.mpr ⟨rfl, ?_⟩
  dsimp only
  rw [Bool.or_eq_true, decide_eq_true_eq, decide_eq_true_eq]
  exact hn _ rfl

/-- A running core with no watchdog waits for its armed timer alone. -/
theorem State.coreAhead_of_armed (h : calmBut s c) (hrun : (s.core c).run = .running)
    (harmed : (s.core c).timer.getLsbD 31 = true) : s.coreAhead c = [timerAhead (s.core c).timer s.stamp] := by
  unfold State.coreAhead
  dsimp only
  rw [hrun, (h.2.2 c).1, bitsOf_bit _ _ (by decide), harmed]
  rfl

theorem timerAhead_ne_zero (timer : Word) (stamp : Nat) : timerAhead timer stamp ≠ 0 := by
  unfold timerAhead
  dsimp only
  split <;> omega

/-- The ticks up to TIMER.AT pass, and the timer fires. -/
theorem execTimerExpiry_eq (h : calmBut s c) (hrun : (s.core c).run = .running) (harmed : (s.core c).timer.getLsbD 31 = true)
    (hsub : s.timeSub + timerAhead (s.core c).timer s.stamp < 32766) :
    execTimerExpiry c s = .next ((s.ticked (timerAhead (s.core c).timer s.stamp)).setCore c (s.core c).timerFired) := by
  have hahead := State.coreAhead_of_armed h hrun harmed
  have hdue := timerDue_ahead harmed s.crypt.ticks
  have hpos := timerAhead_ne_zero (s.core c).timer s.stamp
  have harm : bitsOf (s.core c).timer 31 31 = 1 ∧ (s.core c).run ≠ .off := by
    rw [bitsOf_bit _ _ (by decide), harmed, hrun]
    exact ⟨rfl, by decide⟩
  have hfire : (s.ticked (timerAhead (s.core c).timer s.stamp)).fireTimer c =
      (s.ticked (timerAhead (s.core c).timer s.stamp)).setCore c (s.core c).timerFired := by
    rw [State.fireTimer_due (by rw [State.ticked_core]; exact hrun) (by rw [State.ticked_core]; exact hdue), State.ticked_core]
  have hwake := State.wakeDeadline_of_running (s := (s.ticked (timerAhead (s.core c).timer s.stamp)).setCore c (s.core c).timerFired)
    (c := c) (by rw [State.core_setCore_self]; exact hrun)
  unfold execTimerExpiry
  dsimp only
  rw [if_pos harm, State.advance_of_far h hpos hsub (by rw [hahead]; exact List.forall_mem_singleton.mpr (Nat.le_max_right ..)),
    State.passTo_of_calm h hpos hsub hfire hwake]

/-! ### What the ticks leave -/

theorem crypt_ticked (k : Core) :
    ((s.ticked n).setCore c k).crypt = { s.crypt with ticks := s.crypt.ticks + BitVec.ofNat 40 n } := by
  rw [State.setCore_crypt]
  rfl

theorem regs_ticked (k : Core) : ((s.ticked n).setCore c k).regs = s.regs := by cases c <;> rfl

theorem wires_ticked (k : Core) : ((s.ticked n).setCore c k).wires = s.wires := by cases c <;> rfl

end Sys2Proof.Machine
end

open Sys2Proof Sys2Proof.Machine in
/-- Settles O17: in a calm crypt the ticks pass at once, and the last of them wakes the core or fires its timer. -/
theorem deadlineWakesAndTimerRaisesEvent : Obligations.DeadlineWakesAndTimerRaisesEvent := by
  unfold Obligations.DeadlineWakesAndTimerRaisesEvent
  intro s c h
  refine ⟨fun rd m d hrun hlive htimer hhit hd hsub => ?deadline, fun hrun harmed => ?timer⟩
  case deadline =>
    refine ⟨_, execEvwaitTimeout_eq h hrun hlive htimer hhit hd hsub, ?ticks, ?writes, ?_⟩
    case ticks =>
      have hle : s.crypt.ticks.toNat ≤ d.toNat := hd
      have hsum : s.crypt.ticks + BitVec.ofNat 40 (d.toNat - s.crypt.ticks.toNat) = d := by bv_omega
      rw [crypt_ticked, hsum]
    case writes =>
      intro q
      unfold State.reg
      rw [State.core_setCore_self]
      exact Core.reg_timedOut _ rd q
    unfold KeepsMemory KeepsSaved KeepsControl
    rw [State.core_setCore_self, regs_ticked, wires_ticked]
    exact ⟨rfl, rfl, rfl, rfl, ⟨fun _ => rfl, rfl, rfl⟩, ⟨rfl, rfl, rfl, rfl⟩, ⟨rfl, rfl, rfl, rfl⟩, rfl, rfl⟩
  case timer =>
    intro d n hsub
    have hn : timerAhead (s.core c).timer s.stamp = n := timerAhead_eq _ _
    refine ⟨_, execTimerExpiry_eq h hrun harmed (hn ▸ hsub), hn ▸ crypt_ticked _, ?_⟩
    unfold KeepsRegs KeepsMemory KeepsSaved State.reg
    rw [State.core_setCore_self, regs_ticked, wires_ticked]
    exact ⟨rfl, rfl, fun _ => rfl, rfl, rfl, ⟨fun _ => rfl, rfl, rfl⟩, ⟨rfl, rfl, rfl, rfl⟩, rfl, rfl⟩

section
/-! O21 fails: a state whose memory is in no canonical form (`Core.memWf`), and a push over its doubled entry. Storing the
default of an address drops one entry of it, and the byte then reads the second. -/
namespace Sys2Proof.Machine

/-- A running choir core whose memory lists one address twice, and whose w15 stands one word above it. -/
def doubledEntry : State :=
  (Tests.ran .choir (fun k => { k with mem := [(0x20000FFC, 5), (0x20000FFC, 5)] })).setReg .choir 15 0x20001000

/-- The state after the push of w1, which holds 0. -/
def doubledEntryPushed : State := Tests.after (exec (.push Tests.onChoir 0x0002) doubledEntry)

theorem doubledEntry_ready : doubledEntry.ready Tests.onChoir = true := by decide

theorem exec_push_doubledEntry : exec (.push Tests.onChoir 0x0002) doubledEntry = .next doubledEntryPushed := rfl

/-- The byte that the push stores 0 into still reads 5. -/
theorem byte_doubledEntryPushed : (doubledEntryPushed.core .choir).byte 0x20000FFC = 5 := rfl

theorem stackRange_doubledEntry : stackRange doubledEntry .choir 0x20000FFC 1 := by
  refine ⟨by decide, fun j hj => ?_⟩
  obtain rfl : j = 0 := by omega
  exact ⟨by decide, by decide⟩

end Sys2Proof.Machine
end

open Sys2Proof Sys2Proof.Machine in
/-- Refutes O21: it takes every state, and where a memory in no canonical form lists an address twice, the push of a register
that holds 0 leaves the second entry of that address, here a byte that still reads 5. -/
theorem not_pushAndPopMoveTheMaskedRegisters : ¬ Obligations.PushAndPopMoveTheMaskedRegisters := by
  unfold Obligations.PushAndPopMoveTheMaskedRegisters
  rintro ⟨push, -⟩
  obtain ⟨t, hnext, hstored, -⟩ :=
    push doubledEntry Tests.onChoir 0x0002 doubledEntry_ready (by decide) (by decide) stackRange_doubledEntry
  obtain rfl : doubledEntryPushed = t := Host.Outcome.next.inj (exec_push_doubledEntry.symm.trans hnext)
  have hlow := congrArg (BitVec.setWidth 8) (hstored 1 (by decide) (by decide))
  rw [BitVec.setWidth_append, dif_pos (le_refl 8), BitVec.setWidth_eq] at hlow
  have hzero : (5 : Octet) = BitVec.setWidth 8 (doubledEntry.reg .choir 1) := byte_doubledEntryPushed.symm.trans hlow
  exact absurd hzero (by decide)
